-- ==== Sys2Proof/Word.lean ====
section
/-! DEFINITION. The word types: a byte, a 32-bit register or lane word, and a 128-bit bundle. -/

namespace Sys2Proof

/-- A byte. -/
abbrev Byte := BitVec 8

/-- A 32-bit word: a register, a lane of a vector register, a scalar register. -/
abbrev Word := BitVec 32

end Sys2Proof
end

