-- ==== Sys2Proof/Syntax.lean ====
section
/-! DEFINITION. The commands: one constructor of `Instr` for each row of spec/opcode_table.json, with the operands that
the row's event carries, and the plain data types of those operands. -/

namespace Sys2Proof

/-- A source of register accesses, R424. -/
inductive Agent where
  /-- an open BHP session: port and session number -/
  | session (port sess : Nat)
  /-- the management processor -/
  | soholt
  /-- debug access, while JTAG is active -/
  | debug
  /-- the counter collector -/
  | collector
  deriving DecidableEq, Repr

/-- A BHP message, Table 10-2, with the endpoint it came from: host port, sub-port (0 A, 1 B), IP address (IPv6 or not), UDP
port, Ethernet source address and VLAN tag, and where it was sent: Ethernet address, IP address and UDP port. An IP address is laid out
as in S_ADDR and IP6_ADDR, its first word in bits [31:0]. `payload` is in transmission order. -/
structure Machine.Msg where
  port    : Nat
  sub     : Nat
  v6      : Bool
  addr    : Nat
  udp     : Nat
  mac     : Nat
  vlan    : Nat
  dmac    : Nat
  dip     : Nat
  dport   : Nat
  ver     : Nat
  typ     : Nat
  session : Nat
  len     : Nat
  seq     : Nat
  ack     : Nat
  sack    : Nat
  window  : Nat
  resv    : Nat
  argA    : Nat
  argB    : Nat
  bcrc    : Nat
  payload : List Byte
  deriving DecidableEq, Repr

/-- A packet of a circuit, Table 8-4: header words 0 to 6 and, for data packets, the payload and the trailer block of a sealed one.
Word 7, the LCRC, belongs to the link. -/
structure Machine.Packet where
  words : List Nat
  body  : List Byte
  deriving DecidableEq, Repr

/-- One lane's codeword as it arrives, R177, Table 7-2: its symbols in error as (symbol, pattern), and what was sent: the 608 bytes of
its 19 blocks, and the trailer words. -/
structure Machine.LaneWord where
  errs    : List (Nat × Nat)
  blocks  : List Byte
  trailer : List Nat
  deriving DecidableEq, Repr

/-- What an ARP, neighbour or echo request brings, R275: its kind (0 ARP, 1 neighbour solicitation, 2 ICMP echo, 3 ICMPv6 echo), the
address asked for, and the requester's Ethernet address, VLAN tag and IP address. -/
structure Machine.Ask where
  kind  : Nat
  asked : Nat
  mac   : Nat
  vlan  : Nat
  ip    : Nat
  deriving DecidableEq, Repr

/-- Whose packet a bridge flit carries: its context, and for a packet of a forwarding circuit the circuit's entry and side. -/
structure Machine.FlitOwner where
  ctx : Option Nat
  cir : Option (Nat × Nat)
  deriving DecidableEq, Repr

/-- Who makes a landing write: a collective slot, a BULK transfer or Starch. -/
inductive Machine.Writer where
  | coll (die slot : Nat)
  | bulk (port sess xid : Nat)
  | starch
  deriving DecidableEq, Repr

/-- The commands: one constructor for each row. Operands: `ag` the agent of a register access; `c` a context; `t` a physical tile, or a
transaction; `st` a stack; `k` a port or the place in a list; `e` a circuit entry or the far end of a bridge; `d` a die or its collective
engine; `n` a slot, a session or a hot spot; `ix` a supply, a slab or a sensor; `p` a host port or a partition; `l` a recovery lane; `g` a stage group; `w` a word, `v` a
written value. -/
inductive Instr where
  /-- REGISTER_WRITE, R8: A write to a register that has no behaviour of its own applies or is discarded field by field under its
  access types. -/
  | registerWrite (ag : Agent) (addr : Nat) (data : Nat)
  /-- FLT_CLEAR, R369: A W1C write to FLT_STAT acknowledges fault occurrences; a bit set by hardware in the same cycle stays set.
  -/
  | fltClear (ag : Agent) (page : Nat) (v : Nat)
  /-- COUNTER_LATCH, R427: A read of the low word of a 64-bit pair latches the high word for the same agent's next read. -/
  | counterLatch (ag : Agent) (addr : Nat)
  /-- POWER_ON_RESET_END, R397: The later of PORST_N rising and the last supply becoming good ends the power-on reset and starts
  cold bring-up. -/
  | powerOnResetEnd (straps : Nat)
  /-- SUPPLY_GOOD, R393: A supply that has stayed in range for 10 ms becomes good; when all three are good the safe state may end.
  -/
  | supplyGood (ix : Nat)
  /-- SUPPLY_FAULT, R395: VIN12 or VIO18 leaving its range after power-on reset raises the fatal SUPPLY_FAULT and halts the
  package. -/
  | supplyFault (ix : Nat)
  /-- CLOCK_LOST, R297: Loss of REFCLK or root lock fails phase HUB before lock, or raises the fatal CLOCK_LOST after it. -/
  | clockLost (root : Bool)
  /-- TARGET, R399: A write of TARGET sets the bring-up phase to reach; values below PHASE are discarded. -/
  | target (ag : Agent) (v : Nat)
  /-- PHASE_END, R399: A bring-up phase finishes its work and the next phase starts while PHASE is below TARGET. -/
  | phaseEnd (fail : Nat) (bad : List (Nat × Nat))
  /-- BEGIN, R410: An agent opens a partition or package configuration transaction. -/
  | begin (ag : Agent) (scope : Nat)
  /-- COMMIT, R412: The transaction's shadow is checked in one KCLK cycle against every rule and, if it passes, prepared for
  application. -/
  | commit (ag : Agent)
  /-- APPLY, R412: After preparation every shadowed field takes its new value in one KCLK cycle. -/
  | apply (t : Nat)
  /-- ROLLBACK, R414: The owner discards its open transaction's shadow. -/
  | rollback (ag : Agent)
  /-- TXN_TMO, R414: An open transaction with no write for TXN_TMO is rolled back. -/
  | txnTmo (t : Nat)
  /-- PD_REQ, R326: A write of PD_REQ requests power domains on or off; refused requests set PD_REF and raise PD_REFUSED. -/
  | pdReq (ag : Agent) (w : Nat) (v : Nat)
  /-- PD_SWITCH_DONE, R326: A power domain reaches on or off after its switching time. -/
  | pdSwitchDone (d : Nat)
  /-- STEP, R32: Dispatch of a STEP command accepts the step, or refuses it, and sets STEP_BUSY. -/
  | step (c : Nat) (long : Bool)
  /-- STEP_COMPLETE, R37: When all stages, collectives and Starch updates of the step are done, STEP_NUM increments and a record is
  written. -/
  | stepComplete (c : Nat)
  /-- MARK, R286: Dispatch of a MARK command writes a completion record at once. -/
  | mark (c : Nat)
  /-- COLL, R286: Dispatch of a COLL command hands its descriptor to the named collective engine, where it waits for a slot. -/
  | coll (c : Nat)
  /-- DISPATCH, R285: The head command of a context queue is dispatched once its waiting conditions hold. -/
  | dispatch (c : Nat) (long : Bool)
  /-- PXISSUE, R48: The Finisher issues a Press command descriptor, which is accepted or refused. -/
  | pxissue (t : Nat)
  /-- PRESS_COMMAND_COMPLETE, R68: A Press command's drain ends and PX_LAST, PX_COUNTS and flags update with its outputs readable.
  -/
  | pressCommandComplete (t : Nat)
  /-- PXWAIT, R75: The Finisher waits until the Press holds at most a given number of commands. -/
  | pxwait (t : Nat)
  /-- VADD, R73: Vector add in FP32, BF16 or I32. -/
  | vadd (t : Nat)
  /-- VSUB, R73: Vector subtract. -/
  | vsub (t : Nat)
  /-- VMUL, R73: Vector multiply. -/
  | vmul (t : Nat)
  /-- VFMA, R73: Vector fused multiply-add, rounded once. -/
  | vfma (t : Nat)
  /-- VMAX, R73: Lane-wise maximum. -/
  | vmax (t : Nat)
  /-- VMIN, R73: Lane-wise minimum. -/
  | vmin (t : Nat)
  /-- VABS, R73: Lane-wise absolute value. -/
  | vabs (t : Nat)
  /-- VNEG, R73: Lane-wise negation. -/
  | vneg (t : Nat)
  /-- VCMP, R77: Lane-wise comparison written to a mask register. -/
  | vcmp (t : Nat)
  /-- VSEL, R77: Lane-wise select under a mask. -/
  | vsel (t : Nat)
  /-- VBCAST, R77: Broadcast of a scalar register to every lane. -/
  | vbcast (t : Nat)
  /-- VRSUM, R76: Fixed-tree sum of all lanes written to every lane. -/
  | vrsum (t : Nat)
  /-- VRMAX, R76: Largest lane written to every lane. -/
  | vrmax (t : Nat)
  /-- VPERM, R77: Lane permutation. -/
  | vperm (t : Nat)
  /-- VCURVE, R79: Evaluation of a curve table at each lane. -/
  | vcurve (t : Nat)
  /-- VEXP2, R80: Base-2 exponential by range reduction and curve. -/
  | vexp2 (t : Nat)
  /-- VLOG2, R80: Base-2 logarithm by range reduction and curve. -/
  | vlog2 (t : Nat)
  /-- VRCP, R80: Reciprocal by range reduction and curve. -/
  | vrcp (t : Nat)
  /-- VRSQRT, R80: Reciprocal square root by range reduction and curve. -/
  | vrsqrt (t : Nat)
  /-- VCVT, R451: Conversion of FP32 lanes to a format entry, optionally in MX form, reporting FP_SAT and FP_NAN. -/
  | vcvt (t : Nat)
  /-- VUNP, R77: Decode of a format entry to FP32, optionally applying E8M0 scales. -/
  | vunp (t : Nat)
  /-- VAND, R77: Bitwise and. -/
  | vand (t : Nat)
  /-- VOR, R77: Bitwise or. -/
  | vor (t : Nat)
  /-- VXOR, R77: Bitwise exclusive or. -/
  | vxor (t : Nat)
  /-- VSHL, R77: Shift left. -/
  | vshl (t : Nat)
  /-- VSHR, R77: Logical shift right. -/
  | vshr (t : Nat)
  /-- VSRA, R77: Arithmetic shift right. -/
  | vsra (t : Nat)
  /-- VITOF, R73: Signed integer to FP32 with RNE. -/
  | vitof (t : Nat)
  /-- VFTOI, R73: FP32 to saturating signed integer. -/
  | vftoi (t : Nat)
  /-- VMOV, R77: Vector move. -/
  | vmov (t : Nat)
  /-- VLD, R100: Load of a vector register from Pantry, raising PANTRY_RANGE outside the allocation. -/
  | vld (t : Nat)
  /-- VST, R100: Store of a vector register to Pantry. -/
  | vst (t : Nat)
  /-- FETCH, R153: Start of a Larder–Pantry transfer, optionally converting and tag-checked. -/
  | fetch (t : Nat)
  /-- FETCH_COMPLETE, R153: Every granule of a FETCH has been written and its peg is posted. -/
  | fetchComplete (t : Nat) (k : Nat)
  /-- FOLD, R154: Start of a gradient-fold transfer of a tile's partial, opening or joining a fold slot. -/
  | fold (t : Nat)
  /-- FOLD_MARK, R156: A member's completion mark, released at its boundary, adds its partial in turn. -/
  | foldMark (k : Nat)
  /-- FOLD_COMPLETE, R157: When all partials are added the sum is converted, written, FDONE set and the slot freed. -/
  | foldComplete (st : Nat) (n : Nat)
  /-- SEND, R112: Start of a hand-off send of slabs into the consumer's receive queue slots. -/
  | send (t : Nat)
  /-- SLAB_WRITE, R113: The consumer's router checks and writes an arriving slab, or refuses it. -/
  | slabWrite (t : Nat) (k : Nat) (ix : Nat)
  /-- SEND_COMPLETE, R114: A SEND completes when every byte is written and its acknowledgement reaches the producer. -/
  | sendComplete (t : Nat) (k : Nat)
  /-- PTAKE, R82: Take from a peg, waiting until its count suffices. -/
  | ptake (t : Nat)
  /-- PWAIT, R82: Wait until a peg reaches a value. -/
  | pwait (t : Nat)
  /-- PEG_WAIT_END, R82: A waiting PTAKE or PWAIT finds the count sufficient and proceeds. -/
  | pegWaitEnd (t : Nat)
  /-- PPOST, R83: Post an amount to a peg of this tile. -/
  | ppost (t : Nat)
  /-- PPOSTR, R83: Post to a peg of another tile, deferred to this stage's boundary. -/
  | ppostr (t : Nat)
  /-- XWAIT, R89: Wait until every FETCH, FOLD and SEND of the stage has completed. -/
  | xwait (t : Nat)
  /-- SADD, R77: Scalar add immediate. -/
  | sadd (t : Nat)
  /-- SADDR, R77: Scalar register add. -/
  | saddr (t : Nat)
  /-- SSUBR, R77: Scalar register subtract. -/
  | ssubr (t : Nat)
  /-- SMULR, R77: Scalar register multiply. -/
  | smulr (t : Nat)
  /-- SANDR, R77: Scalar register and. -/
  | sandr (t : Nat)
  /-- SORR, R77: Scalar register or. -/
  | sorr (t : Nat)
  /-- SSHL, R77: Scalar logical shift left. -/
  | sshl (t : Nat)
  /-- SSHR, R77: Scalar logical shift right. -/
  | sshr (t : Nat)
  /-- SLI, R77: Load immediate. -/
  | sli (t : Nat)
  /-- SLUI, R77: Load upper immediate. -/
  | slui (t : Nat)
  /-- VTOS, R77: Copy a vector lane to a scalar register. -/
  | vtos (t : Nat)
  /-- SRD, R437: Read of an allowed register of the tile page, including the context counter view. -/
  | srd (t : Nat)
  /-- BR, R77: Unconditional branch, raising IMEM_RANGE outside the region. -/
  | br (t : Nat)
  /-- BEQ, R77: Branch if equal. -/
  | beq (t : Nat)
  /-- BNE, R77: Branch if not equal. -/
  | bne (t : Nat)
  /-- BLT, R77: Branch if signed less than. -/
  | blt (t : Nat)
  /-- BGE, R77: Branch if signed greater or equal. -/
  | bge (t : Nat)
  /-- END, R89: End of the stage program; the stage then waits for its boundary conditions. -/
  | endStage (t : Nat)
  /-- STAGE_BOUNDARY, R89: Once commands, transfers and bundles are done the boundary commits, releasing deferred effects and
  advancing queues. -/
  | stageBoundary (t : Nat)
  /-- STAGE_OPEN, R93: The tile opens the next ready stage from its context slots in round-robin order. -/
  | stageOpen (t : Nat)
  /-- LOAD, R96: A write of LOAD checks and broadcasts a program image to the context's tiles, or refuses it. -/
  | load (ag : Agent) (c : Nat)
  /-- LOAD_DONE, R97: After chunks and re-sends, the program becomes active on all tiles together, or the load fails. -/
  | loadDone (c : Nat) (missed : List (Nat × List Nat))
  /-- CURVE, R98: A write of CURVE loads a curve table image into a free slot of every tile, or refuses it. -/
  | curve (ag : Agent) (c : Nat)
  /-- CURVE_DONE, R98: A curve load ends loaded or failed. -/
  | curveDone (c : Nat) (missed : List (Nat × List Nat))
  /-- PANTRY_SCRUB, R109: The background scrubber reads, corrects or clears Pantry words within each 8 s period. -/
  | pantryScrub (t : Nat) (a : Nat) (flips : List (Nat × Nat))
  /-- RECORD_START, R119: A Mangle channel starts a feed record for the context all group tiles credit, checking tags and record
  fields. -/
  | recordStart (g : Nat)
  /-- MANGLE_DELIVER, R117: The channel delivers a vector to every tile of the target set once all hold a credit. -/
  | mangleDeliver (g : Nat) (far : Bool)
  /-- RECORD_RETIRE, R119: When every tile has committed the consuming stage the record retires and POS advances. -/
  | recordRetire (g : Nat)
  /-- FLIT_ARRIVE, R124: A bridge flit is corrected and delivered, or refused and replayed, with FLIT_UC after a fourth failed
  replay. -/
  | flitArrive (mesh : Bool) (d : Nat) (e : Nat) (errs : List (Nat × Nat)) (badCrc : Bool) (own : Machine.FlitOwner)
  /-- BRIDGE_WEAK, R125: More than BR_CE_LIM corrections in one second raise BRIDGE_WEAK. -/
  | bridgeWeak (d : Nat) (e : Nat)
  /-- LARDER_ACCESS, R131: An access at a stack's arrival point is checked against the regions and served in order. -/
  | larderAccess (c : Nat) (a : Nat) (data : List (Option Byte)) (n : Nat) (flips : List (Nat × Nat × Nat))
  /-- LARDER_REFRESH, R138: Each row is refreshed every 32 ms, or 16 ms when hot. -/
  | larderRefresh (st : Nat) (lost : Nat)
  /-- PATROL_SCRUB, R139: The patrol scrubber reads every granule once per SCRUB_H hours, correcting or clearing. -/
  | patrolScrub (a : Nat) (flips : List (Nat × Nat × Nat))
  /-- LANE_REPAIR, R140: A pin exceeding LANE_LIM corrections in 60 s is replaced by a spare pin. -/
  | laneRepair (st : Nat) (ch : Nat) (pin : Nat)
  /-- ROW_REPAIR, R140: A row exceeding ROW_LIM corrections, or uncorrectable, is copied to a spare row. -/
  | rowRepair (a : Nat)
  /-- CHANNEL_DOWN, R143: A failed or fenced channel takes its stack out of service and aborts contexts with regions on it. -/
  | channelDown (st : Nat) (ch : Nat)
  /-- LANDING_WRITE, R149: A tagged chunk write is written, discarded, refused or held according to the region state. -/
  | landingWrite (c : Nat) (a : Nat) (tag : Nat) (data : List Byte) (writer : Machine.Writer)
  /-- LANDING_RESUME, R149: A landing write held by open readers proceeds when READERS reaches 0. -/
  | landingResume (k : Nat)
  /-- TAG_READ_OPEN, R149: A waiting tag-checked read opens once its region is LANDED at the context's step. -/
  | tagReadOpen (t : Nat) (k : Nat)
  /-- INGEST_MATCH, R152: The security block matches a sealed shard digest against the manifest, landing the region or moving it to
  BAD. -/
  | ingestMatch (st : Nat) (n : Nat)
  /-- STARCH_TRIGGER, R160: A record is triggered when its gradient region lands at the context's step. -/
  | starchTrigger (st : Nat) (c : Nat) (k : Nat)
  /-- STARCH_BATCH, R161: A batch of up to 4,096 elements reads inputs, writes outputs and commits PROGRESS. -/
  | starchBatch (st : Nat)
  /-- RULE_LOAD, R169: A write of LOAD in the STC page loads a user rule image into a user slot, or refuses it. -/
  | ruleLoad (ag : Agent) (st : Nat)
  /-- RULE_LOAD_DONE, R169: A rule load ends loaded, or failed with RULE_BAD. -/
  | ruleLoadDone (st : Nat) (ok : Bool)
  /-- LASER_MEASURE, R175: Every 100 µs each engine measures laser light and compares it with its limits. -/
  | laserMeasure (k : Nat) (lp : Nat)
  /-- LASER_LOSS, R176: Light below LP_MIN for 1 ms moves the port to NOLASER. -/
  | laserLoss (k : Nat)
  /-- LASER_RESTORE, R176: Light at or above LP_WARN for 100 ms returns a NOLASER port to DARK. -/
  | laserRestore (k : Nat)
  /-- FRAME_RECEIVE, R180: A frame of eight codewords is decoded, its packets checked and passed in order, and its acknowledgements
  and credits taken. -/
  | frameReceive (k : Nat) (ls : List Machine.LaneWord)
  /-- REPLAY_TIMEOUT, R183: An acknowledgement not advanced 4 µs after a restart restarts the class again. -/
  | replayTimeout (k : Nat) (data : Bool)
  /-- ERROR_WINDOW, R196: At the end of each 1 s window lanes beyond SYM_WARN or NEAR_LIM raise LANE_WEAK. -/
  | errorWindow (k : Nat)
  /-- LOSS_OF_SIGNAL, R200: Light lost on all receive lanes moves the port to DARK and takes its circuit sides down. -/
  | lossOfSignal (k : Nat) (light : List Nat)
  /-- SIGNAL_DETECT, R187: All receive lanes above the release level move a DARK port to TRAIN. -/
  | signalDetect (k : Nat) (light : List Nat)
  /-- LNK_EN, R189: A write of EN enables a port or turns it OFF, discarded while it carries an open circuit. -/
  | lnkEn (ag : Agent) (k : Nat) (v : Nat)
  /-- RETRY, R189: A write of RETRY takes a FAILED, MISWIRED or VERSION_MISMATCH port to DARK unless fenced. -/
  | retry (ag : Agent) (k : Nat)
  /-- RETRAIN, R198: A write of RETRAIN in UP starts a retrain counted toward the limit. -/
  | retrain (ag : Agent) (k : Nat)
  /-- LOOP, R189: A write of LOOP selects loop-back test, effective only on the test card. -/
  | loop (ag : Agent) (k : Nat) (v : Nat)
  /-- TX_PRESET, R190: Sequence step setting a transmitter equalisation preset. -/
  | txPreset (k : Nat)
  /-- TX_PATTERN, R190: Sequence step selecting the transmitted pattern. -/
  | txPattern (k : Nat)
  /-- WAIT_LOCK, R190: Sequence step waiting for clock recovery lock on all lanes. -/
  | waitLock (k : Nat) (locked : Nat)
  /-- ADAPT, R190: Sequence step running receiver equaliser adaptation rounds. -/
  | adapt (k : Nat)
  /-- CHECK_BER, R190: Sequence step counting pattern bit errors against a limit. -/
  | checkBer (k : Nat) (errs : List Nat)
  /-- FEC_LOCK, R190: Sequence step waiting for codeword lock and recording the lane order. -/
  | fecLock (k : Nat) (order : List Nat)
  /-- PEER_SYNC, R190: Sequence step waiting for the peer to reach the same step. -/
  | peerSync (k : Nat) (t : Nat)
  /-- RTT, R190: Sequence step measuring the round trip, failing with LENGTH above its limit. -/
  | rtt (k : Nat) (ns : Nat)
  /-- IDENT, R193: Sequence step exchanging identity words and deciding UP, HELD, LOOPBACK, MISWIRED or VERSION_MISMATCH. -/
  | ident (k : Nat) (lo : List Nat) (hi : List Nat) (echo : List Nat)
  /-- GOTO, R190: Sequence step continuing at another step. -/
  | goto (k : Nat)
  /-- DELAY, R190: Sequence step waiting a set time. -/
  | delay (k : Nat)
  /-- SEQ_STEP_TIMEOUT, R190: A sequence step not completed within TMO fails and continues at ONFAIL. -/
  | seqStepTimeout (k : Nat)
  /-- TRAIN_TIMEOUT, R190: Training beyond 1 s, or retraining beyond 200 µs, moves the port to FAILED. -/
  | trainTimeout (k : Nat)
  /-- PACKET_FORWARD, R208: A packet for a forwarding entry is sent on the other side with that side's peer CID, or discarded. -/
  | packetForward (k : Nat) (p : Machine.Packet)
  /-- PACKET_RECEIVE, R215: An endpoint accepts or discards an arriving packet by path, claim and generation and checks its ECHK.
  -/
  | packetReceive (k : Nat) (p : Machine.Packet)
  /-- PACKET_DELIVER, R221: A held numbered packet is delivered to the engine once ordering allows. -/
  | packetDeliver (e : Nat) (data : Bool)
  /-- OPEN, R217: An OPEN packet is compared with the entry, answered or breaking it with MISMATCH. -/
  | openCircuit (e : Nat) (path : Nat) (pay : Nat)
  /-- OPEN_RESEND, R217: An OPENING endpoint sends OPEN every 10 µs on each path that is up. -/
  | openResend (e : Nat)
  /-- OPEN_TMO, R217: An endpoint not OPEN within OPEN_TMO goes BROKEN. -/
  | openTmo (e : Nat)
  /-- CLOSE_GO, R218: A write of CLOSE_GO closes an OPEN or DEGRADED endpoint into DRAINING. -/
  | closeGo (ag : Agent) (e : Nat)
  /-- CLOSE, R218: A received CLOSE makes the far endpoint send QUIET and go CLOSED. -/
  | close (e : Nat)
  /-- QUIET, R218: QUIET on every path that is up moves a DRAINING endpoint to CLOSED. -/
  | quiet (e : Nat) (path : Nat)
  /-- QUIET_TMO, R218: A DRAINING endpoint goes CLOSED when QUIET_TMO elapses. -/
  | quietTmo (e : Nat)
  /-- RESET_NOTICE, R232: A received RESET_NOTICE moves the entry to BROKEN with PEER_RESET. -/
  | resetNotice (e : Nat)
  /-- PATH_DOWN, R227: A PATH_DOWN with the path's claim takes the path down, degrading or breaking the entry. -/
  | pathDown (e : Nat) (path : Nat) (pay : Nat)
  /-- REJOIN, R229: A received REJOIN of the new claim brings a rejoining path in step once the marks are reached. -/
  | rejoin (e : Nat) (path : Nat) (pay : Nat)
  /-- REJOIN_RESEND, R229: A rejoining endpoint sends REJOIN every 10 µs until a packet of the new claim arrives. -/
  | rejoinResend (e : Nat) (path : Nat)
  /-- ALL_REDUCE, R255: An all-reduce collective is accepted into a slot, or refused. -/
  | allReduce (d : Nat)
  /-- REDUCE_SCATTER, R251: A reduce-scatter collective is accepted into a slot, or refused. -/
  | reduceScatter (d : Nat)
  /-- ALL_GATHER, R255: An all-gather collective is accepted into a slot, or refused. -/
  | allGather (d : Nat)
  /-- ALL_TO_ALL, R257: An all-to-all collective is accepted into a slot, or refused. -/
  | allToAll (d : Nat)
  /-- ALL_TO_ALLV, R258: An unequal all-to-all collective is accepted into a slot, or refused. -/
  | allToAllv (d : Nat)
  /-- BROADCAST, R259: A broadcast collective is accepted into a slot, or refused. -/
  | broadcast (d : Nat)
  /-- CIRCULATE, R256: A circulate collective is accepted into a slot, or refused. -/
  | circulate (d : Nat)
  /-- COLL_TRIGGER, R243: A slot's fold or source-tag trigger is met and it sends START. -/
  | collTrigger (d : Nat) (n : Nat)
  /-- START, R250: A received START is answered with CREDIT, or placed in the holding room. -/
  | start (e : Nat) (key : Nat)
  /-- START_RESEND, R250: START is sent again every 100 µs until a CREDIT arrives. -/
  | startResend (d : Nat) (n : Nat)
  /-- CREDIT, R246: A received CREDIT grants chunks the sender may send. -/
  | credit (e : Nat) (stage : Nat) (arg : Nat) (key : Nat)
  /-- CHUNK_SEND, R246: The engine sends a chunk of nine DATA packets against a credit. -/
  | chunkSend (d : Nat) (n : Nat) (e : Nat) (c : Nat)
  /-- CHUNK_RECEIVE, R247: A received chunk is checked and written, added or forwarded, returning its credit. -/
  | chunkReceive (e : Nat) (key : Nat) (stage : Nat) (cidx : Nat) (data : List Byte) (trailer : List Byte) (adds : Nat)
  /-- RESEND, R248: A received RESEND makes the sender send a chunk again from its copy. -/
  | resend (e : Nat) (stage : Nat) (cidx : Nat) (key : Nat)
  /-- ABORT, R262: A received ABORT fails the key's collective or marks its holding entry, and is propagated once. -/
  | abort (e : Nat) (status : Nat) (key : Nat)
  /-- OTHER, R262: A received OTHER names the second key for the ABORT that follows. -/
  | other (e : Nat) (key : Nat)
  /-- PACE, R266: A received PACE records the peer's pace word in the neighbour table. -/
  | pace (e : Nat) (word : Nat)
  /-- PACE_SEND, R266: The engine sends PACE after a change of its pace word and at least every 1 ms. -/
  | paceSend (d : Nat)
  /-- ORDER_STALL, R261: A slot waiting OSTALL_MS on a peer whose START is held that long fails with ORDER_STALL, or sets STALLED.
  -/
  | orderStall (d : Nat) (n : Nat) (e : Nat)
  /-- COLL_COMPLETE, R259: A collective ends its last stage, writes DST, posts its peg and writes its completion record. -/
  | collComplete (d : Nat) (n : Nat)
  /-- CIRCUIT_BREAK_REPORT, R264: A circuit reaching BROKEN or CLOSED fails every slot whose group uses it. -/
  | circuitBreakReport (e : Nat)
  /-- SESSION_OPEN, R278: A SESSION OPEN is answered OPENED or REFUSED and binds a session. -/
  | sessionOpen (m : Machine.Msg)
  /-- SESSION_CLOSE, R281: A SESSION CLOSE ends a session, truncating its transfers. -/
  | sessionClose (m : Machine.Msg)
  /-- CMD, R284: A CMD message places commands in a context queue by serial, or discards them. -/
  | cmd (m : Machine.Msg)
  /-- REG, R283: A REG message performs its register operations in order and returns one response. -/
  | reg (m : Machine.Msg)
  /-- WDESC, R287: A write transfer descriptor is accepted or refused. -/
  | wdesc (m : Machine.Msg)
  /-- WDATA, R288: Write data of a transfer is placed at its offset, or held while the transfer waits. -/
  | wdata (m : Machine.Msg)
  /-- RREQ, R287: A read transfer request is accepted, refused or refused as SEALED. -/
  | rreq (m : Machine.Msg)
  /-- ACK, R279: A received ACK advances acknowledgement of the package's messages. -/
  | ack (m : Machine.Msg)
  /-- ACK_SEND, R279: A receiver with nothing to send acknowledges within 20 µs. -/
  | ackSend (p : Nat) (n : Nat)
  /-- RTO, R280: An unacknowledged message is sent again after RTO_US; after 16 sends the session closes LOST. -/
  | rto (p : Nat) (n : Nat) (seq : Nat)
  /-- SESS_TMO, R280: A session with no valid message for SESS_TMO closes with TIMEOUT. -/
  | sessTmo (p : Nat) (n : Nat)
  /-- TRANSFER_START, R288: A waiting transfer starts on a free transfer engine. -/
  | transferStart (p : Nat)
  /-- TRANSFER_COMPLETE, R288: A transfer completes, posts its peg and writes its completion record. -/
  | transferComplete (p : Nat) (n : Nat) (xid : Nat)
  /-- RECORD_WRITE, R289: A completion record is written once a ring slot is free, waiting with CPL_FULL otherwise. -/
  | recordWrite (c : Nat)
  /-- CPL_BIND, R290: A write of CPL_BIND = 1 sends every unconsumed record to CPL_SESS. -/
  | cplBind (ag : Agent) (c : Nat)
  /-- CPL_ACKED, R290: A write of CPL_ACKED advances the consumed-record pointer if newer and valid. -/
  | cplAcked (ag : Agent) (c : Nat) (v : Nat)
  /-- CTX_OPEN, R291: A write of OPEN makes a FREE assigned context OPEN with an empty queue. -/
  | ctxOpen (ag : Agent) (c : Nat)
  /-- TEARDOWN, R389: A write of TEARDOWN makes the context CLOSING and runs the teardown sequence to FREE. -/
  | teardown (ag : Agent) (c : Nat)
  /-- HST_LINK_DOWN, R295: A host port or sub-port that was up goes down and raises LINK_DOWN. -/
  | hstLinkDown (p : Nat) (sub : Nat)
  /-- SPLIT, R274: A change of SPLIT retrains the host port and closes its sessions. -/
  | split (ag : Agent) (p : Nat) (v : Nat)
  /-- HOST_LASER_LOW, R276: Host laser light below the minimum for 1 ms takes the port down with LASER_LOW. -/
  | hostLaserLow (p : Nat) (lp : Nat)
  /-- CAP_TICK, R303: Every 1 ms the controller measures power, updates GAIN and steps down, up or holds. -/
  | capTick (pin : Nat) (upEst : Nat)
  /-- PEAK_CHECK, R305: Every 10 µs an estimate above PEAK steps the package down one place. -/
  | peakCheck (raw : Nat)
  /-- DROOP, R308: A droop detector firing slows its die's CCLK divider. -/
  | droop (d : Nat)
  /-- DROOP_RELEASE, R308: With no detector fired for DROOP_HOLD the die returns to the divider of the point. -/
  | droopRelease (d : Nat)
  /-- SENSOR_SAMPLE, R310: Every 100 µs sensors are sampled and the thermal limit steps down or allows a step up. -/
  | sensorSample (temps : List Nat) (expected : List Int) (warmEst : Nat)
  /-- SENSOR_DISAGREE, R313: Paired sensors differing by more than 4 °C for 2 s set DISAGREE. -/
  | sensorDisagree (n : Nat)
  /-- SENSOR_FAIL, R314: An implausible sensor is marked failed, derating the cap or holding OP7 when a region is unmonitored. -/
  | sensorFail (ix : Nat) (expected : Int)
  /-- SENS_CLR, R315: A write of SENS_CLR re-admits failed sensors that have read plausibly for 10 s. -/
  | sensClr (ag : Agent)
  /-- THERMAL_TRIP, R312: A 110 °C comparator trips, stopping CCLK and raising a fatal fault. -/
  | thermalTrip (n : Nat)
  /-- SOH_RESTART, R331: A lockstep mismatch, uncorrectable memory error or watchdog restarts Soholt from its active slot. -/
  | sohRestart (cause : Nat)
  /-- LOG_SEL, R336: A write of LOG_SEL shows the selected event record in LOG_W. -/
  | logSel (ag : Agent) (v : Nat)
  /-- DUMP_EXPORT, R338: A write of DUMP_EXPORT copies a dump slot to staging. -/
  | dumpExport (ag : Agent)
  /-- PC_GO, R341: A write of PC_GO sets PC_REQ for the tray to power-cycle the package. -/
  | pcGo (ag : Agent)
  /-- CAL_EXPORT, R345: A write of CAL_EXPORT writes the calibration store image to staging. -/
  | calExport (ag : Agent)
  /-- CAL_LOCK, R345: A write of CAL_LOCK = 1 refuses imports until power-on reset. -/
  | calLock (ag : Agent) (v : Nat)
  /-- CFG_SAVE, R345: A write of CFG_SAVE stores host and Hearth settings in the configuration block. -/
  | cfgSave (ag : Agent)
  /-- UPD_OPEN, R346: A write of OPEN starts reception of an update image. -/
  | updOpen (ag : Agent)
  /-- CHECK, R346: A write of CHECK reports missing image chunks. -/
  | check (ag : Agent)
  /-- VERIFY, R347: A write of VERIFY starts verification of the received image. -/
  | verify (ag : Agent)
  /-- VERIFY_DONE, R347: Verification ends with the component pending, or FAILED with a code. -/
  | verifyDone (sig : Bool) (ucode : Bool) (readBack : Nat)
  /-- SVN_RAISE, R350: A write of SVN_RAISE raises MIN_SVN within its conditions. -/
  | svnRaise (ag : Agent) (v : Nat)
  /-- LC_RETURN, R352: A write of LC_RETURN with a valid token unseals and moves PRODUCTION to RETURNED. -/
  | lcReturn (ag : Agent) (dev : Nat) (cnt : Nat) (sig : Bool)
  /-- ATT_CERT, R353: A write of ATT_CERT copies the vendor certificate to staging. -/
  | attCert (ag : Agent)
  /-- ATT_GO, R354: A write of ATT_GO snapshots the package and starts a signed report, or refuses it. -/
  | attGo (ag : Agent)
  /-- ATT_DONE, R354: The signed report is written and ATT_STATE becomes DONE. -/
  | attDone (sig : List Byte)
  /-- SEAL_GO, R355: A write of SEAL_GO submits a manifest or a part of one for sealing a partition. -/
  | sealGo (ag : Agent) (more : Bool)
  /-- SEAL_DONE, R355: The security block verifies, unwraps MK and seals the partition, or refuses. -/
  | sealDone (sig : Bool) (k : List Byte)
  /-- UNSEAL_GO, R359: A write of UNSEAL_GO zeroes the partition's memories, erases MK and clears SEALED, or is refused. -/
  | unsealGo (ag : Agent)
  /-- FT_LATCH, R375: A write of 1 to FT_LATCH clears it, discarded while any FT bit is set. -/
  | ftLatch (ag : Agent)
  /-- FENCE_GO, R372: A write of FENCE_GO fences the named unit. -/
  | fenceGo (ag : Agent)
  /-- REPLAY_TURN_END, R382: A suspect's REPLAY_WIN ends without progress, so it fails and is aborted. -/
  | replayTurnEnd (l : Nat)
  /-- RUNG_FAILED, R384: A rung not finished within its maximum time raises RUNG_FAILED and starts the next rung. -/
  | rungFailed (l : Nat)
  /-- CONTEXT_SCRUB, R385: A context is aborted: stages abandoned, collectives failed, transfers ended, state zeroed, QSTOP set. -/
  | contextScrub (ag : Agent) (c : Nat)
  /-- ENGINE_SCRUB, R386: An engine is stopped, reset, self-tested and returned to service or fenced. -/
  | engineScrub (l : Nat) (ok : Bool)
  /-- SCRUB, R420: A write of SCRUB in an engine page requests an engine scrub of that page. -/
  | scrub (ag : Agent) (page : Nat)
  /-- PARTITION_RESET, R387: A partition's contexts, Larder, Pantry and seals are reset while others run. -/
  | partitionReset (p : Nat) (bad : List (Nat × Nat))
  /-- WARM_RESET, R403: The package resets contexts and memories, re-runs compute, memory and test phases and returns to READY. -/
  | warmReset (bad : List (Nat × Nat))
  /-- DRAIN, R419: A write of DRAIN stops an engine taking new work, or resumes it. -/
  | drain (ag : Agent) (page : Nat) (v : Nat)
  /-- CLR_GO, R428: A write of CLR_GO clears the named counters of a page in one cycle. -/
  | clrGo (ag : Agent) (page : Nat) (mask : Nat) (blk : Bool)
  /-- RUN, R433: A write of RUN starts or stops the counter collector. -/
  | run (ag : Agent) (v : Nat)
  /-- SNAP_RSEL, R434: A write of SNAP_RSEL copies a snapshot record into the window. -/
  | snapRsel (ag : Agent) (v : Nat)
  /-- FOLD_PARTIAL_LANDED, R83: A FOLD transfer completes when its partial has landed in Larder staging, posting the sender's peg
  and counting as done for XWAIT and the boundary. -/
  | foldPartialLanded (t : Nat) (k : Nat)
  /-- REMOTE_POST_ARRIVE, R83: A PPOSTR post released at a producer's boundary reaches the peg of another tile after crossing the
  mesh or a bridge, possibly opening a waiting stage. -/
  | remotePostArrive (k : Nat)
  /-- HST_LINK_UP, R274: A host port or sub-port completes Ethernet link training with its partner and UP_A or UP_B becomes 1. -/
  | hstLinkUp (p : Nat) (sub : Nat)
  /-- HOST_LASER_RESTORE, R276: A host port's laser reading stays at or above +17.5 dBm for 100 ms and the port comes back up. -/
  | hostLaserRestore (p : Nat) (lp : Nat)
  /-- HST_EN, R274: A write of EN in an HST page enables a host port, starting link training, or disables it, taking the link down.
  -/
  | hstEn (ag : Agent) (p : Nat) (v : Nat)
  /-- TRAY_WRITE, R340: The tray's private I3C write to TIN, TOUT, FLOW, LEAK or TCAP holds the value pending until the next RSEQ,
  and a write to a read-only index is not acknowledged. -/
  | trayWrite (index : Nat) (value : Nat)
  /-- I3C_CCC, R339: The tray's SETDASA, SETAASA, RSTDAA or GETSTATUS common command assigns, resets or reports the package's I3C
  dynamic address and status. -/
  | i3cCcc (kind : Nat) (a : Nat) (d : Nat)
  /-- ARP_ND_ECHO, R275: An ARP, IPv6 neighbour discovery or ICMP/ICMPv6 echo request arriving on a host port is answered. -/
  | arpNdEcho (p : Nat) (sub : Nat) (ask : Machine.Ask)
  /-- POWER_ON_RESET, R397: PORST_N low, or VAUX33 not good, holds the package in power-on reset and ends any warm reset. -/
  | powerOnReset
  /-- VAUX33_LOSS, R395: VAUX33 leaving its range returns the package at once to the safe state and holds a power-on reset. -/
  | vaux33Loss
  /-- REF_OK, R443: REFCLK present and in tolerance for 1 ms lets phase HUB begin. -/
  | refOk
  /-- WRST_N, R398: WRST_N falling and staying low for 1 µs starts a warm reset once phase HUB has ended. -/
  | wrstN
  /-- LINKS_END, R402: Phase LINKS ends when no listed port trains after 50 ms, or after 1.1 s. -/
  | linksEnd
  /-- EV_POP, R234: A read of CIR_EVQ returns the head event and advances the queue. -/
  | evPop
  /-- GAIN_CLAMPED, R301: GAIN held at a bound for 1 s sets CLAMPED and raises MODEL_DRIFT. -/
  | gainClamped
  /-- RSEQ, R340: The tray's write of RSEQ applies a coolant reading set to the THM and PWR pages. -/
  | rseq
  /-- FLOW_IMPLAUS, R318: Reported flow exceeding implied flow by 30 % for 2 s sets IMPLAUS. -/
  | flowImplaus
  /-- SUDDEN_RELEASE, R319: After 10 s of adequate flow, stable outlet and no leak, SUDDEN returns to 0. -/
  | suddenRelease
  /-- HB_LOST, R316: Coolant data older than 2 s set HB_LOST and impose the safe cap. -/
  | hbLost
  /-- SOH_IN_SERVICE, R331: Soholt returns to service after its restart. -/
  | sohInService
  /-- DUMP_WRITE, R338: A capture is written to the oldest unpinned dump slot. -/
  | dumpWrite
  /-- I3C_STATUS_READ, R341: The tray's read of STATUS releases ALERT_N for bits other than SD_REQ. -/
  | i3cStatusRead
  /-- ACT, R343: A tray read of ACT returns the next word of the head compat action record. -/
  | act
  /-- COMPAT_RECORD, R343: One second after a protective action a compat action record is queued and logged. -/
  | compatRecord
  /-- UPD_FALLBACK, R349: A Soholt image without a self-check in 5 s falls back to the previous slot and components. -/
  | updFallback
  /-- SEAL_PART_TIMEOUT, R356: 10 s without a further part abandons the manifest with CODE PARTS. -/
  | sealPartTimeout
  /-- HANG_CHECK, R378: Every 1 ms the controller checks pending engines and may declare one hang per lane. -/
  | hangCheck
  /-- POWER_CYCLE, R384: Rung 5 sets PC_REQ so the tray removes and restores power. -/
  | powerCycle
  /-- CAPTURE_ONLY, R381: REC_REQ with ACTION 6 takes a capture without recovery. -/
  | captureOnly
  /-- COLLECTOR_CAPTURE, R432: Every COL_PER the collector samples its selections at one edge and writes a snapshot record. -/
  | collectorCapture
  /-- WRST_N_RISE, R404: WRST_N rising releases a warm reset held at PHASE 4 to READY, and re-arms WRST_N found low at the end of
  phase HUB. -/
  | wrstNRise
  /-- EXPORT_COMPLETE, R338: A dump or calibration export to staging offset 0x3000000 finishes, about 100 ms after it began, ending
  the export in progress. -/
  | exportComplete
  /-- UNSEAL_DONE, R359: About 21 ms after an accepted UNSEAL_GO, zeroing ends, MK and the shard list are erased, SEALED is cleared
  and UNSEALED is logged. -/
  | unsealDone
  deriving DecidableEq, Repr

end Sys2Proof
end

