-- ==== Sys2Proof/Machine/Map.lean ====
section
/-! DEFINITION. Sparse maps keyed by natural numbers, as plain lists in one canonical form: keys strictly rising and, where
the map has a default, no entry equal to it. The register file, the memories and every table of numbered units are such
maps, so that equal contents are equal data. -/

namespace Sys2Proof.Machine

/-- A sparse map from numbers: pairs with strictly rising keys. -/
abbrev SMap (α : Type) := List (Nat × α)

/-- The entry under key `k`, if there is one. -/
def SMap.find {α : Type} (m : SMap α) (k : Nat) : Option α :=
  match m with
  | [] => none
  | (k', v) :: r => if k = k' then some v else SMap.find r k

/-- The map with `v` under key `k`. -/
def SMap.put {α : Type} (m : SMap α) (k : Nat) (v : α) : SMap α :=
  match m with
  | [] => [(k, v)]
  | (k', v') :: r =>
    if k < k' then (k, v) :: (k', v') :: r
    else if k = k' then (k, v) :: r
    else (k', v') :: SMap.put r k v

/-- The map without key `k`. -/
def SMap.del {α : Type} (m : SMap α) (k : Nat) : SMap α :=
  m.filter (fun p => decide (p.1 ≠ k))

/-- The value under `k`, or the default `d` where nothing is listed. -/
def SMap.get {α : Type} (d : α) (m : SMap α) (k : Nat) : α := (m.find k).getD d

/-- Sets the value under `k`, keeping the canonical form: a value equal to the default is not listed. -/
def SMap.set {α : Type} [DecidableEq α] (d : α) (m : SMap α) (k : Nat) (v : α) : SMap α :=
  if v = d then m.del k else m.put k v

/-- The map without the keys from `lo` up to but not including `hi`. -/
def SMap.clear {α : Type} (m : SMap α) (lo hi : Nat) : SMap α :=
  m.filter (fun p => decide (p.1 < lo) || decide (hi ≤ p.1))

/-- The keys rise strictly. -/
def SMap.sorted {α : Type} : SMap α → Bool
  | [] => true
  | (k, _) :: r => r.all (fun p => decide (k < p.1)) && SMap.sorted r

/-- A byte memory: address and byte pairs in canonical form. A byte that is not listed reads as 0. -/
abbrev Memory := List Host.Cell

/-- The canonical form of a memory: addresses rise strictly and no listed byte is 0. -/
def Memory.wf (m : Memory) : Bool :=
  SMap.sorted m && m.all (fun p => decide (p.2 ≠ 0))

/-- Read of one byte. -/
def Memory.read (m : Memory) (a : Nat) : Byte := SMap.get (0 : Byte) m a

/-- Write of one byte. -/
def Memory.write (m : Memory) (a : Nat) (b : Byte) : Memory := SMap.set (0 : Byte) m a b

/-- The `n` bytes from address `a`, in address order. -/
def Memory.readBytes (m : Memory) (a n : Nat) : List Byte :=
  (List.range n).map (fun i => m.read (a + i))

/-- Writes a list of bytes from address `a` upward. -/
def Memory.writeBytes (m : Memory) (a : Nat) : List Byte → Memory
  | [] => m
  | b :: r => Memory.writeBytes (m.write a b) (a + 1) r

/-- Sets `n` bytes from address `a` to 0. -/
def Memory.zero (m : Memory) (a n : Nat) : Memory := SMap.clear m a (a + n)

/-- The number whose little-endian bytes are given. -/
def leNat : List Byte → Nat
  | [] => 0
  | b :: r => b.toNat + 256 * leNat r

/-- The `n` little-endian bytes of a number. -/
def leBytes : Nat → Nat → List Byte
  | 0, _ => []
  | n + 1, v => BitVec.ofNat 8 v :: leBytes n (v / 256)

/-- The number whose big-endian bytes are given. -/
def beNat (l : List Byte) : Nat := leNat l.reverse

/-- The `n` big-endian bytes of a number. -/
def beBytes (n v : Nat) : List Byte := (leBytes n v).reverse

/-- A little-endian number of `n` bytes at address `a`. -/
def Memory.readNat (m : Memory) (a n : Nat) : Nat := leNat (m.readBytes a n)

/-- Writes a little-endian number of `n` bytes at address `a`. -/
def Memory.writeNat (m : Memory) (a n v : Nat) : Memory := m.writeBytes a (leBytes n v)

/-- Bits `hi` down to `lo` of a number. -/
def bits (v hi lo : Nat) : Nat := v / 2 ^ lo % 2 ^ (hi + 1 - lo)

/-- Bit `i` of a number. -/
def bit (v i : Nat) : Nat := v / 2 ^ i % 2

/-- The number with bit `i` set to 1. -/
def setBit (v i : Nat) : Nat := if bit v i = 1 then v else v + 2 ^ i

/-- The number with bit `i` set to 0. -/
def clrBit (v i : Nat) : Nat := if bit v i = 1 then v - 2 ^ i else v

/-- A number of `w` bits read as two's complement. -/
def toSigned (w v : Nat) : Int := if v % 2 ^ w < 2 ^ (w - 1) then (v % 2 ^ w : Nat) else (v % 2 ^ w : Nat) - (2 ^ w : Nat)

/-- An integer as a two's complement number of `w` bits. -/
def ofSigned (w : Nat) (i : Int) : Nat := (i % (2 ^ w : Nat)).toNat

/-- The number of 1 bits among the low `n` bits. -/
def popCount (n v : Nat) : Nat := ((List.range n).filter (fun i => bit v i == 1)).length

/-- Saturating increment at `top`. -/
def satInc (top v : Nat) : Nat := if v < top then v + 1 else top

end Sys2Proof.Machine
end

