-- ==== Sys2Proof/Machine/Digest.lean ====
section
/-! DEFINITION. The checks, digests and ciphers that the spec names: CRC-32C (R214), CRC-32 (R181), CRC-64 (R247), SHA-256,
HMAC-SHA-256 and AES-256-GCM (R230, R353, R357). Byte lists are in transmission order. The spec names SHA-256, HMAC and
AES-GCM by their standards; the constants here are those of the standards (PRESUMED, log entry 12). -/

namespace Sys2Proof.Machine

/-- One bit step of a reflected 32-bit CRC with reflected polynomial `poly`. -/
def crcStep (poly c : Nat) : Nat := if c % 2 = 1 then Nat.xor (c / 2) poly else c / 2

/-- One byte of a reflected 32-bit CRC. -/
def crcByte (poly c b : Nat) : Nat :=
  crcStep poly (crcStep poly (crcStep poly (crcStep poly
    (crcStep poly (crcStep poly (crcStep poly (crcStep poly (Nat.xor c b))))))))

/-- A reflected 32-bit CRC, initial value and final XOR 0xFFFFFFFF. -/
def crcReflected (poly : Nat) (l : List Byte) : Nat :=
  Nat.xor (l.foldl (fun c b => crcByte poly c b.toNat) 0xFFFFFFFF) 0xFFFFFFFF

/-- CRC-32C, polynomial 0x1EDC6F41 reflected, R214. -/
def crc32c (l : List Byte) : Nat := crcReflected 0x82F63B78 l

/-- The CRC-32 of IEEE 802.3, R181. -/
def crc32 (l : List Byte) : Nat := crcReflected 0xEDB88320 l

/-- One bit step of the CRC-64 of R247. -/
def crc64Step (c : Nat) : Nat :=
  if 2 ^ 63 ≤ c then Nat.xor (c * 2 % 2 ^ 64) 0x42F0E1EBA9EA3693 else c * 2 % 2 ^ 64

/-- CRC-64 of R247: ECMA-182, no reflection, initial value and final XOR 0. -/
def crc64 (l : List Byte) : Nat :=
  l.foldl (fun c b =>
    crc64Step (crc64Step (crc64Step (crc64Step (crc64Step (crc64Step (crc64Step (crc64Step
      (Nat.xor c (b.toNat * 2 ^ 56))))))))))  0

/-- The integer `k`-th root of `n`, its bits settled from bit `b - 1` down. -/
def rootBits (k n : Nat) : Nat → Nat → Nat
  | 0, r => r
  | b + 1, r => rootBits k n b (if (r + 2 ^ b) ^ k ≤ n then r + 2 ^ b else r)

/-- The first 64 primes. -/
def firstPrimes : List Nat :=
  (List.range 312).filter (fun p => decide (2 ≤ p) && (List.range p).all (fun d => decide (d < 2) || p % d != 0))

/-- The first 32 bits of the fraction of the `k`-th root of `p`. -/
def rootFraction (k p : Nat) : Word := BitVec.ofNat 32 (rootBits k (p * 2 ^ (32 * k)) 40 0)

/-- The 64 constants of SHA-256: from the cube roots of the primes. -/
def shaConsts : List Word := firstPrimes.map (rootFraction 3)

/-- The initial words of SHA-256: from the square roots of the first eight primes. -/
def shaStart : List Word := (firstPrimes.take 8).map (rootFraction 2)

/-- The XOR of a word rotated right by each of a list of amounts. -/
def rotations (x : Word) (l : List Nat) : Word := l.foldl (fun y n => y ^^^ x.rotateRight n) 0

/-- One round: `kw` is the constant plus the message word. -/
def shaRound (s : List Word) (kw : Word) : List Word :=
  match s with
  | [a, b, c, d, e, f, g, h] =>
    let mix := kw + h + rotations e [6, 11, 25] + (g ^^^ (e &&& (f ^^^ g)))
    [mix + rotations a [2, 13, 22] + ((a &&& (b ||| c)) ||| (b &&& c)), a, b, c, d + mix, e, f, g]
  | _ => s

/-- The message word 16 places after the first of `w`. -/
def shaNextWord (w : List Word) : Word :=
  let at_ := fun i => w.getD i 0
  at_ 0 + at_ 9 + (rotations (at_ 1) [7, 18] ^^^ (at_ 1 >>> 3)) + (rotations (at_ 14) [17, 19] ^^^ (at_ 14 >>> 10))

/-- The block's 16 words `w` taken into the chaining words `s`. -/
def shaBlock (s w : List Word) : List Word :=
  let r := shaConsts.foldl (fun (x : List Word × List Word) k =>
    (shaRound x.1 (k + x.2.getD 0 0), x.2.drop 1 ++ [shaNextWord x.2])) (s, w)
  List.zipWith (fun x y => x + y) s r.1

/-- The big-endian words of a byte list, `n` of them. -/
def beWords : Nat → List Byte → List Word
  | 0, _ => []
  | n + 1, l => BitVec.ofNat 32 (beNat (l.take 4)) :: beWords n (l.drop 4)

/-- Takes `n` blocks of 64 bytes into the chaining words. -/
def shaBlocks (s : List Word) : Nat → List Byte → List Word
  | 0, _ => s
  | n + 1, l => shaBlocks (shaBlock s (beWords 16 (l.take 64))) n (l.drop 64)

/-- SHA-256 of a byte list, 32 bytes. -/
def sha256 (l : List Byte) : List Byte :=
  let z := (119 - l.length % 64) % 64
  let p := l ++ [0x80] ++ List.replicate z 0 ++ beBytes 8 (8 * l.length)
  (shaBlocks shaStart (p.length / 64) p).flatMap (fun w => beBytes 4 w.toNat)

/-- A digest as a register value: byte 0 in bits [7:0] of the first word. -/
def digNat (l : List Byte) : Nat := leNat l

/-- HMAC-SHA-256. -/
def hmac256 (key msg : List Byte) : List Byte :=
  let k0 := if key.length ≤ 64 then key else sha256 key
  let k := k0 ++ List.replicate (64 - k0.length) 0
  sha256 (k.map (fun b => b ^^^ 0x5c) ++ sha256 (k.map (fun b => b ^^^ 0x36) ++ msg))

/-- The bytes of an ASCII string. -/
def ascii (t : String) : List Byte := t.toList.map (fun c => BitVec.ofNat 8 c.toNat)

/-- Doubling in GF(256) of AES. -/
def gfDouble (b : Byte) : Byte := if b.msb then (b <<< 1) ^^^ 0x1b else b <<< 1

/-- Product in GF(256) of AES, by the bits of the second factor from `n` down. -/
def gfMul (a : Byte) : Nat → Byte → Byte
  | 0, _ => 0
  | n + 1, b => (if b.getLsbD 0 then a else 0) ^^^ gfMul (gfDouble a) n (b >>> 1)

/-- Inverse in GF(256): the 254th power. -/
def gfInv (a : Byte) : Byte :=
  let m := fun x y => gfMul x 8 y
  let a2 := m a a
  let a4 := m a2 a2
  let a8 := m a4 a4
  let a16 := m a8 a8
  let a32 := m a16 a16
  let a64 := m a32 a32
  let a128 := m a64 a64
  m a2 (m a4 (m a8 (m a16 (m a32 (m a64 a128)))))

/-- The S-box of AES. -/
def aesSbox (b : Byte) : Byte :=
  let i := gfInv b
  i ^^^ i.rotateLeft 1 ^^^ i.rotateLeft 2 ^^^ i.rotateLeft 3 ^^^ i.rotateLeft 4 ^^^ 0x63

/-- XOR of two byte lists. -/
def xorBytes (a b : List Byte) : List Byte := List.zipWith (fun x y => x ^^^ y) a b

/-- The remaining words of the AES-256 key schedule: `w` the last eight words, `i` the index of the next, `rc` the next
round constant. -/
def aesExpand : Nat → Nat → Byte → List (List Byte) → List (List Byte)
  | 0, _, _, _ => []
  | n + 1, i, rc, w =>
    let t := w.getD 7 []
    let t' :=
      if i % 8 = 0 then xorBytes ((t.drop 1 ++ t.take 1).map aesSbox) [rc, 0, 0, 0]
      else if i % 8 = 4 then t.map aesSbox
      else t
    let nw := xorBytes (w.getD 0 []) t'
    nw :: aesExpand n (i + 1) (if i % 8 = 0 then gfDouble rc else rc) (w.drop 1 ++ [nw])

/-- Splits a byte list into groups of `k`, at most `n` groups. -/
def chunksOf (k : Nat) : Nat → List Byte → List (List Byte)
  | 0, _ => []
  | n + 1, l => if l.isEmpty then [] else l.take k :: chunksOf k n (l.drop k)

/-- The 15 round keys of AES-256. -/
def aesKeys (key : List Byte) : List (List Byte) :=
  let w := chunksOf 4 8 key
  let all := w ++ aesExpand 52 8 1 w
  (List.range 15).map (fun r => (all.drop (4 * r)).take 4 |>.flatten)

/-- ShiftRows of a 16-byte state held column by column. -/
def aesShiftRows (s : List Byte) : List Byte :=
  (List.range 16).map (fun i => s.getD ((i + 4 * (i % 4)) % 16) 0)

/-- MixColumns of one column. -/
def aesMixCol (c : List Byte) : List Byte :=
  let g := fun i => c.getD (i % 4) 0
  (List.range 4).map (fun i => gfDouble (g i) ^^^ (gfDouble (g (i + 1)) ^^^ g (i + 1)) ^^^ g (i + 2) ^^^ g (i + 3))

/-- AES-256 of one block. -/
def aesBlock (key blk : List Byte) : List Byte :=
  let ks := aesKeys key
  let s0 := xorBytes blk (ks.getD 0 [])
  let mid := (List.range 13).foldl (fun s r =>
    let t := aesShiftRows (s.map aesSbox)
    xorBytes ((chunksOf 4 4 t).flatMap aesMixCol) (ks.getD (r + 1) [])) s0
  xorBytes (aesShiftRows (mid.map aesSbox)) (ks.getD 14 [])

/-- Product in the field of GHASH: `x` by the bits of `v`, most significant first. -/
def ghashMul (x v : Nat) : Nat :=
  ((List.range 128).foldl (fun (p : Nat × Nat) i =>
    (if bit x (127 - i) = 1 then Nat.xor p.1 p.2 else p.1,
     if p.2 % 2 = 1 then Nat.xor (p.2 / 2) (0xE1 * 2 ^ 120) else p.2 / 2)) (0, v)).1

/-- GHASH of a byte list padded to blocks. -/
def ghash (h : Nat) (l : List Byte) : Nat :=
  (chunksOf 16 (l.length / 16 + 1) l).foldl (fun y b => ghashMul (Nat.xor y (beNat b)) h) 0

/-- A byte list padded with zeros to whole blocks of 16. -/
def pad16 (l : List Byte) : List Byte := l ++ List.replicate ((16 - l.length % 16) % 16) 0

/-- The key stream of AES-256 in counter mode under a 12-byte IV, from counter 2. -/
def gcmStream (key iv : List Byte) (n : Nat) : List Byte :=
  (List.range ((n + 15) / 16)).flatMap (fun i => aesBlock key (iv ++ beBytes 4 (i + 2)))

/-- The tag of AES-256-GCM over additional data and ciphertext. -/
def gcmTag (key iv aad ct : List Byte) : List Byte :=
  let h := beNat (aesBlock key (List.replicate 16 0))
  let s := ghash h (pad16 aad ++ pad16 ct ++ beBytes 8 (8 * aad.length) ++ beBytes 8 (8 * ct.length))
  xorBytes (beBytes 16 s) (aesBlock key (iv ++ beBytes 4 1))

/-- Encryption and decryption in counter mode. -/
def gcmCrypt (key iv text : List Byte) : List Byte := xorBytes text (gcmStream key iv text.length)

end Sys2Proof.Machine
end

