-- ==== Sys2Proof/Config.lean ====
section
/-! DEFINITION. The free values: what the spec leaves open and the hardware settles. Each is an opaque constant with no body, so
nothing can be proved about the value it takes. -/

namespace Sys2Proof.Config

/-- The `n`-th open value of the run, where the spec says that some value results and does not say which. -/
opaque freeWord : Nat → Word

/-- The number of an action in a compat action record, R343: the spec lists the actions and gives no codes. -/
opaque actionCode : Nat → Nat

/-- The requester in the data of POWER_CYCLE_REQUEST, Table 12-4: the spec gives no codes. -/
opaque requesterCode : Nat → Nat

/-- The answer to the GETSTATUS common command, R339, from STATUS. -/
opaque getStatus : Nat → Nat

/-- The position, in the group with a GID, of a source package, R258: a segment names its source by package number only. -/
opaque positionOf : Nat → Nat → Nat

/-- The record that logs STRAP_BAD, R19, of which the spec gives neither code nor class nor data: each from GLB_STRAP. -/
opaque strapCode : Nat → Nat
opaque strapClass : Nat → Nat
opaque strapData : Nat → Nat

end Sys2Proof.Config
end

