-- ==== Sys2Proof/Machine/Regs.lean ====
section
/-! DEFINITION. The register map: every register field that the register tables of the spec give, one definition a
field, with its block, offset, stride, width, access type (Table 0-5) and reset value. The tables are those of chapters
00 to 15; Table 15-1 gives the pages and Table 15-2 the common header. A field wider than 32 bits lies over consecutive
words, the low word first. -/

namespace Sys2Proof.Machine

/-- Access types of a register field, R5, Table 0-5. -/
inductive Access where
  /-- read only: a write is discarded -/
  | ro
  /-- read and write -/
  | rw
  /-- each 1 written clears the bit -/
  | w1c
  /-- reads 0; a write performs the action -/
  | wo
  /-- a write goes to a transaction's shadow, R409 -/
  | rwt
  /-- as rw while unlocked, R423 -/
  | rwl
  deriving DecidableEq, Repr

/-- The blocks of the page map, R417 Table 15-1; `common` is the header of every page (its instance is the page number)
and `cte` the circuit table behind the CT_W and CT_RUN windows of the CIR page. -/
inductive Block where
  /-- GLB -/
  | glb
  /-- CFG -/
  | cfg
  /-- FLT -/
  | flt
  /-- HNG -/
  | hng
  /-- PWR -/
  | pwr
  /-- CLK -/
  | clk
  /-- THM -/
  | thm
  /-- SEC -/
  | sec
  /-- SOH -/
  | soh
  /-- UPD -/
  | upd
  /-- CNT -/
  | cnt
  /-- STW -/
  | stw
  /-- CIR -/
  | cir
  /-- HST_n -/
  | hst
  /-- CE_d -/
  | ce
  /-- LNK_nn -/
  | lnk
  /-- MEM_nn -/
  | mem
  /-- STC_nn -/
  | stc
  /-- SFB_d -/
  | sfb
  /-- TILE_nnn -/
  | tile
  /-- DARN -/
  | darn
  /-- CTX_nn -/
  | ctx
  /-- the header of every page -/
  | common
  /-- the 1,024 circuit table entries -/
  | cte
  deriving DecidableEq, Repr

/-- First page of a block, Table 15-1. The circuit table lies beyond the 4,096 pages, where no access reaches. -/
def Block.base : Block → Nat
  | .glb => 0x000
  | .cfg => 0x001
  | .flt => 0x002
  | .hng => 0x003
  | .pwr => 0x004
  | .clk => 0x005
  | .thm => 0x006
  | .sec => 0x007
  | .soh => 0x008
  | .upd => 0x009
  | .cnt => 0x00A
  | .stw => 0x00B
  | .cir => 0x00C
  | .hst => 0x010
  | .ce => 0x020
  | .lnk => 0x030
  | .mem => 0x040
  | .stc => 0x050
  | .sfb => 0x060
  | .tile => 0x100
  | .darn => 0x200
  | .ctx => 0x300
  | .common => 0
  | .cte => 0x1000

/-- Number of pages of a block, Table 15-1. -/
def Block.pages : Block → Nat
  | .glb => 1
  | .cfg => 1
  | .flt => 1
  | .hng => 1
  | .pwr => 1
  | .clk => 1
  | .thm => 1
  | .sec => 1
  | .soh => 1
  | .upd => 1
  | .cnt => 1
  | .stw => 1
  | .cir => 1
  | .hst => 2
  | .ce => 4
  | .lnk => 16
  | .mem => 12
  | .stc => 12
  | .sfb => 4
  | .tile => 176
  | .darn => 1
  | .ctx => 64
  | .common => 4096
  | .cte => 1

/-- Type code of a block, Table 15-1. -/
def Block.typeCode : Block → Nat
  | .glb => 0x01
  | .cfg => 0x02
  | .flt => 0x03
  | .hng => 0x04
  | .pwr => 0x05
  | .clk => 0x06
  | .thm => 0x07
  | .sec => 0x08
  | .soh => 0x09
  | .upd => 0x0A
  | .cnt => 0x0B
  | .stw => 0x0C
  | .cir => 0x0D
  | .hst => 0x10
  | .ce => 0x20
  | .lnk => 0x30
  | .mem => 0x40
  | .stc => 0x50
  | .sfb => 0x60
  | .tile => 0x70
  | .darn => 0x80
  | .ctx => 0x90
  | .common => 0
  | .cte => 0

/-- The mapped blocks of Table 15-1 in page order. -/
def Block.mapped : List Block :=
  [.glb, .cfg, .flt, .hng, .pwr, .clk, .thm, .sec, .soh, .upd, .cnt, .stw, .cir, .hst, .ce, .lnk, .mem, .stc, .sfb, .tile, .darn, .ctx]

/-- The block whose pages hold page `p`, R417; none for an unmapped page. -/
def Block.ofPage (p : Nat) : Option Block :=
  Block.mapped.find? (fun b => decide (b.base ≤ p) && decide (p < b.base + b.pages))

/-- One field of the register map. Element `i` of an array of registers lies `stride * i` bytes on. -/
structure Field where
  block  : Block
  off    : Nat
  stride : Nat
  count  : Nat
  lo     : Nat
  width  : Nat
  acc    : Access
  reset  : Nat
  deriving DecidableEq, Repr

/-- The place of element `i` of a field of instance `inst` of its block in the register map: page, byte offset and
low bit in one number. -/
def Field.key (f : Field) (inst i : Nat) : Nat :=
  ((f.block.base + inst) * 4096 + f.off + f.stride * i) * 32 + f.lo

/-- Table 0-3. -/
def Reg.GLB_DEVID_PART_CODE : Field := ⟨.glb, 0x100, 0x0, 1, 20, 12, .ro, 2824⟩
/-- Table 0-3. -/
def Reg.GLB_DEVID_FAMILY : Field := ⟨.glb, 0x100, 0x0, 1, 16, 4, .ro, 1⟩
/-- Table 0-3. -/
def Reg.GLB_DEVID_STEP_LETTER : Field := ⟨.glb, 0x100, 0x0, 1, 8, 8, .ro, 66⟩
/-- Table 0-3. -/
def Reg.GLB_DEVID_STEP_NUM : Field := ⟨.glb, 0x100, 0x0, 1, 0, 8, .ro, 0⟩

/-- The fields of Table 0-3. -/
def Reg.tab0_3 : List Field :=
  [Reg.GLB_DEVID_PART_CODE, Reg.GLB_DEVID_FAMILY, Reg.GLB_DEVID_STEP_LETTER, Reg.GLB_DEVID_STEP_NUM]

/-- Table 1-7; reset: from straps. -/
def Reg.GLB_STRAP_LOC_X : Field := ⟨.glb, 0x104, 0x0, 1, 0, 2, .ro, 0⟩
/-- Table 1-7; reset: from straps. -/
def Reg.GLB_STRAP_LOC_Y : Field := ⟨.glb, 0x104, 0x0, 1, 2, 2, .ro, 0⟩
/-- Table 1-7; reset: from straps. -/
def Reg.GLB_STRAP_LOC_Z : Field := ⟨.glb, 0x104, 0x0, 1, 4, 2, .ro, 0⟩
/-- Table 1-7; reset: from straps. -/
def Reg.GLB_STRAP_BLOCK : Field := ⟨.glb, 0x104, 0x0, 1, 6, 10, .ro, 0⟩
/-- Table 1-7; reset: from straps. -/
def Reg.GLB_STRAP_VAR : Field := ⟨.glb, 0x104, 0x0, 1, 16, 2, .ro, 0⟩
/-- Table 1-7; reset: from straps. -/
def Reg.GLB_STRAP_STRAP_BAD : Field := ⟨.glb, 0x104, 0x0, 1, 18, 1, .ro, 0⟩

/-- The fields of Table 1-7. -/
def Reg.tab1_7 : List Field :=
  [Reg.GLB_STRAP_LOC_X, Reg.GLB_STRAP_LOC_Y, Reg.GLB_STRAP_LOC_Z, Reg.GLB_STRAP_BLOCK, Reg.GLB_STRAP_VAR,
   Reg.GLB_STRAP_STRAP_BAD]

/-- Table 2-3. -/
def Reg.CFG_SG_FIRST : Field := ⟨.cfg, 0x100, 0x4, 8, 0, 8, .rwt, 0⟩
/-- Table 2-3. -/
def Reg.CFG_SG_SIZE : Field := ⟨.cfg, 0x100, 0x4, 8, 8, 6, .rwt, 0⟩
/-- Table 2-3. -/
def Reg.CFG_SG_LIVE : Field := ⟨.cfg, 0x100, 0x4, 8, 16, 1, .ro, 0⟩
/-- Table 2-3. -/
def Reg.CFG_SG_PART : Field := ⟨.cfg, 0x100, 0x4, 8, 20, 2, .ro, 0⟩

/-- The fields of Table 2-3. -/
def Reg.tab2_3 : List Field :=
  [Reg.CFG_SG_FIRST, Reg.CFG_SG_SIZE, Reg.CFG_SG_LIVE, Reg.CFG_SG_PART]

/-- Table 2-4. -/
def Reg.CTX_EXEC_MODE : Field := ⟨.ctx, 0x100, 0x0, 1, 0, 2, .rw, 0⟩
/-- Table 2-4. -/
def Reg.CTX_EXEC_PLACE : Field := ⟨.ctx, 0x100, 0x0, 1, 2, 2, .rw, 0⟩
/-- Table 2-4. -/
def Reg.CTX_EXEC_SPLIT_LOG : Field := ⟨.ctx, 0x100, 0x0, 1, 4, 3, .rw, 0⟩
/-- Table 2-4. -/
def Reg.CTX_EXEC_NSEQ : Field := ⟨.ctx, 0x100, 0x0, 1, 8, 16, .rw, 0⟩
/-- Table 2-4. -/
def Reg.CTX_EXEC_STEP_BUSY : Field := ⟨.ctx, 0x100, 0x0, 1, 31, 1, .ro, 0⟩

/-- The fields of Table 2-4. -/
def Reg.tab2_4 : List Field :=
  [Reg.CTX_EXEC_MODE, Reg.CTX_EXEC_PLACE, Reg.CTX_EXEC_SPLIT_LOG, Reg.CTX_EXEC_NSEQ, Reg.CTX_EXEC_STEP_BUSY]

/-- Table 2-5. -/
def Reg.CTX_STEP_NUM : Field := ⟨.ctx, 0x104, 0x0, 1, 0, 32, .rw, 0⟩
/-- Table 2-5. -/
def Reg.CTX_SG_MASK : Field := ⟨.ctx, 0x108, 0x0, 1, 0, 8, .rw, 0⟩

/-- The fields of Table 2-5. -/
def Reg.tab2_5 : List Field :=
  [Reg.CTX_STEP_NUM, Reg.CTX_SG_MASK]

/-- Table 3-5. -/
def Reg.FMT_A_VALID : Field := ⟨.cfg, 0x200, 0x8, 64, 0, 1, .rwt, 0⟩
/-- Table 3-5. -/
def Reg.FMT_A_KIND : Field := ⟨.cfg, 0x200, 0x8, 64, 1, 1, .rwt, 0⟩
/-- Table 3-5. -/
def Reg.FMT_A_SIGN : Field := ⟨.cfg, 0x200, 0x8, 64, 2, 1, .rwt, 0⟩
/-- Table 3-5. -/
def Reg.FMT_A_SUB : Field := ⟨.cfg, 0x200, 0x8, 64, 3, 1, .rwt, 0⟩
/-- Table 3-5. -/
def Reg.FMT_A_WIDTH : Field := ⟨.cfg, 0x200, 0x8, 64, 4, 5, .rwt, 0⟩
/-- Table 3-5. -/
def Reg.FMT_A_EXP_BITS : Field := ⟨.cfg, 0x200, 0x8, 64, 9, 4, .rwt, 0⟩
/-- Table 3-5. -/
def Reg.FMT_A_SIG_BITS : Field := ⟨.cfg, 0x200, 0x8, 64, 13, 3, .rwt, 0⟩
/-- Table 3-5. -/
def Reg.FMT_A_BIAS : Field := ⟨.cfg, 0x200, 0x8, 64, 16, 8, .rwt, 0⟩
/-- Table 3-5. -/
def Reg.FMT_A_SPECIAL : Field := ⟨.cfg, 0x200, 0x8, 64, 24, 3, .rwt, 0⟩
/-- Table 3-5. -/
def Reg.FMT_A_LANE : Field := ⟨.cfg, 0x200, 0x8, 64, 27, 2, .ro, 0⟩

/-- The fields of Table 3-5. -/
def Reg.tab3_5 : List Field :=
  [Reg.FMT_A_VALID, Reg.FMT_A_KIND, Reg.FMT_A_SIGN, Reg.FMT_A_SUB, Reg.FMT_A_WIDTH, Reg.FMT_A_EXP_BITS,
   Reg.FMT_A_SIG_BITS, Reg.FMT_A_BIAS, Reg.FMT_A_SPECIAL, Reg.FMT_A_LANE]

/-- Table 3-6. -/
def Reg.FMT_B_BLOCK : Field := ⟨.cfg, 0x204, 0x8, 64, 0, 2, .rwt, 0⟩
/-- Table 3-6. -/
def Reg.FMT_B_SCALE : Field := ⟨.cfg, 0x204, 0x8, 64, 2, 2, .rwt, 0⟩
/-- Table 3-6. -/
def Reg.FMT_B_SAT : Field := ⟨.cfg, 0x204, 0x8, 64, 4, 1, .rwt, 0⟩

/-- The fields of Table 3-6. -/
def Reg.tab3_6 : List Field :=
  [Reg.FMT_B_BLOCK, Reg.FMT_B_SCALE, Reg.FMT_B_SAT]

/-- Table 3-11. -/
def Reg.CTX_SEED_LO : Field := ⟨.ctx, 0x110, 0x0, 1, 0, 32, .rw, 0⟩
/-- Table 3-11. -/
def Reg.CTX_SEED_HI : Field := ⟨.ctx, 0x114, 0x0, 1, 0, 32, .rw, 0⟩

/-- The fields of Table 3-11. -/
def Reg.tab3_11 : List Field :=
  [Reg.CTX_SEED_LO, Reg.CTX_SEED_HI]

/-- Table 3-12. -/
def Reg.PX_STAT_LOADING : Field := ⟨.tile, 0x100, 0x0, 1, 0, 1, .ro, 0⟩
/-- Table 3-12. -/
def Reg.PX_STAT_STREAMING : Field := ⟨.tile, 0x100, 0x0, 1, 1, 1, .ro, 0⟩
/-- Table 3-12. -/
def Reg.PX_STAT_DRAINING : Field := ⟨.tile, 0x100, 0x0, 1, 2, 1, .ro, 0⟩
/-- Table 3-12. -/
def Reg.PX_STAT_STALL_MOVE : Field := ⟨.tile, 0x100, 0x0, 1, 3, 1, .ro, 0⟩
/-- Table 3-12. -/
def Reg.PX_STAT_STALL_DRAIN : Field := ⟨.tile, 0x100, 0x0, 1, 4, 1, .ro, 0⟩
/-- Table 3-12. -/
def Reg.PX_STAT_CMDQ : Field := ⟨.tile, 0x100, 0x0, 1, 8, 2, .ro, 0⟩

/-- The fields of Table 3-12. -/
def Reg.tab3_12 : List Field :=
  [Reg.PX_STAT_LOADING, Reg.PX_STAT_STREAMING, Reg.PX_STAT_DRAINING, Reg.PX_STAT_STALL_MOVE,
   Reg.PX_STAT_STALL_DRAIN, Reg.PX_STAT_CMDQ]

/-- Table 3-13. -/
def Reg.PX_FLAGS_BREACH : Field := ⟨.tile, 0x104, 0x0, 1, 0, 1, .w1c, 0⟩
/-- Table 3-13. -/
def Reg.PX_FLAGS_INEXACT : Field := ⟨.tile, 0x104, 0x0, 1, 1, 1, .w1c, 0⟩
/-- Table 3-13. -/
def Reg.PX_FLAGS_NAN_SEEN : Field := ⟨.tile, 0x104, 0x0, 1, 2, 1, .w1c, 0⟩
/-- Table 3-13. -/
def Reg.PX_FLAGS_SAT_OUT : Field := ⟨.tile, 0x104, 0x0, 1, 3, 1, .w1c, 0⟩
/-- Table 3-13. -/
def Reg.PX_FLAGS_SCALE_NAN : Field := ⟨.tile, 0x104, 0x0, 1, 4, 1, .w1c, 0⟩
/-- Table 3-13. -/
def Reg.PX_FLAGS_DESC_ERR : Field := ⟨.tile, 0x104, 0x0, 1, 5, 1, .w1c, 0⟩

/-- The fields of Table 3-13. -/
def Reg.tab3_13 : List Field :=
  [Reg.PX_FLAGS_BREACH, Reg.PX_FLAGS_INEXACT, Reg.PX_FLAGS_NAN_SEEN, Reg.PX_FLAGS_SAT_OUT,
   Reg.PX_FLAGS_SCALE_NAN, Reg.PX_FLAGS_DESC_ERR]

/-- Table 3-14. -/
def Reg.PX_LAST_FLAGS : Field := ⟨.tile, 0x108, 0x0, 1, 0, 6, .ro, 0⟩
/-- Table 3-14. -/
def Reg.PX_PEAK_EXP : Field := ⟨.tile, 0x108, 0x0, 1, 8, 11, .ro, 1024⟩
/-- Table 3-14. -/
def Reg.PX_CMD_SERIAL : Field := ⟨.tile, 0x108, 0x0, 1, 20, 12, .ro, 0⟩
/-- Table 3-14. -/
def Reg.PX_BREACH_N : Field := ⟨.tile, 0x10C, 0x0, 1, 0, 16, .ro, 0⟩
/-- Table 3-14. -/
def Reg.PX_NAN_N : Field := ⟨.tile, 0x10C, 0x0, 1, 16, 16, .ro, 0⟩

/-- The fields of Table 3-14. -/
def Reg.tab3_14 : List Field :=
  [Reg.PX_LAST_FLAGS, Reg.PX_PEAK_EXP, Reg.PX_CMD_SERIAL, Reg.PX_BREACH_N, Reg.PX_NAN_N]

/-- Table 4-13. -/
def Reg.CTX_LOAD_LOAD : Field := ⟨.ctx, 0x120, 0x0, 1, 0, 1, .wo, 0⟩
/-- Table 4-13. -/
def Reg.CTX_LOAD_CURVE : Field := ⟨.ctx, 0x120, 0x0, 1, 1, 1, .wo, 0⟩
/-- Table 4-13. -/
def Reg.CTX_LOAD_STATE : Field := ⟨.ctx, 0x124, 0x0, 1, 0, 2, .ro, 0⟩
/-- Table 4-13. -/
def Reg.CTX_LOAD_REFUSED : Field := ⟨.ctx, 0x124, 0x0, 1, 2, 1, .ro, 0⟩
/-- Table 4-13. -/
def Reg.CTX_LOAD_FAIL_TILES : Field := ⟨.ctx, 0x124, 0x0, 1, 3, 8, .ro, 0⟩
/-- Table 4-13. -/
def Reg.CTX_LOAD_CURVE_STATE : Field := ⟨.ctx, 0x124, 0x0, 1, 11, 2, .ro, 0⟩
/-- Table 4-13. -/
def Reg.CTX_LOAD_CURVE_REFUSED : Field := ⟨.ctx, 0x124, 0x0, 1, 13, 1, .ro, 0⟩
/-- Table 4-13. -/
def Reg.CTX_LOAD_CURVE_FAIL_TILES : Field := ⟨.ctx, 0x124, 0x0, 1, 14, 8, .ro, 0⟩
/-- Table 4-13. -/
def Reg.CTX_LOAD_SRC : Field := ⟨.ctx, 0x128, 0x0, 1, 0, 20, .rw, 0⟩
/-- Table 4-13. -/
def Reg.CTX_LOAD_LEN : Field := ⟨.ctx, 0x12C, 0x0, 1, 0, 19, .rw, 0⟩
/-- Table 4-13. -/
def Reg.CTX_PROG_DIGEST : Field := ⟨.ctx, 0x140, 0x0, 1, 0, 256, .rw, 0⟩

/-- The fields of Table 4-13. -/
def Reg.tab4_13 : List Field :=
  [Reg.CTX_LOAD_LOAD, Reg.CTX_LOAD_CURVE, Reg.CTX_LOAD_STATE, Reg.CTX_LOAD_REFUSED, Reg.CTX_LOAD_FAIL_TILES,
   Reg.CTX_LOAD_CURVE_STATE, Reg.CTX_LOAD_CURVE_REFUSED, Reg.CTX_LOAD_CURVE_FAIL_TILES, Reg.CTX_LOAD_SRC,
   Reg.CTX_LOAD_LEN, Reg.CTX_PROG_DIGEST]

/-- Table 4-14. -/
def Reg.FN_STAT_RUNNING : Field := ⟨.tile, 0x110, 0x0, 1, 0, 1, .ro, 0⟩
/-- Table 4-14. -/
def Reg.FN_STAT_WAIT : Field := ⟨.tile, 0x110, 0x0, 1, 1, 3, .ro, 0⟩
/-- Table 4-14. -/
def Reg.FN_STAT_CTX : Field := ⟨.tile, 0x110, 0x0, 1, 4, 6, .ro, 0⟩
/-- Table 4-14. -/
def Reg.FN_STAT_PC : Field := ⟨.tile, 0x110, 0x0, 1, 16, 14, .ro, 0⟩

/-- The fields of Table 4-14. -/
def Reg.tab4_14 : List Field :=
  [Reg.FN_STAT_RUNNING, Reg.FN_STAT_WAIT, Reg.FN_STAT_CTX, Reg.FN_STAT_PC]

/-- Table 4-15. -/
def Reg.FN_FP_NAN : Field := ⟨.tile, 0x114, 0x0, 1, 0, 1, .w1c, 0⟩
/-- Table 4-15. -/
def Reg.FN_FP_SAT : Field := ⟨.tile, 0x114, 0x0, 1, 1, 1, .w1c, 0⟩
/-- Table 4-15. -/
def Reg.FN_STAGE_SERIAL : Field := ⟨.tile, 0x118, 0x0, 1, 0, 24, .ro, 0⟩
/-- Table 4-15. -/
def Reg.FN_BCTX : Field := ⟨.tile, 0x118, 0x0, 1, 24, 6, .ro, 0⟩
/-- Table 4-15. -/
def Reg.FN_LAST_ABANDONED : Field := ⟨.tile, 0x118, 0x0, 1, 30, 1, .ro, 0⟩
/-- Table 4-15. -/
def Reg.FN_MISSING : Field := ⟨.tile, 0x11C, 0x0, 1, 0, 7, .ro, 0⟩
/-- Table 4-15. -/
def Reg.FN_CHUNK_64 : Field := ⟨.tile, 0x11C, 0x0, 1, 7, 1, .ro, 0⟩
/-- Table 4-15. -/
def Reg.FN_DIGEST_OK : Field := ⟨.tile, 0x11C, 0x0, 1, 8, 1, .ro, 0⟩
/-- Table 4-15. -/
def Reg.FN_DIGEST_BAD : Field := ⟨.tile, 0x11C, 0x0, 1, 9, 1, .ro, 0⟩
/-- Table 4-15. -/
def Reg.FN_LCTX : Field := ⟨.tile, 0x11C, 0x0, 1, 10, 6, .ro, 0⟩
/-- Table 4-15. -/
def Reg.FN_CHUNK_LO : Field := ⟨.tile, 0x120, 0x0, 1, 0, 32, .ro, 0⟩
/-- Table 4-15. -/
def Reg.FN_CHUNK_HI : Field := ⟨.tile, 0x124, 0x0, 1, 0, 32, .ro, 0⟩

/-- The fields of Table 4-15. -/
def Reg.tab4_15 : List Field :=
  [Reg.FN_FP_NAN, Reg.FN_FP_SAT, Reg.FN_STAGE_SERIAL, Reg.FN_BCTX, Reg.FN_LAST_ABANDONED, Reg.FN_MISSING,
   Reg.FN_CHUNK_64, Reg.FN_DIGEST_OK, Reg.FN_DIGEST_BAD, Reg.FN_LCTX, Reg.FN_CHUNK_LO, Reg.FN_CHUNK_HI]

/-- Table 4-16. -/
def Reg.FN_CT_VALID : Field := ⟨.tile, 0x140, 0x4, 8, 0, 1, .ro, 0⟩
/-- Table 4-16. -/
def Reg.FN_CT_INUSE : Field := ⟨.tile, 0x140, 0x4, 8, 1, 1, .ro, 0⟩
/-- Table 4-16. -/
def Reg.FN_CT_NSEG : Field := ⟨.tile, 0x140, 0x4, 8, 2, 10, .ro, 0⟩
/-- Table 4-16. -/
def Reg.FN_CT_DIG : Field := ⟨.tile, 0x200, 0x20, 8, 0, 256, .ro, 0⟩

/-- The fields of Table 4-16. -/
def Reg.tab4_16 : List Field :=
  [Reg.FN_CT_VALID, Reg.FN_CT_INUSE, Reg.FN_CT_NSEG, Reg.FN_CT_DIG]

/-- Table 4-18. -/
def Reg.PEG_COUNT : Field := ⟨.tile, 0x400, 0x4, 64, 0, 24, .ro, 0⟩
/-- Table 4-18. -/
def Reg.PEG_HELD : Field := ⟨.tile, 0x400, 0x4, 64, 24, 1, .ro, 0⟩
/-- Table 4-18. -/
def Reg.PEG_OWNER : Field := ⟨.tile, 0x400, 0x4, 64, 25, 6, .ro, 0⟩

/-- The fields of Table 4-18. -/
def Reg.tab4_18 : List Field :=
  [Reg.PEG_COUNT, Reg.PEG_HELD, Reg.PEG_OWNER]

/-- Table 5-3. -/
def Reg.RQ_VALID : Field := ⟨.tile, 0x500, 0x10, 16, 0, 1, .rwt, 0⟩
/-- Table 5-3. -/
def Reg.RQ_CTX : Field := ⟨.tile, 0x500, 0x10, 16, 1, 6, .rwt, 0⟩
/-- Table 5-3. -/
def Reg.RQ_SLOT_SZ : Field := ⟨.tile, 0x500, 0x10, 16, 8, 6, .rwt, 0⟩
/-- Table 5-3. -/
def Reg.RQ_PRODUCER : Field := ⟨.tile, 0x500, 0x10, 16, 16, 8, .rwt, 0⟩
/-- Table 5-3. -/
def Reg.RQ_DATA_PEG : Field := ⟨.tile, 0x500, 0x10, 16, 24, 6, .rwt, 0⟩
/-- Table 5-3. -/
def Reg.RQ_BASE : Field := ⟨.tile, 0x504, 0x10, 16, 0, 16, .rwt, 0⟩
/-- Table 5-3. -/
def Reg.RQ_QSLOTS : Field := ⟨.tile, 0x504, 0x10, 16, 16, 11, .rwt, 0⟩
/-- Table 5-3. -/
def Reg.RQ_QTAIL : Field := ⟨.tile, 0x508, 0x10, 16, 0, 10, .ro, 0⟩
/-- Table 5-3. -/
def Reg.RQ_HIWATER : Field := ⟨.tile, 0x50C, 0x10, 16, 0, 11, .ro, 0⟩

/-- The fields of Table 5-3. -/
def Reg.tab5_3 : List Field :=
  [Reg.RQ_VALID, Reg.RQ_CTX, Reg.RQ_SLOT_SZ, Reg.RQ_PRODUCER, Reg.RQ_DATA_PEG, Reg.RQ_BASE, Reg.RQ_QSLOTS,
   Reg.RQ_QTAIL, Reg.RQ_HIWATER]

/-- Table 5-4. -/
def Reg.SQ_VALID : Field := ⟨.tile, 0x600, 0x8, 16, 0, 1, .rwt, 0⟩
/-- Table 5-4. -/
def Reg.SQ_CTX : Field := ⟨.tile, 0x600, 0x8, 16, 1, 6, .rwt, 0⟩
/-- Table 5-4. -/
def Reg.SQ_DEST : Field := ⟨.tile, 0x600, 0x8, 16, 8, 8, .rwt, 0⟩
/-- Table 5-4. -/
def Reg.SQ_DEST_Q : Field := ⟨.tile, 0x600, 0x8, 16, 16, 4, .rwt, 0⟩
/-- Table 5-4. -/
def Reg.SQ_SPACE_PEG : Field := ⟨.tile, 0x600, 0x8, 16, 20, 6, .rwt, 0⟩
/-- Table 5-4. -/
def Reg.SQ_QHEAD : Field := ⟨.tile, 0x604, 0x8, 16, 0, 10, .ro, 0⟩
/-- Table 5-4. -/
def Reg.SQ_QSLOTS : Field := ⟨.tile, 0x604, 0x8, 16, 16, 11, .rwt, 0⟩

/-- The fields of Table 5-4. -/
def Reg.tab5_4 : List Field :=
  [Reg.SQ_VALID, Reg.SQ_CTX, Reg.SQ_DEST, Reg.SQ_DEST_Q, Reg.SQ_SPACE_PEG, Reg.SQ_QHEAD, Reg.SQ_QSLOTS]

/-- Table 5-6. -/
def Reg.CFG_SGM_CH : Field := ⟨.cfg, 0x120, 0x4, 8, 0, 3, .rwt, 0⟩
/-- Table 5-6. -/
def Reg.CFG_SGM_RCH : Field := ⟨.cfg, 0x120, 0x4, 8, 3, 3, .rwt, 0⟩
/-- Table 5-6. -/
def Reg.CFG_SGM_MEN : Field := ⟨.cfg, 0x120, 0x4, 8, 6, 1, .rwt, 0⟩

/-- The fields of Table 5-6. -/
def Reg.tab5_6 : List Field :=
  [Reg.CFG_SGM_CH, Reg.CFG_SGM_RCH, Reg.CFG_SGM_MEN]

/-- Table 5-7. -/
def Reg.CTX_MFEED : Field := ⟨.ctx, 0x160, 0x4, 8, 0, 32, .rw, 0⟩
/-- Table 5-7. -/
def Reg.CTX_MPOS : Field := ⟨.ctx, 0x180, 0x4, 8, 0, 24, .ro, 0⟩

/-- The fields of Table 5-7. -/
def Reg.tab5_7 : List Field :=
  [Reg.CTX_MFEED, Reg.CTX_MPOS]

/-- Table 5-10. -/
def Reg.MCH_GROUP : Field := ⟨.sfb, 0x100, 0x4, 8, 0, 3, .ro, 0⟩
/-- Table 5-10. -/
def Reg.MCH_INUSE : Field := ⟨.sfb, 0x100, 0x4, 8, 3, 1, .ro, 0⟩
/-- Table 5-10. -/
def Reg.MCH_REPEAT : Field := ⟨.sfb, 0x100, 0x4, 8, 4, 1, .ro, 0⟩
/-- Table 5-10. -/
def Reg.MCH_CTX : Field := ⟨.sfb, 0x100, 0x4, 8, 5, 6, .ro, 0⟩
/-- Table 5-10. -/
def Reg.MCH_OPEN : Field := ⟨.sfb, 0x100, 0x4, 8, 11, 1, .ro, 0⟩
/-- Table 5-10. -/
def Reg.MCH_LAGGARD : Field := ⟨.sfb, 0x100, 0x4, 8, 12, 8, .ro, 0⟩

/-- The fields of Table 5-10. -/
def Reg.tab5_10 : List Field :=
  [Reg.MCH_GROUP, Reg.MCH_INUSE, Reg.MCH_REPEAT, Reg.MCH_CTX, Reg.MCH_OPEN, Reg.MCH_LAGGARD]

/-- Table 5-13. -/
def Reg.BE_UP : Field := ⟨.sfb, 0x300, 0x40, 5, 0, 1, .ro, 0⟩
/-- Table 5-13. -/
def Reg.BE_RETRYING : Field := ⟨.sfb, 0x300, 0x40, 5, 1, 1, .ro, 0⟩
/-- Table 5-13. -/
def Reg.BE_FENCED : Field := ⟨.sfb, 0x300, 0x40, 5, 2, 1, .ro, 0⟩
/-- Table 5-13. -/
def Reg.BR_CE_LIM : Field := ⟨.sfb, 0x304, 0x40, 5, 0, 16, .rw, 1000⟩
/-- Table 5-13. -/
def Reg.BR_FLITS : Field := ⟨.sfb, 0x310, 0x40, 5, 0, 64, .ro, 0⟩
/-- Table 5-13. -/
def Reg.BR_WCRED : Field := ⟨.sfb, 0x318, 0x40, 5, 0, 64, .ro, 0⟩
/-- Table 5-13. -/
def Reg.BR_REPLAY : Field := ⟨.sfb, 0x320, 0x40, 5, 0, 64, .ro, 0⟩
/-- Table 5-13. -/
def Reg.BR_CE : Field := ⟨.sfb, 0x328, 0x40, 5, 0, 64, .ro, 0⟩

/-- The fields of Table 5-13. -/
def Reg.tab5_13 : List Field :=
  [Reg.BE_UP, Reg.BE_RETRYING, Reg.BE_FENCED, Reg.BR_CE_LIM, Reg.BR_FLITS, Reg.BR_WCRED, Reg.BR_REPLAY,
   Reg.BR_CE]

/-- Table 6-4. -/
def Reg.LR_VALID : Field := ⟨.mem, 0x800, 0x20, 64, 0, 1, .rwt, 0⟩
/-- Table 6-4. -/
def Reg.LR_CTX : Field := ⟨.mem, 0x800, 0x20, 64, 1, 6, .rwt, 0⟩
/-- Table 6-4. -/
def Reg.LR_WRITE : Field := ⟨.mem, 0x800, 0x20, 64, 7, 1, .rwt, 0⟩
/-- Table 6-4. -/
def Reg.LR_TAGGED : Field := ⟨.mem, 0x800, 0x20, 64, 8, 1, .rwt, 0⟩
/-- Table 6-4. -/
def Reg.LR_HASH : Field := ⟨.mem, 0x800, 0x20, 64, 9, 1, .rwt, 0⟩
/-- Table 6-4. -/
def Reg.LR_BASE : Field := ⟨.mem, 0x800, 0x20, 64, 16, 16, .rwt, 0⟩
/-- Table 6-4. -/
def Reg.LR_SIZE : Field := ⟨.mem, 0x804, 0x20, 64, 0, 16, .rwt, 0⟩
/-- Table 6-4. -/
def Reg.LR_LLEN : Field := ⟨.mem, 0x808, 0x20, 64, 0, 20, .rwt, 0⟩
/-- Table 6-4. -/
def Reg.LR_DIGAREA : Field := ⟨.mem, 0x80C, 0x20, 64, 0, 32, .rwt, 0⟩
/-- Table 6-4. -/
def Reg.LR_STATE : Field := ⟨.mem, 0x810, 0x20, 64, 0, 2, .ro, 0⟩
/-- Table 6-4. -/
def Reg.LR_READERS : Field := ⟨.mem, 0x810, 0x20, 64, 2, 8, .ro, 0⟩
/-- Table 6-4. -/
def Reg.LR_LWAIT : Field := ⟨.mem, 0x810, 0x20, 64, 10, 1, .ro, 0⟩
/-- Table 6-4. -/
def Reg.LR_TAG : Field := ⟨.mem, 0x814, 0x20, 64, 0, 32, .ro, 0⟩
/-- Table 6-4. -/
def Reg.LR_CHUNKS : Field := ⟨.mem, 0x818, 0x20, 64, 0, 20, .ro, 0⟩

/-- The fields of Table 6-4. -/
def Reg.tab6_4 : List Field :=
  [Reg.LR_VALID, Reg.LR_CTX, Reg.LR_WRITE, Reg.LR_TAGGED, Reg.LR_HASH, Reg.LR_BASE, Reg.LR_SIZE, Reg.LR_LLEN,
   Reg.LR_DIGAREA, Reg.LR_STATE, Reg.LR_READERS, Reg.LR_LWAIT, Reg.LR_TAG, Reg.LR_CHUNKS]

/-- Table 6-13. -/
def Reg.MEM_ECC2 : Field := ⟨.mem, 0x100, 0x0, 1, 0, 1, .rwl, 0⟩
/-- Table 6-13. -/
def Reg.MEM_SCRUB_H : Field := ⟨.mem, 0x100, 0x0, 1, 8, 8, .rw, 24⟩
/-- Table 6-13. -/
def Reg.MEM_LANE_LIM : Field := ⟨.mem, 0x100, 0x0, 1, 16, 8, .rw, 32⟩
/-- Table 6-13. -/
def Reg.MEM_ROW_LIM : Field := ⟨.mem, 0x100, 0x0, 1, 24, 8, .rw, 8⟩
/-- Table 6-13. -/
def Reg.MEM_CH_UP : Field := ⟨.mem, 0x104, 0x0, 1, 0, 8, .ro, 0⟩
/-- Table 6-13. -/
def Reg.MEM_HOT : Field := ⟨.mem, 0x104, 0x0, 1, 8, 1, .ro, 0⟩
/-- Table 6-13. -/
def Reg.MEM_ZEROING : Field := ⟨.mem, 0x104, 0x0, 1, 9, 1, .ro, 0⟩
/-- Table 6-13. -/
def Reg.MEM_LANE_FREE : Field := ⟨.mem, 0x104, 0x0, 1, 10, 5, .ro, 16⟩
/-- Table 6-13. -/
def Reg.MEM_ROW_FREE : Field := ⟨.mem, 0x104, 0x0, 1, 16, 11, .ro, 1024⟩
/-- Table 6-13. -/
def Reg.MEM_REPAIRS : Field := ⟨.mem, 0x108, 0x0, 1, 0, 10, .ro, 0⟩
/-- Table 6-13. -/
def Reg.MEM_DIG_SEL : Field := ⟨.mem, 0x120, 0x0, 1, 0, 6, .rw, 0⟩
/-- Table 6-13. -/
def Reg.MEM_DIG_VALID : Field := ⟨.mem, 0x120, 0x0, 1, 6, 1, .ro, 0⟩
/-- Table 6-13. -/
def Reg.MEM_DIG : Field := ⟨.mem, 0x140, 0x0, 1, 0, 256, .ro, 0⟩
/-- Table 6-13. -/
def Reg.MEM_FDONE : Field := ⟨.mem, 0x180, 0x4, 16, 0, 32, .ro, 0⟩
/-- Table 6-13. -/
def Reg.FS_OPEN : Field := ⟨.mem, 0x200, 0x4, 64, 0, 1, .ro, 0⟩
/-- Table 6-13. -/
def Reg.FS_CTX : Field := ⟨.mem, 0x200, 0x4, 64, 1, 6, .ro, 0⟩
/-- Table 6-13. -/
def Reg.FS_MARKS : Field := ⟨.mem, 0x200, 0x4, 64, 7, 6, .ro, 0⟩
/-- Table 6-13. -/
def Reg.FS_HELD : Field := ⟨.mem, 0x200, 0x4, 64, 13, 6, .ro, 0⟩

/-- The fields of Table 6-13. -/
def Reg.tab6_13 : List Field :=
  [Reg.MEM_ECC2, Reg.MEM_SCRUB_H, Reg.MEM_LANE_LIM, Reg.MEM_ROW_LIM, Reg.MEM_CH_UP, Reg.MEM_HOT,
   Reg.MEM_ZEROING, Reg.MEM_LANE_FREE, Reg.MEM_ROW_FREE, Reg.MEM_REPAIRS, Reg.MEM_DIG_SEL, Reg.MEM_DIG_VALID,
   Reg.MEM_DIG, Reg.MEM_FDONE, Reg.FS_OPEN, Reg.FS_CTX, Reg.FS_MARKS, Reg.FS_HELD]

/-- Table 6-14. -/
def Reg.STC_BUSY : Field := ⟨.stc, 0x100, 0x0, 1, 0, 1, .ro, 0⟩
/-- Table 6-14. -/
def Reg.STC_CTX : Field := ⟨.stc, 0x100, 0x0, 1, 1, 6, .ro, 0⟩
/-- Table 6-14. -/
def Reg.STC_REC : Field := ⟨.stc, 0x100, 0x0, 1, 8, 16, .ro, 0⟩
/-- Table 6-14. -/
def Reg.STC_QUEUED : Field := ⟨.stc, 0x100, 0x0, 1, 24, 8, .ro, 0⟩
/-- Table 6-14. -/
def Reg.STC_LOAD : Field := ⟨.stc, 0x110, 0x0, 1, 0, 1, .wo, 0⟩
/-- Table 6-14. -/
def Reg.STC_SLOT : Field := ⟨.stc, 0x114, 0x0, 1, 0, 3, .rw, 4⟩
/-- Table 6-14. -/
def Reg.STC_RULE_SRC : Field := ⟨.stc, 0x118, 0x0, 1, 0, 20, .rw, 0⟩
/-- Table 6-14. -/
def Reg.STC_RULE_LEN : Field := ⟨.stc, 0x11C, 0x0, 1, 0, 11, .rw, 0⟩
/-- Table 6-14. -/
def Reg.STC_STATE : Field := ⟨.stc, 0x120, 0x0, 1, 0, 2, .ro, 0⟩
/-- Table 6-14. -/
def Reg.STC_REFUSED : Field := ⟨.stc, 0x120, 0x0, 1, 2, 1, .ro, 0⟩
/-- Table 6-14; reset: 0 for n >= 4. -/
def Reg.STC_RSLOT_VALID : Field := ⟨.stc, 0x140, 0x4, 8, 0, 1, .ro, 0⟩
/-- Table 6-14; reset: 1 for n < 4. -/
def Reg.STC_RSLOT_BUILTIN : Field := ⟨.stc, 0x140, 0x4, 8, 1, 1, .ro, 1⟩
/-- Table 6-14. -/
def Reg.STC_RSLOT_NINS : Field := ⟨.stc, 0x140, 0x4, 8, 2, 6, .ro, 0⟩
/-- Table 6-14. -/
def Reg.STC_RDIG_SEL : Field := ⟨.stc, 0x160, 0x0, 1, 0, 3, .rw, 0⟩
/-- Table 6-14. -/
def Reg.STC_RDIG : Field := ⟨.stc, 0x180, 0x0, 1, 0, 256, .ro, 0⟩
/-- Table 6-14. -/
def Reg.STC_LIST : Field := ⟨.stc, 0x200, 0x8, 16, 0, 32, .rwt, 0⟩
/-- Table 6-14. -/
def Reg.STC_NREC : Field := ⟨.stc, 0x204, 0x8, 16, 0, 16, .rwt, 0⟩

/-- The fields of Table 6-14. -/
def Reg.tab6_14 : List Field :=
  [Reg.STC_BUSY, Reg.STC_CTX, Reg.STC_REC, Reg.STC_QUEUED, Reg.STC_LOAD, Reg.STC_SLOT, Reg.STC_RULE_SRC,
   Reg.STC_RULE_LEN, Reg.STC_STATE, Reg.STC_REFUSED, Reg.STC_RSLOT_VALID, Reg.STC_RSLOT_BUILTIN,
   Reg.STC_RSLOT_NINS, Reg.STC_RDIG_SEL, Reg.STC_RDIG, Reg.STC_LIST, Reg.STC_NREC]

/-- Table 7-10. -/
def Reg.LNK_EN : Field := ⟨.lnk, 0x100, 0x0, 1, 0, 1, .rw, 0⟩
/-- Table 7-10. -/
def Reg.LNK_RETRY : Field := ⟨.lnk, 0x100, 0x0, 1, 1, 1, .wo, 0⟩
/-- Table 7-10. -/
def Reg.LNK_RETRAIN : Field := ⟨.lnk, 0x100, 0x0, 1, 2, 1, .wo, 0⟩
/-- Table 7-10. -/
def Reg.LNK_LOOP : Field := ⟨.lnk, 0x100, 0x0, 1, 3, 1, .rw, 0⟩
/-- Table 7-10. -/
def Reg.LNK_STATE : Field := ⟨.lnk, 0x104, 0x0, 1, 0, 4, .ro, 0⟩
/-- Table 7-10. -/
def Reg.LNK_FENCED : Field := ⟨.lnk, 0x104, 0x0, 1, 4, 1, .ro, 0⟩
/-- Table 7-10. -/
def Reg.LNK_LANE_PERM : Field := ⟨.lnk, 0x104, 0x0, 1, 5, 1, .ro, 0⟩
/-- Table 7-10. -/
def Reg.LNK_REFUSED : Field := ⟨.lnk, 0x104, 0x0, 1, 6, 1, .ro, 0⟩
/-- Table 7-10. -/
def Reg.LNK_REMOTE_DOWN : Field := ⟨.lnk, 0x104, 0x0, 1, 7, 1, .ro, 0⟩
/-- Table 7-10. -/
def Reg.LNK_LOS_LANES : Field := ⟨.lnk, 0x104, 0x0, 1, 8, 8, .ro, 255⟩
/-- Table 7-10. -/
def Reg.LNK_NEG_MAJOR : Field := ⟨.lnk, 0x104, 0x0, 1, 16, 4, .ro, 0⟩
/-- Table 7-10. -/
def Reg.LNK_NEG_MINOR : Field := ⟨.lnk, 0x104, 0x0, 1, 20, 8, .ro, 0⟩
/-- Table 7-10; reset: from straps; 0 on Hall ports. -/
def Reg.LNK_EXP_PKG : Field := ⟨.lnk, 0x108, 0x0, 1, 0, 16, .rwt, 0⟩
/-- Table 7-10; reset: from straps; 0 on Hall ports. -/
def Reg.LNK_EXP_PORT : Field := ⟨.lnk, 0x108, 0x0, 1, 16, 4, .rwt, 0⟩
/-- Table 7-10; reset: 1 on torus ports under VAR = 0b00; otherwise 0. -/
def Reg.LNK_EXP_VALID : Field := ⟨.lnk, 0x108, 0x0, 1, 20, 1, .rwt, 1⟩
/-- Table 7-10. -/
def Reg.LNK_LANE_MAP : Field := ⟨.lnk, 0x10C, 0x0, 1, 0, 24, .ro, 0xfac688⟩
/-- Table 7-10; reset: from straps and flash. -/
def Reg.LNK_OWN_ID_LO : Field := ⟨.lnk, 0x110, 0x0, 1, 0, 32, .ro, 0⟩
/-- Table 7-10; reset: from firmware. -/
def Reg.LNK_OWN_ID_HI : Field := ⟨.lnk, 0x114, 0x0, 1, 0, 32, .ro, 0⟩
/-- Table 7-10. -/
def Reg.LNK_PEER_ID_LO : Field := ⟨.lnk, 0x118, 0x0, 1, 0, 32, .ro, 0⟩
/-- Table 7-10. -/
def Reg.LNK_PEER_ID_HI : Field := ⟨.lnk, 0x11C, 0x0, 1, 0, 32, .ro, 0⟩
/-- Table 7-10. -/
def Reg.LNK_RTT : Field := ⟨.lnk, 0x120, 0x0, 1, 0, 16, .ro, 0⟩
/-- Table 7-10. -/
def Reg.LNK_LP : Field := ⟨.lnk, 0x124, 0x0, 1, 0, 10, .ro, 512⟩
/-- Table 7-10. -/
def Reg.LNK_LP_WARN : Field := ⟨.lnk, 0x128, 0x0, 1, 0, 10, .rw, 175⟩
/-- Table 7-10. -/
def Reg.LNK_LP_MIN : Field := ⟨.lnk, 0x128, 0x0, 1, 16, 10, .rw, 160⟩
/-- Table 7-10. -/
def Reg.LNK_UCW_LIM : Field := ⟨.lnk, 0x12C, 0x0, 1, 0, 16, .rw, 64⟩
/-- Table 7-10. -/
def Reg.LNK_RETRAIN_LIM : Field := ⟨.lnk, 0x12C, 0x0, 1, 16, 8, .rw, 3⟩
/-- Table 7-10. -/
def Reg.LNK_NEAR_LIM : Field := ⟨.lnk, 0x12C, 0x0, 1, 24, 8, .rw, 16⟩
/-- Table 7-10. -/
def Reg.LNK_SYM_WARN : Field := ⟨.lnk, 0x130, 0x0, 1, 0, 32, .rw, 0x36b00⟩
/-- Table 7-10. -/
def Reg.LNK_SEQ_VER : Field := ⟨.lnk, 0x134, 0x0, 1, 0, 16, .ro, 0⟩
/-- Table 7-10. -/
def Reg.LNK_STEP : Field := ⟨.lnk, 0x134, 0x0, 1, 16, 8, .ro, 0⟩
/-- Table 7-10. -/
def Reg.LNK_RXP : Field := ⟨.lnk, 0x140, 0x4, 8, 0, 10, .ro, 512⟩
/-- Table 7-10. -/
def Reg.LNK_LOS : Field := ⟨.lnk, 0x140, 0x4, 8, 10, 1, .ro, 1⟩
/-- Table 7-10. -/
def Reg.LN_SYM : Field := ⟨.lnk, 0x200, 0x8, 8, 0, 64, .ro, 0⟩
/-- Table 7-10. -/
def Reg.LN_NEAR : Field := ⟨.lnk, 0x240, 0x8, 8, 0, 64, .ro, 0⟩

/-- The fields of Table 7-10. -/
def Reg.tab7_10 : List Field :=
  [Reg.LNK_EN, Reg.LNK_RETRY, Reg.LNK_RETRAIN, Reg.LNK_LOOP, Reg.LNK_STATE, Reg.LNK_FENCED,
   Reg.LNK_LANE_PERM, Reg.LNK_REFUSED, Reg.LNK_REMOTE_DOWN, Reg.LNK_LOS_LANES, Reg.LNK_NEG_MAJOR,
   Reg.LNK_NEG_MINOR, Reg.LNK_EXP_PKG, Reg.LNK_EXP_PORT, Reg.LNK_EXP_VALID, Reg.LNK_LANE_MAP,
   Reg.LNK_OWN_ID_LO, Reg.LNK_OWN_ID_HI, Reg.LNK_PEER_ID_LO, Reg.LNK_PEER_ID_HI, Reg.LNK_RTT, Reg.LNK_LP,
   Reg.LNK_LP_WARN, Reg.LNK_LP_MIN, Reg.LNK_UCW_LIM, Reg.LNK_RETRAIN_LIM, Reg.LNK_NEAR_LIM, Reg.LNK_SYM_WARN,
   Reg.LNK_SEQ_VER, Reg.LNK_STEP, Reg.LNK_RXP, Reg.LNK_LOS, Reg.LN_SYM, Reg.LN_NEAR]

/-- Table 8-1. -/
def Reg.CT_VALID : Field := ⟨.cte, 0x0, 0x30, 1024, 0, 1, .rwt, 0⟩
/-- Table 8-1. -/
def Reg.CT_KIND : Field := ⟨.cte, 0x0, 0x30, 1024, 1, 1, .rwt, 0⟩
/-- Table 8-1. -/
def Reg.CT_ORDER : Field := ⟨.cte, 0x0, 0x30, 1024, 2, 1, .rwt, 0⟩
/-- Table 8-1. -/
def Reg.CT_TWIN : Field := ⟨.cte, 0x0, 0x30, 1024, 3, 1, .rwt, 0⟩
/-- Table 8-1. -/
def Reg.CT_SEALED : Field := ⟨.cte, 0x0, 0x30, 1024, 4, 1, .rwt, 0⟩
/-- Table 8-1. -/
def Reg.CT_LEVEL : Field := ⟨.cte, 0x0, 0x30, 1024, 5, 1, .rwt, 0⟩
/-- Table 8-1. -/
def Reg.CT_COLL : Field := ⟨.cte, 0x0, 0x30, 1024, 6, 1, .rwt, 0⟩
/-- Table 8-1. -/
def Reg.CT_CTX : Field := ⟨.cte, 0x0, 0x30, 1024, 8, 6, .rwt, 0⟩
/-- Table 8-1. -/
def Reg.CT_DIE : Field := ⟨.cte, 0x0, 0x30, 1024, 14, 2, .rwt, 0⟩
/-- Table 8-1. -/
def Reg.CT_CNAME : Field := ⟨.cte, 0x4, 0x30, 1024, 0, 32, .rwt, 0⟩
/-- Table 8-1. -/
def Reg.CT_PORT_A : Field := ⟨.cte, 0x8, 0x30, 1024, 0, 4, .rwt, 0⟩
/-- Table 8-1. -/
def Reg.CT_PEER_CID_A : Field := ⟨.cte, 0x8, 0x30, 1024, 4, 10, .rwt, 0⟩
/-- Table 8-1. -/
def Reg.CT_CLAIM_A : Field := ⟨.cte, 0x8, 0x30, 1024, 16, 16, .rwt, 0⟩
/-- Table 8-1. -/
def Reg.CT_PORT_B : Field := ⟨.cte, 0xC, 0x30, 1024, 0, 4, .rwt, 0⟩
/-- Table 8-1. -/
def Reg.CT_PEER_CID_B : Field := ⟨.cte, 0xC, 0x30, 1024, 4, 10, .rwt, 0⟩
/-- Table 8-1. -/
def Reg.CT_CLAIM_B : Field := ⟨.cte, 0xC, 0x30, 1024, 16, 16, .rwt, 0⟩
/-- Table 8-1. -/
def Reg.CT_GEN : Field := ⟨.cte, 0x10, 0x30, 1024, 0, 16, .rwt, 0⟩
/-- Table 8-1. -/
def Reg.CT_FAR_PKG : Field := ⟨.cte, 0x10, 0x30, 1024, 16, 16, .rwt, 0⟩
/-- Table 8-1. -/
def Reg.CT_KEPOCH : Field := ⟨.cte, 0x14, 0x30, 1024, 0, 8, .rwt, 0⟩

/-- The fields of Table 8-1. -/
def Reg.tab8_1 : List Field :=
  [Reg.CT_VALID, Reg.CT_KIND, Reg.CT_ORDER, Reg.CT_TWIN, Reg.CT_SEALED, Reg.CT_LEVEL, Reg.CT_COLL,
   Reg.CT_CTX, Reg.CT_DIE, Reg.CT_CNAME, Reg.CT_PORT_A, Reg.CT_PEER_CID_A, Reg.CT_CLAIM_A, Reg.CT_PORT_B,
   Reg.CT_PEER_CID_B, Reg.CT_CLAIM_B, Reg.CT_GEN, Reg.CT_FAR_PKG, Reg.CT_KEPOCH]

/-- Table 8-2. -/
def Reg.CT_RUN_STATE : Field := ⟨.cte, 0x20, 0x30, 1024, 0, 3, .ro, 0⟩
/-- Table 8-2. -/
def Reg.CT_RUN_A_UP : Field := ⟨.cte, 0x20, 0x30, 1024, 3, 1, .ro, 0⟩
/-- Table 8-2. -/
def Reg.CT_RUN_B_UP : Field := ⟨.cte, 0x20, 0x30, 1024, 4, 1, .ro, 0⟩
/-- Table 8-2. -/
def Reg.CT_RUN_CAUSE : Field := ⟨.cte, 0x20, 0x30, 1024, 5, 4, .ro, 0⟩
/-- Table 8-2. -/
def Reg.CT_RUN_BG_A : Field := ⟨.cte, 0x20, 0x30, 1024, 9, 10, .ro, 0⟩
/-- Table 8-2. -/
def Reg.CT_RUN_BG_B : Field := ⟨.cte, 0x20, 0x30, 1024, 19, 10, .ro, 0⟩
/-- Table 8-2. -/
def Reg.CT_RUN_TX_SEQ : Field := ⟨.cte, 0x24, 0x30, 1024, 0, 32, .ro, 0⟩
/-- Table 8-2. -/
def Reg.CT_RUN_CLAST : Field := ⟨.cte, 0x28, 0x30, 1024, 0, 32, .ro, 0⟩
/-- Table 8-2. -/
def Reg.CT_RUN_DLAST : Field := ⟨.cte, 0x2C, 0x30, 1024, 0, 32, .ro, 0⟩

/-- The fields of Table 8-2. -/
def Reg.tab8_2 : List Field :=
  [Reg.CT_RUN_STATE, Reg.CT_RUN_A_UP, Reg.CT_RUN_B_UP, Reg.CT_RUN_CAUSE, Reg.CT_RUN_BG_A, Reg.CT_RUN_BG_B,
   Reg.CT_RUN_TX_SEQ, Reg.CT_RUN_CLAST, Reg.CT_RUN_DLAST]

/-- Table 8-11. -/
def Reg.CIR_CT_SEL : Field := ⟨.cir, 0x100, 0x0, 1, 0, 10, .rw, 0⟩
/-- Table 8-11. -/
def Reg.CIR_OPEN_TMO : Field := ⟨.cir, 0x104, 0x0, 1, 0, 16, .rw, 100⟩
/-- Table 8-11. -/
def Reg.CIR_QUIET_TMO : Field := ⟨.cir, 0x104, 0x0, 1, 16, 16, .rw, 10⟩
/-- Table 8-11. -/
def Reg.CIR_NVALID : Field := ⟨.cir, 0x108, 0x0, 1, 0, 11, .ro, 0⟩
/-- Table 8-11. -/
def Reg.CIR_NOPEN : Field := ⟨.cir, 0x108, 0x0, 1, 11, 11, .ro, 0⟩
/-- Table 8-11. -/
def Reg.CIR_COMMIT_CODE : Field := ⟨.cir, 0x10C, 0x0, 1, 0, 8, .ro, 0⟩
/-- Table 8-11. -/
def Reg.CIR_COMMIT_ENTRY : Field := ⟨.cir, 0x10C, 0x0, 1, 8, 10, .ro, 0⟩
/-- Table 8-11. -/
def Reg.CIR_EV_ENTRY : Field := ⟨.cir, 0x140, 0x0, 1, 0, 10, .ro, 0⟩
/-- Table 8-11. -/
def Reg.CIR_EV_KIND : Field := ⟨.cir, 0x140, 0x0, 1, 10, 4, .ro, 0⟩
/-- Table 8-11. -/
def Reg.CIR_EV_PATH : Field := ⟨.cir, 0x140, 0x0, 1, 14, 1, .ro, 0⟩
/-- Table 8-11. -/
def Reg.CIR_EV_LOST : Field := ⟨.cir, 0x140, 0x0, 1, 15, 1, .ro, 0⟩
/-- Table 8-11. -/
def Reg.CIR_EV_VALID : Field := ⟨.cir, 0x140, 0x0, 1, 31, 1, .ro, 0⟩
/-- Table 8-11. -/
def Reg.CIR_CLOSE_ENTRY : Field := ⟨.cir, 0x144, 0x0, 1, 0, 10, .wo, 0⟩
/-- Table 8-11. -/
def Reg.CIR_CLOSE_GO : Field := ⟨.cir, 0x144, 0x0, 1, 31, 1, .wo, 0⟩

/-- The fields of Table 8-11. -/
def Reg.tab8_11 : List Field :=
  [Reg.CIR_CT_SEL, Reg.CIR_OPEN_TMO, Reg.CIR_QUIET_TMO, Reg.CIR_NVALID, Reg.CIR_NOPEN, Reg.CIR_COMMIT_CODE,
   Reg.CIR_COMMIT_ENTRY, Reg.CIR_EV_ENTRY, Reg.CIR_EV_KIND, Reg.CIR_EV_PATH, Reg.CIR_EV_LOST,
   Reg.CIR_EV_VALID, Reg.CIR_CLOSE_ENTRY, Reg.CIR_CLOSE_GO]

/-- Table 9-11. -/
def Reg.CE_BUSY : Field := ⟨.ce, 0x100, 0x0, 1, 0, 16, .ro, 0⟩
/-- Table 9-11. -/
def Reg.CE_HELD : Field := ⟨.ce, 0x100, 0x0, 1, 16, 7, .ro, 0⟩
/-- Table 9-11. -/
def Reg.CE_PENDING : Field := ⟨.ce, 0x100, 0x0, 1, 23, 1, .ro, 0⟩
/-- Table 9-11. -/
def Reg.CE_OSTALL_MS : Field := ⟨.ce, 0x104, 0x0, 1, 0, 16, .rw, 50⟩
/-- Table 9-11. -/
def Reg.CE_RESEND_LIM : Field := ⟨.ce, 0x104, 0x0, 1, 16, 4, .rw, 3⟩
/-- Table 9-11. -/
def Reg.CE_PACE_OWN : Field := ⟨.ce, 0x108, 0x0, 1, 0, 32, .ro, 0⟩
/-- Table 9-11. -/
def Reg.CE_PACE_MIN : Field := ⟨.ce, 0x10C, 0x0, 1, 0, 32, .ro, 0⟩
/-- Table 9-11. -/
def Reg.CE_PACE_MIN_PKG : Field := ⟨.ce, 0x110, 0x0, 1, 0, 16, .ro, 0⟩
/-- Table 9-11. -/
def Reg.CE_PACE_MIN_VALID : Field := ⟨.ce, 0x110, 0x0, 1, 16, 1, .ro, 0⟩

/-- The fields of Table 9-11. -/
def Reg.tab9_11 : List Field :=
  [Reg.CE_BUSY, Reg.CE_HELD, Reg.CE_PENDING, Reg.CE_OSTALL_MS, Reg.CE_RESEND_LIM, Reg.CE_PACE_OWN,
   Reg.CE_PACE_MIN, Reg.CE_PACE_MIN_PKG, Reg.CE_PACE_MIN_VALID]

/-- Table 9-12. -/
def Reg.SL_STATE : Field := ⟨.ce, 0x200, 0x20, 16, 0, 3, .ro, 0⟩
/-- Table 9-12. -/
def Reg.SL_STATUS : Field := ⟨.ce, 0x200, 0x20, 16, 3, 5, .ro, 0⟩
/-- Table 9-12. -/
def Reg.SL_FROM_PEER : Field := ⟨.ce, 0x200, 0x20, 16, 8, 1, .ro, 0⟩
/-- Table 9-12. -/
def Reg.SL_STALLED : Field := ⟨.ce, 0x200, 0x20, 16, 9, 1, .ro, 0⟩
/-- Table 9-12. -/
def Reg.SL_BOUND : Field := ⟨.ce, 0x200, 0x20, 16, 10, 1, .ro, 0⟩
/-- Table 9-12. -/
def Reg.SL_OP : Field := ⟨.ce, 0x200, 0x20, 16, 11, 3, .ro, 0⟩
/-- Table 9-12. -/
def Reg.SL_CTX : Field := ⟨.ce, 0x200, 0x20, 16, 14, 6, .ro, 0⟩
/-- Table 9-12. -/
def Reg.SL_STAGE : Field := ⟨.ce, 0x200, 0x20, 16, 20, 3, .ro, 0⟩
/-- Table 9-12. -/
def Reg.SL_KEY : Field := ⟨.ce, 0x204, 0x20, 16, 0, 32, .ro, 0⟩
/-- Table 9-12. -/
def Reg.SL_CDONE : Field := ⟨.ce, 0x208, 0x20, 16, 0, 20, .ro, 0⟩
/-- Table 9-12. -/
def Reg.SL_OTHER : Field := ⟨.ce, 0x20C, 0x20, 16, 0, 32, .ro, 0⟩
/-- Table 9-12. -/
def Reg.SL_WAIT_PREV : Field := ⟨.ce, 0x210, 0x20, 16, 0, 64, .ro, 0⟩
/-- Table 9-12. -/
def Reg.SL_WAIT_NEXT : Field := ⟨.ce, 0x218, 0x20, 16, 0, 64, .ro, 0⟩

/-- The fields of Table 9-12. -/
def Reg.tab9_12 : List Field :=
  [Reg.SL_STATE, Reg.SL_STATUS, Reg.SL_FROM_PEER, Reg.SL_STALLED, Reg.SL_BOUND, Reg.SL_OP, Reg.SL_CTX,
   Reg.SL_STAGE, Reg.SL_KEY, Reg.SL_CDONE, Reg.SL_OTHER, Reg.SL_WAIT_PREV, Reg.SL_WAIT_NEXT]

/-- Table 9-13. -/
def Reg.CE_HOLD_SEL : Field := ⟨.ce, 0x400, 0x0, 1, 0, 6, .rw, 0⟩
/-- Table 9-13. -/
def Reg.CE_HOLD_KEY : Field := ⟨.ce, 0x404, 0x0, 1, 0, 32, .ro, 0⟩
/-- Table 9-13. -/
def Reg.CE_HOLD_FROM_PKG : Field := ⟨.ce, 0x408, 0x0, 1, 0, 16, .ro, 0⟩
/-- Table 9-13. -/
def Reg.CE_HOLD_CTX : Field := ⟨.ce, 0x408, 0x0, 1, 16, 6, .ro, 0⟩
/-- Table 9-13. -/
def Reg.CE_HOLD_ABORTED : Field := ⟨.ce, 0x408, 0x0, 1, 22, 1, .ro, 0⟩
/-- Table 9-13. -/
def Reg.CE_HOLD_VALID : Field := ⟨.ce, 0x408, 0x0, 1, 23, 1, .ro, 0⟩
/-- Table 9-13. -/
def Reg.CE_HOLD_AGE_MS : Field := ⟨.ce, 0x408, 0x0, 1, 24, 8, .ro, 0⟩
/-- Table 9-13. -/
def Reg.CE_HOLD_ASTATUS : Field := ⟨.ce, 0x40C, 0x0, 1, 0, 5, .ro, 0⟩
/-- Table 9-13. -/
def Reg.CE_HOLD_AOTHER : Field := ⟨.ce, 0x410, 0x0, 1, 0, 32, .ro, 0⟩

/-- The fields of Table 9-13. -/
def Reg.tab9_13 : List Field :=
  [Reg.CE_HOLD_SEL, Reg.CE_HOLD_KEY, Reg.CE_HOLD_FROM_PKG, Reg.CE_HOLD_CTX, Reg.CE_HOLD_ABORTED,
   Reg.CE_HOLD_VALID, Reg.CE_HOLD_AGE_MS, Reg.CE_HOLD_ASTATUS, Reg.CE_HOLD_AOTHER]

/-- Table 9-14. -/
def Reg.NB_PKG : Field := ⟨.ce, 0x500, 0x10, 32, 0, 16, .ro, 0⟩
/-- Table 9-14. -/
def Reg.NB_VALID : Field := ⟨.ce, 0x500, 0x10, 32, 16, 1, .ro, 0⟩
/-- Table 9-14. -/
def Reg.NB_PACE : Field := ⟨.ce, 0x504, 0x10, 32, 0, 32, .ro, 0⟩
/-- Table 9-14. -/
def Reg.NB_WAITED : Field := ⟨.ce, 0x508, 0x10, 32, 0, 64, .ro, 0⟩

/-- The fields of Table 9-14. -/
def Reg.tab9_14 : List Field :=
  [Reg.NB_PKG, Reg.NB_VALID, Reg.NB_PACE, Reg.NB_WAITED]

/-- Table 10-9. -/
def Reg.CFG_PMAP : Field := ⟨.cfg, 0x180, 0x0, 1, 0, 3, .rwt, 0⟩
/-- Table 10-9; reset: 1 for p = 0. -/
def Reg.CFG_PART_PRESENT : Field := ⟨.cfg, 0x190, 0x4, 4, 0, 1, .ro, 1⟩
/-- Table 10-9. -/
def Reg.CFG_PART_SEALED : Field := ⟨.cfg, 0x190, 0x4, 4, 1, 1, .ro, 0⟩
/-- Table 10-9; reset: 0b1111 for p = 0. -/
def Reg.CFG_PART_DIES : Field := ⟨.cfg, 0x190, 0x4, 4, 2, 4, .ro, 15⟩
/-- Table 10-9. -/
def Reg.CFG_PART_NOPEN : Field := ⟨.cfg, 0x190, 0x4, 4, 6, 5, .ro, 0⟩

/-- The fields of Table 10-9. -/
def Reg.tab10_9 : List Field :=
  [Reg.CFG_PMAP, Reg.CFG_PART_PRESENT, Reg.CFG_PART_SEALED, Reg.CFG_PART_DIES, Reg.CFG_PART_NOPEN]

/-- Table 10-10. -/
def Reg.CTX_CSTATE : Field := ⟨.ctx, 0x200, 0x0, 1, 0, 2, .ro, 0⟩
/-- Table 10-10. -/
def Reg.CTX_OPEN : Field := ⟨.ctx, 0x200, 0x0, 1, 2, 1, .wo, 0⟩
/-- Table 10-10. -/
def Reg.CTX_TEARDOWN : Field := ⟨.ctx, 0x200, 0x0, 1, 3, 1, .wo, 0⟩
/-- Table 10-10. -/
def Reg.CTX_PERF_USER_EN : Field := ⟨.ctx, 0x200, 0x0, 1, 4, 1, .rw, 0⟩
/-- Table 10-10. -/
def Reg.CTX_QSTOP : Field := ⟨.ctx, 0x200, 0x0, 1, 5, 1, .rw, 0⟩
/-- Table 10-10. -/
def Reg.CTX_SEALED : Field := ⟨.ctx, 0x200, 0x0, 1, 6, 1, .ro, 0⟩
/-- Table 10-10. -/
def Reg.CTX_CPL_SESS : Field := ⟨.ctx, 0x200, 0x0, 1, 8, 5, .rw, 0⟩
/-- Table 10-10. -/
def Reg.CTX_CPL_PORT : Field := ⟨.ctx, 0x200, 0x0, 1, 13, 1, .rw, 0⟩
/-- Table 10-10. -/
def Reg.CTX_CPL_BIND : Field := ⟨.ctx, 0x200, 0x0, 1, 14, 1, .rw, 0⟩
/-- Table 10-10. -/
def Reg.CTX_QFREE : Field := ⟨.ctx, 0x204, 0x0, 1, 0, 9, .ro, 256⟩
/-- Table 10-10. -/
def Reg.CTX_HEADWAIT : Field := ⟨.ctx, 0x204, 0x0, 1, 16, 1, .ro, 0⟩
/-- Table 10-10. -/
def Reg.CTX_WHY : Field := ⟨.ctx, 0x204, 0x0, 1, 17, 3, .ro, 0⟩
/-- Table 10-10. -/
def Reg.CTX_CSER_NEXT : Field := ⟨.ctx, 0x208, 0x0, 1, 0, 32, .ro, 0⟩
/-- Table 10-10. -/
def Reg.CTX_RSER_NEXT : Field := ⟨.ctx, 0x20C, 0x0, 1, 0, 32, .ro, 0⟩
/-- Table 10-10. -/
def Reg.CTX_CPL_ACKED : Field := ⟨.ctx, 0x210, 0x0, 1, 0, 32, .rw, 0⟩
/-- Table 10-10. -/
def Reg.CTX_REC : Field := ⟨.ctx, 0x800, 0x20, 64, 0, 256, .ro, 0⟩

/-- The fields of Table 10-10. -/
def Reg.tab10_10 : List Field :=
  [Reg.CTX_CSTATE, Reg.CTX_OPEN, Reg.CTX_TEARDOWN, Reg.CTX_PERF_USER_EN, Reg.CTX_QSTOP, Reg.CTX_SEALED,
   Reg.CTX_CPL_SESS, Reg.CTX_CPL_PORT, Reg.CTX_CPL_BIND, Reg.CTX_QFREE, Reg.CTX_HEADWAIT, Reg.CTX_WHY,
   Reg.CTX_CSER_NEXT, Reg.CTX_RSER_NEXT, Reg.CTX_CPL_ACKED, Reg.CTX_REC]

/-- Table 10-12. -/
def Reg.HST_EN : Field := ⟨.hst, 0x100, 0x0, 1, 0, 1, .rw, 0⟩
/-- Table 10-12. -/
def Reg.HST_SPLIT : Field := ⟨.hst, 0x100, 0x0, 1, 1, 1, .rw, 0⟩
/-- Table 10-12. -/
def Reg.HST_V4_EN : Field := ⟨.hst, 0x100, 0x0, 1, 2, 1, .rw, 0⟩
/-- Table 10-12. -/
def Reg.HST_ALLOW_EN : Field := ⟨.hst, 0x100, 0x0, 1, 3, 1, .rw, 0⟩
/-- Table 10-12. -/
def Reg.HST_VLAN_ID : Field := ⟨.hst, 0x100, 0x0, 1, 4, 12, .rw, 0⟩
/-- Table 10-12. -/
def Reg.HST_UDP_PORT : Field := ⟨.hst, 0x100, 0x0, 1, 16, 16, .rw, 27310⟩
/-- Table 10-12. -/
def Reg.HST_UP_A : Field := ⟨.hst, 0x104, 0x0, 1, 0, 1, .ro, 0⟩
/-- Table 10-12. -/
def Reg.HST_UP_B : Field := ⟨.hst, 0x104, 0x0, 1, 1, 1, .ro, 0⟩
/-- Table 10-12. -/
def Reg.HST_NSESS : Field := ⟨.hst, 0x104, 0x0, 1, 8, 6, .ro, 0⟩
/-- Table 10-12. -/
def Reg.HST_LP : Field := ⟨.hst, 0x104, 0x0, 1, 14, 10, .ro, 512⟩
/-- Table 10-12. -/
def Reg.HST_XBUSY : Field := ⟨.hst, 0x104, 0x0, 1, 24, 8, .ro, 0⟩
/-- Table 10-12. -/
def Reg.HST_IP4_ADDR : Field := ⟨.hst, 0x108, 0x0, 1, 0, 32, .rw, 0⟩
/-- Table 10-12. -/
def Reg.HST_IP6_ADDR : Field := ⟨.hst, 0x110, 0x0, 1, 0, 128, .rw, 0⟩
/-- Table 10-12; reset: from manufacture. -/
def Reg.HST_MAC_LO : Field := ⟨.hst, 0x120, 0x0, 1, 0, 32, .ro, 0⟩
/-- Table 10-12; reset: from manufacture. -/
def Reg.HST_MAC_HI : Field := ⟨.hst, 0x124, 0x0, 1, 0, 16, .ro, 0⟩
/-- Table 10-12. -/
def Reg.HST_RTO_US : Field := ⟨.hst, 0x128, 0x0, 1, 0, 16, .rw, 200⟩
/-- Table 10-12. -/
def Reg.HST_SESS_TMO : Field := ⟨.hst, 0x128, 0x0, 1, 16, 16, .rw, 100⟩
/-- Table 10-12. -/
def Reg.HST_XE_PROG : Field := ⟨.hst, 0x180, 0x4, 8, 0, 32, .ro, 0⟩
/-- Table 10-12. -/
def Reg.HST_AL_VALID : Field := ⟨.hst, 0x200, 0x20, 16, 0, 1, .rw, 0⟩
/-- Table 10-12. -/
def Reg.HST_AL_V6 : Field := ⟨.hst, 0x200, 0x20, 16, 1, 1, .rw, 0⟩
/-- Table 10-12. -/
def Reg.HST_AL_SCOPE : Field := ⟨.hst, 0x200, 0x20, 16, 2, 3, .rw, 0⟩
/-- Table 10-12. -/
def Reg.HST_AL_ADDR : Field := ⟨.hst, 0x204, 0x20, 16, 0, 128, .rw, 0⟩
/-- Table 10-12. -/
def Reg.HST_S_OPEN : Field := ⟨.hst, 0x400, 0x20, 32, 0, 1, .ro, 0⟩
/-- Table 10-12. -/
def Reg.HST_S_SUB : Field := ⟨.hst, 0x400, 0x20, 32, 1, 1, .ro, 0⟩
/-- Table 10-12. -/
def Reg.HST_S_SCOPE : Field := ⟨.hst, 0x400, 0x20, 32, 2, 3, .ro, 0⟩
/-- Table 10-12. -/
def Reg.HST_EVMASK : Field := ⟨.hst, 0x400, 0x20, 32, 8, 8, .rw, 0⟩
/-- Table 10-12. -/
def Reg.HST_S_UDP : Field := ⟨.hst, 0x400, 0x20, 32, 16, 16, .ro, 0⟩
/-- Table 10-12. -/
def Reg.HST_S_ADDR : Field := ⟨.hst, 0x404, 0x20, 32, 0, 128, .ro, 0⟩
/-- Table 10-12. -/
def Reg.HST_S_TXSEQ : Field := ⟨.hst, 0x414, 0x20, 32, 0, 32, .ro, 0⟩
/-- Table 10-12. -/
def Reg.HST_S_RXACK : Field := ⟨.hst, 0x418, 0x20, 32, 0, 32, .ro, 0⟩

/-- The fields of Table 10-12. -/
def Reg.tab10_12 : List Field :=
  [Reg.HST_EN, Reg.HST_SPLIT, Reg.HST_V4_EN, Reg.HST_ALLOW_EN, Reg.HST_VLAN_ID, Reg.HST_UDP_PORT,
   Reg.HST_UP_A, Reg.HST_UP_B, Reg.HST_NSESS, Reg.HST_LP, Reg.HST_XBUSY, Reg.HST_IP4_ADDR, Reg.HST_IP6_ADDR,
   Reg.HST_MAC_LO, Reg.HST_MAC_HI, Reg.HST_RTO_US, Reg.HST_SESS_TMO, Reg.HST_XE_PROG, Reg.HST_AL_VALID,
   Reg.HST_AL_V6, Reg.HST_AL_SCOPE, Reg.HST_AL_ADDR, Reg.HST_S_OPEN, Reg.HST_S_SUB, Reg.HST_S_SCOPE,
   Reg.HST_EVMASK, Reg.HST_S_UDP, Reg.HST_S_ADDR, Reg.HST_S_TXSEQ, Reg.HST_S_RXACK]

/-- Table 11-8. -/
def Reg.CLK_ROOT_LOCK : Field := ⟨.clk, 0x100, 0x0, 1, 0, 1, .ro, 0⟩
/-- Table 11-8. -/
def Reg.CLK_REF_OK : Field := ⟨.clk, 0x100, 0x0, 1, 1, 1, .ro, 0⟩
/-- Table 11-8; reset: 24 each. -/
def Reg.CLK_DIV_0 : Field := ⟨.clk, 0x104, 0x0, 1, 0, 6, .ro, 24⟩
/-- Table 11-8; reset: 24 each. -/
def Reg.CLK_DIV_1 : Field := ⟨.clk, 0x104, 0x0, 1, 6, 6, .ro, 24⟩
/-- Table 11-8; reset: 24 each. -/
def Reg.CLK_DIV_2 : Field := ⟨.clk, 0x104, 0x0, 1, 12, 6, .ro, 24⟩
/-- Table 11-8; reset: 24 each. -/
def Reg.CLK_DIV_3 : Field := ⟨.clk, 0x104, 0x0, 1, 18, 6, .ro, 24⟩
/-- Table 11-8. -/
def Reg.CLK_DROOP_MV : Field := ⟨.clk, 0x108, 0x0, 1, 0, 7, .rw, 40⟩
/-- Table 11-8. -/
def Reg.CLK_DROOP_HOLD : Field := ⟨.clk, 0x108, 0x0, 1, 8, 8, .rw, 8⟩
/-- Table 11-8. -/
def Reg.CLK_DROOP_LIM : Field := ⟨.clk, 0x108, 0x0, 1, 16, 16, .rw, 100⟩
/-- Table 11-8; reset: from fuses. -/
def Reg.CLK_OPV : Field := ⟨.clk, 0x120, 0x4, 8, 0, 12, .ro, 0⟩

/-- The fields of Table 11-8. -/
def Reg.tab11_8 : List Field :=
  [Reg.CLK_ROOT_LOCK, Reg.CLK_REF_OK, Reg.CLK_DIV_0, Reg.CLK_DIV_1, Reg.CLK_DIV_2, Reg.CLK_DIV_3,
   Reg.CLK_DROOP_MV, Reg.CLK_DROOP_HOLD, Reg.CLK_DROOP_LIM, Reg.CLK_OPV]

/-- Table 11-9. -/
def Reg.PWR_CAP : Field := ⟨.pwr, 0x100, 0x0, 1, 0, 9, .rwt, 320⟩
/-- Table 11-9. -/
def Reg.PWR_WINDOW : Field := ⟨.pwr, 0x100, 0x0, 1, 16, 5, .rwt, 4⟩
/-- Table 11-9. -/
def Reg.PWR_MODE : Field := ⟨.pwr, 0x100, 0x0, 1, 24, 1, .rwt, 0⟩
/-- Table 11-9. -/
def Reg.PWR_SAFE_PCT : Field := ⟨.pwr, 0x100, 0x0, 1, 25, 7, .rwt, 70⟩
/-- Table 11-9. -/
def Reg.PWR_PEAK : Field := ⟨.pwr, 0x104, 0x0, 1, 0, 9, .rwt, 396⟩
/-- Table 11-9. -/
def Reg.PWR_SSD_PCT : Field := ⟨.pwr, 0x104, 0x0, 1, 16, 6, .rwt, 10⟩
/-- Table 11-9. -/
def Reg.PWR_PACE_FOLLOW : Field := ⟨.pwr, 0x108, 0x0, 1, 0, 1, .rw, 0⟩
/-- Table 11-9. -/
def Reg.PWR_OPT : Field := ⟨.pwr, 0x10C, 0x0, 1, 0, 3, .ro, 7⟩
/-- Table 11-9. -/
def Reg.PWR_DUTY : Field := ⟨.pwr, 0x10C, 0x0, 1, 3, 2, .ro, 0⟩
/-- Table 11-9. -/
def Reg.PWR_LIMITER : Field := ⟨.pwr, 0x10C, 0x0, 1, 5, 4, .ro, 0⟩
/-- Table 11-9. -/
def Reg.PWR_CAP_UNREACHABLE : Field := ⟨.pwr, 0x10C, 0x0, 1, 9, 1, .ro, 0⟩
/-- Table 11-9. -/
def Reg.PWR_HB_LOST : Field := ⟨.pwr, 0x10C, 0x0, 1, 10, 1, .ro, 0⟩
/-- Table 11-9. -/
def Reg.PWR_FOLLOWING : Field := ⟨.pwr, 0x10C, 0x0, 1, 11, 1, .ro, 0⟩
/-- Table 11-9. -/
def Reg.PWR_AT_FLOOR : Field := ⟨.pwr, 0x10C, 0x0, 1, 12, 1, .ro, 0⟩
/-- Table 11-9. -/
def Reg.PWR_EFF_CAP : Field := ⟨.pwr, 0x10C, 0x0, 1, 16, 16, .ro, 3200⟩
/-- Table 11-9. -/
def Reg.PWR_P_IN : Field := ⟨.pwr, 0x110, 0x0, 1, 0, 16, .ro, 0⟩
/-- Table 11-9. -/
def Reg.PWR_P_AVG : Field := ⟨.pwr, 0x110, 0x0, 1, 16, 16, .ro, 0⟩
/-- Table 11-9. -/
def Reg.PWR_P_EST : Field := ⟨.pwr, 0x114, 0x0, 1, 0, 16, .ro, 0⟩
/-- Table 11-9. -/
def Reg.PWR_P_1MS : Field := ⟨.pwr, 0x114, 0x0, 1, 16, 16, .ro, 0⟩
/-- Table 11-9. -/
def Reg.PWR_GAIN : Field := ⟨.pwr, 0x118, 0x0, 1, 0, 16, .ro, 16384⟩
/-- Table 11-9. -/
def Reg.PWR_CLAMPED : Field := ⟨.pwr, 0x118, 0x0, 1, 16, 1, .ro, 0⟩
/-- Table 11-9. -/
def Reg.PWR_TRAYCAP : Field := ⟨.pwr, 0x11C, 0x0, 1, 0, 9, .ro, 0⟩
/-- Table 11-9. -/
def Reg.PWR_HB_AGE : Field := ⟨.pwr, 0x11C, 0x0, 1, 16, 16, .ro, 65535⟩
/-- Table 11-9. -/
def Reg.PWR_PLAN_OPT : Field := ⟨.pwr, 0x120, 0x0, 1, 0, 3, .ro, 0⟩
/-- Table 11-9. -/
def Reg.PWR_PLAN_DUTY : Field := ⟨.pwr, 0x120, 0x0, 1, 3, 2, .ro, 0⟩
/-- Table 11-9; reset: 0xFFFFFFFF, 0xFFFFFFFF, 0x0000FFFF; PD_REQ_2 is 0x00007FFF in PRODUCTION and SCRAPPED. -/
def Reg.PWR_PD_REQ : Field := ⟨.pwr, 0x140, 0x0, 1, 0, 96, .rw, 0xffffffffffffffffffff⟩
/-- Table 11-9. -/
def Reg.PWR_PD_ON : Field := ⟨.pwr, 0x150, 0x0, 1, 0, 96, .ro, 0⟩
/-- Table 11-9. -/
def Reg.PWR_PD_REF : Field := ⟨.pwr, 0x160, 0x0, 1, 0, 96, .ro, 0⟩

/-- The fields of Table 11-9. -/
def Reg.tab11_9 : List Field :=
  [Reg.PWR_CAP, Reg.PWR_WINDOW, Reg.PWR_MODE, Reg.PWR_SAFE_PCT, Reg.PWR_PEAK, Reg.PWR_SSD_PCT,
   Reg.PWR_PACE_FOLLOW, Reg.PWR_OPT, Reg.PWR_DUTY, Reg.PWR_LIMITER, Reg.PWR_CAP_UNREACHABLE, Reg.PWR_HB_LOST,
   Reg.PWR_FOLLOWING, Reg.PWR_AT_FLOOR, Reg.PWR_EFF_CAP, Reg.PWR_P_IN, Reg.PWR_P_AVG, Reg.PWR_P_EST,
   Reg.PWR_P_1MS, Reg.PWR_GAIN, Reg.PWR_CLAMPED, Reg.PWR_TRAYCAP, Reg.PWR_HB_AGE, Reg.PWR_PLAN_OPT,
   Reg.PWR_PLAN_DUTY, Reg.PWR_PD_REQ, Reg.PWR_PD_ON, Reg.PWR_PD_REF]

/-- Table 11-10. -/
def Reg.THM_WARM_FLOOR : Field := ⟨.thm, 0x100, 0x0, 1, 0, 7, .rw, 45⟩
/-- Table 11-10. -/
def Reg.THM_WARM_EN : Field := ⟨.thm, 0x100, 0x0, 1, 7, 1, .rw, 1⟩
/-- Table 11-10. -/
def Reg.THM_SENS_CLR : Field := ⟨.thm, 0x100, 0x0, 1, 8, 1, .wo, 0⟩
/-- Table 11-10. -/
def Reg.THM_PLAUS_LO : Field := ⟨.thm, 0x100, 0x0, 1, 16, 8, .rw, 15⟩
/-- Table 11-10. -/
def Reg.THM_TJ_MAX : Field := ⟨.thm, 0x104, 0x0, 1, 0, 10, .ro, 512⟩
/-- Table 11-10. -/
def Reg.THM_TJ_SRC : Field := ⟨.thm, 0x104, 0x0, 1, 10, 6, .ro, 0⟩
/-- Table 11-10. -/
def Reg.THM_THROTTLE : Field := ⟨.thm, 0x104, 0x0, 1, 16, 1, .ro, 0⟩
/-- Table 11-10. -/
def Reg.THM_SD_REQ : Field := ⟨.thm, 0x104, 0x0, 1, 17, 1, .ro, 0⟩
/-- Table 11-10. -/
def Reg.THM_WARMING : Field := ⟨.thm, 0x104, 0x0, 1, 18, 4, .ro, 0⟩
/-- Table 11-10. -/
def Reg.THM_SINGLE : Field := ⟨.thm, 0x104, 0x0, 1, 22, 1, .ro, 0⟩
/-- Table 11-10. -/
def Reg.THM_T_IN : Field := ⟨.thm, 0x140, 0x0, 1, 0, 10, .ro, 512⟩
/-- Table 11-10. -/
def Reg.THM_T_OUT : Field := ⟨.thm, 0x144, 0x0, 1, 0, 10, .ro, 512⟩
/-- Table 11-10. -/
def Reg.THM_FLOW : Field := ⟨.thm, 0x148, 0x0, 1, 0, 16, .ro, 0⟩
/-- Table 11-10. -/
def Reg.THM_LEAK : Field := ⟨.thm, 0x148, 0x0, 1, 16, 1, .ro, 0⟩
/-- Table 11-10. -/
def Reg.THM_NOM_FLOW : Field := ⟨.thm, 0x14C, 0x0, 1, 0, 16, .rw, 500⟩
/-- Table 11-10. -/
def Reg.THM_COOL_CP : Field := ⟨.thm, 0x14C, 0x0, 1, 16, 16, .rw, 4020⟩
/-- Table 11-10. -/
def Reg.THM_FLOW_USED : Field := ⟨.thm, 0x150, 0x0, 1, 0, 16, .ro, 0⟩
/-- Table 11-10. -/
def Reg.THM_IMPLAUS : Field := ⟨.thm, 0x150, 0x0, 1, 16, 1, .ro, 0⟩
/-- Table 11-10. -/
def Reg.THM_SUDDEN : Field := ⟨.thm, 0x150, 0x0, 1, 17, 1, .ro, 0⟩
/-- Table 11-10. -/
def Reg.THM_DERATE_CAP : Field := ⟨.thm, 0x154, 0x0, 1, 0, 16, .ro, 3600⟩
/-- Table 11-10. -/
def Reg.THM_TA : Field := ⟨.thm, 0x200, 0x4, 32, 0, 10, .ro, 512⟩
/-- Table 11-10. -/
def Reg.THM_TB : Field := ⟨.thm, 0x200, 0x4, 32, 10, 10, .ro, 512⟩
/-- Table 11-10. -/
def Reg.THM_FAIL_A : Field := ⟨.thm, 0x200, 0x4, 32, 20, 1, .ro, 0⟩
/-- Table 11-10. -/
def Reg.THM_FAIL_B : Field := ⟨.thm, 0x200, 0x4, 32, 21, 1, .ro, 0⟩
/-- Table 11-10. -/
def Reg.THM_DISAGREE : Field := ⟨.thm, 0x200, 0x4, 32, 22, 1, .ro, 0⟩
/-- Table 11-10. -/
def Reg.THM_STK_TA : Field := ⟨.thm, 0x300, 0x4, 12, 0, 10, .ro, 512⟩
/-- Table 11-10. -/
def Reg.THM_STK_TB : Field := ⟨.thm, 0x300, 0x4, 12, 10, 10, .ro, 512⟩
/-- Table 11-10. -/
def Reg.THM_STK_FAIL_A : Field := ⟨.thm, 0x300, 0x4, 12, 20, 1, .ro, 0⟩
/-- Table 11-10. -/
def Reg.THM_STK_FAIL_B : Field := ⟨.thm, 0x300, 0x4, 12, 21, 1, .ro, 0⟩
/-- Table 11-10. -/
def Reg.THM_STK_DISAGREE : Field := ⟨.thm, 0x300, 0x4, 12, 22, 1, .ro, 0⟩
/-- Table 11-10. -/
def Reg.THM_OPT_T : Field := ⟨.thm, 0x340, 0x4, 18, 0, 10, .ro, 512⟩
/-- Table 11-10. -/
def Reg.THM_OPT_FAIL : Field := ⟨.thm, 0x340, 0x4, 18, 10, 1, .ro, 0⟩

/-- The fields of Table 11-10. -/
def Reg.tab11_10 : List Field :=
  [Reg.THM_WARM_FLOOR, Reg.THM_WARM_EN, Reg.THM_SENS_CLR, Reg.THM_PLAUS_LO, Reg.THM_TJ_MAX, Reg.THM_TJ_SRC,
   Reg.THM_THROTTLE, Reg.THM_SD_REQ, Reg.THM_WARMING, Reg.THM_SINGLE, Reg.THM_T_IN, Reg.THM_T_OUT,
   Reg.THM_FLOW, Reg.THM_LEAK, Reg.THM_NOM_FLOW, Reg.THM_COOL_CP, Reg.THM_FLOW_USED, Reg.THM_IMPLAUS,
   Reg.THM_SUDDEN, Reg.THM_DERATE_CAP, Reg.THM_TA, Reg.THM_TB, Reg.THM_FAIL_A, Reg.THM_FAIL_B,
   Reg.THM_DISAGREE, Reg.THM_STK_TA, Reg.THM_STK_TB, Reg.THM_STK_FAIL_A, Reg.THM_STK_FAIL_B,
   Reg.THM_STK_DISAGREE, Reg.THM_OPT_T, Reg.THM_OPT_FAIL]

/-- Table 12-13. -/
def Reg.SOH_RESTARTING : Field := ⟨.soh, 0x100, 0x0, 1, 0, 1, .ro, 0⟩
/-- Table 12-13. -/
def Reg.SOH_SLOT : Field := ⟨.soh, 0x100, 0x0, 1, 1, 1, .ro, 0⟩
/-- Table 12-13. -/
def Reg.SOH_FALLBACK : Field := ⟨.soh, 0x100, 0x0, 1, 2, 1, .ro, 0⟩
/-- Table 12-13. -/
def Reg.SOH_RESTARTS : Field := ⟨.soh, 0x100, 0x0, 1, 8, 8, .ro, 0⟩
/-- Table 12-13; reset: from image. -/
def Reg.SOH_VER : Field := ⟨.soh, 0x104, 0x0, 1, 0, 24, .ro, 0⟩
/-- Table 12-13; reset: from flash. -/
def Reg.SOH_BOOT_GEN : Field := ⟨.soh, 0x108, 0x0, 1, 0, 32, .ro, 0⟩
/-- Table 12-13. -/
def Reg.SOH_TRAY_COMPAT : Field := ⟨.soh, 0x10C, 0x0, 1, 0, 1, .rw, 0⟩
/-- Table 12-13. -/
def Reg.SOH_TRAY_HB : Field := ⟨.soh, 0x10C, 0x0, 1, 1, 1, .ro, 0⟩
/-- Table 12-13. -/
def Reg.SOH_DADDR : Field := ⟨.soh, 0x10C, 0x0, 1, 8, 7, .ro, 0⟩
/-- Table 12-13. -/
def Reg.SOH_REQ : Field := ⟨.soh, 0x110, 0x0, 1, 0, 5, .ro, 0⟩
/-- Table 12-13. -/
def Reg.SOH_PC_GO : Field := ⟨.soh, 0x110, 0x0, 1, 16, 1, .wo, 0⟩
/-- Table 12-13; reset: from flash. -/
def Reg.SOH_LOG_NEXT : Field := ⟨.soh, 0x120, 0x0, 1, 0, 32, .ro, 0⟩
/-- Table 12-13; reset: from flash. -/
def Reg.SOH_LOG_OLDEST : Field := ⟨.soh, 0x124, 0x0, 1, 0, 32, .ro, 0⟩
/-- Table 12-13. -/
def Reg.SOH_LOG_SEL : Field := ⟨.soh, 0x128, 0x0, 1, 0, 32, .rw, 0⟩
/-- Table 12-13. -/
def Reg.SOH_LOG_PRESENT : Field := ⟨.soh, 0x12C, 0x0, 1, 0, 1, .ro, 0⟩
/-- Table 12-13. -/
def Reg.SOH_LOG_W : Field := ⟨.soh, 0x140, 0x0, 1, 0, 256, .ro, 0⟩
/-- Table 12-13. -/
def Reg.SOH_DUMP_SEL : Field := ⟨.soh, 0x160, 0x0, 1, 0, 2, .rw, 0⟩
/-- Table 12-13. -/
def Reg.SOH_DUMP_EXPORT : Field := ⟨.soh, 0x160, 0x0, 1, 2, 1, .wo, 0⟩
/-- Table 12-13. -/
def Reg.SOH_DUMP_PIN : Field := ⟨.soh, 0x160, 0x0, 1, 3, 1, .rw, 0⟩
/-- Table 12-13. -/
def Reg.SOH_DUMP_VALID : Field := ⟨.soh, 0x164, 0x0, 1, 0, 1, .ro, 0⟩
/-- Table 12-13. -/
def Reg.SOH_DUMP_REDACTED : Field := ⟨.soh, 0x164, 0x0, 1, 1, 1, .ro, 0⟩
/-- Table 12-13. -/
def Reg.SOH_DUMP_SERIAL : Field := ⟨.soh, 0x168, 0x0, 1, 0, 32, .ro, 0⟩
/-- Table 12-13. -/
def Reg.SOH_CAL_EXPORT : Field := ⟨.soh, 0x180, 0x0, 1, 0, 1, .wo, 0⟩
/-- Table 12-13. -/
def Reg.SOH_CAL_LOCK : Field := ⟨.soh, 0x180, 0x0, 1, 1, 1, .rw, 0⟩
/-- Table 12-13; reset: from flash. -/
def Reg.SOH_CAL_ORIGIN : Field := ⟨.soh, 0x180, 0x0, 1, 2, 1, .ro, 0⟩
/-- Table 12-13. -/
def Reg.SOH_CAL_REFUSED : Field := ⟨.soh, 0x180, 0x0, 1, 3, 1, .ro, 0⟩
/-- Table 12-13. -/
def Reg.SOH_CFG_SAVE : Field := ⟨.soh, 0x180, 0x0, 1, 4, 1, .wo, 0⟩
/-- Table 12-13. -/
def Reg.SOH_CAL_IMPORT : Field := ⟨.soh, 0x184, 0x0, 1, 0, 1, .rwt, 0⟩
/-- Table 12-13. -/
def Reg.SOH_CAL_SRC : Field := ⟨.soh, 0x188, 0x0, 1, 0, 20, .rw, 0⟩

/-- The fields of Table 12-13. -/
def Reg.tab12_13 : List Field :=
  [Reg.SOH_RESTARTING, Reg.SOH_SLOT, Reg.SOH_FALLBACK, Reg.SOH_RESTARTS, Reg.SOH_VER, Reg.SOH_BOOT_GEN,
   Reg.SOH_TRAY_COMPAT, Reg.SOH_TRAY_HB, Reg.SOH_DADDR, Reg.SOH_REQ, Reg.SOH_PC_GO, Reg.SOH_LOG_NEXT,
   Reg.SOH_LOG_OLDEST, Reg.SOH_LOG_SEL, Reg.SOH_LOG_PRESENT, Reg.SOH_LOG_W, Reg.SOH_DUMP_SEL,
   Reg.SOH_DUMP_EXPORT, Reg.SOH_DUMP_PIN, Reg.SOH_DUMP_VALID, Reg.SOH_DUMP_REDACTED, Reg.SOH_DUMP_SERIAL,
   Reg.SOH_CAL_EXPORT, Reg.SOH_CAL_LOCK, Reg.SOH_CAL_ORIGIN, Reg.SOH_CAL_REFUSED, Reg.SOH_CFG_SAVE,
   Reg.SOH_CAL_IMPORT, Reg.SOH_CAL_SRC]

/-- Table 12-14. -/
def Reg.UPD_OPEN : Field := ⟨.upd, 0x100, 0x0, 1, 0, 1, .wo, 0⟩
/-- Table 12-14. -/
def Reg.UPD_CHECK : Field := ⟨.upd, 0x100, 0x0, 1, 1, 1, .wo, 0⟩
/-- Table 12-14. -/
def Reg.UPD_VERIFY : Field := ⟨.upd, 0x100, 0x0, 1, 2, 1, .wo, 0⟩
/-- Table 12-14. -/
def Reg.UPD_LEN : Field := ⟨.upd, 0x104, 0x0, 1, 0, 26, .rw, 0⟩
/-- Table 12-14. -/
def Reg.UPD_STATE : Field := ⟨.upd, 0x108, 0x0, 1, 0, 3, .ro, 0⟩
/-- Table 12-14. -/
def Reg.UPD_COMP : Field := ⟨.upd, 0x108, 0x0, 1, 8, 4, .ro, 0⟩
/-- Table 12-14. -/
def Reg.UPD_FAIL : Field := ⟨.upd, 0x108, 0x0, 1, 12, 4, .ro, 0⟩
/-- Table 12-14. -/
def Reg.UPD_MISSING : Field := ⟨.upd, 0x108, 0x0, 1, 16, 10, .ro, 0⟩
/-- Table 12-14; reset: from flash. -/
def Reg.UPD_MIN_SVN : Field := ⟨.upd, 0x110, 0x0, 1, 0, 16, .ro, 0⟩
/-- Table 12-14. -/
def Reg.UPD_SVN_RAISE : Field := ⟨.upd, 0x114, 0x0, 1, 0, 16, .wo, 0⟩
/-- Table 12-14. -/
def Reg.UPD_ACT : Field := ⟨.upd, 0x120, 0x0, 1, 1, 5, .rwt, 0⟩
/-- Table 12-14. -/
def Reg.UPD_MAP : Field := ⟨.upd, 0x140, 0x0, 1, 0, 768, .ro, 0⟩
/-- Table 12-14; reset: from flash. -/
def Reg.UPD_C_VER : Field := ⟨.upd, 0x200, 0x40, 6, 0, 24, .ro, 0⟩
/-- Table 12-14; reset: from flash. -/
def Reg.UPD_C_SVN : Field := ⟨.upd, 0x204, 0x40, 6, 0, 16, .ro, 0⟩
/-- Table 12-14. -/
def Reg.UPD_PENDING : Field := ⟨.upd, 0x204, 0x40, 6, 16, 1, .ro, 0⟩
/-- Table 12-14; reset: from flash. -/
def Reg.UPD_C_DIG : Field := ⟨.upd, 0x220, 0x40, 6, 0, 256, .ro, 0⟩

/-- The fields of Table 12-14. -/
def Reg.tab12_14 : List Field :=
  [Reg.UPD_OPEN, Reg.UPD_CHECK, Reg.UPD_VERIFY, Reg.UPD_LEN, Reg.UPD_STATE, Reg.UPD_COMP, Reg.UPD_FAIL,
   Reg.UPD_MISSING, Reg.UPD_MIN_SVN, Reg.UPD_SVN_RAISE, Reg.UPD_ACT, Reg.UPD_MAP, Reg.UPD_C_VER,
   Reg.UPD_C_SVN, Reg.UPD_PENDING, Reg.UPD_C_DIG]

/-- Table 12-15; reset: from fuses. -/
def Reg.SEC_LIFECYCLE : Field := ⟨.sec, 0x100, 0x0, 1, 0, 2, .ro, 0⟩
/-- Table 12-15. -/
def Reg.SEC_LC_RETURN : Field := ⟨.sec, 0x100, 0x0, 1, 2, 1, .wo, 0⟩
/-- Table 12-15. -/
def Reg.SEC_LC_SRC : Field := ⟨.sec, 0x104, 0x0, 1, 0, 20, .rw, 0⟩
/-- Table 12-15; reset: derived. -/
def Reg.SEC_DEVICE_ID : Field := ⟨.sec, 0x110, 0x0, 1, 0, 128, .ro, 0⟩
/-- Table 12-15. -/
def Reg.SEC_ATT_NONCE : Field := ⟨.sec, 0x120, 0x0, 1, 0, 256, .rw, 0⟩
/-- Table 12-15. -/
def Reg.SEC_ATT_GO : Field := ⟨.sec, 0x140, 0x0, 1, 0, 1, .wo, 0⟩
/-- Table 12-15. -/
def Reg.SEC_ATT_CERT : Field := ⟨.sec, 0x140, 0x0, 1, 1, 1, .wo, 0⟩
/-- Table 12-15. -/
def Reg.SEC_ATT_SCOPE : Field := ⟨.sec, 0x140, 0x0, 1, 2, 3, .rw, 4⟩
/-- Table 12-15. -/
def Reg.SEC_ATT_STATE : Field := ⟨.sec, 0x140, 0x0, 1, 5, 2, .ro, 0⟩
/-- Table 12-15. -/
def Reg.SEC_ATT_DST : Field := ⟨.sec, 0x144, 0x0, 1, 0, 20, .rw, 0⟩
/-- Table 12-15. -/
def Reg.SEC_ATT_LEN : Field := ⟨.sec, 0x148, 0x0, 1, 0, 20, .ro, 0⟩
/-- Table 12-15; reset: from flash. -/
def Reg.SEC_ATT_COUNT : Field := ⟨.sec, 0x14C, 0x0, 1, 0, 32, .ro, 0⟩
/-- Table 12-15. -/
def Reg.SEC_SEAL_GO : Field := ⟨.sec, 0x160, 0x0, 1, 0, 1, .wo, 0⟩
/-- Table 12-15. -/
def Reg.SEC_UNSEAL_GO : Field := ⟨.sec, 0x160, 0x0, 1, 1, 1, .wo, 0⟩
/-- Table 12-15. -/
def Reg.SEC_SEAL_PART : Field := ⟨.sec, 0x160, 0x0, 1, 2, 2, .rw, 0⟩
/-- Table 12-15. -/
def Reg.SEC_SEAL_STATE : Field := ⟨.sec, 0x160, 0x0, 1, 4, 2, .ro, 0⟩
/-- Table 12-15. -/
def Reg.SEC_SEAL_CODE : Field := ⟨.sec, 0x160, 0x0, 1, 6, 4, .ro, 0⟩
/-- Table 12-15. -/
def Reg.SEC_SEAL_MORE : Field := ⟨.sec, 0x160, 0x0, 1, 10, 1, .wo, 0⟩
/-- Table 12-15. -/
def Reg.SEC_PART_WAIT : Field := ⟨.sec, 0x160, 0x0, 1, 11, 1, .ro, 0⟩
/-- Table 12-15. -/
def Reg.SEC_NPART : Field := ⟨.sec, 0x160, 0x0, 1, 12, 8, .ro, 0⟩
/-- Table 12-15. -/
def Reg.SEC_SEAL_SRC : Field := ⟨.sec, 0x164, 0x0, 1, 0, 20, .rw, 0⟩
/-- Table 12-15. -/
def Reg.SEC_SEAL_LEN : Field := ⟨.sec, 0x168, 0x0, 1, 0, 22, .rw, 0⟩
/-- Table 12-15. -/
def Reg.SEC_SEAL_MDIG : Field := ⟨.sec, 0x180, 0x0, 1, 0, 256, .ro, 0⟩

/-- The fields of Table 12-15. -/
def Reg.tab12_15 : List Field :=
  [Reg.SEC_LIFECYCLE, Reg.SEC_LC_RETURN, Reg.SEC_LC_SRC, Reg.SEC_DEVICE_ID, Reg.SEC_ATT_NONCE,
   Reg.SEC_ATT_GO, Reg.SEC_ATT_CERT, Reg.SEC_ATT_SCOPE, Reg.SEC_ATT_STATE, Reg.SEC_ATT_DST, Reg.SEC_ATT_LEN,
   Reg.SEC_ATT_COUNT, Reg.SEC_SEAL_GO, Reg.SEC_UNSEAL_GO, Reg.SEC_SEAL_PART, Reg.SEC_SEAL_STATE,
   Reg.SEC_SEAL_CODE, Reg.SEC_SEAL_MORE, Reg.SEC_PART_WAIT, Reg.SEC_NPART, Reg.SEC_SEAL_SRC,
   Reg.SEC_SEAL_LEN, Reg.SEC_SEAL_MDIG]

/-- Table 13-2. -/
def Reg.FLT_FIRST_BIT : Field := ⟨.common, 0x20, 0x0, 1, 0, 5, .ro, 0⟩
/-- Table 13-2. -/
def Reg.FLT_FIRST_VALID : Field := ⟨.common, 0x20, 0x0, 1, 5, 1, .ro, 0⟩
/-- Table 13-2. -/
def Reg.FLT_FIRST_CTX : Field := ⟨.common, 0x20, 0x0, 1, 6, 6, .ro, 0⟩
/-- Table 13-2. -/
def Reg.FLT_FIRST_CTXV : Field := ⟨.common, 0x20, 0x0, 1, 12, 1, .ro, 0⟩
/-- Table 13-2. -/
def Reg.FLT_FIRST_DETAIL : Field := ⟨.common, 0x20, 0x0, 1, 16, 16, .ro, 0⟩

/-- The fields of Table 13-2. -/
def Reg.tab13_2 : List Field :=
  [Reg.FLT_FIRST_BIT, Reg.FLT_FIRST_VALID, Reg.FLT_FIRST_CTX, Reg.FLT_FIRST_CTXV, Reg.FLT_FIRST_DETAIL]

/-- Table 13-18. -/
def Reg.FLT_FT_LATCH : Field := ⟨.flt, 0x100, 0x0, 1, 0, 1, .w1c, 0⟩
/-- Table 13-18. -/
def Reg.FLT_PAIR_FAULT : Field := ⟨.flt, 0x100, 0x0, 1, 1, 1, .ro, 0⟩
/-- Table 13-18. -/
def Reg.FLT_HALTED : Field := ⟨.flt, 0x100, 0x0, 1, 2, 1, .ro, 0⟩
/-- Table 13-18. -/
def Reg.FLT_FT_PAGE : Field := ⟨.flt, 0x100, 0x0, 1, 8, 10, .ro, 0⟩
/-- Table 13-18. -/
def Reg.FLT_FT_BIT : Field := ⟨.flt, 0x100, 0x0, 1, 18, 5, .ro, 0⟩
/-- Table 13-18. -/
def Reg.FLT_REPLACE_REQ : Field := ⟨.flt, 0x104, 0x0, 1, 0, 1, .ro, 0⟩
/-- Table 13-18. -/
def Reg.FLT_RPL_PAGE : Field := ⟨.flt, 0x104, 0x0, 1, 1, 10, .ro, 0⟩
/-- Table 13-18. -/
def Reg.FLT_RPL_BIT : Field := ⟨.flt, 0x104, 0x0, 1, 11, 5, .ro, 0⟩
/-- Table 13-18. -/
def Reg.FLT_RPL_COUNT : Field := ⟨.flt, 0x104, 0x0, 1, 16, 16, .ro, 0⟩
/-- Table 13-18. -/
def Reg.FLT_N_CE : Field := ⟨.flt, 0x108, 0x0, 1, 0, 10, .ro, 0⟩
/-- Table 13-18. -/
def Reg.FLT_N_UC : Field := ⟨.flt, 0x108, 0x0, 1, 10, 10, .ro, 0⟩
/-- Table 13-18. -/
def Reg.FLT_N_FT : Field := ⟨.flt, 0x108, 0x0, 1, 20, 10, .ro, 0⟩
/-- Table 13-18. -/
def Reg.FLT_FSCAN_FROM : Field := ⟨.flt, 0x10C, 0x0, 1, 0, 10, .rw, 0⟩
/-- Table 13-18. -/
def Reg.FLT_FSCAN_PAGE : Field := ⟨.flt, 0x110, 0x0, 1, 0, 10, .ro, 0⟩
/-- Table 13-18. -/
def Reg.FLT_FSCAN_HIT : Field := ⟨.flt, 0x110, 0x0, 1, 31, 1, .ro, 0⟩
/-- Table 13-18. -/
def Reg.FLT_FENCE_PAGE : Field := ⟨.flt, 0x114, 0x0, 1, 0, 10, .rw, 0⟩
/-- Table 13-18. -/
def Reg.FLT_FENCE_SUB : Field := ⟨.flt, 0x114, 0x0, 1, 10, 3, .rw, 0⟩
/-- Table 13-18. -/
def Reg.FLT_FENCE_GO : Field := ⟨.flt, 0x114, 0x0, 1, 31, 1, .wo, 0⟩

/-- The fields of Table 13-18. -/
def Reg.tab13_18 : List Field :=
  [Reg.FLT_FT_LATCH, Reg.FLT_PAIR_FAULT, Reg.FLT_HALTED, Reg.FLT_FT_PAGE, Reg.FLT_FT_BIT,
   Reg.FLT_REPLACE_REQ, Reg.FLT_RPL_PAGE, Reg.FLT_RPL_BIT, Reg.FLT_RPL_COUNT, Reg.FLT_N_CE, Reg.FLT_N_UC,
   Reg.FLT_N_FT, Reg.FLT_FSCAN_FROM, Reg.FLT_FSCAN_PAGE, Reg.FLT_FSCAN_HIT, Reg.FLT_FENCE_PAGE,
   Reg.FLT_FENCE_SUB, Reg.FLT_FENCE_GO]

/-- Table 13-19. -/
def Reg.HNG_HANG_EN : Field := ⟨.hng, 0x100, 0x0, 1, 0, 1, .rw, 1⟩
/-- Table 13-19. -/
def Reg.HNG_LADDER_MAX : Field := ⟨.hng, 0x100, 0x0, 1, 1, 3, .rw, 3⟩
/-- Table 13-19. -/
def Reg.HNG_REPLAY_WIN : Field := ⟨.hng, 0x104, 0x0, 1, 0, 14, .rw, 10⟩
/-- Table 13-19. -/
def Reg.HNG_REPEAT_WIN : Field := ⟨.hng, 0x108, 0x0, 1, 0, 16, .rw, 1000⟩
/-- Table 13-19. -/
def Reg.HNG_ACTION : Field := ⟨.hng, 0x10C, 0x0, 1, 0, 3, .wo, 0⟩
/-- Table 13-19. -/
def Reg.HNG_XE : Field := ⟨.hng, 0x10C, 0x0, 1, 7, 3, .wo, 0⟩
/-- Table 13-19. -/
def Reg.HNG_TARGET : Field := ⟨.hng, 0x10C, 0x0, 1, 16, 10, .wo, 0⟩
/-- Table 13-19. -/
def Reg.HNG_GO : Field := ⟨.hng, 0x10C, 0x0, 1, 31, 1, .wo, 0⟩
/-- Table 13-19. -/
def Reg.HNG_REFUSED : Field := ⟨.hng, 0x110, 0x0, 1, 0, 1, .ro, 0⟩
/-- Table 13-19. -/
def Reg.HNG_RUNG : Field := ⟨.hng, 0x120, 0x4, 5, 0, 3, .ro, 0⟩
/-- Table 13-19. -/
def Reg.HNG_PHASE : Field := ⟨.hng, 0x120, 0x4, 5, 3, 3, .ro, 0⟩
/-- Table 13-19. -/
def Reg.HNG_ENGINE : Field := ⟨.hng, 0x120, 0x4, 5, 6, 10, .ro, 0⟩
/-- Table 13-19. -/
def Reg.HNG_REC_XE : Field := ⟨.hng, 0x120, 0x4, 5, 16, 3, .ro, 0⟩
/-- Table 13-19. -/
def Reg.HNG_TURN : Field := ⟨.hng, 0x120, 0x4, 5, 19, 6, .ro, 0⟩
/-- Table 13-19. -/
def Reg.HNG_TURN_VALID : Field := ⟨.hng, 0x120, 0x4, 5, 25, 1, .ro, 0⟩
/-- Table 13-19. -/
def Reg.HNG_SUSPECTS : Field := ⟨.hng, 0x140, 0x8, 5, 0, 64, .ro, 0⟩
/-- Table 13-19. -/
def Reg.HNG_KILLED : Field := ⟨.hng, 0x170, 0x8, 5, 0, 64, .ro, 0⟩

/-- The fields of Table 13-19. -/
def Reg.tab13_19 : List Field :=
  [Reg.HNG_HANG_EN, Reg.HNG_LADDER_MAX, Reg.HNG_REPLAY_WIN, Reg.HNG_REPEAT_WIN, Reg.HNG_ACTION, Reg.HNG_XE,
   Reg.HNG_TARGET, Reg.HNG_GO, Reg.HNG_REFUSED, Reg.HNG_RUNG, Reg.HNG_PHASE, Reg.HNG_ENGINE, Reg.HNG_REC_XE,
   Reg.HNG_TURN, Reg.HNG_TURN_VALID, Reg.HNG_SUSPECTS, Reg.HNG_KILLED]

/-- Table 14-3. -/
def Reg.GLB_TARGET : Field := ⟨.glb, 0x110, 0x0, 1, 0, 3, .rw, 1⟩
/-- Table 14-3. -/
def Reg.GLB_PHASE : Field := ⟨.glb, 0x114, 0x0, 1, 0, 3, .ro, 0⟩
/-- Table 14-3. -/
def Reg.GLB_BUSY : Field := ⟨.glb, 0x114, 0x0, 1, 3, 1, .ro, 0⟩
/-- Table 14-3. -/
def Reg.GLB_FAIL : Field := ⟨.glb, 0x114, 0x0, 1, 4, 4, .ro, 0⟩
/-- Table 14-3. -/
def Reg.GLB_VIN12_OK : Field := ⟨.glb, 0x114, 0x0, 1, 8, 1, .ro, 0⟩
/-- Table 14-3. -/
def Reg.GLB_VIO18_OK : Field := ⟨.glb, 0x114, 0x0, 1, 9, 1, .ro, 0⟩
/-- Table 14-3. -/
def Reg.GLB_WARM : Field := ⟨.glb, 0x114, 0x0, 1, 10, 1, .ro, 0⟩
/-- Table 14-3. -/
def Reg.GLB_ELAPSED : Field := ⟨.glb, 0x114, 0x0, 1, 16, 16, .ro, 0⟩
/-- Table 14-3. -/
def Reg.GLB_BR_PORTS : Field := ⟨.glb, 0x118, 0x0, 1, 0, 16, .rw, 65535⟩

/-- The fields of Table 14-3. -/
def Reg.tab14_3 : List Field :=
  [Reg.GLB_TARGET, Reg.GLB_PHASE, Reg.GLB_BUSY, Reg.GLB_FAIL, Reg.GLB_VIN12_OK, Reg.GLB_VIO18_OK,
   Reg.GLB_WARM, Reg.GLB_ELAPSED, Reg.GLB_BR_PORTS]

/-- Table 14-6; reset: from fuses. -/
def Reg.DARN_FUSE_LO : Field := ⟨.darn, 0x100, 0x20, 4, 0, 32, .ro, 0⟩
/-- Table 14-6; reset: from fuses. -/
def Reg.DARN_FUSE_HI : Field := ⟨.darn, 0x104, 0x20, 4, 0, 12, .ro, 0⟩
/-- Table 14-6. -/
def Reg.DARN_BIST_LO : Field := ⟨.darn, 0x108, 0x20, 4, 0, 32, .ro, 0⟩
/-- Table 14-6. -/
def Reg.DARN_BIST_HI : Field := ⟨.darn, 0x10C, 0x20, 4, 0, 12, .ro, 0⟩
/-- Table 14-6. -/
def Reg.DARN_GROWN_LO : Field := ⟨.darn, 0x110, 0x20, 4, 0, 32, .ro, 0⟩
/-- Table 14-6. -/
def Reg.DARN_GROWN_HI : Field := ⟨.darn, 0x114, 0x20, 4, 0, 12, .ro, 0⟩
/-- Table 14-6. -/
def Reg.DARN_BAD : Field := ⟨.darn, 0x118, 0x20, 4, 0, 6, .ro, 0⟩
/-- Table 14-6. -/
def Reg.DARN_SPARES_FREE : Field := ⟨.darn, 0x118, 0x20, 4, 6, 6, .ro, 0⟩
/-- Table 14-6. -/
def Reg.DARN_ABSENT : Field := ⟨.darn, 0x118, 0x20, 4, 12, 6, .ro, 0⟩
/-- Table 14-6. -/
def Reg.DARN_PHYS : Field := ⟨.darn, 0x200, 0x4, 160, 0, 8, .ro, 0⟩
/-- Table 14-6. -/
def Reg.DARN_PRESENT : Field := ⟨.darn, 0x200, 0x4, 160, 8, 1, .ro, 0⟩
/-- Table 14-6. -/
def Reg.DARN_MOVED : Field := ⟨.darn, 0x200, 0x4, 160, 9, 1, .ro, 0⟩
/-- Table 14-6. -/
def Reg.DARN_PENDING : Field := ⟨.darn, 0x200, 0x4, 160, 10, 1, .ro, 0⟩

/-- The fields of Table 14-6. -/
def Reg.tab14_6 : List Field :=
  [Reg.DARN_FUSE_LO, Reg.DARN_FUSE_HI, Reg.DARN_BIST_LO, Reg.DARN_BIST_HI, Reg.DARN_GROWN_LO,
   Reg.DARN_GROWN_HI, Reg.DARN_BAD, Reg.DARN_SPARES_FREE, Reg.DARN_ABSENT, Reg.DARN_PHYS, Reg.DARN_PRESENT,
   Reg.DARN_MOVED, Reg.DARN_PENDING]

/-- Table 14-8. -/
def Reg.CFG_TXN_OP : Field := ⟨.cfg, 0x140, 0x0, 1, 0, 2, .wo, 0⟩
/-- Table 14-8. -/
def Reg.CFG_TXN_SCOPE : Field := ⟨.cfg, 0x140, 0x0, 1, 2, 3, .wo, 0⟩
/-- Table 14-8. -/
def Reg.CFG_TXN_GO : Field := ⟨.cfg, 0x140, 0x0, 1, 31, 1, .wo, 0⟩
/-- Table 14-8. -/
def Reg.CFG_TXN_STATE : Field := ⟨.cfg, 0x144, 0x4, 5, 0, 3, .ro, 0⟩
/-- Table 14-8. -/
def Reg.CFG_TXN_LAST : Field := ⟨.cfg, 0x144, 0x4, 5, 3, 2, .ro, 0⟩
/-- Table 14-8. -/
def Reg.CFG_TXN_OWNER_SESS : Field := ⟨.cfg, 0x144, 0x4, 5, 5, 5, .ro, 0⟩
/-- Table 14-8. -/
def Reg.CFG_TXN_OWNER_PORT : Field := ⟨.cfg, 0x144, 0x4, 5, 10, 1, .ro, 0⟩
/-- Table 14-8. -/
def Reg.CFG_TXN_OWNER_SOH : Field := ⟨.cfg, 0x144, 0x4, 5, 11, 1, .ro, 0⟩
/-- Table 14-8. -/
def Reg.CFG_TXN_FCODE : Field := ⟨.cfg, 0x144, 0x4, 5, 12, 4, .ro, 0⟩
/-- Table 14-8. -/
def Reg.CFG_TXN_FPAGE : Field := ⟨.cfg, 0x144, 0x4, 5, 16, 10, .ro, 0⟩
/-- Table 14-8. -/
def Reg.CFG_TXN_TMO : Field := ⟨.cfg, 0x158, 0x0, 1, 0, 16, .rw, 100⟩
/-- Table 14-8. -/
def Reg.CFG_TXN_WORDS : Field := ⟨.cfg, 0x160, 0x4, 5, 0, 17, .ro, 0⟩

/-- The fields of Table 14-8. -/
def Reg.tab14_8 : List Field :=
  [Reg.CFG_TXN_OP, Reg.CFG_TXN_SCOPE, Reg.CFG_TXN_GO, Reg.CFG_TXN_STATE, Reg.CFG_TXN_LAST,
   Reg.CFG_TXN_OWNER_SESS, Reg.CFG_TXN_OWNER_PORT, Reg.CFG_TXN_OWNER_SOH, Reg.CFG_TXN_FCODE,
   Reg.CFG_TXN_FPAGE, Reg.CFG_TXN_TMO, Reg.CFG_TXN_WORDS]

/-- Table 14-9. -/
def Reg.SHADOW_HELD : Field := ⟨.common, 0x80, 0x0, 1, 0, 1, .ro, 0⟩
/-- Table 14-9. -/
def Reg.SHADOW_TXN : Field := ⟨.common, 0x80, 0x0, 1, 1, 3, .ro, 0⟩
/-- Table 14-9. -/
def Reg.SHADOW_PWORDS : Field := ⟨.common, 0x80, 0x0, 1, 16, 16, .ro, 0⟩

/-- The fields of Table 14-9. -/
def Reg.tab14_9 : List Field :=
  [Reg.SHADOW_HELD, Reg.SHADOW_TXN, Reg.SHADOW_PWORDS]

/-- Table 15-3; reset: per Table 15-1. -/
def Reg.PAGE_TYPE : Field := ⟨.common, 0x0, 0x0, 1, 0, 8, .ro, 0⟩
/-- Table 15-3; reset: page number minus the first page of its block. -/
def Reg.PAGE_INST : Field := ⟨.common, 0x0, 0x0, 1, 8, 8, .ro, 0⟩
/-- Table 15-3; reset: 0x0001, R448. -/
def Reg.PAGE_LAYOUT : Field := ⟨.common, 0x0, 0x0, 1, 16, 16, .ro, 1⟩
/-- Table 15-3; reset: per block. -/
def Reg.PAGE_HASFLT : Field := ⟨.common, 0x4, 0x0, 1, 0, 1, .ro, 0⟩
/-- Table 15-3; reset: 1 in TILE, CE, STC, HST. -/
def Reg.PAGE_ISENGINE : Field := ⟨.common, 0x4, 0x0, 1, 1, 1, .ro, 1⟩
/-- Table 15-3; reset: per block. -/
def Reg.PAGE_HASCNT : Field := ⟨.common, 0x4, 0x0, 1, 2, 1, .ro, 0⟩
/-- Table 15-3; reset: per block. -/
def Reg.PAGE_HASTXN : Field := ⟨.common, 0x4, 0x0, 1, 3, 1, .ro, 0⟩
/-- Table 15-3; reset: 1 in TILE, MEM, LNK, SFB, CE, STC, HST. -/
def Reg.PAGE_CANFENCE : Field := ⟨.common, 0x4, 0x0, 1, 4, 1, .ro, 1⟩

/-- The fields of Table 15-3. -/
def Reg.tab15_3 : List Field :=
  [Reg.PAGE_TYPE, Reg.PAGE_INST, Reg.PAGE_LAYOUT, Reg.PAGE_HASFLT, Reg.PAGE_ISENGINE, Reg.PAGE_HASCNT,
   Reg.PAGE_HASTXN, Reg.PAGE_CANFENCE]

/-- Table 15-4. -/
def Reg.PAGE_CNT_EN : Field := ⟨.common, 0x8, 0x0, 1, 0, 1, .rw, 1⟩
/-- Table 15-4. -/
def Reg.PAGE_DRAIN : Field := ⟨.common, 0x8, 0x0, 1, 1, 1, .rw, 0⟩
/-- Table 15-4. -/
def Reg.PAGE_SCRUB : Field := ⟨.common, 0x8, 0x0, 1, 2, 1, .wo, 0⟩
/-- Table 15-4. -/
def Reg.PAGE_STATE : Field := ⟨.common, 0xC, 0x0, 1, 0, 2, .ro, 0⟩
/-- Table 15-4. -/
def Reg.PAGE_BUSY : Field := ⟨.common, 0xC, 0x0, 1, 2, 1, .ro, 0⟩
/-- Table 15-4. -/
def Reg.PAGE_FENCED : Field := ⟨.common, 0xC, 0x0, 1, 3, 1, .ro, 0⟩
/-- Table 15-4. -/
def Reg.PAGE_DRAINED : Field := ⟨.common, 0xC, 0x0, 1, 4, 1, .ro, 0⟩

/-- The fields of Table 15-4. -/
def Reg.tab15_4 : List Field :=
  [Reg.PAGE_CNT_EN, Reg.PAGE_DRAIN, Reg.PAGE_SCRUB, Reg.PAGE_STATE, Reg.PAGE_BUSY, Reg.PAGE_FENCED,
   Reg.PAGE_DRAINED]

/-- Table 15-7. -/
def Reg.CNT_RUN : Field := ⟨.cnt, 0x100, 0x0, 1, 0, 1, .rw, 0⟩
/-- Table 15-7. -/
def Reg.CNT_WRAP : Field := ⟨.cnt, 0x100, 0x0, 1, 1, 1, .rw, 1⟩
/-- Table 15-7. -/
def Reg.CNT_COL_PER : Field := ⟨.cnt, 0x104, 0x0, 1, 0, 20, .rw, 1000⟩
/-- Table 15-7. -/
def Reg.CNT_FULL : Field := ⟨.cnt, 0x108, 0x0, 1, 0, 1, .ro, 0⟩
/-- Table 15-7. -/
def Reg.CNT_NSEL : Field := ⟨.cnt, 0x108, 0x0, 1, 16, 7, .ro, 0⟩
/-- Table 15-7. -/
def Reg.CNT_SNAP_NEXT : Field := ⟨.cnt, 0x10C, 0x0, 1, 0, 32, .ro, 0⟩
/-- Table 15-7. -/
def Reg.CNT_SNAP_OLDEST : Field := ⟨.cnt, 0x110, 0x0, 1, 0, 32, .ro, 0⟩
/-- Table 15-7. -/
def Reg.CNT_SNAP_RSEL : Field := ⟨.cnt, 0x114, 0x0, 1, 0, 32, .rw, 0⟩
/-- Table 15-7. -/
def Reg.CNT_SNAP_RVALID : Field := ⟨.cnt, 0x118, 0x0, 1, 0, 1, .ro, 0⟩
/-- Table 15-7. -/
def Reg.CNT_CLR_PAGE : Field := ⟨.cnt, 0x120, 0x0, 1, 0, 10, .wo, 0⟩
/-- Table 15-7. -/
def Reg.CNT_CLR_MASK : Field := ⟨.cnt, 0x120, 0x0, 1, 10, 8, .wo, 0⟩
/-- Table 15-7. -/
def Reg.CNT_CLR_BLK : Field := ⟨.cnt, 0x120, 0x0, 1, 18, 1, .wo, 0⟩
/-- Table 15-7. -/
def Reg.CNT_CLR_GO : Field := ⟨.cnt, 0x120, 0x0, 1, 31, 1, .wo, 0⟩
/-- Table 15-7. -/
def Reg.CNT_SEL_PAGE : Field := ⟨.cnt, 0x200, 0x4, 64, 0, 10, .rw, 0⟩
/-- Table 15-7. -/
def Reg.CNT_SEL_PAIR : Field := ⟨.cnt, 0x200, 0x4, 64, 10, 9, .rw, 0⟩
/-- Table 15-7. -/
def Reg.CNT_SEL_VALID : Field := ⟨.cnt, 0x200, 0x4, 64, 31, 1, .rw, 0⟩
/-- Table 15-7. -/
def Reg.CNT_SNAP_W : Field := ⟨.cnt, 0x800, 0x0, 1, 0, 8192, .ro, 0⟩

/-- The fields of Table 15-7. -/
def Reg.tab15_7 : List Field :=
  [Reg.CNT_RUN, Reg.CNT_WRAP, Reg.CNT_COL_PER, Reg.CNT_FULL, Reg.CNT_NSEL, Reg.CNT_SNAP_NEXT,
   Reg.CNT_SNAP_OLDEST, Reg.CNT_SNAP_RSEL, Reg.CNT_SNAP_RVALID, Reg.CNT_CLR_PAGE, Reg.CNT_CLR_MASK,
   Reg.CNT_CLR_BLK, Reg.CNT_CLR_GO, Reg.CNT_SEL_PAGE, Reg.CNT_SEL_PAIR, Reg.CNT_SEL_VALID, Reg.CNT_SNAP_W]

/-- Table 15-2. -/
def Reg.FLT_STAT : Field := ⟨.common, 0x10, 0x0, 1, 0, 32, .w1c, 0⟩
/-- Table 15-2. -/
def Reg.FLT_MASK : Field := ⟨.common, 0x14, 0x0, 1, 0, 32, .rw, 0⟩
/-- Table 15-2. -/
def Reg.FLT_CLASS : Field := ⟨.common, 0x18, 0x0, 1, 0, 32, .rw, 0⟩
/-- Table 15-2. -/
def Reg.FLT_COUNT : Field := ⟨.common, 0x1C, 0x0, 1, 0, 16, .ro, 0⟩
/-- Table 15-2. -/
def Reg.PROG_CNT : Field := ⟨.common, 0x24, 0x0, 1, 0, 32, .ro, 0⟩
/-- Table 15-2. -/
def Reg.PROG_WIN : Field := ⟨.common, 0x28, 0x0, 1, 0, 14, .rw, 100⟩
/-- Table 15-2. -/
def Reg.CNT_N : Field := ⟨.common, 0x40, 0x8, 8, 0, 64, .ro, 0⟩

/-- The fields of Table 15-2. -/
def Reg.tab15_2 : List Field :=
  [Reg.FLT_STAT, Reg.FLT_MASK, Reg.FLT_CLASS, Reg.FLT_COUNT, Reg.PROG_CNT, Reg.PROG_WIN, Reg.CNT_N]

/-- Table 4-17. -/
def Reg.CS_VALID : Field := ⟨.tile, 0x180, 0x8, 16, 0, 1, .rwt, 0⟩
/-- Table 4-17. -/
def Reg.CS_CTX : Field := ⟨.tile, 0x180, 0x8, 16, 1, 6, .rwt, 0⟩
/-- Table 4-17. -/
def Reg.CS_IMEM_BASE : Field := ⟨.tile, 0x180, 0x8, 16, 8, 6, .rwt, 0⟩
/-- Table 4-17. -/
def Reg.CS_IMEM_SIZE : Field := ⟨.tile, 0x180, 0x8, 16, 14, 7, .rwt, 0⟩
/-- Table 4-17. -/
def Reg.CS_SLIST : Field := ⟨.tile, 0x184, 0x8, 16, 0, 16, .rwt, 0⟩
/-- Table 4-17. -/
def Reg.CS_PEG_BASE : Field := ⟨.tile, 0x184, 0x8, 16, 16, 6, .rwt, 0⟩
/-- Table 4-17. -/
def Reg.CS_PEG_N : Field := ⟨.tile, 0x184, 0x8, 16, 22, 7, .rwt, 0⟩

/-- The fields of Table 4-17. -/
def Reg.tab4_17 : List Field :=
  [Reg.CS_VALID, Reg.CS_CTX, Reg.CS_IMEM_BASE, Reg.CS_IMEM_SIZE, Reg.CS_SLIST, Reg.CS_PEG_BASE, Reg.CS_PEG_N]

/-- Table 5-2. -/
def Reg.PN_BASE : Field := ⟨.tile, 0x300, 0x8, 16, 0, 6, .rwt, 0⟩
/-- Table 5-2. -/
def Reg.PN_SIZE : Field := ⟨.tile, 0x300, 0x8, 16, 6, 6, .rwt, 0⟩
/-- Table 5-2. -/
def Reg.PN_ACT : Field := ⟨.tile, 0x300, 0x8, 16, 12, 6, .rwt, 0⟩
/-- Table 5-2. -/
def Reg.PN_RING : Field := ⟨.tile, 0x300, 0x8, 16, 18, 6, .rwt, 0⟩
/-- Table 5-2. -/
def Reg.PN_QAREA : Field := ⟨.tile, 0x304, 0x8, 16, 0, 6, .ro, 0⟩
/-- Table 5-2. -/
def Reg.PN_ZEROING : Field := ⟨.tile, 0x304, 0x8, 16, 6, 1, .ro, 0⟩

/-- The fields of Table 5-2. -/
def Reg.tab5_2 : List Field :=
  [Reg.PN_BASE, Reg.PN_SIZE, Reg.PN_ACT, Reg.PN_RING, Reg.PN_QAREA, Reg.PN_ZEROING]

/-- Table 5-14. -/
def Reg.MCH_VEC : Field := ⟨.sfb, 0x200, 0x20, 8, 0, 64, .ro, 0⟩
/-- Table 5-14. -/
def Reg.MCH_WCRED : Field := ⟨.sfb, 0x208, 0x20, 8, 0, 64, .ro, 0⟩
/-- Table 5-14. -/
def Reg.MCH_WFEED : Field := ⟨.sfb, 0x210, 0x20, 8, 0, 64, .ro, 0⟩
/-- Table 5-14. -/
def Reg.MCH_WTAG : Field := ⟨.sfb, 0x218, 0x20, 8, 0, 64, .ro, 0⟩
/-- Table 5-14. -/
def Reg.RT_SEND_OUT : Field := ⟨.tile, 0x700, 0x0, 1, 0, 64, .ro, 0⟩
/-- Table 5-14. -/
def Reg.RT_SEND_IN : Field := ⟨.tile, 0x708, 0x0, 1, 0, 64, .ro, 0⟩
/-- Table 5-14. -/
def Reg.RT_WMESH : Field := ⟨.tile, 0x710, 0x0, 1, 0, 64, .ro, 0⟩
/-- Table 5-14. -/
def Reg.RT_MVEC : Field := ⟨.tile, 0x718, 0x0, 1, 0, 64, .ro, 0⟩
/-- Table 5-14. -/
def Reg.RT_MLATE : Field := ⟨.tile, 0x720, 0x0, 1, 0, 64, .ro, 0⟩
/-- Table 5-14. -/
def Reg.RT_BANK : Field := ⟨.tile, 0x728, 0x0, 1, 0, 64, .ro, 0⟩
/-- Table 5-14. -/
def Reg.RT_QFULL : Field := ⟨.tile, 0x730, 0x0, 1, 0, 64, .ro, 0⟩
/-- Table 5-14. -/
def Reg.RT_QEMPTY : Field := ⟨.tile, 0x738, 0x0, 1, 0, 64, .ro, 0⟩

/-- The fields of Table 5-14. -/
def Reg.tab5_14 : List Field :=
  [Reg.MCH_VEC, Reg.MCH_WCRED, Reg.MCH_WFEED, Reg.MCH_WTAG, Reg.RT_SEND_OUT, Reg.RT_SEND_IN, Reg.RT_WMESH,
   Reg.RT_MVEC, Reg.RT_MLATE, Reg.RT_BANK, Reg.RT_QFULL, Reg.RT_QEMPTY]

/-- Every field of the register map. -/
def Reg.all : List Field :=
  Reg.tab0_3 ++ Reg.tab1_7 ++ Reg.tab2_3 ++ Reg.tab2_4 ++ Reg.tab2_5 ++ Reg.tab3_5 ++ Reg.tab3_6 ++
  Reg.tab3_11 ++ Reg.tab3_12 ++ Reg.tab3_13 ++ Reg.tab3_14 ++ Reg.tab4_13 ++ Reg.tab4_14 ++ Reg.tab4_15 ++ Reg.tab4_16 ++
  Reg.tab4_18 ++ Reg.tab5_3 ++ Reg.tab5_4 ++ Reg.tab5_6 ++ Reg.tab5_7 ++ Reg.tab5_10 ++ Reg.tab5_13 ++ Reg.tab6_4 ++
  Reg.tab6_13 ++ Reg.tab6_14 ++ Reg.tab7_10 ++ Reg.tab8_1 ++ Reg.tab8_2 ++ Reg.tab8_11 ++ Reg.tab9_11 ++ Reg.tab9_12 ++
  Reg.tab9_13 ++ Reg.tab9_14 ++ Reg.tab10_9 ++ Reg.tab10_10 ++ Reg.tab10_12 ++ Reg.tab11_8 ++ Reg.tab11_9 ++ Reg.tab11_10 ++
  Reg.tab12_13 ++ Reg.tab12_14 ++ Reg.tab12_15 ++ Reg.tab13_2 ++ Reg.tab13_18 ++ Reg.tab13_19 ++ Reg.tab14_3 ++ Reg.tab14_6 ++
  Reg.tab14_8 ++ Reg.tab14_9 ++ Reg.tab15_3 ++ Reg.tab15_4 ++ Reg.tab15_7 ++ Reg.tab15_2 ++ Reg.tab4_17 ++ Reg.tab5_2 ++
  Reg.tab5_14

end Sys2Proof.Machine
end

