-- ==== Sys2Proof/Machine/TypesHearth.lean ====
section
/-! DEFINITION. The state of Hearth that no register field holds (R297 to R327). Places count along the step order of R299: 0 to 7
are OP0 to OP7 at 100 %, 8, 9 and 10 are OP7 at 75 %, 50 % and 25 %, the floor. -/

namespace Sys2Proof.Machine

/-- The operating limits that the controller has in force, R306: CAP and PEAK in 10 W, SAFE_PCT and SSD_PCT in percent. -/
structure OpLimits where
  cap     : Nat
  safePct : Nat
  peak    : Nat
  ssdPct  : Nat
  deriving DecidableEq, Repr

/-- Hearth beside its registers. -/
structure Hearth where
  /-- the place in force -/
  place    : Nat
  /-- the place that the cap controller holds, R303 -/
  capPlace : Nat
  /-- at the last tick a power condition of R303 kept the cap controller from stepping up -/
  capBinds : Bool
  /-- the place that the peak limit requires; 0 none, R305 -/
  peak     : Nat
  /-- the place that the thermal limit requires; 0 none, R310 -/
  thermal  : Nat
  /-- the place that the plan and follow limits require, R324, R323 -/
  plan     : Nat
  follow   : Nat
  /-- phase TEST has not ended, so OP7 at 100 % is held, R400 -/
  bringUp  : Bool
  /-- a warm reset or a halt holds the floor, R327 -/
  resetFloor : Bool
  /-- the operating limits in force since the last controller tick, R306 -/
  lim      : OpLimits
  /-- time of the last step of any cause, µs; none before the first, R303 -/
  stepAt   : Option Nat
  /-- P_IN of the last ms, newest first, at most 16,000 -/
  pin      : List Nat
  /-- calibrated and raw estimates of the current ms: sum and number -/
  estSum   : Nat
  rawSum   : Nat
  estN     : Nat
  /-- ticks in a row at the floor with P1 above EFF_CAP, and with P1 at or below EFF_CAP − GUARD, R307 -/
  overRun  : Nat
  underRun : Nat
  /-- input energy below 1 J, mJ -/
  energy   : Nat
  /-- times in µs of each die's droop events within the last ms, newest first, and dies on the droop divider, R308, R309 -/
  droops   : SMap (List Nat)
  drooped  : SMap Nat
  /-- DROOP_STORM calls for a step down at the next tick, R309 -/
  storm    : Bool
  /-- the safe cap in force, W, R316 -/
  safeCap  : Nat
  /-- samples in a row below 93 °C and 78 °C, R310 -/
  coolRun  : Nat
  /-- TJ_MAX has reached 105 °C and has not been below 100 °C since, R311 -/
  sdHot    : Bool
  /-- the last reading set was a sudden stop, R319 -/
  stopOn   : Bool
  /-- the model's estimate with the warming load at the last sample, W, R321 -/
  warmEst  : Nat
  /-- outlet readings of earlier reading sets, newest first, R319 -/
  outHist  : List Nat
  /-- samples in a row in which a failed sensor met the condition of R315 -/
  goodRun  : SMap Nat
  /-- comparators tripped, by hot spot, with samples in a row below 100 °C, R312 -/
  trips    : SMap Nat
  /-- pace words received for each neighbour table entry, by 32·CE + entry, newest first: time in µs, word, sending package, R266, R323 -/
  paces    : SMap (List (Nat × Nat × Nat))
  /-- power domains switching: 1 on, 2 off, R326 -/
  moving   : SMap Nat
  deriving DecidableEq, Repr

/-- Hearth at power-on reset: OP7 at 100 %, R327. -/
def Hearth.reset : Hearth :=
  { place := 7, capPlace := 7, capBinds := false, peak := 0, thermal := 0, plan := 0, follow := 0, bringUp := true,
    resetFloor := false, lim := ⟨320, 70, 396, 10⟩, stepAt := none, pin := [], estSum := 0, rawSum := 0, estN := 0, overRun := 0,
    underRun := 0, energy := 0, droops := [], drooped := [], storm := false, safeCap := 0, coolRun := 0, sdHot := false,
    stopOn := false, warmEst := 0, outHist := [], goodRun := [], trips := [], paces := [], moving := [] }

end Sys2Proof.Machine
end

