-- ==== Sys2Proof/Machine/TypesHub.lean ====
section
/-! DEFINITION. The state of the hub that no register field holds: supplies and pins, bring-up and warm reset, transactions'
marks, Soholt and its flash, sessions, transfers, context queues and waiting records. -/

namespace Sys2Proof.Machine

open Sys2Proof

/-- Supplies, reset lands and outputs: R393 to R398, Table 14-1, R374, R341. -/
structure Pins where
  /-- VIN12, VAUX33 and VIO18 within their operating range -/
  vin12In   : Bool
  vaux33In  : Bool
  vio18In   : Bool
  /-- good: in range for 10 ms without a break, R393 -/
  vin12Good  : Bool
  vaux33Good : Bool
  vio18Good  : Bool
  porstLow  : Bool
  wrstLow   : Bool
  /-- the strap lands as they stand: LOC_X, LOC_Y, LOC_Z, BLK and VAR in the bit order of GLB_STRAP -/
  straps    : Nat
  pgOut     : Bool
  fltP      : Bool
  fltN      : Bool
  /-- ALERT_N driven low -/
  alertLow  : Bool
  deriving DecidableEq, Repr

/-- Progress of reset and bring-up, R397 to R404, R449. -/
structure Boot where
  /-- the power-on reset is in force -/
  por       : Bool
  /-- REF_OK has been 1 for 1 ms, R443 -/
  refHeld   : Bool
  /-- the phase in progress, 1 HUB to 5 LINKS; 0 none -/
  running   : Nat
  /-- the fault controller has started, R401 -/
  fltUp     : Bool
  /-- phase LINKS of the cold bring-up still has to run after the warm reset in progress, R449 -/
  linksDue  : Bool
  /-- the warm reset waits at PHASE 4 for WRST_N to rise, R404 -/
  wrstHold  : Bool
  /-- a SUPPLY_FAULT that occurred before the fault controller started, R395 -/
  supplyDue : Bool
  /-- the halt in force was caused by SUPPLY_FAULT, R377 -/
  supplyHalt : Bool
  deriving DecidableEq, Repr

/-- An event record, Table 12-3, and a compat action record's log entry. -/
structure EventRec where
  serial  : Nat
  page    : Nat
  bit     : Nat
  cls     : Nat
  ctx     : Nat
  ctxv    : Bool
  kind    : Nat
  time    : Nat
  bootGen : Nat
  rep     : Nat
  code    : Nat
  data    : Nat
  deriving DecidableEq, Repr

/-- A crash dump slot, R338: the header and the captured bytes' record. -/
structure Dump where
  pinned   : Bool
  valid    : Bool
  redacted : Bool
  serial   : Nat
  bootGen  : Nat
  time     : Nat
  sealMask : Nat
  /-- order of writing, the oldest lowest -/
  age      : Nat
  body     : List (Nat × Nat)
  deriving DecidableEq, Repr

/-- A capture in the hub buffer, R381: the trigger record's serial and the words captured, by word address. -/
structure Capture where
  serial   : Nat
  redacted : Bool
  sealMask : Nat
  body     : List (Nat × Nat)
  deriving DecidableEq, Repr

/-- One copy of a firmware or table component, Table 12-7. -/
structure Component where
  version : Nat
  svn     : Nat
  digest  : Nat
  /-- LMAJOR, LMINOR, LOLDMINOR of a Soholt image, word 4 of the header -/
  links   : Nat
  body    : List Byte
  deriving DecidableEq, Repr

/-- One record of the repair log of a stack, R144. -/
structure Repair where
  lane    : Bool
  channel : Nat
  place   : Nat
  spare   : Nat
  deriving DecidableEq, Repr

/-- Soholt flash and the part's fuses, Table 12-1, R333, R351, R405: what every reset keeps. -/
structure Flash where
  bootGen  : Nat
  attCount : Nat
  minSvn   : Nat
  log      : List EventRec
  logNext  : Nat
  dumps    : List Dump
  dumpAge  : Nat
  calUser  : Bool
  calStore : List Byte
  /-- configuration block: register places and values, R345 -/
  config   : SMap Nat
  active   : SMap Component
  pend     : SMap Component
  /-- what the last activation with a Soholt image replaced, for R349: the copy active before, if any -/
  previous : SMap (Option Component)
  slot     : Nat
  cert     : List Byte
  deviceId : Nat
  macs     : List Nat
  lifecycle : Nat
  /-- fuse map of bad physical tiles, 44 bits a die -/
  fuseBad  : List Nat
  /-- voltage of OP0 to OP7 in mV -/
  opv      : List Nat
  /-- device root secret, R353 -/
  drs      : List Byte
  repairs  : SMap (List Repair)
  deriving DecidableEq, Repr

/-- Soholt's working state: I3C interface, staged tray values, exports, captures and update in progress. -/
structure Soh where
  /-- dynamic address assigned, R339 -/
  daValid  : Bool
  /-- TIN, TOUT, FLOW, LEAK, TCAP written and not yet applied, R340 -/
  trayPend : SMap Nat
  /-- PC_REQ, R341 -/
  pcReq    : Bool
  /-- bit k: LAS_k below LP_MIN on some engine, Table 12-5 -/
  laser    : Nat
  /-- STATUS bits as last seen, for the in-band interrupt -/
  statusSeen : Nat
  /-- in-band interrupts raised -/
  ibis     : Nat
  /-- compat action records queued, each eight words, oldest first, R343 -/
  compat   : List (List Nat)
  /-- compat action records formed and waiting for their values 1 s later -/
  compatDue : List (List Nat)
  /-- an export to staging offset 0x3000000 in progress, R338, R345: the bytes to be written when it ends -/
  exporting : Option (List Byte)
  /-- the hub's capture buffer, R381 -/
  capture  : Option Capture
  /-- fault records waiting during a restart, at most 256, R332 -/
  held     : List EventRec
  heldLost : Nat
  /-- the components activated by the COMMIT that started the restart in progress; 0 none, R348 -/
  actMask  : Nat
  /-- byte ranges of the update image that completed write transfers covered, R346 -/
  covered  : List (Nat × Nat)
  /-- a Soholt image waits for its self-check, R349 -/
  selfCheck : Bool
  /-- the value the tray last read, Table 12-5 -/
  lastRead : Nat
  deriving DecidableEq, Repr

/-- A shard of a sealed partition's list: digest and length, R357. -/
structure Shard where
  no     : Nat
  llen   : Nat
  digest : Nat
  deriving DecidableEq, Repr

/-- What the security block holds for a sealed partition, R355. -/
structure SealInfo where
  key     : List Byte
  mdig    : Nat
  kepoch  : Nat
  modelId : List Byte
  ownerPk : List Byte
  shards  : List Shard
  deriving DecidableEq, Repr

/-- A manifest being taken, whole or in parts, R355 and R356. -/
structure Sealing where
  part  : Nat
  bytes : List Byte
  last  : Bool
  deriving DecidableEq, Repr

/-- The state of the security block. -/
structure Sec where
  sealed   : SMap SealInfo
  sealing  : Option Sealing
  /-- partitions whose unsealing runs, oldest first, R359 -/
  unsealing : List Nat
  /-- the report whose signature is awaited, R354: bytes, destination, scope -/
  report   : Option (List Byte × Nat)
  deriving DecidableEq, Repr

/-- One operation of a REG message, Table 10-4. -/
structure RegOp where
  addr   : Nat
  op     : Nat
  data   : Nat
  status : Nat
  deriving DecidableEq, Repr

/-- The body of a numbered message that the package sends, Table 10-3. -/
inductive NBody where
  | regResp (req : Nat) (ops : List RegOp)
  | rdata (xid ofs : Nat) (data : List Byte)
  | cpl (ctx : Nat) (recs : List Nat) (last : Nat)
  | evt (recs : List EventRec)
  deriving DecidableEq, Repr

/-- Where a message goes, R275: sub-port, Ethernet address, VLAN tag, IP address (IPv6 or not), UDP port. -/
structure HostAddr where
  sub  : Nat
  mac  : Nat
  vlan : Nat
  v6   : Bool
  ip   : Nat
  udp  : Nat
  deriving DecidableEq, Repr

/-- What every header carries, Table 10-2 and R279. -/
structure HostHead where
  ack    : Nat
  sack   : Nat
  window : Nat
  deriving DecidableEq, Repr

/-- What Porch has sent, newest last. -/
inductive HostOut where
  /-- SESSION: kind, scope, cause, session, first SEQ -/
  | session (port sess skind scope cause seq : Nat) (dest : HostAddr) (head : HostHead)
  | numbered (port sess seq : Nat) (body : NBody) (dest : HostAddr) (head : HostHead)
  | ack (port sess : Nat) (dest : HostAddr) (head : HostHead)
  /-- an answer to ARP, neighbour discovery or echo, R274 -/
  | answer (port kind : Nat) (dest : HostAddr)
  deriving DecidableEq, Repr

/-- A numbered message not yet acknowledged, R280: sends, and the time of the last, µs. -/
structure Unacked where
  seq   : Nat
  body  : NBody
  sends : Nat
  time  : Nat
  deriving DecidableEq, Repr

/-- A session of a host port beside its S_ registers, R278 to R280. -/
structure Session where
  firstRx : Nat
  firstTx : Nat
  /-- next SEQ the peer expects, and the window it offers beyond it -/
  peerAck : Nat
  window  : Nat
  /-- numbered messages that wait for the window -/
  outq    : List NBody
  v6      : Bool
  /-- where messages go: Ethernet address, VLAN tag and IP address of the last valid message, R275 -/
  mac     : Nat
  vlan    : Nat
  ip      : Nat
  unacked : List Unacked
  /-- numbered messages received beyond the next expected, by SEQ, with whether the message has been acted on, R279 -/
  inbox   : SMap (Msg × Bool)
  /-- an ACK is owed to the peer -/
  ackDue  : Bool
  deriving DecidableEq, Repr

/-- A bulk transfer, Table 10-6, R287 and R288. -/
structure Xfer where
  port    : Nat
  sess    : Nat
  xid     : Nat
  write   : Bool
  tgt     : Nat
  tagged  : Bool
  isSealed  : Bool
  ctx     : Nat
  addr    : Nat
  len     : Nat
  tag     : Nat
  ptile   : Nat
  peg     : Nat
  amount  : Nat
  hbuf    : Nat
  hofs    : Nat
  /-- descriptor's SEQ, the order in which transfers wait -/
  seq     : Nat
  /-- transfer engine; none while it waits -/
  engine  : Option Nat
  /-- WDATA held while the transfer waits: SEQ, offset and data -/
  held    : List (Nat × Nat × List Byte)
  /-- WDATA placed: SEQ, offset and length -/
  placed  : List (Nat × Nat × Nat)
  /-- intervals of the transfer served at their destination, offset and length -/
  served  : List (Nat × Nat)
  /-- bytes moved -/
  moved   : Nat
  /-- a read has read its source -/
  sentAll : Bool
  /-- landing writes and sealed shard stream: the bytes gathered, and the chunks handed to the Larder, R288, R357 -/
  stream  : Memory
  chunks  : List Nat
  deriving DecidableEq, Repr

/-- A queued command of a context, Table 10-5. -/
structure Cmd where
  words : List Nat
  cser  : Nat
  port  : Nat
  sess  : Nat
  seq   : Nat
  deriving DecidableEq, Repr

/-- A completion record before its generation and serial, Table 10-7. -/
structure Rec where
  kind    : Nat
  status  : Nat
  ref     : Nat
  stepv   : Nat
  val     : Nat
  detail  : Nat
  cstat   : Nat
  minrate : Nat
  deriving DecidableEq, Repr

/-- An event that waits for a free ring slot, R289, with what the step does with the record: 0 nothing, 1 the step ends
without increment, 2 the step ends and STEP_NUM is incremented. -/
structure RecEvent where
  record  : Rec
  stepEnd : Nat
  deriving DecidableEq, Repr

/-- A context beside its registers: queue, records waiting, the step in progress. -/
structure Ctx where
  queue    : List Cmd
  /-- CSER of commands dispatched whose record is not yet written, R285 -/
  pendCser : List Nat
  waiting  : List RecEvent
  /-- CSER and start time of the STEP in progress, R32 -/
  stepCser : Nat
  stepTime : Nat
  /-- lowest RATE of the package's pace word during the step, Table 10-7 -/
  minRate  : Nat
  /-- collectives bound to the step that have not completed: CSER -/
  collOpen : List Nat
  /-- a bound collective failed: KEY and status, R242 -/
  collFail : Option (Nat × Nat)
  /-- teardown steps in progress, R389: 0 none, else the step of Table 13-15 -/
  teardown : Nat
  /-- expected digest latched by LOAD, R96, and the chunks of the load in progress -/
  loadDig  : Nat
  loadImg  : List Byte
  curveImg : List Byte
  /-- the tiles of the LOAD and of the CURVE in progress -/
  loadTiles  : List Nat
  curveTiles : List Nat
  deriving DecidableEq, Repr

/-- A context with nothing queued. -/
def Ctx.empty : Ctx := ⟨[], [], [], 0, 0, 0xFFF, [], none, 0, 0, [], [], [], []⟩

/-- A mark on a transaction, R411: transaction, kind (2 OVERFLOW, 3 OUT_OF_SCOPE, 5 CONFLICT), page. -/
structure TxnMark where
  txn  : Nat
  code : Nat
  page : Nat
  deriving DecidableEq, Repr

/-- A latch of a 64-bit pair's high word by an agent, R427: page, offset of the high word, value. -/
structure PairLatch where
  agent : Agent
  page  : Nat
  off   : Nat
  value : Nat
  deriving DecidableEq, Repr

/-- The collector's buffer, R432 to R434: records by serial, each as a number of 8,192 bits. -/
structure Collector where
  recs : SMap Nat
  deriving DecidableEq, Repr

/-- A recovery lane's work beyond REC_STAT, R382 to R384. -/
structure Lane where
  /-- suspects still to have their turn -/
  todo      : List Nat
  passed    : List Nat
  failed    : List Nat
  /-- recoveries that ended in the last 60 s, for REPEAT_WIN: rung, page, XE and time of the end -/
  hist      : List (Nat × Nat × Nat × Nat)
  /-- the hung engine's progress count when the turn began -/
  prog      : Nat
  /-- another suspect's turn: it has passed and runs to its replay point -/
  passing   : Bool
  /-- the recovery was asked for by REC_REQ or SCRUB -/
  asked     : Bool
  deriving DecidableEq, Repr

/-- A lane with no recovery behind it. -/
def Lane.empty : Lane := ⟨[], [], [], [], 0, false, false⟩

end Sys2Proof.Machine
end

