-- ==== Sys2Proof/Machine/TypesNet.lean ====
section
/-! DEFINITION. The state of the Trinal ports, the circuit router and the collective engines that no register field holds. -/

namespace Sys2Proof.Machine

open Sys2Proof

/-- A packet kept for replay, R182: link sequence number, packet, transmissions. -/
structure Kept where
  seq   : Nat
  pkt   : Packet
  sends : Nat
  deriving DecidableEq, Repr

/-- One class of a port's link layer, R182 to R186: next sequence number to send and expected, NAK sent, NAK last seen from the
peer, send credits, buffer freed since training, the peer's freed count last seen, packets not acknowledged, packets that wait for
credit or for the end of a retrain, and the acknowledgement at the last restart. -/
structure LinkClass where
  tx      : Nat
  rx      : Nat
  nak     : Bool
  peerNak : Bool
  cred    : Nat
  freed   : Nat
  peerFreed : Nat
  kept    : List Kept
  wait    : List Packet
  restart : Option Nat
  deriving DecidableEq, Repr

/-- A class at entry to UP with `n` credits. -/
def LinkClass.fresh (n : Nat) : LinkClass := ⟨0, 0, false, false, n, 0, 0, [], [], none⟩

/-- A step of a sequence table: OP, ONFAIL, TMO, ARG, Table 7-5. -/
structure SeqStep where
  op     : Nat
  onfail : Nat
  tmo    : Nat
  arg    : Nat
  deriving DecidableEq, Repr

/-- A sequence table. -/
structure SeqTable where
  ver     : Nat
  train   : Nat
  retrain : Nat
  steps   : List SeqStep
  deriving DecidableEq, Repr

/-- No table. -/
def SeqTable.empty : SeqTable := ⟨0, 0, 0, []⟩

/-- A Trinal port beside its registers. -/
structure Port where
  /-- the table that the sequence in progress began with, R191 -/
  table   : SeqTable
  preset  : Nat
  /-- 0 PRBS13Q, 1 PRBS31Q, 2 training frames -/
  pattern : Nat
  /-- start of each retrain of the last 60 s, R198 -/
  retrains : List Nat
  /-- counts of the current 1 s window, R196 -/
  ucw     : Nat
  syms    : SMap Nat
  nears   : SMap Nat
  ctl     : LinkClass
  dat     : LinkClass
  /-- data packet whose blocks are arriving: sequence number and bytes so far -/
  part    : Option (Nat × List Byte)
  deriving DecidableEq, Repr

/-- A port at reset. -/
def Port.empty : Port := ⟨SeqTable.empty, 0, 0, [], 0, [], [], LinkClass.fresh 0, LinkClass.fresh 0, none⟩

/-- A path of an endpoint beside CT_RUN: open under R217; rejoining under R229 with the S0 and the two numbers sent before it, a
packet of the new claim has arrived, and the marks of the peer's REJOIN; QUIET received; times of ECHK failures in the last 1 s. -/
structure PathState where
  opened : Bool
  rejoin : Bool
  s0     : Nat
  ctl0   : Nat
  dat0   : Nat
  heard  : Bool
  marks  : Option (Nat × Nat)
  quiet  : Bool
  fails  : List Nat
  deriving DecidableEq, Repr

/-- A path of which nothing is known. -/
def PathState.empty : PathState := ⟨false, false, 0, 0, 0, false, none, false, []⟩

/-- A numbered packet held at an endpoint, R223: port of arrival and packet. -/
structure HeldPkt where
  port : Nat
  pkt  : Packet
  deriving DecidableEq, Repr

/-- A circuit table entry beside CT_RUN. -/
structure Circ where
  a       : PathState
  b       : PathState
  /-- last sequence number sent of each class -/
  lastCtl : Nat
  lastDat : Nat
  heldC   : List HeldPkt
  heldD   : List HeldPkt
  /-- numbered packets of each class whose first copy failed its check and whose other copy has not come, R228 -/
  gapsC   : List Nat
  gapsD   : List Nat
  /-- the check of the last 256 first copies, by sequence number, R228 -/
  echks   : List (Nat × Nat)
  /-- the package that the last PATH_DOWN or loss of light named as lost, R227 -/
  lost    : Option Nat
  /-- forwarding entry: PATH of the packets it last carried -/
  path    : Nat
  deriving DecidableEq, Repr

/-- An entry with no history. -/
def Circ.empty : Circ := ⟨PathState.empty, PathState.empty, 0, 0, [], [], [], [], [], none, 0⟩

/-- An event of CIR_EVQ, Table 8-11. -/
structure CirEvent where
  entry : Nat
  kind  : Nat
  path  : Nat
  lost  : Bool
  deriving DecidableEq, Repr

/-- An axis of a group record, Table 9-1, with the circuits of its peer table by index. -/
structure Axis where
  size  : Nat
  idx   : Nat
  next0 : Nat
  next1 : Option Nat
  prev0 : Nat
  prev1 : Option Nat
  peers : List (Option Nat)
  deriving DecidableEq, Repr

/-- A chunk: index, data and trailer. -/
structure Chunk where
  cidx    : Nat
  data    : List Byte
  trailer : List Byte
  deriving DecidableEq, Repr

/-- A chunk sent on a circuit and kept until its credit returns, R246. -/
structure SentChunk where
  entry : Nat
  stage : Nat
  chunk : Chunk
  sends : Nat
  deriving DecidableEq, Repr

/-- A chunk that has arrived ahead of its use. -/
structure EarlyChunk where
  entry : Nat
  stage : Nat
  chunk : Chunk
  deriving DecidableEq, Repr

/-- A segment of an all-to-allv held by a member, R258: position and package of its source, position of its destination, data. -/
structure Segment where
  spos : Nat
  spkg : Nat
  dpos : Nat
  data : List Byte
  deriving DecidableEq, Repr

/-- A segment that arrives on a circuit: source package, destination position, length in 256 B units and what has come. -/
structure InSegment where
  entry : Nat
  spkg  : Nat
  dpos  : Nat
  units : Nat
  data  : List Byte
  deriving DecidableEq, Repr

/-- A collective slot beside SL_n. -/
structure Slot where
  die    : Nat
  words  : List Nat
  ctx    : Nat
  cser   : Nat
  axes   : List Axis
  /-- READERS held under R244: region, stack times 64 plus number -/
  reader : Option Nat
  /-- circuits on which START went out and no CREDIT has come -/
  unanswered : List Nat
  /-- credits held, by circuit and stage: 8·entry + stage -/
  credit : SMap Nat
  /-- credits granted, by circuit and stage; circuits and stages whose grant waits for staging -/
  granted : SMap Nat
  want    : List Nat
  /-- chunks of the stage sent and used: circuit and CIDX -/
  sent   : List (Nat × Nat)
  used   : List (Nat × Nat)
  kept   : List SentChunk
  early  : List EarlyChunk
  /-- times a chunk failed its check: circuit, CIDX -/
  bad    : List (Nat × Nat)
  /-- chunks of the gathered or broadcast buffer that have come; of an all-to-all the trailers of the blocks' chunks, by place -/
  got    : List Chunk
  /-- EXACT: the header of SRC as first read; anchor and flags of the running sum of each chunk, as trailer word 2 -/
  head   : Option Nat
  sums   : SMap Nat
  segs   : List Segment
  segIn  : List InSegment
  /-- DST has been written; the completion waits for its landing writes -/
  wrote  : Bool
  /-- when START went out or the stage in progress began, µs, and when something last moved on a circuit -/
  since  : Nat
  heard  : SMap Nat
  deriving DecidableEq, Repr

/-- A collective command that waits for a free slot, R238. -/
structure CollWait where
  die  : Nat
  ctx  : Nat
  cser : Nat
  words : List Nat
  deriving DecidableEq, Repr

/-- An entry of a holding room, R250, R262. -/
structure Hold where
  ctx     : Nat
  key     : Nat
  /-- circuit of a held START -/
  entry   : Option Nat
  pkg     : Nat
  aborted : Bool
  status  : Nat
  other   : Nat
  time    : Nat
  deriving DecidableEq, Repr

/-- What a circuit carries of the engine's: DATA packets of a chunk gathered so far by key and stage, the key of an OTHER that waits
for its ABORT, the pace word last sent and its time. -/
structure Wire where
  parts : List (Nat × List Byte × Nat)
  other : Option Nat
  pace  : Option (Nat × Nat)
  deriving DecidableEq, Repr

/-- A circuit with nothing under way. -/
def Wire.empty : Wire := ⟨[], none, none⟩

end Sys2Proof.Machine
end

