-- ==== Sys2Proof/Machine/TypesTile.lean ====
section
/-! DEFINITION. The state of the tiles, the stage fabric, the Larder stacks and Starch that no register field holds. -/

namespace Sys2Proof.Machine

open Sys2Proof

/-- A format descriptor, Tables 3-5 and 3-6: special 0 NONE, 1 IEEE, 2 NAN_ONLY, 3 NEGZERO_NAN; block 0 none, 1 16, 2 32;
scale 0 per-tensor, 1 E8M0, 2 either. -/
structure Fmt where
  valid   : Bool
  int     : Bool
  sign    : Bool
  sub     : Bool
  width   : Nat
  exp     : Nat
  sig     : Nat
  bias    : Nat
  special : Nat
  block   : Nat
  scale   : Nat
  sat     : Bool
  deriving DecidableEq, Repr

/-- An entry that is not usable. -/
def Fmt.absent : Fmt := ⟨false, false, false, false, 0, 0, 0, 0, 0, 0, 0, false⟩

/-- An accumulator of the output bank: the integer Q of an EXACT sum or the FP32 code of an ORDERED one, and the element's
marks: 1 breached, 2 +Inf, 4 −Inf, 8 NaN. -/
structure Acc where
  q     : Int
  marks : Nat
  deriving DecidableEq, Repr

/-- An accumulator that holds zero. -/
def Acc.zero : Acc := ⟨0, 0⟩

/-- A Press command in the queue: context, descriptor words, latched formats (R52), bank half, the moving vectors that Mangle has
delivered, and the CCLK cycles it has run since its acceptance, stalls left out (R46). -/
structure PxCmd where
  ctx   : Nat
  words : List Nat
  sFmt  : Fmt
  mFmt  : Fmt
  oFmt  : Fmt
  half  : Nat
  got   : List (List Byte)
  ran   : Nat
  deriving DecidableEq, Repr

/-- What the next command's ACC_IN is checked against, R48: MODE, ANCHOR, lane, NOUT, DRAIN and the bank half. -/
structure PxPrev where
  mode   : Nat
  anchor : Nat
  lane   : Nat
  nout   : Nat
  drain  : Nat
  half   : Nat
  deriving DecidableEq, Repr

/-- A deferred effect of a stage, R90. -/
inductive Defer where
  /-- a PPOSTR: logical tile, context-relative peg, amount -/
  | post (dest peg amount : Nat)
  /-- the completion mark of a FOLD: stack, fold key, member -/
  | mark (stack key member : Nat)
  deriving DecidableEq, Repr

/-- The stage open on a tile. -/
structure Stage where
  ctx      : Nat
  slot     : Nat
  ix       : Nat
  run      : Nat
  /-- the record is LAST and this is its last run -/
  last     : Bool
  lastRun  : Bool
  /-- format entries latched at the opening, R52 -/
  fmts     : List Fmt
  /-- vector registers, 256 lanes each; unlisted registers hold zeros -/
  vreg     : SMap (List Nat)
  mreg     : SMap Nat
  sreg     : SMap Nat
  /-- takes and own posts, newest first: tile peg and amount, R91 -/
  takes    : List (Nat × Nat)
  posts    : List (Nat × Nat)
  deferred : List Defer
  /-- slabs sent by send queue -/
  slabs    : SMap Nat
  prev     : Option PxPrev
  /-- the stage issued a command with M_SRC = 0, and received the marked vector of its record, R118 -/
  mangle   : Bool
  marked   : Bool
  /-- END has been reached -/
  ended    : Bool
  deriving DecidableEq, Repr

/-- A context slot's place in its stage list, R87, and the curve slots its active program names, R96. -/
structure SlotRun where
  ix       : Nat
  run      : Nat
  reported : Bool
  active   : Bool
  curves   : List Nat
  deriving DecidableEq, Repr

/-- A context slot that has run nothing. -/
def SlotRun.empty : SlotRun := ⟨0, 0, false, false, []⟩

/-- A tile beside its registers. -/
structure Tile where
  stage  : Option Stage
  /-- slot of the stage that last opened, R93 -/
  lastSlot : Nat
  press  : List PxCmd
  half   : Nat
  bankX  : SMap Acc
  bankY  : SMap Acc
  /-- bit 0 and 1: bits fell below the window in the chain of half X, Y -/
  inex   : Nat
  /-- the Mangle buffer: vectors not yet taken by a command -/
  mbuf   : List (List Byte)
  slots  : SMap SlotRun
  /-- curve table images by slot -/
  curves : SMap (List Byte)
  /-- the Finisher's latch of a high word of the context view, R437: its offset and value -/
  latch  : Option (Nat × Nat)
  deriving DecidableEq, Repr

/-- A tile with nothing open. -/
def Tile.empty : Tile := ⟨none, 15, [], 0, [], [], 0, [], [], [], none⟩

/-- A FETCH, FOLD or SEND in flight. -/
structure Move where
  tile   : Nat
  ctx    : Nat
  /-- 0 FETCH, 1 FOLD, 2 SEND -/
  kind   : Nat
  words  : List Nat
  /-- a tag-checked read has opened; the regions it reads: stack times 64 plus number -/
  opened : Bool
  regions : List Nat
  /-- SEND: QHEAD at the opening of the stage, slabs written -/
  head   : Nat
  done   : List Nat
  deriving DecidableEq, Repr

/-- A PPOSTR released and not yet arrived. -/
structure Post where
  ctx    : Nat
  src    : Nat
  dest   : Nat
  peg    : Nat
  amount : Nat
  deriving DecidableEq, Repr

/-- A FOLD completion mark released and not yet arrived. -/
structure FoldMark where
  ctx    : Nat
  stack  : Nat
  key    : Nat
  member : Nat
  deriving DecidableEq, Repr

/-- The feed of a group: the record in progress. Keyed by group. -/
structure Feed where
  ctx     : Nat
  ix      : Nat
  words   : List Nat
  /-- vectors sent by the source channel, and delivered by the repeat channel of a group on two dies -/
  sent    : Nat
  far     : Nat
  /-- vectors that wait in the repeat channel -/
  farBuf  : List (List Byte)
  /-- logical tiles of the group that have committed the consuming stage -/
  done    : List Nat
  /-- a tag-checked read is open, of these regions -/
  opened  : Bool
  regions : List Nat
  deriving DecidableEq, Repr

/-- A bridge direction at its receiving end: times the flit at its head has arrived wrong, and corrections in the current second. -/
structure Bridge where
  fails : Nat
  corr  : Nat
  deriving DecidableEq, Repr

/-- A landing in a tagged region: the chunks written, the shard digest, a full landing that waits for R152, the shard that a sealed
transfer names, R357, and whether Starch records have been triggered by it, R160. -/
structure Landing where
  chunks : List Nat
  digest : Nat
  held   : Bool
  shard  : Option Nat
  fired  : Bool
  deriving DecidableEq, Repr

/-- A landing write, R149: Larder address of the chunk, tag, data. -/
structure LandWrite where
  ctx    : Nat
  addr   : Nat
  tag    : Nat
  data   : List Byte
  writer : Writer
  deriving DecidableEq, Repr

/-- An open fold slot, R154 to R157. -/
structure Fold where
  ctx    : Nat
  key    : Nat
  /-- words of the opening descriptor -/
  words  : List Nat
  /-- members whose partial has landed, been marked, been added -/
  landed : List Nat
  marked : List Nat
  added  : List Nat
  sum    : List Acc
  /-- flags and anchor of an EXACT sum; anchor none before the first partial -/
  flags  : Nat
  anchor : Option Nat
  deriving DecidableEq, Repr

/-- The record that a Starch engine runs. -/
structure StarchRun where
  ctx    : Nat
  ix     : Nat
  words  : List Nat
  step   : Nat
  param  : List Nat
  batch  : Nat
  /-- copy bytes gathered and not yet landed, by offset in OREG -/
  copy   : SMap Byte
  /-- statistics of this step of a factored rule: rows, columns, mean -/
  rowv   : List Nat
  colv   : List Nat
  mean   : Nat
  deriving DecidableEq, Repr

/-- A Starch engine beside its registers: triggered records (context, index, step), the record in progress, user rule images, the
image being loaded and its slot. -/
structure Starch where
  queue : List (Nat × Nat × Nat)
  run   : Option StarchRun
  rules : SMap (List Byte)
  image : List Byte
  target : Nat
  deriving DecidableEq, Repr

/-- A Starch engine with nothing to do. -/
def Starch.empty : Starch := ⟨[], none, [], [], 0⟩

/-- A stack beside its registers: out of service (R143), the times in µs of the corrections of pins and rows, newest first (R140), and
repairs made since bring-up that the full repair log does not hold (R144). -/
structure Stack where
  out  : Bool
  pins : SMap (List Nat)
  rows : SMap (List Nat)
  more : List Repair
  deriving DecidableEq, Repr

/-- A stack in service. -/
def Stack.empty : Stack := ⟨false, [], [], []⟩

/-- A fault raised and not yet acted on: page, bit, context concerned, DETAIL. -/
structure Due where
  page   : Nat
  bit    : Nat
  ctx    : Option Nat
  detail : Nat
  deriving DecidableEq, Repr

end Sys2Proof.Machine
end

