-- ==== Sys2Proof/Machine/State.lean ====
section
/-! DEFINITION. The state of the package as plain data, the reasons a step can stop, and the state after reset. -/

namespace Sys2Proof.Machine

open Sys2Proof

/-- The package. Every register field of the register map lives in `regs`, under its place (`Field.key`); a field that is not
listed holds its reset value. -/
structure State where
  /-- applied register fields that differ from their reset values -/
  regs    : SMap Nat
  /-- shadowed register words: place of the word, transaction and value, R409 -/
  shadow  : SMap (Nat × Nat)
  marks   : List TxnMark
  latches : List PairLatch
  pins    : Pins
  boot    : Boot
  /-- µs since the start of phase HUB of the last cold bring-up, R335 -/
  timeUs  : Nat
  flash   : Flash
  soh     : Soh
  sec     : Sec
  coll    : Collector
  hearth  : Hearth
  lanes   : SMap Lane
  /-- pending engines, by 8·page + XE: since when the engine stands still, µs, R378 -/
  watch   : SMap Nat
  sess    : SMap Session
  xfers   : List Xfer
  /-- bytes that a transfer engine has moved beyond the last 256 B of its progress counter, by 8·port + XE, R294 -/
  xeRest  : SMap Nat
  /-- host ports taken down by R276, with the sub-ports that were up, bits 1 and 2 -/
  hdark   : SMap Nat
  ctxs    : SMap Ctx
  hostOut : List HostOut
  /-- Larder bytes: stack in bits [39:36] of the address, R132 -/
  larder  : Memory
  /-- Pantry bytes: physical tile times 2^24, plus the Pantry address -/
  pantry  : Memory
  /-- errors of stored Larder and Pantry words, by word address over 32: symbol and pattern, R133 -/
  lerr    : SMap (List (Nat × Nat))
  perr    : SMap (List (Nat × Nat))
  /-- instruction memories: physical tile times 2^18, plus the byte offset -/
  imem    : Memory
  tiles   : SMap Tile
  moves   : List Move
  /-- released posts and FOLD marks on their way -/
  posts   : List Post
  foldMarks : List FoldMark
  /-- bridge ends (die, end) at which a packet that no context owns was dropped: its requester has been told that it failed, R124 -/
  lostReqs : List (Nat × Nat)
  /-- feeds of the stage groups -/
  feeds   : SMap Feed
  /-- receiving ends of bridges, by 8·die + end -/
  bridges : SMap Bridge
  /-- landings by region, 64·stack + number, and the landing writes that wait -/
  lands   : SMap Landing
  landQ   : List LandWrite
  /-- fold slots, 64·stack + slot -/
  folds   : SMap Fold
  starch  : SMap Starch
  stk     : SMap Stack
  /-- fenced units, 8·page + sub-unit -/
  fenced  : SMap Nat
  ports   : SMap Port
  /-- circuit table entries beside their registers, CIR_EVQ and whether it has lost an event since -/
  circs   : SMap Circ
  evq     : List CirEvent
  evLost  : Bool
  /-- collective slots, 16·engine + slot; commands that wait for one; holding rooms, 64·engine + entry; the keys completed, as engine,
  context and key, newest last; what each circuit carries for its engine -/
  slots   : SMap Slot
  collWait : List CollWait
  rooms   : SMap Hold
  doneKeys : List (Nat × Nat × Nat)
  wires   : SMap Wire
  /-- the Soholt program staging buffer, Table 12-2 -/
  staging : Memory
  /-- the model's own: faults raised by the command in hand whose reactions are still to come; empty between commands -/
  due     : List Due
  /-- the model's own: counts the free values taken -/
  free    : Nat
  /-- the commands waiting, first in, first out -/
  pending : List Instr
  deriving DecidableEq, Repr

/-- Why the block stops with a fault. -/
inductive Fault where
  /-- No command raises it: the spec gives every command an effect. Safe: the machine never stops by it. -/
  | none
  deriving DecidableEq, Repr

/-- Why a command is refused. -/
inductive Refusal where
  /-- the command has no meaning in this model yet; safe -/
  | notModelled (mnemonic : String)
  deriving DecidableEq, Repr

/-! ### Reset -/

/-- The lands of a package without supplies, R393: PORST_N low, WRST_N high by its pull (Table 16-5), the straps at 0, every output
in the safe state of Table 14-1. -/
def Pins.reset : Pins := ⟨false, false, false, false, false, false, true, false, 0, false, false, false, false⟩

/-- The flash and fuses of the part that State.reset describes: nothing stored, no tile fused bad, lifecycle PRODUCTION. Log entry 1. -/
def Flash.reset : Flash :=
  { bootGen := 0, attCount := 0, minSvn := 0, log := [], logNext := 0, dumps := List.replicate 4 ⟨false, false, false, 0, 0, 0, 0, 0, []⟩, dumpAge := 0, calUser := false, calStore := []
    config := [], active := [], pend := [], previous := [], slot := 0, cert := [], deviceId := 0, macs := [0x100, 0x102], lifecycle := 1
    fuseBad := [], opv := [], drs := [], repairs := [] }

/-- Soholt's working state at power-on reset. -/
def Soh.reset : Soh :=
  { daValid := false, trayPend := [], pcReq := false, laser := 0, statusSeen := 0, ibis := 0, compat := [], compatDue := []
    exporting := none, capture := none, held := [], heldLost := 0, actMask := 0, covered := [], selfCheck := false, lastRead := 0 }

/-- The package in power-on reset, R397: every register at its reset value, every memory empty. What the lands show, what flash and
fuses keep, what the host has been sent, the count of free values and the queue are given. PD_REQ starts without PD_79 in PRODUCTION
and SCRAPPED, R423. -/
def State.blank (pins : Pins) (flash : Flash) (hostOut : List HostOut) (free : Nat) (pending : List Instr) : State :=
  { regs := if flash.lifecycle % 2 = 1 then [(Reg.PWR_PD_REQ.key 0 0, 2 ^ 79 - 1)] else []
    shadow := [], marks := [], latches := [], pins := pins
    boot := { por := true, refHeld := false, running := 0, fltUp := false, linksDue := false, wrstHold := false
              supplyDue := false, supplyHalt := false }
    timeUs := 0, flash := flash, soh := Soh.reset
    sec := { sealed := [], sealing := none, unsealing := [], report := none }
    coll := { recs := [] }
    hearth := Hearth.reset, lanes := [], watch := [], sess := [], xfers := [], xeRest := [], hdark := [], ctxs := [], hostOut := hostOut
    larder := [], pantry := [], lerr := [], perr := [], imem := [], tiles := [], moves := [], posts := [], foldMarks := [], lostReqs := []
    feeds := [], bridges := [], lands := [], landQ := [], folds := [], starch := [], stk := [], fenced := [], ports := []
    circs := [], evq := [], evLost := false, slots := [], collWait := [], rooms := [], doneKeys := [], wires := []
    staging := [], due := [], free := free, pending := pending }

/-- The machine right after reset: the package held in its power-on reset, R393, R397. -/
def State.reset : State := State.blank Pins.reset Flash.reset [] 0 []

end Sys2Proof.Machine
end

