-- ==== Sys2Proof/Machine/Ops.lean ====
section
/-! DEFINITION. The named operations that every command is written over: reading and writing register fields, counters,
partitions and the darn map, event records and messages to the host, fault occurrences (R364 to R371), completion records
(R289), and zeroing of memory. -/

namespace Sys2Proof.Machine

open Sys2Proof

/-! ### Registers -/

/-- The reset value of element `i` of a field: the tables' value, where it depends on the element. -/
def Field.resetAt (f : Field) (inst i : Nat) : Nat :=
  if f = Reg.CFG_PART_PRESENT then (if i = 0 then 1 else 0)
  else if f = Reg.CFG_PART_DIES then (if i = 0 then 0b1111 else 0)
  else if f = Reg.STC_RSLOT_VALID ∨ f = Reg.STC_RSLOT_BUILTIN then (if i < 4 then 1 else 0)
  else if f = Reg.LNK_EXP_VALID then (if inst < 12 then 1 else 0)
  else f.reset

/-- The value of a register field. -/
def State.rd (s : State) (f : Field) (inst : Nat := 0) (i : Nat := 0) : Nat :=
  SMap.get (f.resetAt inst i) s.regs (f.key inst i)

/-- Sets a register field to `v`, cut to the field's width. -/
def State.wr (s : State) (f : Field) (inst i v : Nat) : State :=
  { s with regs := SMap.set (f.resetAt inst i) s.regs (f.key inst i) (v % 2 ^ f.width) }

/-- Sets a register field of a single register. -/
def State.wr0 (s : State) (f : Field) (v : Nat) : State := s.wr f 0 0 v

/-- A one-bit field as a truth value. -/
def State.rdB (s : State) (f : Field) (inst : Nat := 0) (i : Nat := 0) : Bool := s.rd f inst i == 1

/-- Sets a one-bit field. -/
def State.wrB (s : State) (f : Field) (inst i : Nat) (b : Bool) : State := s.wr f inst i (if b then 1 else 0)

/-- Adds to a register field, modulo its width. -/
def State.addF (s : State) (f : Field) (inst i n : Nat) : State := s.wr f inst i (s.rd f inst i + n)

/-- Resets one field to its reset value. -/
def State.rst (s : State) (f : Field) (inst i : Nat) : State := s.wr f inst i (f.resetAt inst i)

/-- The page number of instance `inst` of a block. -/
def Block.page (b : Block) (inst : Nat) : Nat := b.base + inst

/-! ### Counters -/

/-- A counter of R426 after `n` more events: 48 bits, with the sticky overflow bit 63. -/
def counterAdd (v n : Nat) : Nat :=
  let c := v % 2 ^ 48 + n
  c % 2 ^ 48 + (if 2 ^ 48 ≤ c ∨ 2 ^ 63 ≤ v then 2 ^ 63 else 0)

/-- Adds to a counter field of page `page` while CNT_EN of the page is 1, R426. -/
def State.countF (s : State) (page : Nat) (f : Field) (inst i n : Nat) : State :=
  if s.rd Reg.PAGE_CNT_EN page 0 = 1 then s.wr f inst i (counterAdd (s.rd f inst i) n) else s

/-- Adds to CNT_n of a page. -/
def State.count (s : State) (page n k : Nat) : State := s.countF page Reg.CNT_N page n k

/-- A watched engine stands still no longer. -/
def State.advanced (s : State) (page xe : Nat) : State :=
  match SMap.find s.watch (8 * page + xe) with
  | none => s
  | some _ => { s with watch := SMap.put s.watch (8 * page + xe) s.timeUs }

/-- Advances PROG_CNT of a page, R421. A Porch transfer engine is watched on its own. -/
def State.progress (s : State) (page n : Nat) : State :=
  let s := s.addF Reg.PROG_CNT page 0 n
  if 0 < n ∧ Block.ofPage page ≠ some .hst then s.advanced page 0 else s

/-! ### Dies, partitions, contexts and tiles -/

/-- The partition of a die under a partition map, Table 1-8. -/
def partOfDie (pmap d : Nat) : Nat :=
  match pmap with
  | 0 => 0
  | 1 => d / 2 * 2
  | 2 => if d < 2 then 0 else d
  | 3 => if d < 2 then d else 2
  | _ => d

/-- The applied partition map. -/
def State.pmap (s : State) : Nat := s.rd Reg.CFG_PMAP

/-- The dies of a partition under a map. -/
def diesOfMap (pmap p : Nat) : List Nat := (List.range 4).filter (fun d => partOfDie pmap d == p)

/-- The dies of a partition under the applied map. -/
def State.diesOf (s : State) (p : Nat) : List Nat := diesOfMap s.pmap p

/-- The partition exists under the applied map. -/
def State.partPresent (s : State) (p : Nat) : Bool := decide (p < 4) && !(s.diesOf p).isEmpty

/-- The partition of a context number, R22. -/
def partOfCtx (c : Nat) : Nat := c / 16

/-- R22 assigns the context: its partition is present. -/
def State.ctxAssigned (s : State) (c : Nat) : Bool := decide (c < 64) && s.partPresent (partOfCtx c)

/-- The contexts of a partition. -/
def ctxsOf (p : Nat) : List Nat := (List.range 16).map (fun k => 16 * p + k)

/-- All context numbers. -/
def allCtxs : List Nat := List.range 64

/-- The context's state in CSTATE: 0 FREE, 1 OPEN, 2 CLOSING. -/
def State.cstate (s : State) (c : Nat) : Nat := s.rd Reg.CTX_CSTATE c

/-- The context's record beside its registers. -/
def State.ctx (s : State) (c : Nat) : Ctx := SMap.get Ctx.empty s.ctxs c

/-- Sets the context's record. -/
def State.setCtx (s : State) (c : Nat) (x : Ctx) : State := { s with ctxs := SMap.set Ctx.empty s.ctxs c x }

/-- The die of a stack, R10. -/
def dieOfStack (n : Nat) : Nat := n / 3

/-- The die of a physical tile. -/
def dieOfTile (t : Nat) : Nat := t / 44

/-- The die of a logical tile, R11. -/
def dieOfLogical (l : Nat) : Nat := l / 40

/-- The home die of a Trinal port, Table 1-3. -/
def dieOfPort (k : Nat) : Nat := [0, 2, 1, 3, 1, 3, 0, 2, 0, 2, 1, 3, 0, 1, 2, 3].getD k 0

/-- Logical tile `l` is mapped and not waiting for its replacement, R11, R407. -/
def State.present (s : State) (l : Nat) : Bool := decide (l < 160) && s.rdB Reg.DARN_PRESENT 0 l

/-- The physical tile of logical tile `l`. -/
def State.phys (s : State) (l : Nat) : Nat := s.rd Reg.DARN_PHYS 0 l

/-- The logical tile that physical tile `t` serves, if any. -/
def State.logicalOf (s : State) (t : Nat) : Option Nat :=
  (List.range 160).find? (fun l => s.present l && s.phys l == t)

/-- The partition of a stack. -/
def State.partOfStack (s : State) (n : Nat) : Nat := partOfDie s.pmap (dieOfStack n)

/-- The partition of a physical tile. -/
def State.partOfTile (s : State) (t : Nat) : Nat := partOfDie s.pmap (dieOfTile t)

/-- The stacks of a partition. -/
def State.stacksOf (s : State) (p : Nat) : List Nat := (List.range 12).filter (fun n => s.partOfStack n == p)

/-- The physical tiles of a partition's dies. -/
def State.tilesOf (s : State) (p : Nat) : List Nat := (List.range 176).filter (fun t => s.partOfTile t == p)

/-- A partition is sealed. -/
def State.isSealed (s : State) (p : Nat) : Bool := s.rdB Reg.CFG_PART_SEALED 0 p

/-! ### Power domains -/

/-- The power domain of a page's block, Table 1-4. The hub's own pages are answered from the always-on domain. -/
def domainOfPage (page : Nat) : Nat :=
  match Block.ofPage page with
  | some .tile => 11 * (dieOfTile (page - 0x100)) + (page - 0x100) % 11
  | some .sfb => 44 + (page - 0x60)
  | some .ce => 48 + (page - 0x20)
  | some .mem => 52 + (page - 0x40)
  | some .stc => 52 + (page - 0x50)
  | some .lnk => 64 + (page - 0x30) % 8
  | some .hst => 74 + (page - 0x10)
  | some .sec => 73
  | some .cir => 77
  | some .clk => 78
  | _ => 72

/-- A power domain is on. -/
def State.domainOn (s : State) (d : Nat) : Bool := d == 72 || bit (s.rd Reg.PWR_PD_ON) d == 1

/-- Switches a domain's PD_ON bit. -/
def State.setDomain (s : State) (d : Nat) (on : Bool) : State :=
  let v := s.rd Reg.PWR_PD_ON
  s.wr0 Reg.PWR_PD_ON (if on then setBit v d else clrBit v d)

/-- The block of a mapped page is powered; a bad tile is off, R405. -/
def State.powered (s : State) (page : Nat) : Bool :=
  s.domainOn (domainOfPage page) &&
    !(decide (0x100 ≤ page) && decide (page < 0x1B0) &&
      (let t := page - 0x100
       let d := dieOfTile t
       let k := t % 44
       let m := s.rd Reg.DARN_FUSE_LO 0 d + 2 ^ 32 * s.rd Reg.DARN_FUSE_HI 0 d
       let g := s.rd Reg.DARN_GROWN_LO 0 d + 2 ^ 32 * s.rd Reg.DARN_GROWN_HI 0 d
       bit m k == 1 || bit g k == 1))

/-! ### Messages to the host -/

/-- The session's record beside its registers. -/
def State.session (s : State) (port n : Nat) : Option Session := s.sess.find (port * 32 + n)

/-- Session `n` of a host port is open. -/
def State.sessOpen (s : State) (port n : Nat) : Bool := s.rdB Reg.HST_S_OPEN port n

/-- Numbered messages beyond the next expected that the port takes: 1,024 less those it holds. -/
def State.rxWindow (s : State) (p : Nat) : Nat :=
  let held := ((s.sess.filter (fun x => x.1 / 32 == p)).map (fun x => x.2.inbox.length)).sum
    + ((s.xfers.filter (fun x => x.port == p)).map (fun x => x.held.length)).sum
  1024 - held

/-- SACK of a session: bit k, the message k beyond the one after the next expected has come. -/
def State.sackOf (s : State) (p n : Nat) : Nat :=
  ((List.range 32).map (fun k =>
    if (s.session p n).any (fun x => (SMap.find x.inbox ((s.rd Reg.HST_S_RXACK p n + 1 + k) % 2 ^ 32)).isSome) then 2 ^ k else 0)).sum

/-- The ACK, SACK and WINDOW of a header sent on a session, R279. -/
def State.headOf (s : State) (p n : Nat) : HostHead := ⟨s.rd Reg.HST_S_RXACK p n, s.sackOf p n, s.rxWindow p⟩

/-- Where the messages of a session go: to where its peer's last valid message came from, R275. -/
def State.addrOf (s : State) (p n : Nat) (x : Session) : HostAddr :=
  ⟨s.rd Reg.HST_S_SUB p n, x.mac, x.vlan, x.v6, x.ip, s.rd Reg.HST_S_UDP p n⟩

/-- Sends the numbered messages that wait on a session, as far as the peer's window lets them, and keeps each until it is
acknowledged, R279, R280. `f` bounds their number. -/
def State.flushOut (s : State) (port n : Nat) : Nat → State
  | 0 => s
  | f + 1 => match s.session port n with
    | none => s
    | some x => match x.outq with
      | [] => s
      | body :: r =>
        let seq := s.rd Reg.HST_S_TXSEQ port n
        if x.window < (seq + 2 ^ 32 - x.peerAck) % 2 ^ 32 then s
        else
          let s : State := { s with
            sess := SMap.put s.sess (port * 32 + n)
              { x with outq := r, unacked := x.unacked ++ [⟨seq, body, 1, s.timeUs⟩], ackDue := false }
            hostOut := s.hostOut ++ [.numbered port n seq body (s.addrOf port n x) (s.headOf port n)] }
          ((s.wr Reg.HST_S_TXSEQ port n (seq + 1)).count (0x10 + port) 1 1).flushOut port n f

/-- Sends a numbered message on an open session, at once or when the window opens. -/
def State.sendNum (s : State) (port n : Nat) (body : NBody) : State :=
  match s.session port n with
  | none => s
  | some x =>
    ({ s with sess := SMap.put s.sess (port * 32 + n) { x with outq := x.outq ++ [body] } } : State).flushOut port n (x.outq.length + 1)

/-- The open sessions, as port and number. -/
def State.openSessions (s : State) : List (Nat × Nat) :=
  ((List.range 2).flatMap (fun p => (List.range 32).map (fun n => (p, n)))).filter (fun x => s.sessOpen x.1 x.2)

/-! ### Event records, R335 -/

/-- Bits of a session's scope: 4 and above ALL, else partition. -/
def scopeAll (sc : Nat) : Bool := decide (4 ≤ sc)

/-- The event record `e` folds into record `r`: one page and bit, or one event code, within 1 s, R335. -/
def EventRec.folds (r e : EventRec) : Bool :=
  r.kind == e.kind && r.bootGen == e.bootGen && decide (e.time < r.time + 1000000) &&
    (if e.kind = 0 then r.page == e.page && r.bit == e.bit else r.code == e.code)

/-- Sends a record as EVT to every open session whose EVMASK enables its class, R290. -/
def State.sendEvt (s : State) (e : EventRec) : State :=
  s.openSessions.foldl (fun s x =>
    if bit (s.rd Reg.HST_EVMASK x.1 x.2) e.cls = 1 then s.sendNum x.1 x.2 (.evt [e]) else s) s

/-- Adds 1 to REPEAT of the newest record that `e` folds into. -/
def foldInto (l : List EventRec) (e : EventRec) : List EventRec :=
  match l with
  | [] => []
  | r :: t => if r.folds e then { r with rep := satInc 0xFFFF r.rep } :: t else r :: foldInto t e

/-- Writes an event record to the log and sends it, or folds it, R335, R336. The log keeps 65,536 records. -/
def State.logNow (s : State) (e : EventRec) : State :=
  if s.flash.log.any (fun r => r.folds e) then
    { s with flash := { s.flash with log := (foldInto s.flash.log.reverse e).reverse } }.count 0x008 1 1
  else
    let e := { e with serial := s.flash.logNext }
    let l := s.flash.log ++ [e]
    let s := { s with flash := { s.flash with
      log := l.drop (l.length - 65536), logNext := (s.flash.logNext + 1) % 2 ^ 32 } }
    ((s.count 0x008 0 1).count 0x008 3 32).sendEvt e

/-- Forms an event record. During a Soholt restart it waits in the hub's buffer of 256 records, R332. -/
def State.log (s : State) (e : EventRec) : State :=
  if s.rd Reg.SOH_RESTARTING = 1 then
    if s.soh.held.length < 256 then { s with soh := { s.soh with held := s.soh.held ++ [e] } }
    else { s with soh := { s.soh with heldLost := s.soh.heldLost + 1 } }
  else s.logNow e

/-- A management event of Table 12-4: code, class, page and data. -/
def State.event (s : State) (code cls page data : Nat) : State :=
  s.log ⟨0, page, 0, cls, 0, false, 1, s.timeUs, s.flash.bootGen, 0, code, data⟩

/-- CONTEXT_STATE, code 0x0040, which carries its context. -/
def State.eventCtx (s : State) (c st : Nat) : State :=
  s.log ⟨0, 0x300 + c, 0, 4, c, true, 1, s.timeUs, s.flash.bootGen, 0, 0x0040, c + 2 ^ 32 * st⟩

/-! ### The tray's STATUS and ALERT_N, R341 -/

/-- STATUS of Table 12-5. -/
def State.trayStatus (s : State) : Nat :=
  (if s.pins.fltP && !s.pins.fltN then 1 else 0)
    + 2 * s.rd Reg.THM_SD_REQ
    + 4 * (if s.soh.pcReq then 1 else 0)
    + 8 * s.rd Reg.FLT_REPLACE_REQ
    + 16 * s.rd Reg.PWR_CAP_UNREACHABLE
    + 32 * (if s.soh.laser = 0 then 0 else 1)
    + 64 * s.rd Reg.PWR_HB_LOST
    + 128 * (if s.soh.compat.isEmpty then 0 else 1)

/-- FLT_MASK suppresses the ALERT_N contribution of the fault that a STATUS bit stands for, R366: REPLACE, CAP_UNREACHABLE and HB_LOST.
SD_REQ is driven by the hardware (R341) and the other bits stand for no single fault (DEDUCED, log entry 18). -/
def State.alertMasked (s : State) (i : Nat) : Bool :=
  (i == 3 && bit (s.rd Reg.FLT_MASK 0x002) 5 == 1) || (i == 4 && bit (s.rd Reg.FLT_MASK 0x004) 0 == 1)
    || (i == 6 && bit (s.rd Reg.FLT_MASK 0x004) 4 == 1)

/-- Notes changes of STATUS: an in-band interrupt when a bit from [1] to [7] rises, and ALERT_N low while SD_REQ is 1 and
after another bit from [2] to [7] rises. -/
def State.trayNote (s : State) : State :=
  let st := s.trayStatus
  let rising := (List.range 8).filter (fun i => bit st i == 1 && bit s.soh.statusSeen i == 0)
  let ibi := rising.any (fun i => decide (1 ≤ i))
  let al := rising.any (fun i => decide (2 ≤ i) && !s.alertMasked i)
  { s with
    soh := { s.soh with statusSeen := st, ibis := if ibi then s.soh.ibis + 1 else s.soh.ibis }
    pins := { s.pins with alertLow := s.pins.alertLow || al || bit st 1 == 1 } }

/-- The protective actions of R343 in the order of its list: 0 the thermal limit begins to bind, 1 it ceases, 2 sudden stop or
leak, 3 its end, 4 SD_REQ set, 5 SD_REQ cleared, 6 CAP_UNREACHABLE set, 7 THERMAL_TRIP. A compat action record is formed and
queued 1 s later. -/
def State.protect (s : State) (action : Nat) : State :=
  if s.rd Reg.SOH_TRAY_COMPAT = 1 then
    { s with soh := { s.soh with compatDue := s.soh.compatDue ++
      [[action, s.rd Reg.THM_TJ_MAX, s.rd Reg.THM_T_IN, s.rd Reg.THM_T_OUT, s.rd Reg.THM_FLOW, s.rd Reg.PWR_P_IN]] } }
  else s

/-- PC_REQ becomes 1: the tray is asked for a power cycle, R341; the requester is logged. -/
def State.requestPowerCycle (s : State) (who : Nat) : State :=
  let s : State := { s with soh := { s.soh with pcReq := true } }
  (s.event 0x0032 2 0x008 (Config.requesterCode who)).trayNote

/-! ### Fault occurrences -/

/-- An entry of the catalogue, Tables 13-3 to 13-5: class 0 CE, 1 UC, 2 FT; origin 0 H, 1 E, 2 C; held; escalation 0 none,
1 to UC with a fence, 2 to FT. -/
structure CatEntry where
  cls  : Nat
  org  : Nat
  held : Bool
  esc  : Nat
  deriving DecidableEq, Repr

/-- Bits of one block that share an entry. -/
def catRow (bits : List Nat) (cls org : Nat) (held : Bool) (esc : Nat) : List (Nat × CatEntry) :=
  bits.map (fun b => (b, ⟨cls, org, held, esc⟩))

/-- The catalogue, Tables 13-3 to 13-5. -/
def catalogue : Block → List (Nat × CatEntry)
  | .tile => catRow [0] 0 0 false 1 ++ catRow [1] 1 0 false 2 ++ catRow [8, 9, 10, 11, 12, 13, 14, 15] 1 2 false 0
      ++ catRow [16, 17] 1 2 false 0 ++ catRow [18] 0 0 false 0 ++ catRow [19] 1 0 false 2
  | .sfb => catRow [0, 1] 1 2 false 0 ++ catRow [2] 0 0 false 0 ++ catRow [3] 1 0 false 2 ++ catRow [4] 0 0 false 1
  | .mem => catRow [0] 0 0 false 0 ++ catRow [1] 1 0 false 2 ++ catRow [2, 3, 4] 0 0 false 0 ++ catRow [5] 1 0 true 0
      ++ catRow [6, 7, 13] 1 2 false 0 ++ catRow [8] 0 2 false 0 ++ catRow [9, 10, 11, 12] 1 2 false 0
  | .stc => catRow [0, 3] 0 2 false 0 ++ catRow [1] 1 2 false 0 ++ catRow [2] 1 0 false 0
  | .lnk => catRow [0, 1, 2, 3, 5, 12] 0 1 false 0 ++ catRow [4, 11] 1 1 false 0 ++ catRow [6, 7, 9, 10] 1 1 true 0
      ++ catRow [8] 0 1 true 0 ++ catRow [13] 1 0 false 0
  | .cir => catRow [0, 1, 2, 3, 5] 0 1 false 0 ++ catRow [4, 6, 7] 1 1 false 0 ++ catRow [8, 9] 1 2 false 0
  | .ce => catRow [0] 0 1 false 0 ++ catRow [1] 1 1 false 0 ++ catRow [2] 0 0 false 1 ++ catRow [3] 1 0 false 0
      ++ catRow [4, 5, 6, 9] 1 2 false 0 ++ catRow [7, 8] 0 1 false 0
  | .hst => catRow [0, 1, 6, 7] 0 1 false 0 ++ catRow [2, 3, 4, 5, 8] 0 2 false 0
  | .pwr => catRow [0, 4] 0 1 true 0 ++ catRow [1] 0 0 true 0 ++ catRow [2] 0 0 false 0 ++ catRow [3] 0 2 false 0
  | .thm => catRow [0, 6] 0 1 true 0 ++ catRow [1, 7, 8] 1 1 true 0 ++ catRow [2] 2 1 true 0 ++ catRow [3, 4] 0 0 true 0
      ++ catRow [5] 1 0 true 0
  | .clk => catRow [0] 2 0 true 0
  | .soh => catRow [0, 1, 3] 0 0 false 0 ++ catRow [2, 4] 0 1 false 0 ++ catRow [5] 0 2 false 0
  | .upd => catRow [0] 0 2 false 0 ++ catRow [1] 0 0 false 0
  | .sec => catRow [0, 2, 3] 0 2 false 0 ++ catRow [1] 1 2 false 0
  | .flt => catRow [0, 1, 3] 2 0 false 0 ++ catRow [2] 2 1 true 0 ++ catRow [4, 5] 0 0 false 0
  | .darn => catRow [0] 0 0 false 0 ++ catRow [1] 0 0 true 0
  | .hng => catRow [0, 2, 4] 1 0 false 0 ++ catRow [1] 1 2 false 0 ++ catRow [3] 1 0 true 0
  | .glb | .cfg | .cnt | .stw | .ctx | .common | .cte => []

/-- The catalogue entry of a page's bit. -/
def catEntry (page b : Nat) : Option CatEntry :=
  (Block.ofPage page).bind (fun blk => SMap.find (catalogue blk) b)

/-- The effective class of a bit, R364: the catalogue class, raised by one where FLT_CLASS holds 1. -/
def State.effClass (s : State) (page b : Nat) : Nat :=
  match catEntry page b with
  | none => 0
  | some e => if e.org ≠ 2 ∧ bit (s.rd Reg.FLT_CLASS page) b = 1 then min 2 (e.cls + 1) else e.cls

/-- The page already holds a set bit of the same effective class that is also marked in column Esc, R368. -/
def State.escalates (s : State) (page b : Nat) : Bool :=
  match Block.ofPage page with
  | none => false
  | some blk =>
    ((SMap.find (catalogue blk) b).any (fun e => decide (e.esc ≠ 0))) &&
      (catalogue blk).any (fun x => decide (x.2.esc ≠ 0) && bit (s.rd Reg.FLT_STAT page) x.1 == 1
        && s.effClass page x.1 == s.effClass page b)

/-- Packs FLT_FIRST as a word, Table 13-2. -/
def State.fltFirst (s : State) (page : Nat) : Nat :=
  s.rd Reg.FLT_FIRST_BIT page + 2 ^ 5 * s.rd Reg.FLT_FIRST_VALID page + 2 ^ 6 * s.rd Reg.FLT_FIRST_CTX page
    + 2 ^ 12 * s.rd Reg.FLT_FIRST_CTXV page + 2 ^ 16 * s.rd Reg.FLT_FIRST_DETAIL page

/-- Sets FT_LATCH and records the page and bit of the first FT, R374; the fault pair shows fault. -/
def State.latchFt (s : State) (page b : Nat) : State :=
  if s.rd Reg.FLT_FT_LATCH = 1 then s
  else
    let s := ((s.wr0 Reg.FLT_FT_LATCH 1).wr0 Reg.FLT_FT_PAGE page).wr0 Reg.FLT_FT_BIT b
    let s := s.wr0 Reg.FLT_PAIR_FAULT 1
    if s.boot.fltUp then { s with pins := { s.pins with fltP := false, fltN := true } } else s

/-- One occurrence of a fault with an already settled class: FLT_STAT, FLT_COUNT, FLT_FIRST, the controller's counters and the
event record, R366. -/
def State.occurAs (s : State) (page b cls : Nat) (ctx : Option Nat) (detail : Nat) : State :=
  let stat := s.rd Reg.FLT_STAT page
  let s := if stat = 0 then
      ((((s.wr Reg.FLT_FIRST_BIT page 0 b).wr Reg.FLT_FIRST_VALID page 0 1).wr Reg.FLT_FIRST_CTX page 0 (ctx.getD 0)).wrB
        Reg.FLT_FIRST_CTXV page 0 ctx.isSome).wr Reg.FLT_FIRST_DETAIL page 0 detail
    else s
  let s := s.wr Reg.FLT_STAT page 0 (setBit stat b)
  let s := s.wr Reg.FLT_COUNT page 0 (satInc 0xFFFF (s.rd Reg.FLT_COUNT page))
  let s := s.count 0x002 cls 1
  if bit (s.rd Reg.FLT_MASK page) b = 1 then s
  else s.log ⟨0, page, b, cls, ctx.getD 0, ctx.isSome, 0, s.timeUs, s.flash.bootGen, 0, s.rd Reg.FLT_COUNT page,
    s.fltFirst page⟩

/-- One occurrence of a fault without the catalogue's reaction: R364, R366, R368. Escalation to FT raises ESCALATED and latches
FT, as does a class FT occurrence. The class it took is read with `occurClass` before it. -/
def State.occur (s : State) (page b : Nat) (ctx : Option Nat) (detail : Nat) : State :=
  let esc := s.escalates page b
  let cls := if esc then (catEntry page b).elim 0 (fun e => e.esc) else s.effClass page b
  let s := s.occurAs page b cls ctx detail
  let s := if esc then s.count 0x002 3 1 else s
  let s := if esc && cls == 2 then s.occurAs 0x002 3 2 none 0 else s
  if cls = 2 then s.latchFt page b else s

/-- The class that the next occurrence of a bit takes, R368. -/
def State.occurClass (s : State) (page b : Nat) : Nat :=
  if s.escalates page b then (catEntry page b).elim 0 (fun e => e.esc) else s.effClass page b

/-- REPLACE_REQ becomes 1 with its first cause, R373. -/
def State.replaceReq (s : State) (page b : Nat) : State :=
  let s := s.wr0 Reg.FLT_RPL_COUNT (satInc 0xFFFF (s.rd Reg.FLT_RPL_COUNT))
  if s.rd Reg.FLT_REPLACE_REQ = 1 then s
  else
    let s := ((s.wr0 Reg.FLT_REPLACE_REQ 1).wr0 Reg.FLT_RPL_PAGE page).wr0 Reg.FLT_RPL_BIT b
    let s := s.occur 0x002 5 none 0
    (s.event 0x0033 1 0x002 (page + 2 ^ 32 * b)).trayNote

/-- Raises a fault whose reaction follows at the end of the command. -/
def State.raise (s : State) (page b : Nat) (ctx : Option Nat) (detail : Nat) : State :=
  { s with due := s.due ++ [⟨page, b, ctx, detail⟩] }

/-! ### Completion records -/

/-- A completion record as a number of 256 bits, Table 10-7. -/
def Rec.pack (r : Rec) (ctx rser qfree : Nat) : Nat :=
  let gen := (rser / 64) % 65535 + 1
  (gen + 2 ^ 16 * r.kind + 2 ^ 20 * r.status + 2 ^ 25 * ctx) + 2 ^ 32 * rser + 2 ^ 64 * r.ref + 2 ^ 96 * r.stepv
    + 2 ^ 128 * (r.val % 2 ^ 32) + 2 ^ 160 * r.detail + 2 ^ 192 * (qfree + 2 ^ 16 * r.cstat) + 2 ^ 224 * r.minrate

/-- Free queue entries of a context. -/
def State.qfree (s : State) (c : Nat) : Nat := 256 - (s.ctx c).queue.length

/-- A slot of the context's ring is free, R289. -/
def State.ringFree (s : State) (c : Nat) : Bool :=
  decide ((s.rd Reg.CTX_RSER_NEXT c + 2 ^ 32 - s.rd Reg.CTX_CPL_ACKED c) % 2 ^ 32 < 64)

/-- Writes one record into its slot and advances RSER_NEXT; sends it while CPL_BIND is 1, R289, R290. -/
def State.putRec (s : State) (c : Nat) (r : Rec) : State :=
  let n := s.rd Reg.CTX_RSER_NEXT c
  let v := r.pack c n (s.qfree c)
  let s := (s.wr Reg.CTX_REC c (n % 64) v).wr Reg.CTX_RSER_NEXT c 0 (n + 1)
  if s.rd Reg.CTX_CPL_BIND c = 1 then
    s.sendNum (s.rd Reg.CTX_CPL_PORT c) (s.rd Reg.CTX_CPL_SESS c) (.cpl c [v] n)
  else s

/-- What a record's event does beside the record: the end of a STEP, R37. -/
def State.recEffect (s : State) (c : Nat) (e : RecEvent) : State :=
  let x := s.ctx c
  let s := if e.record.kind = 3 then s
    else s.setCtx c { x with pendCser := x.pendCser.filter (fun n => n ≠ e.record.ref) }
  match e.stepEnd with
  | 0 => s
  | 1 => s.wr Reg.CTX_EXEC_STEP_BUSY c 0 0
  | _ => ((s.wr Reg.CTX_EXEC_STEP_BUSY c 0 0).wr Reg.CTX_STEP_NUM c 0 (s.rd Reg.CTX_STEP_NUM c + 1)).count (0x300 + c) 0 1

/-- RECORD_WRITE: the first event that waits for a slot is reported once one is free, R289. -/
def State.recordWrite (s : State) (c : Nat) : State :=
  let x := s.ctx c
  match x.waiting with
  | [] => s
  | e :: r => if s.ringFree c then ((s.setCtx c { x with waiting := r }).recEffect c e).putRec c e.record else s

/-- Reports an event with its completion record: at once where a slot is free, after the events that wait before it; while the ring is
full it waits and CPL_FULL is raised, R289. -/
def State.report (s : State) (c : Nat) (e : RecEvent) : State :=
  let s := (s.ctx c).waiting.foldl (fun s _ => s.recordWrite c) s
  if s.ringFree c then (s.recEffect c e).putRec c e.record
  else
    let x := s.ctx c
    (s.setCtx c { x with waiting := x.waiting ++ [e] }).occur (0x10 + s.rd Reg.CTX_CPL_PORT c) 8 (some c) 0

/-! ### Free values -/

/-- Takes the next free value's number: the counter of free values advances. -/
def State.tick (s : State) : State := { s with free := s.free + 1 }

/-- A write `g` to a region of Soholt's flash, R333: the read-back that fails raises FLASH_ERR and the write is made once more in another
block; where that fails too, the region keeps its contents. Whether a read-back fails is a free value: bit 0 for the first write, bit 1
for the second. -/
def State.flashWrite (s : State) (g : State → State) : State :=
  let v := (Config.freeWord s.free).toNat
  let s := s.tick
  if bit v 0 = 0 then g s
  else
    let s := s.occur 0x008 3 none 0
    if bit v 1 = 0 then g s else s

/-! ### Tiles, stacks and fences -/

/-- A tile beside its registers. -/
def State.tile (s : State) (t : Nat) : Tile := SMap.get Tile.empty s.tiles t

/-- Sets a tile's record. -/
def State.setTile (s : State) (t : Nat) (x : Tile) : State := { s with tiles := SMap.set Tile.empty s.tiles t x }

/-- A stack beside its registers. -/
def State.stack (s : State) (n : Nat) : Stack := SMap.get Stack.empty s.stk n

/-- Sets a stack's record. -/
def State.setStack (s : State) (n : Nat) (x : Stack) : State := { s with stk := SMap.set Stack.empty s.stk n x }

/-- A unit is fenced: its page and sub-unit. -/
def State.isFenced (s : State) (page sub : Nat) : Bool := SMap.get 0 s.fenced (8 * page + sub) == 1

/-- The tile's slot for a context, R99: the lowest valid slot that names it. -/
def State.slotOf (s : State) (t c : Nat) : Option Nat :=
  (List.range 16).find? (fun n => s.rdB Reg.CS_VALID t n && s.rd Reg.CS_CTX t n == c)

/-- The logical tiles of a group. -/
def State.groupTiles (s : State) (g : Nat) : List Nat :=
  (List.range (s.rd Reg.CFG_SG_SIZE 0 g)).map (fun i => s.rd Reg.CFG_SG_FIRST 0 g + i)

/-- The groups of a context. -/
def State.groupsOf (s : State) (c : Nat) : List Nat := (List.range 8).filter (fun g => bit (s.rd Reg.CTX_SG_MASK c) g == 1)

/-- The physical tiles of the groups of a context. -/
def State.tilesOfCtx (s : State) (c : Nat) : List Nat :=
  (s.groupsOf c).flatMap (fun g => (s.groupTiles g).map s.phys)

/-- The group that a logical tile belongs to. -/
def State.groupOf (s : State) (l : Nat) : Option Nat :=
  (List.range 8).find? (fun g => decide (s.rd Reg.CFG_SG_FIRST 0 g ≤ l)
    && decide (l < s.rd Reg.CFG_SG_FIRST 0 g + s.rd Reg.CFG_SG_SIZE 0 g))

/-! ### Holds of a recovery -/

/-- The lane with a recovery open on an engine, R380. -/
def State.recLane (s : State) (page xe : Nat) : Option Nat :=
  (List.range 5).find? (fun l => s.rd Reg.HNG_RUNG 0 l != 0 && s.rd Reg.HNG_PHASE 0 l != 5 && s.rd Reg.HNG_ENGINE 0 l == page
    && s.rd Reg.HNG_REC_XE 0 l == xe)

/-- The engine may work for a context: no recovery holds it, or it is the context's turn, R382; an engine being scrubbed works for
none, R386. -/
def State.mayWork (s : State) (page xe c : Nat) : Bool :=
  match s.recLane page xe with
  | none => true
  | some l =>
    if s.rd Reg.HNG_RUNG 0 l = 1 then s.rdB Reg.HNG_TURN_VALID 0 l && s.rd Reg.HNG_TURN 0 l == c
    else s.rd Reg.HNG_RUNG 0 l != 2

/-! ### Memory -/

/-- The place of a Pantry byte: physical tile and Pantry address. -/
def pantryAddr (t a : Nat) : Nat := t * 2 ^ 24 + a

/-- The place of a Larder byte: stack and offset, R132. -/
def larderAddr (stack off : Nat) : Nat := stack * 2 ^ 36 + off

/-- Zeroes a tile's whole Pantry, with valid check bytes, R106. -/
def State.zeroPantry (s : State) (t : Nat) : State :=
  { s with pantry := s.pantry.zero (pantryAddr t 0) (2 ^ 24), perr := SMap.clear s.perr (t * 2 ^ 19) ((t + 1) * 2 ^ 19) }

/-- Zeroes a whole stack, with valid check bytes, R145. -/
def State.zeroStack (s : State) (n : Nat) : State :=
  { s with larder := s.larder.zero (larderAddr n 0) (2 ^ 36), lerr := SMap.clear s.lerr (n * 2 ^ 31) ((n + 1) * 2 ^ 31) }

end Sys2Proof.Machine
end

