-- ==== Sys2Proof/Machine/Operands.lean ====
section
/-! DEFINITION. Operand forms of the number formats: exact values, format descriptors (Tables 3-5 to 3-7), decoding, the Press
lanes (R44), exact arithmetic on values and the stochastic generator (R66). Conversion with its flags is in Flags.lean. -/

namespace Sys2Proof.Machine

open Sys2Proof

/-- An exact value: NaN, an infinity, or plus or minus `m` times 2 to the `e`. A zero keeps its sign. -/
inductive Val where
  | nan
  | inf (neg : Bool)
  | fin (neg : Bool) (m : Nat) (e : Int)
  deriving DecidableEq, Repr

/-- The fixed entries 0 to 7, Table 3-7. -/
def fixedFmts : List Fmt :=
  [⟨true, false, true, true, 16, 8, 7, 127, 1, 0, 0, false⟩,
   ⟨true, false, true, true, 8, 4, 3, 7, 2, 2, 2, true⟩,
   ⟨true, false, true, true, 8, 5, 2, 15, 1, 2, 2, true⟩,
   ⟨true, false, true, true, 6, 3, 2, 3, 0, 2, 1, true⟩,
   ⟨true, false, true, true, 6, 2, 3, 1, 0, 2, 1, true⟩,
   ⟨true, false, true, true, 4, 2, 1, 1, 0, 2, 1, true⟩,
   ⟨true, true, true, false, 8, 0, 7, 0, 0, 0, 0, true⟩,
   ⟨true, true, true, false, 4, 0, 3, 0, 0, 0, 0, true⟩]

/-- BF16, entry 0. -/
def fmtBf16 : Fmt := ⟨true, false, true, true, 16, 8, 7, 127, 1, 0, 0, false⟩

/-- FP32: IEEE 754 binary32, R73. -/
def fmtF32 : Fmt := ⟨true, false, true, true, 32, 8, 23, 127, 1, 0, 0, false⟩

/-- Elements of a block; 0 without blocks. -/
def Fmt.blockSize (f : Fmt) : Nat := match f.block with | 1 => 16 | 2 => 32 | _ => 0

/-- Entry `n` of partition `p`, R50: fixed for 0 to 7, else the applied registers. -/
def State.fmt (s : State) (p n : Nat) : Fmt :=
  if n < 8 then fixedFmts.getD n Fmt.absent
  else
    let i := 16 * p + n
    ⟨s.rdB Reg.FMT_A_VALID 0 i, s.rdB Reg.FMT_A_KIND 0 i, s.rdB Reg.FMT_A_SIGN 0 i, s.rdB Reg.FMT_A_SUB 0 i,
     s.rd Reg.FMT_A_WIDTH 0 i, s.rd Reg.FMT_A_EXP_BITS 0 i, s.rd Reg.FMT_A_SIG_BITS 0 i, s.rd Reg.FMT_A_BIAS 0 i,
     s.rd Reg.FMT_A_SPECIAL 0 i, s.rd Reg.FMT_B_BLOCK 0 i, s.rd Reg.FMT_B_SCALE 0 i, s.rdB Reg.FMT_B_SAT 0 i⟩

/-- The sixteen entries of a partition, as a stage or a command latches them, R52. -/
def State.fmts (s : State) (p : Nat) : List Fmt := (List.range 16).map (s.fmt p)

/-! ### Decoding -/

/-- Decodes a code, chapter 3. -/
def Fmt.decode (f : Fmt) (code : Nat) : Val :=
  let c := code % 2 ^ f.width
  if f.int then
    let v : Int := if f.sign then toSigned f.width c else c
    .fin (decide (v < 0)) v.natAbs 0
  else
    let s := f.sign && bit c (f.width - 1) == 1
    let e := c / 2 ^ f.sig % 2 ^ f.exp
    let m := c % 2 ^ f.sig
    let eTop := 2 ^ f.exp - 1
    if f.special = 2 ∧ e = eTop ∧ m = 2 ^ f.sig - 1 then .nan
    else if f.special = 3 ∧ c = 2 ^ (f.width - 1) then .nan
    else if f.special = 1 ∧ e = eTop then (if m = 0 then .inf s else .nan)
    else if e = 0 then
      (if f.sub then .fin s m (1 - (f.bias : Int) - f.sig) else .fin s 0 0)
    else .fin s (2 ^ f.sig + m) ((e : Int) - f.bias - f.sig)

/-- The value of an FP32 code. -/
def f32 (c : Nat) : Val := fmtF32.decode c

/-- The exponent that an E8M0 scale byte stands for; none for NaN, R53. -/
def e8m0 (b : Nat) : Option Int := if b = 255 then none else some ((b : Int) - 127)

/-! ### Exact arithmetic -/

/-- Removes factors of two, at most `n`, from a magnitude. -/
def reduce2 : Nat → Nat → Int → Nat × Int
  | 0, m, e => (m, e)
  | n + 1, m, e => if m % 2 = 0 ∧ m ≠ 0 then reduce2 n (m / 2) (e + 1) else (m, e)

/-- The value is NaN. -/
def Val.isNan : Val → Bool
  | .nan => true
  | _ => false

/-- The value's sign bit. -/
def Val.neg? : Val → Bool
  | .nan => false
  | .inf n => n
  | .fin n _ _ => n

/-- The value with its sign changed. -/
def Val.negate : Val → Val
  | .nan => .nan
  | .inf n => .inf !n
  | .fin n m e => .fin (!n) m e

/-- The value without its sign. -/
def Val.abs : Val → Val
  | .nan => .nan
  | .inf _ => .inf false
  | .fin _ m e => .fin false m e

/-- The value is zero. -/
def Val.isZero : Val → Bool
  | .fin _ m _ => m == 0
  | _ => false

/-- The exact product; zero times infinity is NaN. -/
def Val.mul : Val → Val → Val
  | .nan, _ => .nan
  | _, .nan => .nan
  | .inf a, .inf b => .inf (a != b)
  | .inf a, .fin b m _ => if m = 0 then .nan else .inf (a != b)
  | .fin a m _, .inf b => if m = 0 then .nan else .inf (a != b)
  | .fin a m e, .fin b n k => .fin (a != b) (m * n) (e + k)

/-- A finite value as an integer multiple of 2 to the `e`, where `e` is at most the value's own exponent. -/
def scaledInt (neg : Bool) (m : Nat) (k e : Int) : Int :=
  let v : Int := (m * 2 ^ (k - e).toNat : Nat)
  if neg then -v else v

/-- The exact sum; infinities of both signs give NaN, and a zero sum is −0 only of two negative zeros. -/
def Val.add : Val → Val → Val
  | .nan, _ => .nan
  | _, .nan => .nan
  | .inf a, .inf b => if a = b then .inf a else .nan
  | .inf a, .fin _ _ _ => .inf a
  | .fin _ _ _, .inf b => .inf b
  | .fin a m e, .fin b n k =>
    if m = 0 ∧ n = 0 then .fin (a && b) 0 0
    else if m = 0 then .fin b n k
    else if n = 0 then .fin a m e
    else
      let l := min e k
      let t := scaledInt a m e l + scaledInt b n k l
      .fin (decide (t < 0)) t.natAbs l

/-- The exact difference. -/
def Val.sub (a b : Val) : Val := a.add b.negate

/-- The order of two values; none where either is NaN. -/
def Val.cmp (a b : Val) : Option Ordering :=
  match a, b with
  | .nan, _ => none
  | _, .nan => none
  | .inf x, .inf y => some (if x = y then .eq else if x then .lt else .gt)
  | .inf x, .fin _ _ _ => some (if x then .lt else .gt)
  | .fin _ _ _, .inf y => some (if y then .gt else .lt)
  | .fin x m e, .fin y n k =>
    let l := min e k
    some (compare (scaledInt x m e l) (scaledInt y n k l))

/-- ⌊log2⌋ of a finite magnitude that is not zero. -/
def floorLog2 (m : Nat) (e : Int) : Int := (Nat.log2 m : Int) + e

/-- A quotient with a sticky bit below at least 64 significant bits, so that one rounding gives the correctly rounded result. -/
def Val.div : Val → Val → Val
  | .nan, _ => .nan
  | _, .nan => .nan
  | .inf _, .inf _ => .nan
  | .inf a, .fin b _ _ => .inf (a != b)
  | .fin a _ _, .inf b => .fin (a != b) 0 0
  | .fin a m e, .fin b n k =>
    if n = 0 then (if m = 0 then .nan else .inf (a != b))
    else if m = 0 then .fin (a != b) 0 0
    else
      let sh := 70 + Nat.log2 n
      let q := m * 2 ^ sh / n
      let r := m * 2 ^ sh % n
      .fin (a != b) (2 * q + (if r = 0 then 0 else 1)) (e - k - sh - 1)

/-- A square root with a sticky bit; of a negative value NaN, of −0 −0. -/
def Val.sqrt : Val → Val
  | .nan => .nan
  | .inf n => if n then .nan else .inf false
  | .fin n m e =>
    if m = 0 then .fin n 0 0
    else if n then .nan
    else
      let sh : Nat := if (e % 2 = 0) then 140 else 141
      let x := m * 2 ^ sh
      let r := Nat.sqrt x
      .fin false (2 * r + (if r * r = x then 0 else 1)) ((e - sh) / 2 - 1)

/-- A reciprocal square root with a sticky bit; of zero the infinity of its sign, of a negative value NaN. -/
def Val.rsqrt : Val → Val
  | .nan => .nan
  | .inf n => if n then .nan else .fin false 0 0
  | .fin n m e =>
    if m = 0 then .inf n
    else if n then .nan
    else
      -- 1 / √(m·2^e) = √(2^(2k) / m')·2^(−k − e'/2), with e' even
      let m' := if e % 2 = 0 then m else 2 * m
      let e' := if e % 2 = 0 then e else e - 1
      let k := 80 + Nat.log2 m'
      let r := Nat.sqrt (2 ^ (2 * k) / m')
      .fin false (2 * r + (if r * r * m' = 2 ^ (2 * k) then 0 else 1)) (-(k : Int) - e' / 2 - 1)

/-- The value times 2 to the `k`. -/
def Val.scale (v : Val) (k : Int) : Val :=
  match v with
  | .fin n m e => .fin n m (e + k)
  | v => v

/-- The floor of a finite value. -/
def Val.floor : Val → Int
  | .fin n m e =>
    let v : Int := if n then -(m : Int) else m
    if 0 ≤ e then v * 2 ^ e.toNat else v / 2 ^ (-e).toNat
  | _ => 0

/-- An integer as a value. -/
def Val.ofInt (i : Int) : Val := .fin (decide (i < 0)) i.natAbs 0

/-- The part of a value below a cut, truncated toward zero to a multiple of 2 to the `e`: the integer and whether bits fell off. -/
def truncTo (neg : Bool) (m : Nat) (k e : Int) : Int × Bool :=
  if e ≤ k then (scaledInt neg m k e, false)
  else
    let d := 2 ^ (e - k).toNat
    let q : Int := (m / d : Nat)
    (if neg then -q else q, m % d != 0)

/-! ### Lanes -/

/-- A lane holds a finite value exactly, Table 3-1: lane 0 W, 1 N, 2 I8, 3 F4. -/
def laneHolds (lane : Nat) (v : Val) : Bool :=
  match v with
  | .fin n m e =>
    let r := reduce2 300 m e
    let within := fun (top : Nat) (lo hi : Int) =>
      (List.range 8).any (fun j => decide (r.1 * 2 ^ j ≤ top) && decide (lo ≤ r.2 - j) && decide (r.2 - j ≤ hi))
    if m = 0 then true
    else match lane with
      | 0 => within 255 (-133) 120
      | 1 => within 15 (-24) 15
      | 2 => decide (0 ≤ r.2) && decide (r.2 ≤ 8) && decide (r.1 * 2 ^ r.2.toNat ≤ (if n then 128 else 127))
      | _ => within 3 (-1) 2
  | _ => true

/-- A lane holds every finite value of a format. BF16 has lane W by Table 3-7. -/
def Fmt.inLane (f : Fmt) (lane : Nat) : Bool :=
  if 8 < f.width then f = fmtBf16 && lane == 0
  else (List.range (2 ^ f.width)).all (fun c => laneHolds lane (f.decode c))

/-- The lane of a format, R44: the first of F4, I8, N, W that holds it. -/
def Fmt.lane (f : Fmt) : Option Nat := [3, 2, 1, 0].find? f.inLane

/-- The lane of a pass, R44. -/
def passLane (a b : Fmt) : Nat :=
  if a.lane = some 2 ∧ b.lane = some 2 then 2
  else ([3, 1, 0].find? (fun l => a.inLane l && b.inLane l)).getD 0

/-- Packing of a lane, Table 3-1. -/
def packing (lane : Nat) : Nat := match lane with | 0 => 1 | 3 => 4 | _ => 2

/-- Strip width of a lane, Table 3-1. -/
def stripWidth (lane : Nat) : Nat := match lane with | 0 => 256 | 3 => 64 | _ => 128

/-- What R51 asks of a user entry, beside the contexts of its partition. -/
def Fmt.legal (f : Fmt) : Bool :=
  decide (f.special < 4) && decide (f.block < 3) && decide (f.scale < 3)
    && f.width == (if f.sign then 1 else 0) + f.exp + f.sig && (f.width == 4 || f.width == 6 || f.width == 8)
    && (!f.int || (f.exp == 0 && f.bias == 0 && f.special == 0 && f.scale == 0))
    && !((f.special == 1 || f.special == 2) && decide (f.exp < 2))
    && !(f.special == 3 && !f.sign)
    && (if f.scale = 0 then f.block == 0 else f.block != 0)
    && f.lane.isSome

/-! ### Packed elements -/

/-- The number whose `w`-bit elements are given, element 0 lowest. -/
def packElems (w : Nat) : List Nat → Nat
  | [] => 0
  | c :: r => c % 2 ^ w + 2 ^ w * packElems w r

/-- The bytes of packed elements of `w` bits, the last byte filled with zeros. -/
def packBytes (w : Nat) (l : List Nat) : List Byte := leBytes ((l.length * w + 7) / 8) (packElems w l)

/-- `n` elements of `w` bits from a number. -/
def unpackElems (w n v : Nat) : List Nat := (List.range n).map (fun i => v / 2 ^ (w * i) % 2 ^ w)

/-! ### The stochastic generator, R66 -/

/-- One round of the generator. -/
def philoxRound (c : Nat × Nat × Nat × Nat) (k0 k1 : Nat) : Nat × Nat × Nat × Nat :=
  let p0 := 0xD2511F53 * c.1
  let p1 := 0xCD9E8D57 * c.2.2.1
  (Nat.xor (Nat.xor (p1 / 2 ^ 32) c.2.1) k0, p1 % 2 ^ 32, Nat.xor (Nat.xor (p0 / 2 ^ 32) c.2.2.2) k1, p0 % 2 ^ 32)

/-- `n` rounds, the key bumped after each. -/
def philoxRounds : Nat → (Nat × Nat × Nat × Nat) → Nat → Nat → (Nat × Nat × Nat × Nat)
  | 0, c, _, _ => c
  | n + 1, c, k0, k1 =>
    philoxRounds n (philoxRound c k0 k1) ((k0 + 0x9E3779B9) % 2 ^ 32) ((k1 + 0xBB67AE85) % 2 ^ 32)

/-- What the generator of a conversion depends on: seed, step, tag and sub-stream. -/
structure Gen where
  seedLo : Nat
  seedHi : Nat
  step   : Nat
  ttag   : Nat
  micro  : Nat
  deriving DecidableEq, Repr

/-- The 24 random bits of element index `i`, R66. -/
def Gen.bits (g : Gen) (i : Nat) : Nat :=
  let i := i % 2 ^ 48
  let q := i / 4
  let c := philoxRounds 10 (q % 2 ^ 32, (g.ttag % 2 ^ 16) * 2 ^ 16 + q / 2 ^ 32, g.step, g.micro % 2 ^ 16) g.seedLo g.seedHi
  (match i % 4 with | 0 => c.1 | 1 => c.2.1 | 2 => c.2.2.1 | _ => c.2.2.2) / 2 ^ 8

/-- The generator of a context's step with a tag and sub-stream. -/
def State.gen (s : State) (c step ttag micro : Nat) : Gen :=
  ⟨s.rd Reg.CTX_SEED_LO c, s.rd Reg.CTX_SEED_HI c, step, ttag, micro⟩

end Sys2Proof.Machine
end

