-- ==== Sys2Proof/Machine/Flags.lean ====
section
/-! DEFINITION. Conversions to narrower formats with the flags they set (R63 to R66), FP32 and BF16 arithmetic (R73, R74), and the
MX block form (R65). Flags of a conversion: 4 NAN_SEEN, 8 SAT_OUT, 16 SCALE_NAN, laid out as PX_FLAGS, Table 3-13. -/

namespace Sys2Proof.Machine

open Sys2Proof

/-- Rounds a magnitude `m` times 2 to the `e` to a whole number of units under a rounding mode, Table 3-10; `u` are the
generator's 24 bits. -/
def roundUnits (rnd u m : Nat) (e : Int) : Nat :=
  if 0 ≤ e then m * 2 ^ e.toNat
  else
    let d := 2 ^ (-e).toNat
    let i := m / d
    let f := m % d
    match rnd with
    | 0 => if d < 2 * f ∨ (2 * f = d ∧ i % 2 = 1) then i + 1 else i
    | 1 => i
    | 2 => if d ≤ 2 * f then i + 1 else i
    | _ => if 2 ^ 24 ≤ f * 2 ^ 24 / d + u then i + 1 else i

/-- The largest code without its sign bit that is a finite value. -/
def Fmt.topCode (f : Fmt) : Nat :=
  if f.int then 2 ^ (f.width - (if f.sign then 1 else 0)) - 1
  else
    let all := 2 ^ (f.exp + f.sig) - 1
    match f.special with
    | 1 => all - 2 ^ f.sig
    | 2 => all - 1
    | _ => all

/-- The canonical NaN, R64. -/
def Fmt.canonNan (f : Fmt) : Option Nat :=
  if f.int then none
  else match f.special with
    | 1 => if f.sig = 0 then none else some ((2 ^ f.exp - 1) * 2 ^ f.sig + 2 ^ (f.sig - 1))
    | 2 => some (2 ^ (f.exp + f.sig) - 1)
    | 3 => some (2 ^ (f.width - 1))
    | _ => none

/-- A code's sign bit. -/
def Fmt.signBit (f : Fmt) (neg : Bool) : Nat := if neg && f.sign then 2 ^ (f.width - 1) else 0

/-- Zero of a sign, R64: a format without negative zero has the one zero. -/
def Fmt.zero (f : Fmt) (neg : Bool) : Nat := if f.int ∨ f.special = 3 then 0 else f.signBit neg

/-- The largest finite value of a sign. -/
def Fmt.saturated (f : Fmt) (neg : Bool) : Nat :=
  if f.int then (if neg then (if f.sign then 2 ^ (f.width - 1) else 0) else f.topCode)
  else if neg && !f.sign then 0 else f.signBit neg + f.topCode

/-- A value beyond the largest finite one, R64. -/
def Fmt.overflow (f : Fmt) (neg : Bool) : Nat × Nat :=
  if f.sat then (f.saturated neg, 8)
  else if !f.int && f.special == 1 then (f.signBit neg + (2 ^ f.exp - 1) * 2 ^ f.sig, 0)
  else match f.canonNan with
    | some c => (c, 4)
    | none => (f.saturated neg, 8)

/-- Converts an exact value to a format, R63 and R64: the code and its flags. -/
def Fmt.encode (f : Fmt) (rnd u : Nat) (v : Val) : Nat × Nat :=
  match v with
  | .nan => (f.canonNan.getD 0, 4)
  | .inf neg =>
    if neg && !f.sign then (0, 8)
    else if !f.int && f.special == 1 then (f.signBit neg + (2 ^ f.exp - 1) * 2 ^ f.sig, 0)
    else if f.sat then (f.saturated neg, 8)
    else match f.canonNan with
      | some c => (c, 4)
      | none => (f.saturated neg, 8)
  | .fin neg m e =>
    if f.int then
      let i := roundUnits rnd u m e
      if i = 0 then (0, 0)
      else if neg && !f.sign then (0, 8)
      else if (if neg then 2 ^ (f.width - 1) else f.topCode) < i then f.overflow neg
      else (if neg then 2 ^ f.width - i else i, 0)
    else if m = 0 then (if f.sign then f.zero neg else 0, 0)
    else
      let low : Int := 1 - (f.bias : Int) - f.sig
      let q : Int := if f.exp = 0 then low else max (floorLog2 m e - f.sig) low
      let i := roundUnits rnd u m (e - q)
      let code : Nat := ((q - low + 1) * (2 ^ f.sig : Nat) + i - (2 ^ f.sig : Nat)).toNat
      if i = 0 ∨ (i < 2 ^ f.sig ∧ !f.sub) then (if f.sign then f.zero neg else 0, 0)
      else if neg && !f.sign then (0, 8)
      else if f.topCode < code then f.overflow neg
      else (f.signBit neg + code, 0)

/-! ### FP32 and BF16, R73 and R74 -/

/-- An exact result rounded to FP32 under RNE. -/
def toF32 (v : Val) : Nat := (fmtF32.encode 0 0 v).1

/-- The canonical NaN. -/
def nan32 : Nat := 0x7FC00000

/-- FP32 addition. -/
def fadd (a b : Nat) : Nat := toF32 ((f32 a).add (f32 b))

/-- FP32 subtraction. -/
def fsub (a b : Nat) : Nat := toF32 ((f32 a).sub (f32 b))

/-- FP32 multiplication. -/
def fmul (a b : Nat) : Nat := toF32 ((f32 a).mul (f32 b))

/-- FP32 fused multiply-add, rounded once. -/
def ffma (a b c : Nat) : Nat := toF32 (((f32 a).mul (f32 b)).add (f32 c))

/-- FP32 `c − a·b`, rounded once. -/
def ffnma (a b c : Nat) : Nat := toF32 (((f32 a).mul (f32 b)).negate.add (f32 c))

/-- FP32 division, correctly rounded. -/
def fdiv (a b : Nat) : Nat := toF32 ((f32 a).div (f32 b))

/-- FP32 square root, correctly rounded. -/
def fsqrt (a : Nat) : Nat := toF32 (f32 a).sqrt

/-- FP32 reciprocal square root, correctly rounded. -/
def frsqrt (a : Nat) : Nat := toF32 (f32 a).rsqrt

/-- The larger value; NaN if either is, +0 over −0. -/
def Val.max (a b : Val) : Val :=
  match a.cmp b with
  | none => .nan
  | some .lt => b
  | some .gt => a
  | some .eq => if a.neg? then b else a

/-- The smaller value; NaN if either is, −0 under +0. -/
def Val.min (a b : Val) : Val :=
  match a.cmp b with
  | none => .nan
  | some .lt => a
  | some .gt => b
  | some .eq => if a.neg? then a else b

/-! ### The MX block form, R65 -/

/-- EMAX of a format. -/
def Fmt.emax (f : Fmt) : Int := (2 ^ f.exp : Nat) - (if f.special = 1 then 2 else 1) - (f.bias : Int)

/-- The scale byte of a block of values. -/
def Fmt.mxScale (f : Fmt) (vs : List Val) : Nat :=
  if vs.any (fun v => match v with | .fin _ _ _ => false | _ => true) then 255
  else
    let top := vs.foldl (fun (b : Option Int) v => match v with
      | .fin _ m e => if m = 0 then b else some (b.elim (floorLog2 m e) (fun x => Max.max x (floorLog2 m e)))
      | _ => b) none
    match top with
    | none => 0
    | some l => (Max.max 0 (Min.min 254 (l - f.emax + 127))).toNat

/-- A block in MX form: scale byte, codes and flags; `us` are the generator's bits of each element. -/
def Fmt.mxBlock (f : Fmt) (rnd : Nat) (vs : List (Val × Nat)) : Nat × List Nat × Nat :=
  let sc := f.mxScale (vs.map Prod.fst)
  if sc = 255 then (255, vs.map (fun _ => 0), 16)
  else
    let r := vs.map (fun x => f.encode rnd x.2 (x.1.scale (127 - (sc : Int))))
    (sc, r.map Prod.fst, r.foldl (fun a x => Nat.lor a x.2) 0)

/-- An FP32 code with a NaN made the canonical one, R73. -/
def canon32 (a : Nat) : Nat := if (f32 a).isNan then nan32 else a

/-- Blocks of `b` elements; what is left at the end makes a shorter block with a scale byte of its own (DESIGN CHOICE, log entry 11:
the spec states no row whose elements are no multiple of B). -/
def inBlocks {α : Type} (b : Nat) : Nat → List α → List (List α)
  | 0, _ => []
  | n + 1, l => if l.isEmpty then [] else l.take b :: inBlocks b n (l.drop b)

/-- A row of values converted: codes, scale bytes (in MX form) and flags. -/
def Fmt.convertRow (f : Fmt) (mx : Bool) (rnd : Nat) (vs : List (Val × Nat)) : List Nat × List Nat × Nat :=
  if mx then
    let bs := (inBlocks f.blockSize vs.length vs).map (f.mxBlock rnd)
    (bs.flatMap (fun x => x.2.1), bs.map (fun x => x.1), bs.foldl (fun a x => Nat.lor a x.2.2) 0)
  else
    let r := vs.map (fun x => f.encode rnd x.2 x.1)
    (r.map Prod.fst, [], r.foldl (fun a x => Nat.lor a x.2) 0)

end Sys2Proof.Machine
end

