-- ==== Sys2Proof/Machine/Larder.lean ====
section
/-! DEFINITION. Larder: addresses (R132), the SC288 code (R133 to R137), regions and their checks (R146 to R150), landing
(Table 6-5), ingest hashing (R151, R152), scrub, repair and loss of a channel (R138 to R144). -/

namespace Sys2Proof.Machine

open Sys2Proof

/-! ### SC288, R133 -/

/-- Multiplication by α = 2 over x^8 + x^4 + x^3 + x^2 + 1. -/
def rsDouble (a : Nat) : Nat := if a < 128 then 2 * a else Nat.xor (2 * a - 256) 0x1D

/-- Product in GF(2^8), over the low `n` bits of the second factor. -/
def rsMul (a : Nat) : Nat → Nat → Nat
  | 0, _ => 0
  | n + 1, b => Nat.xor (if b % 2 = 1 then a else 0) (rsMul (rsDouble a) n (b / 2))

/-- The power of α. -/
def rsPow : Nat → Nat
  | 0 => 1
  | n + 1 => rsDouble (rsPow n)

/-- The four syndromes of an error pattern: symbol `i` has the power α^(35 − i) in the codeword polynomial. -/
def rsSyndromes (errs : List (Nat × Nat)) : List Nat :=
  (List.range 4).map (fun j => errs.foldl (fun a x => Nat.xor a (rsMul x.2 8 (rsPow (j * (35 - x.1))))) 0)

/-- A correction that explains the syndromes with one symbol, if there is one. -/
def rsSingle (syn : List Nat) : Option (Nat × Nat) :=
  let v := syn.getD 0 0
  ((List.range 36).map (fun i => (i, v))).find? (fun x => v != 0 && rsSyndromes [x] == syn)

/-- A correction with two symbols. The second value follows from the first and syndrome 0. -/
def rsDoubleErr (syn : List Nat) : Option (List (Nat × Nat)) :=
  let pairs := (List.range 36).flatMap (fun i => (List.range 36).filterMap (fun k => if i < k then some (i, k) else none))
  let s0 := syn.getD 0 0
  pairs.findSome? (fun p => (List.range 256).findSome? (fun v =>
    let c := [(p.1, v), (p.2, Nat.xor s0 v)]
    if v ≠ 0 ∧ v ≠ s0 ∧ rsSyndromes c = syn then some c else none))

/-- The corrections of the last 60 s, R140: the times `l` that are no older at time `now`. -/
def lastMinute (now : Nat) (l : List Nat) : List Nat := l.filter (fun t => decide (now < t + 60000000))

/-- Adds two error patterns symbol by symbol. -/
def rsXor (a b : List (Nat × Nat)) : List (Nat × Nat) :=
  ((List.range 36).map (fun i =>
    (i, Nat.xor ((a.filter (fun x => x.1 == i)).foldl (fun v x => Nat.xor v x.2) 0)
      ((b.filter (fun x => x.1 == i)).foldl (fun v x => Nat.xor v x.2) 0)))).filter (fun x => decide (x.2 ≠ 0))

/-- Decodes an error pattern: none where the word is uncorrectable, else whether symbols were corrected and the pattern left. -/
def rsDecode (dbl : Bool) (errs : List (Nat × Nat)) : Option (List (Nat × Nat) × List (Nat × Nat)) :=
  let syn := rsSyndromes errs
  if syn.all (fun x => x == 0) then some ([], errs)
  else match rsSingle syn with
    | some c => some ([c], rsXor errs [c])
    | none =>
      if dbl then (rsDoubleErr syn).map (fun c => (c, rsXor errs c)) else none

/-- A word's data bytes with the residual pattern on them. -/
def applyErrs (a : Nat) (m : Memory) (errs : List (Nat × Nat)) : Memory :=
  errs.foldl (fun m x => if x.1 < 32 then m.write (a + x.1) (m.read (a + x.1) ^^^ BitVec.ofNat 8 x.2) else m) m

/-! ### Addresses -/

/-- The stack of a Larder address. -/
def stackOf (a : Nat) : Nat := a / 2 ^ 36

/-- The address is invalid, R132. -/
def badAddr (a : Nat) : Bool := decide (12 ≤ stackOf a) || decide (0xC00000000 ≤ a % 2 ^ 36)

/-- Channel of an address, Table 6-2. -/
def chanOf (a : Nat) : Nat := bits a 10 8

/-- Row of an address. -/
def rowOf (a : Nat) : Nat := bits (a % 2 ^ 36) 35 19

/-- Layer of an address. -/
def layerOf (a : Nat) : Nat := 2 * chanOf a + bit a 18

/-- Bank of an address within its layer: group times 4 plus bank. -/
def bankOf (a : Nat) : Nat := 4 * Nat.xor (bits a 12 11) (bits a 20 19) + Nat.xor (bits a 14 13) (bits a 22 21)

/-- The row's place in a stack: layer, bank and row in one number. -/
def rowKey (a : Nat) : Nat := (layerOf a * 16 + bankOf a) * 2 ^ 17 + rowOf a

/-- The pin of a symbol of codeword `k`, R134. -/
def pinOf (k sym : Nat) : Nat := if sym < 32 then 32 * k + sym else 256 + 4 * k + (sym - 32)

/-! ### Regions -/

/-- First byte of region `n` of a stack. -/
def State.regionBase (s : State) (st n : Nat) : Nat := larderAddr st (s.rd Reg.LR_BASE st n * 2 ^ 20)

/-- Bytes of region `n` of a stack. -/
def State.regionSize (s : State) (st n : Nat) : Nat := s.rd Reg.LR_SIZE st n * 2 ^ 20

/-- The valid region that holds an address, whoever owns it. -/
def State.regionAt (s : State) (a : Nat) : Option Nat :=
  if badAddr a then none
  else (List.range 64).find? (fun n => s.rdB Reg.LR_VALID (stackOf a) n
    && decide (s.regionBase (stackOf a) n ≤ a) && decide (a < s.regionBase (stackOf a) n + s.regionSize (stackOf a) n))

/-- The context that owns an address. -/
def State.larderOwner (s : State) (a : Nat) : Option Nat := (s.regionAt a).map (fun n => s.rd Reg.LR_CTX (stackOf a) n)

/-! ### Reads and writes of stored words -/

/-- The read of one codeword at the arrival point: corrected words are written back (R137) and counted; false where it is
uncorrectable, R136. -/
def State.larderWord (s : State) (a : Nat) : State × Bool :=
  match SMap.find s.lerr (a / 32) with
  | none => (s, true)
  | some errs =>
    let st := stackOf a
    match rsDecode (s.rdB Reg.MEM_ECC2 st) errs with
    | none => (s.count (0x40 + st) 3 1, false)
    | some (corr, rest) =>
      -- the stored bits are another codeword: it reads as its own data
      let s : State := { s with lerr := SMap.del s.lerr (a / 32), larder := applyErrs (a / 32 * 32) s.larder rest }
      if corr.isEmpty then (s, true)
      else
        let k := (a / 32) % 8
        let x := s.stack st
        let note := fun (m : SMap (List Nat)) p => SMap.put m p (s.timeUs :: lastMinute s.timeUs (SMap.get [] m p))
        let pins := corr.foldl (fun m c => note m (chanOf a * 512 + pinOf k c.1)) x.pins
        let s := s.setStack st { x with pins := pins, rows := note x.rows (rowKey a) }
        ((s.count (0x40 + st) 2 1).occur (0x40 + st) 0 none (chanOf a), true)

/-- Reads the codewords of `n` words from word number `w`. -/
def State.larderWords (s : State) (w : Nat) : Nat → State × Bool
  | 0 => (s, true)
  | n + 1 =>
    let r := s.larderWord (32 * w)
    let q := r.1.larderWords (w + 1) n
    (q.1, r.2 && q.2)

/-- Reads `n` granules from granule number `g`; a corrected granule is written back, R137. -/
def State.larderGranules (s : State) (g : Nat) : Nat → State × Bool
  | 0 => (s, true)
  | n + 1 =>
    let r := s.larderWords (8 * g) 8
    let s' := if r.1.lerr.length < s.lerr.length then r.1.count (0x40 + stackOf (256 * g)) 1 1 else r.1
    let q := s'.larderGranules (g + 1) n
    (q.1, r.2 && q.2)

/-- Granules that `n` bytes from `a` touch. -/
def granules (a n : Nat) : Nat := if n = 0 then 0 else (a + n - 1) / 256 - a / 256 + 1

/-- A read of whole granules: the bytes, or none where a codeword is uncorrectable; LARDER_UC is raised with the context. -/
def State.larderGet (s : State) (c : Option Nat) (a n : Nat) : State × Option (List Byte) :=
  let g := granules a n
  let s := s.count (0x40 + stackOf a) 0 g
  let s := c.elim s (fun x => s.count (0x300 + x) 5 g)
  if s.lerr.isEmpty then (s, some (s.larder.readBytes a n))
  else
    let r := s.larderGranules (a / 256) g
    if r.2 then (r.1, some (r.1.larder.readBytes a n))
    else (r.1.raise (0x40 + stackOf a) 1 c (chanOf a), none)

/-- `n` bytes from `a` as a read would return them, nothing read: none where a codeword is uncorrectable. -/
def State.larderSeen (s : State) (a n : Nat) : Option (List Byte) :=
  if s.lerr.isEmpty then some (s.larder.readBytes a n)
  else
    let r := s.larderGranules (a / 256) (granules a n)
    if r.2 then some (r.1.larder.readBytes a n) else none

/-- Bytes stored at the arrival point, whose granules have been read and merged where they are not written whole. -/
def State.larderStore (s : State) (a : Nat) (l : List Byte) : State :=
  let s := s.count (0x40 + stackOf a) 1 (granules a l.length)
  { s with
    larder := s.larder.writeBytes a l
    lerr := s.lerr.filter (fun x => decide (32 * x.1 + 32 ≤ a) || decide (a + l.length ≤ 32 * x.1)) }

/-- The granules that `n` bytes from `a` touch without covering them. -/
def partGranules (a n : Nat) : List Nat :=
  if n = 0 then []
  else
    let g := a / 256
    let h := (a + n - 1) / 256
    (if a % 256 ≠ 0 ∨ a + n < 256 * g + 256 then [g] else []) ++ (if h ≠ g ∧ (a + n) % 256 ≠ 0 then [h] else [])

/-- The read of the granules that a write covers in part, R130; false where one is uncorrectable: LARDER_UC, and the write cannot be
merged (DEDUCED, log entry 14). -/
def State.larderMerge (s : State) (a n : Nat) : State × Bool :=
  (partGranules a n).foldl (fun (x : State × Bool) g =>
    let q := x.1.larderGet (x.1.larderOwner (256 * g)) (256 * g) 256
    (q.1, x.2 && q.2.isSome)) (s, true)

/-- A write served at the arrival point: granules not written whole are read, merged and written, R130. -/
def State.larderPut (s : State) (a : Nat) (l : List Byte) : State :=
  let r := s.larderMerge a l.length
  if r.2 then r.1.larderStore a l else r.1

/-- A write on behalf of a context, counted in its page, R436. -/
def State.larderPutFor (s : State) (c a : Nat) (l : List Byte) : State :=
  (s.count (0x300 + c) 5 (granules a l.length)).larderPut a l

/-! ### Checks -/

/-- The check of R148 and R150 on `n` bytes from `a` by context `c`: kind 0 untagged read, 1 untagged write, 2 tag-checked
read. The answer is the MEM fault bit of a failure: 6 LARDER_RANGE, 7 TAG_WRITE. -/
def State.larderCheck (s : State) (c kind : Nat) : Nat → Nat → Nat → Option Nat
  | 0, _, _ => some 6
  | f + 1, a, n =>
    if n = 0 then none
    else if badAddr a || (s.stack (stackOf a)).out then some 6
    else match s.regionAt a with
      | none => some 6
      | some r =>
        let st := stackOf a
        let tagged := s.rdB Reg.LR_TAGGED st r
        if s.rd Reg.LR_CTX st r ≠ c then some 6
        else if kind = 1 ∧ (tagged ∨ s.rd Reg.LR_WRITE st r = 0) then some 7
        else if kind = 2 ∧ !tagged then some 7
        else if kind = 0 ∧ tagged ∧ s.rd Reg.LR_STATE st r % 2 = 1 then some 7
        else s.larderCheck c kind f (s.regionBase st r + s.regionSize st r)
          (n - (s.regionBase st r + s.regionSize st r - a))

/-- The check of an access, with its fault raised where it fails. An address that names no stack reaches no arrival point. -/
def State.larderOk (s : State) (c kind a n : Nat) : State × Bool :=
  match s.larderCheck c kind 80 a n with
  | none => (s, true)
  | some b =>
    if 12 ≤ stackOf a then (s, false)
    else (s.raise (0x40 + stackOf a) b (some c) (chanOf a), false)

/-! ### Landing, Table 6-5 -/

/-- Tag `a` is newer than `b`. -/
def newer (a b : Nat) : Bool :=
  let d := (a + 2 ^ 32 - b % 2 ^ 32) % 2 ^ 32
  decide (1 ≤ d) && decide (d < 2 ^ 31)

/-- A landing in no progress. -/
def Landing.empty : Landing := ⟨[], 0, false, none, false⟩

/-- The landing of a region, by 64·stack + number. -/
def State.landing (s : State) (k : Nat) : Landing := SMap.get Landing.empty s.lands k

/-- Sets a region's landing. -/
def State.setLanding (s : State) (k : Nat) (x : Landing) : State := { s with lands := SMap.set Landing.empty s.lands k x }

/-- The tagged region that a landing write of context `c` at `a` reaches, with the fault of R148 where it does not. -/
def State.landRegion (s : State) (c a : Nat) : Except Nat Nat :=
  if badAddr a || (s.stack (stackOf a)).out then .error 6
  else match s.regionAt a with
    | none => .error 6
    | some r =>
      let st := stackOf a
      let off := a - s.regionBase st r
      if s.rd Reg.LR_CTX st r ≠ c then .error 6
      else if s.rd Reg.LR_TAGGED st r = 0 then .error 7
      else if off % 65536 ≠ 0 ∨ s.rd Reg.LR_LLEN st r ≤ off / 65536 then .error 6
      else .ok r

/-- Starts a landing with a tag: FILLING, bitmap cleared. -/
def State.landStart (s : State) (st r t : Nat) : State :=
  (((s.wr Reg.LR_STATE st r 1).wr Reg.LR_TAG st r t).wr Reg.LR_CHUNKS st r 0).setLanding (64 * st + r) Landing.empty

/-- Writes a chunk of the landing in progress; the last one lands the region, or holds it for R152. -/
def State.landChunk (s : State) (st r : Nat) (w : LandWrite) : State :=
  let k := 64 * st + r
  let i := (w.addr - s.regionBase st r) / 65536
  let s := s.larderPut w.addr w.data
  let hash := s.rdB Reg.LR_HASH st r
  let dig := s.rd Reg.LR_DIGAREA st r * 256
  let s := if hash then s.larderPut (dig + 32 * i) (sha256 w.data) else s
  let x := s.landing k
  let chunks := if x.chunks.contains i then x.chunks else x.chunks ++ [i]
  let s := (s.setLanding k { x with chunks := chunks }).wr Reg.LR_CHUNKS st r chunks.length
  if chunks.length < s.rd Reg.LR_LLEN st r then s
  else
    let q := if hash then s.larderGet (some w.ctx) dig (32 * s.rd Reg.LR_LLEN st r) else (s, some [])
    let s := q.1
    let d := if hash then leNat (sha256 (q.2.getD [])) else 0
    let sealed_ := s.isSealed (s.partOfStack st)
    -- a digest that cannot be read lands no shard: its context is aborted, R136
    if q.2.isNone then s
    else if hash && sealed_ then s.setLanding k { s.landing k with digest := d, held := true }
    else (s.setLanding k { s.landing k with digest := d }).wr Reg.LR_STATE st r 2

/-- What became of a landing write. -/
inductive Landed where
  | done
  | waits
  /-- refused, with the MEM fault bit -/
  | refused (b : Nat)
  deriving DecidableEq, Repr

/-- A landing write at the arrival point, Table 6-5. A write that waits is not kept here. -/
def State.landWrite (s : State) (w : LandWrite) : State × Landed :=
  match s.landRegion w.ctx w.addr with
  | .error b => (s, .refused b)
  | .ok r =>
    let st := stackOf w.addr
    let page := 0x40 + st
    let state := s.rd Reg.LR_STATE st r
    let tag := s.rd Reg.LR_TAG st r
    let x := s.landing (64 * st + r)
    if state = 0 then ((s.landStart st r w.tag).landChunk st r w, .done)
    else if newer tag w.tag then (s, .refused 8)
    else if state = 2 then
      if tag = w.tag then (s.count page 4 1, .done)
      else if s.rd Reg.LR_READERS st r = 0 then ((s.landStart st r w.tag).landChunk st r w, .done)
      else (s.wr Reg.LR_LWAIT st r 1, .waits)
    else if state = 3 then ((s.landStart st r w.tag).landChunk st r w, .done)
    else if tag = w.tag then (s.landChunk st r w, .done)
    else (((s.landStart st r w.tag).landChunk st r w).count page 4 x.chunks.length, .done)

/-- The regions that `n` bytes from `a` run through, as 64 · stack + number; the count bounds the walk. -/
def State.regionsIn (s : State) : Nat → Nat → Nat → List Nat
  | 0, _, _ => []
  | f + 1, a, n =>
    if n = 0 then []
    else match s.regionAt a with
      | none => []
      | some r =>
        let e := s.regionBase (stackOf a) r + s.regionSize (stackOf a) r
        (64 * stackOf a + r) :: s.regionsIn f e (n - (e - a))

/-- The regions of a list of ranges (address, bytes), each once. -/
def State.regionsOf (s : State) (l : List (Nat × Nat)) : List Nat := (l.flatMap (fun x => s.regionsIn 80 x.1 x.2)).eraseDups

/-- A region is LANDED with the context's step as its tag, and takes one more reader, R149. -/
def State.regionReady (s : State) (c k : Nat) : Bool :=
  s.rd Reg.LR_STATE (k / 64) (k % 64) == 2 && s.rd Reg.LR_TAG (k / 64) (k % 64) == s.rd Reg.CTX_STEP_NUM c
    && decide (s.rd Reg.LR_READERS (k / 64) (k % 64) < 255)

/-- A tag-checked read of context `c` over some ranges may open: every region it reads is LANDED with the context's step as tag,
R38, R149. The answer names the regions. -/
def State.tagReady (s : State) (c : Nat) (l : List (Nat × Nat)) : Option (List Nat) :=
  let rs := s.regionsOf l
  if !rs.isEmpty && rs.all (s.regionReady c) then some rs else none

/-- Opens a tag-checked read of a region. -/
def State.openReader (s : State) (k : Nat) : State := s.addF Reg.LR_READERS (k / 64) (k % 64) 1

/-- Closes a tag-checked read of a region. -/
def State.closeReader (s : State) (k : Nat) : State :=
  s.wr Reg.LR_READERS (k / 64) (k % 64) (s.rd Reg.LR_READERS (k / 64) (k % 64) - 1)

/-- Opens a tag-checked read of some regions. -/
def State.openReaders (s : State) (l : List Nat) : State := l.foldl State.openReader s

/-- Closes a tag-checked read of some regions. -/
def State.closeReaders (s : State) (l : List Nat) : State := l.foldl State.closeReader s

/-- INGEST_MATCH: the security block looks a held landing's shard digest up in the manifest, R152. -/
def State.ingestMatch (s : State) (st r : Nat) : State :=
  let k := 64 * st + r
  let x := s.landing k
  if decide (st < 12) && decide (r < 64) && x.held then
    let s := s.setLanding k { x with held := false }
    let ok := (SMap.find s.sec.sealed (s.partOfStack st)).any (fun i => i.shards.any (fun sh => sh.digest == x.digest && x.shard.all (fun n => sh.no == n)))
    if ok || !s.isSealed (s.partOfStack st) then s.wr Reg.LR_STATE st r 2
    else (s.wr Reg.LR_STATE st r 3).raise (0x40 + st) 9 (some (s.rd Reg.LR_CTX st r)) 0
  else s

/-! ### Errors, refresh, scrub, repair -/

/-- Bits of a stored word flip: the pattern is added to what the word holds. -/
def flipWord (m : SMap (List (Nat × Nat))) (w : Nat) (errs : List (Nat × Nat)) : SMap (List (Nat × Nat)) :=
  SMap.set [] m w (rsXor (SMap.get [] m w) (errs.map (fun x => (x.1 % 36, x.2 % 256))))

/-- LARDER_REFRESH: the interval in force follows the hotter sensor of the stack, R138. -/
def State.larderRefresh (s : State) (st lost : Nat) : State :=
  if 12 ≤ st then s
  else
    let hot := [s.rd Reg.THM_STK_TA 0 st, s.rd Reg.THM_STK_TB 0 st].any (fun t => decide (340 ≤ toSigned 10 t))
    (s.wrB Reg.MEM_HOT st 0 hot).count (0x40 + st) 7 lost

/-- Spares in use of a kind on a stack: pins of a channel, rows of a bank, R139. -/
def State.spareUsed (s : State) (st : Nat) (lane : Bool) (place : Nat) : Nat :=
  ((SMap.get [] s.flash.repairs st ++ (s.stack st).more).filter (fun r => r.lane == lane && r.channel == place)).length

/-- Records a repair in the repair log, at most 512 a stack, R144; one beyond them, or one that flash does not take, holds until the
next cold bring-up. -/
def State.logRepair (s : State) (st : Nat) (r : Repair) : State :=
  let more := SMap.get [] s.flash.repairs st
  if 512 ≤ more.length then s.setStack st { s.stack st with more := (s.stack st).more ++ [r] }
  else
    let t := s.flashWrite (fun s => ({ s with flash := { s.flash with
      repairs := SMap.put s.flash.repairs st (more ++ [r]) } } : State).wr Reg.MEM_REPAIRS st 0 (more.length + 1))
    if (SMap.get [] t.flash.repairs st).length = more.length then t.setStack st { t.stack st with more := (t.stack st).more ++ [r] }
    else t

/-- LANE_REPAIR: a pin of a channel has more corrected symbols in 60 s than LANE_LIM, R140, R142. -/
def State.laneRepair (s : State) (st ch pin : Nat) : State :=
  let x := s.stack st
  if 12 ≤ st ∨ 8 ≤ ch ∨ 288 ≤ pin
      ∨ (lastMinute s.timeUs (SMap.get [] x.pins (ch * 512 + pin))).length ≤ s.rd Reg.MEM_LANE_LIM st then s
  else
    let s := s.setStack st { x with pins := SMap.del x.pins (ch * 512 + pin) }
    let used := s.spareUsed st true ch
    if used < 2 then
      let s := s.logRepair st ⟨true, ch, pin, used⟩
      (s.wr Reg.MEM_LANE_FREE st 0 (s.rd Reg.MEM_LANE_FREE st - 1)).occur (0x40 + st) 2 none ch
    else (s.occur (0x40 + st) 4 none ch).replaceReq (0x40 + st) 4

/-- ROW_REPAIR: the row of an address has more corrections in 60 s than ROW_LIM, or an uncorrectable codeword, R140 to R142.
The copy corrects what can be corrected and keeps the rest as stored. -/
def State.rowRepair (s : State) (a : Nat) : State :=
  let st := stackOf a
  if badAddr a then s
  else
    let rk := rowKey a
    let x := s.stack st
    let mine := s.lerr.filter (fun e => stackOf (32 * e.1) == st && rowKey (32 * e.1) == rk)
    let dbl := s.rdB Reg.MEM_ECC2 st
    let uc := mine.any (fun e => (rsDecode dbl e.2).isNone)
    if (lastMinute s.timeUs (SMap.get [] x.rows rk)).length ≤ s.rd Reg.MEM_ROW_LIM st ∧ !uc then s
    else
      let s := s.setStack st { x with rows := SMap.del x.rows rk }
      let bank := layerOf a * 16 + bankOf a
      let used := s.spareUsed st false bank
      if used < 4 then
        let s := mine.foldl (fun (s : State) e => match rsDecode dbl e.2 with
          | none => s
          | some (_, rest) =>
            { s with lerr := SMap.del s.lerr e.1, larder := applyErrs (32 * e.1) s.larder rest }) s
        let s := s.logRepair st ⟨false, bank, rowOf a, used⟩
        (s.wr Reg.MEM_ROW_FREE st 0 (s.rd Reg.MEM_ROW_FREE st - 1)).occur (0x40 + st) 3 none (chanOf a)
      else (s.occur (0x40 + st) 4 none (chanOf a)).replaceReq (0x40 + st) 4

/-- PATROL_SCRUB of one granule, R139, with the bit flips that the memory has suffered there: a correctable one is corrected; an
uncorrectable one raises LARDER_UC, and is written as zeros where no context owns it. -/
def State.patrolScrub (s : State) (a : Nat) (flips : List (Nat × Nat × Nat)) : State :=
  if badAddr a || (s.stack (stackOf a)).out then s
  else
    let st := stackOf a
    let g := a / 256 * 8
    let s : State := { s with lerr := flips.foldl (fun m f => flipWord m (g + f.1 % 8) [(f.2.1, f.2.2)]) s.lerr }
    let s := s.count (0x40 + st) 6 1
    let r := s.larderGranules (g / 8) 1
    if r.2 then r.1
    else match r.1.larderOwner a with
      | some c => r.1.raise (0x40 + st) 1 (some c) (chanOf a)
      | none => (r.1.larderPut (a / 256 * 256) (List.replicate 256 0)).raise (0x40 + st) 1 none (chanOf a)

/-- LARDER_ACCESS: an untagged access of a context at the arrival point, R130, R131, R148: a read (its bytes stay in the state) or
a write with a byte mask; bits of the granule may have flipped before it. -/
def State.larderAccess (s : State) (c a : Nat) (data : List (Option Byte)) (n : Nat) (flips : List (Nat × Nat × Nat)) : State :=
  let wr := !data.isEmpty
  let len := if wr then data.length else n
  let s : State := { s with lerr := flips.foldl (fun m f => flipWord m (a / 256 * 8 + f.1 % 8) [(f.2.1, f.2.2)]) s.lerr }
  let r := s.larderOk c (if wr then 1 else 0) a len
  if !r.2 then r.1
  else
    -- a write with a mask reads, merges and writes the granules, R130
    let masked := data.any (fun b => b.isNone)
    if wr && !masked then r.1.larderPut a (data.map (fun b => b.getD 0))
    else
      match r.1.larderGet (some c) a len with
      | (s, none) => s
      | (s, some old) => if wr then s.larderStore a (List.zipWith (fun b (o : Byte) => b.getD o) data old) else s

/-- A stack goes out of service, R143: CHANNEL_DOWN with the channel; its contexts are aborted by the reaction. -/
def State.channelDown (s : State) (st ch : Nat) : State :=
  if 12 ≤ st ∨ 8 ≤ ch then s
  else
    let s := s.wr Reg.MEM_CH_UP st 0 (clrBit (s.rd Reg.MEM_CH_UP st) ch)
    if (s.stack st).out then s
    else (s.setStack st { s.stack st with out := true }).raise (0x40 + st) 5 none ch

/-- The contexts with a region on a stack. -/
def State.ctxsOnStack (s : State) (st : Nat) : List Nat :=
  ((List.range 64).filterMap (fun n => if s.rdB Reg.LR_VALID st n then some (s.rd Reg.LR_CTX st n) else none)).eraseDups

/-- Every region of a stack loses what has landed, as its memory is zeroed, R145. -/
def State.clearLandings (s : State) (st : Nat) : State :=
  let s := (List.range 64).foldl (fun s n =>
    ((((s.wr Reg.LR_STATE st n 0).wr Reg.LR_READERS st n 0).wr Reg.LR_LWAIT st n 0).wr Reg.LR_TAG st n 0).wr
      Reg.LR_CHUNKS st n 0) s
  { s with
    lands := SMap.clear s.lands (64 * st) (64 * st + 64)
    landQ := s.landQ.filter (fun w => stackOf w.addr != st)
    lerr := SMap.clear s.lerr (st * 2 ^ 31) ((st + 1) * 2 ^ 31) }

end Sys2Proof.Machine
end

