-- ==== Sys2Proof/Machine/Press.lean ====
section
/-! DEFINITION. Pantry reads and writes (R105 to R108) and the Press: command descriptors and their checks (R44, R48, R107, R115),
exact and ordered accumulation (R53 to R62), drain and export (R54, R57, R59, R65), and completion (R68). -/

namespace Sys2Proof.Machine

open Sys2Proof

/-! ### Pantry -/

/-- The register page of a physical tile. -/
def tilePage (t : Nat) : Nat := 0x100 + t

/-- First and one-past-last Pantry byte of a slot's allocation. -/
def State.allocOf (s : State) (t n : Nat) : Nat × Nat :=
  (s.rd Reg.PN_BASE t n * 2 ^ 18, (s.rd Reg.PN_BASE t n + s.rd Reg.PN_SIZE t n) * 2 ^ 18)

/-- First and one-past-last byte of a slot's moving-operand ring. -/
def State.ringOf (s : State) (t n : Nat) : Nat × Nat :=
  ((s.rd Reg.PN_BASE t n + s.rd Reg.PN_ACT t n) * 2 ^ 18,
   (s.rd Reg.PN_BASE t n + s.rd Reg.PN_ACT t n + s.rd Reg.PN_RING t n) * 2 ^ 18)

/-- `n` bytes from `a` lie in a slot's allocation. -/
def State.inAlloc (s : State) (t slot a n : Nat) : Bool :=
  decide ((s.allocOf t slot).1 ≤ a) && decide (a + n ≤ (s.allocOf t slot).2)

/-- The context that owns a Pantry byte. -/
def State.pantryOwner (s : State) (t a : Nat) : Option Nat :=
  ((List.range 16).find? (fun n => s.rdB Reg.CS_VALID t n && s.inAlloc t n a 1)).map (fun n => s.rd Reg.CS_CTX t n)

/-- The address `i` bytes past `a`, wrapping within a slot's ring where `a` lies in it, R107. -/
def State.ringAt (s : State) (t slot a i : Nat) : Nat :=
  let r := s.ringOf t slot
  if r.1 ≤ a ∧ a < r.2 then r.1 + (a - r.1 + i) % (r.2 - r.1) else a + i

/-- `n` addresses from `a`, wrapping so. -/
def State.ringAddrs (s : State) (t slot a n : Nat) : List Nat := (List.range n).map (s.ringAt t slot a)

/-- The read of one Pantry word, R108: a correctable error is corrected and written back; false where it is uncorrectable. -/
def State.pantryWord (s : State) (t w : Nat) : State × Bool :=
  match SMap.find s.perr w with
  | none => (s, true)
  | some errs =>
    match rsDecode false errs with
    | none => (s, false)
    | some (corr, rest) =>
      -- stored bits that are another codeword read as its own data
      let s : State := { s with perr := SMap.del s.perr w, pantry := applyErrs (32 * w) s.pantry rest }
      if corr.isEmpty then (s, true) else (s.raise (tilePage t) 0 none 0, true)

/-- A read of Pantry bytes by address list: none where a word is uncorrectable, PANTRY_UC aborting the owner of the unit. -/
def State.pantryGetL (s : State) (t : Nat) (as : List Nat) : State × Option (List Byte) :=
  if s.perr.isEmpty then (s, some (as.map (fun a => s.pantry.read (pantryAddr t a))))
  else
    let ws := (as.map (fun a => pantryAddr t a / 32)).eraseDups
    let r := ws.foldl (fun (x : State × Bool) w => let q := x.1.pantryWord t w; (q.1, x.2 && q.2)) (s, true)
    if r.2 then (r.1, some (as.map (fun a => r.1.pantry.read (pantryAddr t a))))
    else (r.1.raise (tilePage t) 1 (s.pantryOwner t (as.headD 0)) 0, none)

/-- A read of `n` Pantry bytes from `a`. -/
def State.pantryGet (s : State) (t a n : Nat) : State × Option (List Byte) :=
  if s.perr.isEmpty then (s, some (s.pantry.readBytes (pantryAddr t a) n))
  else s.pantryGetL t ((List.range n).map (fun i => a + i))

/-- A write of Pantry bytes from `a`. -/
def State.pantryPut (s : State) (t a : Nat) (l : List Byte) : State :=
  { s with
    pantry := s.pantry.writeBytes (pantryAddr t a) l
    perr := s.perr.filter (fun x => decide (32 * x.1 + 32 ≤ pantryAddr t a) || decide (pantryAddr t a + l.length ≤ 32 * x.1)) }

/-- The `n` addresses `off` bytes past `a` and on, wrapping in the slot's ring where `a` lies in it. -/
def State.ringSpan (s : State) (t slot a off n : Nat) : List Nat := (List.range n).map (fun i => s.ringAt t slot a (off + i))

/-- A write `off` bytes past `a` that wraps so. -/
def State.pantryPutRing (s : State) (t slot a off : Nat) (l : List Byte) : State :=
  ((s.ringSpan t slot a off l.length).zip l).foldl (fun s x => s.pantryPut t x.1 [x.2]) s

/-- PANTRY_SCRUB of the word that holds `a`, with the bit flips it has suffered, R109. -/
def State.pantryScrub (s : State) (t a : Nat) (flips : List (Nat × Nat)) : State :=
  if 176 ≤ t ∨ 12 * 2 ^ 20 ≤ a ∨ !s.powered (tilePage t) then s
  else
    let w := pantryAddr t a / 32
    let s : State := { s with perr := if flips.isEmpty then s.perr else flipWord s.perr w flips }
    let r := s.pantryWord t w
    if r.2 then r.1
    else match r.1.pantryOwner t a with
      | some c => r.1.raise (tilePage t) 1 (some c) 0
      | none => (r.1.pantryPut t (a / 32 * 32) (List.replicate 32 0)).raise (tilePage t) 1 none 0

/-! ### Descriptors -/

/-- Bits of word `i` of a descriptor. -/
def wfield (ws : List Nat) (i hi lo : Nat) : Nat := bits (ws.getD i 0) hi lo

/-- The `n` little-endian words of a descriptor. -/
def toWords : Nat → List Byte → List Nat
  | 0, _ => []
  | n + 1, l => leNat (l.take 4) :: toWords n (l.drop 4)

/-- Every reserved bit of a Press descriptor is 0, Table 3-4. -/
def pxReservedOk (w : List Nat) : Bool :=
  wfield w 0 31 23 == 0 && wfield w 1 15 11 == 0 && wfield w 2 31 19 == 0 && wfield w 10 31 16 == 0
    && (w.drop 12).all (fun x => x == 0)

/-- The command runs as three BF16 sub-passes. -/
def pxSplit (w : List Nat) : Bool := wfield w 0 16 16 == 1

/-- The lane of a command's pass; SPLIT3 runs in W. -/
def PxCmd.lane (c : PxCmd) : Nat := if pxSplit c.words then 0 else passLane c.sFmt c.mFmt

/-- Bytes of a moving vector, Table 5-9. -/
def vecBytes (split mx : Bool) (f : Fmt) : Nat :=
  if split then 256 else 16 * f.width + (if mx then 128 / f.blockSize else 0)

/-- Bytes of a moving vector of a command. -/
def PxCmd.vb (c : PxCmd) : Nat := vecBytes (pxSplit c.words) (wfield c.words 0 14 14 == 1) c.mFmt

/-- Vectors that a command takes, R118. -/
def PxCmd.demand (c : PxCmd) : Nat :=
  wfield c.words 1 31 16 * wfield c.words 2 8 0 * (if pxSplit c.words then 3 else 1)

/-- A converted output is written. -/
def pxConverts (w : List Nat) : Bool := wfield w 0 18 18 == 1 && wfield w 0 19 19 == 0

/-- The command's accumulators are exact: EXACT mode, or lane I8, which ignores MODE. -/
def PxCmd.exact (c : PxCmd) : Bool := wfield c.words 0 15 15 == 1 || c.lane == 2

/-- The anchor in force: fixed at 96 in lane I8. -/
def PxCmd.anchor (c : PxCmd) : Int := if c.lane = 2 then 96 else toSigned 11 (wfield c.words 1 10 0)

/-- A format and its MX bit do not go together, R48. -/
def mxMismatch (f : Fmt) (mx : Bool) : Bool := (f.scale == 1 && !mx) || (f.scale == 0 && mx)

/-- Bytes of one slice of stationary scales, rounded to 256 B units. -/
def PxCmd.scaleStride (c : PxCmd) : Nat := (128 * packing c.lane * 128 + c.sFmt.blockSize * 256 - 1) / (c.sFmt.blockSize * 256) * 256

/-- Bytes of one stationary slice: 32 KiB, and 64 KiB for the FP32 rows of SPLIT3, which 32 KiB does not hold (DESIGN CHOICE, log
entry 11: the spec states the stride for the other formats only). -/
def PxCmd.sliceBytes (c : PxCmd) : Nat := if pxSplit c.words then 65536 else 32768

/-- Bytes that the command writes at O_ADDR: converted rows with their scales, or the export of R59 and R61. -/
def PxCmd.outBytes (c : PxCmd) : Nat :=
  let w := c.words
  let n := wfield w 2 8 0 * wfield w 2 18 9
  if wfield w 0 18 18 = 0 then 0
  else if wfield w 0 19 19 = 1 then
    (if c.exact then 32 + 16 * n + (n + 3) / 4 else 32 + 4 * n)
  else (n * c.oFmt.width + 7) / 8
    + (if wfield w 0 22 22 = 1 then wfield w 2 18 9 * ((wfield w 2 8 0 + c.oFmt.blockSize - 1) / c.oFmt.blockSize) else 0)

/-- The command is refused, R48, R107, R115. -/
def State.pxRefused (s : State) (t slot : Nat) (prev : Option PxPrev) (c : PxCmd) : Bool :=
  let w := c.words
  let split := pxSplit w
  let mxS := wfield w 0 13 13 == 1
  let mxM := wfield w 0 14 14 == 1
  let k := wfield w 1 31 16
  let nout := wfield w 2 8 0
  let rows := wfield w 2 18 9
  let lane := c.lane
  let sa := wfield w 3 15 0 * 256
  let ring := s.ringOf t slot
  let ma := wfield w 4 15 0 * 256
  !pxReservedOk w
    || (!split && (!c.sFmt.valid || !c.mFmt.valid || mxMismatch c.sFmt mxS || mxMismatch c.mFmt mxM))
    || (pxConverts w && (!c.oFmt.valid || mxMismatch c.oFmt (wfield w 0 22 22 == 1)))
    || (split && (mxS || mxM))
    || k == 0 || nout == 0 || rows == 0 || decide (stripWidth lane < nout) || decide (128 * packing lane < rows)
    || !s.inAlloc t slot sa (k * c.sliceBytes)
    || (!split && mxS && !s.inAlloc t slot (wfield w 3 31 16 * 256) (k * c.scaleStride))
    || (wfield w 0 12 12 == 1 && !(decide (ring.1 ≤ ma) && decide (ma < ring.2)))
    || (wfield w 0 18 18 == 1 && !s.inAlloc t slot (wfield w 4 31 16 * 256) c.outBytes)
    || (wfield w 0 12 12 == 0 && !((s.logicalOf t).bind s.groupOf).any (fun g => s.rdB Reg.CFG_SGM_MEN 0 g))
    || (wfield w 0 17 17 == 1 && match prev with
      | none => true
      | some p => p.drain == 1 || p.mode != wfield w 0 15 15 || p.anchor != wfield w 1 10 0 || p.lane != lane
          || p.nout != nout)

/-- Cycles from a command's acceptance until its last vector has entered: the first load, its vectors, and the idle cycles between
slices of fewer than 64 columns, R46. -/
def PxCmd.entry (c : PxCmd) : Nat :=
  64 + c.demand
    + (wfield c.words 1 31 16 * (if pxSplit c.words then 3 else 1) - 1) * (64 - wfield c.words 2 8 0)

/-- The moving operand lies in Pantry; else Mangle delivers it. -/
def PxCmd.fromRing (c : PxCmd) : Bool := wfield c.words 0 12 12 == 1

/-- Every vector of a command has entered the array. -/
def PxCmd.entered (c : PxCmd) : Bool := decide (c.entry ≤ c.ran)

/-- The cycle beyond which a command cannot run for want of a vector; none where it has them all. -/
def PxCmd.starved (c : PxCmd) : Option Nat :=
  if c.fromRing || decide (c.demand ≤ c.got.length) then none else some (64 + c.got.length)

/-- A command in the queue before `c` still has to drain `c`'s bank half, R47. -/
def PxCmd.halfBusy (c : PxCmd) (before : List PxCmd) : Bool :=
  before.any (fun q => q.half == c.half && wfield q.words 0 18 18 == 1)

/-- The cycle beyond which a command cannot run: its first load where its bank half is still to be drained, or the vectors it has. -/
def PxCmd.limit (c : PxCmd) (before : List PxCmd) : Option Nat := if c.halfBusy before then some 64 else c.starved

/-- `n` CCLK cycles pass for the commands of a queue after `before`: one enters the array at a time, and the next only once the one
before it has entered whole. Beside the queue, the cycles in which the command that enters waited, R47. -/
def pxRun : Nat → List PxCmd → List PxCmd → List PxCmd × Nat
  | _, _, [] => ([], 0)
  | n, before, c :: r =>
    let go := match c.limit before with
      | some l => min n (l - c.ran)
      | none => n
    let c' := { c with ran := c.ran + go }
    if c'.entered then
      let q := pxRun (n - min (c.entry - c.ran) n) (before ++ [c]) r
      (c' :: q.1, q.2)
    else (c' :: r, n - go)

/-- The first command of a queue that has not entered whole, with those before it. -/
def pxEntering : List PxCmd → List PxCmd → Option (PxCmd × List PxCmd)
  | _, [] => none
  | before, c :: r => if c.entered then pxEntering (before ++ [c]) r else some (c, before)

/-- A command waits for a moving vector, or for its bank half. -/
def pxStalls (l : List PxCmd) : Bool × Bool :=
  match pxEntering [] l with
  | none => (false, false)
  | some (c, before) =>
    if c.halfBusy before then (false, decide (64 ≤ c.ran))
    else (c.starved.any (fun m => decide (m ≤ c.ran)), false)

/-- A stationary load is in progress, Table 3-2: the first of a command, or that of the next slice behind the wavefront of one that has
begun, which the model lets last the 64 cycles of a load (DESIGN CHOICE, log entry 10). -/
def PxCmd.loading (c : PxCmd) : Bool :=
  let per := max 64 (wfield c.words 2 8 0)
  decide (c.ran < 64) ||
    (decide ((c.ran - 64) / per + 1 < wfield c.words 1 31 16) && decide ((c.ran - 64) % per < 64))

/-- Vectors of a command are in the array: until row 127 of the last one has been added, 254 cycles after it entered. -/
def PxCmd.streams (c : PxCmd) : Bool :=
  decide (64 ≤ c.ran) && decide (c.ran < c.entry + 254) && (c.fromRing || !c.got.isEmpty)

/-- PX_STAT follows the queue, Tables 3-2 and 3-12. -/
def State.pxShow (s : State) (t : Nat) : State :=
  let l := (s.tile t).press
  let s := (s.wr Reg.PX_STAT_CMDQ t 0 (min 2 (l.filter (fun c => !c.entered)).length)).wrB Reg.PX_STAT_LOADING t 0
    ((pxEntering [] l).any (fun x => x.1.loading))
  let s := (s.wrB Reg.PX_STAT_STREAMING t 0 (l.any PxCmd.streams)).wrB Reg.PX_STAT_DRAINING t 0
    (l.any (fun c => wfield c.words 0 18 18 == 1 && decide (c.entry + 254 ≤ c.ran)))
  (s.wrB Reg.PX_STAT_STALL_MOVE t 0 (pxStalls l).1).wrB Reg.PX_STAT_STALL_DRAIN t 0 (pxStalls l).2

/-- Sets the flags of a command in PX_LAST and PX_FLAGS, and counts it, R68. -/
def State.pxReport (s : State) (t flags peak breached nans : Nat) : State :=
  let s := (s.wr Reg.PX_LAST_FLAGS t 0 flags).addF Reg.PX_CMD_SERIAL t 0 1
  let s := ((s.wr Reg.PX_PEAK_EXP t 0 peak).wr Reg.PX_BREACH_N t 0 (min 0xFFFF breached)).wr Reg.PX_NAN_N t 0 (min 0xFFFF nans)
  let s := if bit flags 0 = 1 then s.wr Reg.PX_FLAGS_BREACH t 0 1 else s
  let s := if bit flags 1 = 1 then s.wr Reg.PX_FLAGS_INEXACT t 0 1 else s
  let s := if bit flags 2 = 1 then s.wr Reg.PX_FLAGS_NAN_SEEN t 0 1 else s
  let s := if bit flags 3 = 1 then s.wr Reg.PX_FLAGS_SAT_OUT t 0 1 else s
  let s := if bit flags 4 = 1 then s.wr Reg.PX_FLAGS_SCALE_NAN t 0 1 else s
  if bit flags 5 = 1 then s.wr Reg.PX_FLAGS_DESC_ERR t 0 1 else s

/-! ### Products and sums -/

/-- An FP32 value split for SPLIT3, R62: the high and the low part. -/
def splitHiLo (v : Val) : Val × Val :=
  match v with
  | .nan => (.nan, .fin false 0 0)
  | .inf n => (.inf n, .fin false 0 0)
  | .fin _ _ _ =>
    let hi := fmtBf16.decode (fmtBf16.encode 1 0 v).1
    (hi, fmtBf16.decode (fmtBf16.encode 1 0 (v.sub hi)).1)

/-- The value is finite. -/
def Val.isFin : Val → Bool
  | .fin _ _ _ => true
  | _ => false

/-- The sum of a row as it grows: accumulator, flags of the command, exponent of the largest product. -/
structure PxSum where
  acc   : Acc
  flags : Nat
  peak  : Option Int
  deriving DecidableEq, Repr

/-- The largest product exponent so far with one more product. An infinite product has no exponent and is left out, so 0x400 also
stands where every unmasked product was infinite or NaN (DESIGN CHOICE, log entry 11). -/
def peakWith (p : Option Int) (v : Val) : Option Int :=
  match v with
  | .fin _ m e => if m = 0 then p else some (p.elim (floorLog2 m e) (fun x => Max.max x (floorLog2 m e)))
  | _ => p

/-- The marks of an element combined, R58 and R60: NaN, or infinities of both signs, give NaN. -/
def joinMarks (a b : Nat) : Nat :=
  let m := Nat.lor a b
  if bit m 3 = 1 ∨ (bit m 1 = 1 ∧ bit m 2 = 1) then 8 else m

/-- A 128-bit two's complement sum. -/
def wrap128 (i : Int) : Int := toSigned 128 (ofSigned 128 i)

/-- One product into an EXACT sum with anchor `a`, R55 and R58. -/
def exactStep (a : Int) (x : PxSum) (v : Val) : PxSum :=
  let pk := peakWith x.peak v
  match v with
  | .nan => ⟨{ x.acc with marks := joinMarks x.acc.marks 8 }, Nat.lor x.flags 4, pk⟩
  | .inf n =>
    let m := joinMarks x.acc.marks (if n then 4 else 2)
    ⟨{ x.acc with marks := m }, if m = 8 then Nat.lor x.flags 4 else x.flags, pk⟩
  | .fin n m e =>
    if m = 0 then x
    else if a ≤ floorLog2 m e then ⟨{ x.acc with marks := joinMarks x.acc.marks 1 }, Nat.lor x.flags 1, pk⟩
    else
      let q := truncTo n m e (a - 96)
      ⟨{ x.acc with q := wrap128 (x.acc.q + q.1) }, if q.2 then Nat.lor x.flags 2 else x.flags, pk⟩

/-- One product into an ORDERED row chain, R61. -/
def orderedStep (x : Nat × Option Int) (v : Val) : Nat × Option Int :=
  (fadd x.1 (toF32 v), peakWith x.2 v)

/-- The stationary row `r` of slice `j`, as 128 values; the read of its bytes is by `mem`. -/
def statRow (mem : Nat → Nat → List Byte) (c : PxCmd) (j r : Nat) : List Val :=
  let a := wfield c.words 3 15 0 * 256 + j * c.sliceBytes
  if pxSplit c.words then (unpackElems 32 128 (leNat (mem (a + 512 * r) 512))).map f32
  else
    let w := c.sFmt.width
    (unpackElems w 128 (leNat (mem (a + 16 * w * r) (16 * w)))).map c.sFmt.decode

/-- The scale bytes of stationary row `r` of slice `j`. -/
def statScales (mem : Nat → Nat → List Byte) (c : PxCmd) (j r : Nat) : List Nat :=
  if wfield c.words 0 13 13 = 0 ∨ pxSplit c.words then []
  else
    let n := 128 / c.sFmt.blockSize
    (mem (wfield c.words 3 31 16 * 256 + j * c.scaleStride + r * n) n).map (fun b => b.toNat)

/-- The 128 values of a moving vector. -/
def movVals (c : PxCmd) (v : List Byte) : List Val :=
  if pxSplit c.words then (unpackElems 16 128 (leNat v)).map fmtBf16.decode
  else (unpackElems c.mFmt.width 128 (leNat v)).map c.mFmt.decode

/-- The scale bytes of a moving vector. -/
def movScales (c : PxCmd) (v : List Byte) : List Nat :=
  if wfield c.words 0 14 14 = 0 ∨ pxSplit c.words then []
  else (v.drop (16 * c.mFmt.width)).map (fun b => b.toNat)

/-- The scale byte of element `i` among scale bytes of blocks of `b`; 127, which stands for 1, without scales. -/
def scaleAt (l : List Nat) (b i : Nat) : Nat := if l.isEmpty then 127 else l.getD (i / b) 127

/-- The products of a row and a vector, R53. -/
def rowProducts (c : PxCmd) (sv : List Val) (ss : List Nat) (mv : List Val) (ms : List Nat) : List Val :=
  (List.range 128).map (fun i =>
    match e8m0 (scaleAt ss c.sFmt.blockSize i), e8m0 (scaleAt ms c.mFmt.blockSize i) with
    | some x, some y => ((sv.getD i .nan).mul (mv.getD i .nan)).scale (x + y)
    | _, _ => .nan)

/-- The products of the three sub-passes of one slice of SPLIT3, R62. An operand that is no finite value gives one product of the
whole operands; a moving FP32 operand reaches the Press as its two BF16 parts, so one whose parts are both 0 counts as 0 there, and
NaN results beside an infinite stationary operand (DESIGN CHOICE, log entry 11). -/
def splitProducts (sv : List Val) (bhi blo : List Val) : List (List Val) :=
  let ps := (List.range 128).map (fun i =>
    let a := sv.getD i .nan
    let h := bhi.getD i .nan
    let l := blo.getD i .nan
    if a.isFin && h.isFin then
      ((splitHiLo a).1.mul h, (splitHiLo a).1.mul l, (splitHiLo a).2.mul h)
    else (a.mul (if h.isFin then h.add l else h), .fin false 0 0, .fin false 0 0))
  [ps.map (fun p => p.1), ps.map (fun p => p.2.1), ps.map (fun p => p.2.2)]

/-- The passes over one output element: for each slice, in order, the products of each pass. -/
def elementPasses (mem : Nat → Nat → List Byte) (vec : Nat → List Byte) (c : PxCmd) (r n : Nat) : List (List Val) :=
  let nout := wfield c.words 2 8 0
  (List.range (wfield c.words 1 31 16)).flatMap (fun j =>
    if pxSplit c.words then
      splitProducts (statRow mem c j r) (movVals c (vec (3 * j * nout + n))) (movVals c (vec ((3 * j + 1) * nout + n)))
    else
      let v := vec (j * nout + n)
      [rowProducts c (statRow mem c j r) (statScales mem c j r) (movVals c v) (movScales c v)])

/-- One output element of a command: its accumulator from `old`, flags and peak. -/
def pxElement (mem : Nat → Nat → List Byte) (vec : Nat → List Byte) (c : PxCmd) (old : Acc) (r n : Nat) : PxSum :=
  let ps := elementPasses mem vec c r n
  if c.exact then ps.foldl (fun x l => l.foldl (exactStep c.anchor) x) ⟨old, 0, none⟩
  else
    let z := ps.foldl (fun (x : Nat × Option Int) l =>
      let q := l.foldl orderedStep (0, x.2)
      (fadd x.1 q.1, q.2)) (old.q.toNat, none)
    ⟨⟨z.1, 0⟩, if (f32 z.1).isNan then 4 else 0, z.2⟩

/-- The value of an accumulator and whether it counts as breached at drain, R55. -/
def accValue (exact : Bool) (a : Int) (x : Acc) : Val × Bool :=
  if !exact then (f32 x.q.toNat, false)
  else if bit x.marks 3 = 1 then (.nan, false)
  else if bit x.marks 1 = 1 then (.inf false, false)
  else if bit x.marks 2 = 1 then (.inf true, false)
  else if x.marks = 1 ∨ (x.q ≠ 0 ∧ a ≤ floorLog2 x.q.natAbs (a - 96)) then (.nan, true)
  else (.fin (decide (x.q < 0)) x.q.natAbs (a - 96), false)

/-- An EXACT element at drain: marked breached where |V| is 2^A or more, R55. -/
def drainMark (a : Int) (x : Acc) : Acc := if (accValue true a x).2 then ⟨0, 1⟩ else x

/-- The two-bit state of an exported element, R59. -/
def exportState (x : Acc) : Nat :=
  if bit x.marks 3 = 1 then 3 else if bit x.marks 1 = 1 ∨ bit x.marks 2 = 1 then 2 else if x.marks = 0 then 0 else 1

/-- The exported Q of an element, R59. -/
def exportQ (x : Acc) : Nat :=
  match exportState x with
  | 0 => ofSigned 128 x.q
  | 2 => if bit x.marks 1 = 1 then 1 else 2 ^ 128 - 1
  | _ => 0

/-- The bytes of an export: header, accumulators, states as the elements carry them, R59 and R61. -/
def exportBytes (exact : Bool) (anchor : Int) (flags : Nat) (l : List Acc) : List Byte :=
  let h := (if exact then ofSigned 11 anchor else 0) + 2 ^ 16 * bit flags 0 + 2 ^ 17 * bit flags 1 + 2 ^ 18 * bit flags 2
  leBytes 4 h ++ List.replicate 28 0
    ++ (if exact then l.flatMap (fun x => leBytes 16 (exportQ x)) ++ packBytes 2 (l.map exportState)
        else l.flatMap (fun x => leBytes 4 x.q.toNat))

/-- One converted row: bytes of elements as codes, scale bytes, flags and NaN count. Breached elements take the canonical NaN or
the most negative finite value, R57; `idx` gives an element's generator bits. -/
def drainRow (c : PxCmd) (a : Int) (u : Nat → Nat) (row : List Acc) : List Nat × List Nat × Nat :=
  let f := c.oFmt
  let w := c.words
  let pts := ((f32 (w.getD 5 0)).mul (f32 (w.getD 6 0))).mul (f32 (w.getD 7 0))
  let vs := row.mapIdx (fun i x => let v := accValue c.exact a x; ((if v.2 then Val.nan else v.1.mul pts, u i), v.2))
  let q := f.convertRow (wfield w 0 22 22 == 1) (wfield w 0 21 20) (vs.map Prod.fst)
  if wfield w 0 22 22 = 1 then q
  else
    let codes := (q.1.zip vs).map (fun x => if x.2.2 then f.canonNan.getD (f.saturated true) else x.1)
    -- a breached element's NaN is no NaN result of the sum
    let fl := (vs.filter (fun x => !x.2)).foldl (fun b x => Nat.lor b (f.encode (wfield w 0 21 20) x.1.2 x.1.1).2) 0
    (codes, q.2.1, fl)

/-- What a command does when its drain ends: the new half of the bank, the bytes written at O_ADDR, its flags, PEAK_EXP, breached
and NaN elements. -/
structure PxResult where
  bank  : SMap Acc
  out   : List Byte
  flags : Nat
  inex  : Bool
  peak  : Nat
  breached : Nat
  nans  : Nat
  deriving DecidableEq, Repr

/-- A scale byte 0xFF was read by an unmasked product, R53. -/
def readsNanScale (mem : Nat → Nat → List Byte) (vec : Nat → List Byte) (c : PxCmd) : Bool :=
  let k := wfield c.words 1 31 16
  (List.range k).any (fun j => (List.range (wfield c.words 2 18 9)).any (fun r => (statScales mem c j r).contains 255))
    || (List.range (k * wfield c.words 2 8 0)).any (fun v => (movScales c (vec v)).contains 255)

/-- Runs a command: `mem` reads the Pantry, `vec` the moving vectors, `old` the accumulators of its half, `gen` the generator. The
scale bytes of an MX output follow the elements of all rows, row by row (DESIGN CHOICE, log entry 11: R65 places the elements
only). -/
def PxCmd.run (c : PxCmd) (mem : Nat → Nat → List Byte) (vec : Nat → List Byte) (old : SMap Acc) (oldInex : Bool) (gen : Gen) :
    PxResult :=
  let w := c.words
  let nout := wfield w 2 8 0
  let rows := wfield w 2 18 9
  let a := c.anchor
  let accIn := wfield w 0 17 17 == 1
  let start := fun i => if accIn then SMap.get Acc.zero old i else Acc.zero
  let sums := (List.range rows).map (fun r => (List.range nout).map (fun n => pxElement mem vec c (start (r * nout + n)) r n))
  let accs := sums.map (fun l => l.map (fun x => x.acc))
  let flags := sums.foldl (fun b l => l.foldl (fun b x => Nat.lor b x.flags) b) 0
  let flags := if readsNanScale mem vec c then Nat.lor flags 16 else flags
  let peak := sums.foldl (fun p l => l.foldl (fun p x => match p, x.peak with
    | none, y => y
    | x, none => x
    | some x, some y => some (Max.max x y)) p) none
  let flat := accs.flatten
  let inex := bit flags 1 == 1 || (accIn && oldInex)
  let drained := wfield w 0 18 18 == 1
  let late := if drained && c.exact && flat.any (fun x => (accValue true a x).2) then 1 else 0
  let nans := (flat.filter (fun x => (accValue c.exact a x).1.isNan && !(accValue c.exact a x).2)).length
  let breached := if c.exact then (flat.filter (fun x => if drained then (accValue true a x).2 else x.marks == 1)).length else 0
  let flags := Nat.lor (Nat.lor flags late) (if nans = 0 then 0 else 4)
  let base := w.getD 9 0 + 2 ^ 32 * wfield w 10 15 0
  let stride := w.getD 11 0
  let conv := accs.mapIdx (fun r l => drainRow c a (fun n => gen.bits (base + r * stride + n)) l)
  let out :=
    if !drained then []
    else if wfield w 0 19 19 = 1 then
      exportBytes c.exact a (Nat.lor flags (if inex then 2 else 0)) (if c.exact then flat.map (drainMark a) else flat)
    else packBytes c.oFmt.width (conv.flatMap (fun x => x.1)) ++ conv.flatMap (fun x => x.2.1.map (fun b => BitVec.ofNat 8 b))
  let flags := if pxConverts w then Nat.lor flags (conv.foldl (fun b x => Nat.lor b x.2.2) 0) else flags
  { bank := (flat.mapIdx (fun i x => (i, x))).filter (fun x => decide (x.2 ≠ Acc.zero))
    out := out, flags := flags, inex := inex
    peak := match peak with | none => 0x400 | some p => ofSigned 11 p
    breached := breached, nans := nans }

/-- The tile runs: it is on, unfenced, and CCLK is not stopped, R376. -/
def State.tileRuns (s : State) (t : Nat) : Bool :=
  decide (t < 176) && s.powered (tilePage t) && s.rd Reg.FLT_HALTED == 0 && !s.isFenced (tilePage t) 0

/-- PRESS_COMMAND_COMPLETE: the drain of the oldest command of a tile ends, R68. A command fed from Mangle ends only once all its
vectors have come. -/
def State.pressComplete (s : State) (t : Nat) : State :=
  let x := s.tile t
  match x.press with
  | [] => s
  | c :: rest =>
    let w := c.words
    let local_ := c.fromRing
    if !s.tileRuns t || (!local_ && decide (c.got.length < c.demand)) then s
    else
      let slot := (s.slotOf t c.ctx).getD 0
      -- errors of the words read are looked at first: stationary data, scales and ring
      let k := wfield w 1 31 16
      let r1 := s.pantryGet t (wfield w 3 15 0 * 256) (if s.perr.isEmpty then 0 else k * c.sliceBytes)
      let scaled := wfield w 0 13 13 == 1 && !pxSplit w
      let r2 := r1.1.pantryGet t (wfield w 3 31 16 * 256) (if r1.1.perr.isEmpty || !scaled then 0 else k * c.scaleStride)
      let r3 := r2.1.pantryGetL t (if r2.1.perr.isEmpty ∨ !local_ then []
        else s.ringAddrs t slot (wfield w 4 15 0 * 256) (c.demand * c.vb))
      match r1.2, r2.2, r3.2 with
      | some _, some _, some _ =>
        let s := r3.1
        let mem := fun a n => s.pantry.readBytes (pantryAddr t a) n
        let vec := fun v =>
          if local_ then (List.range c.vb).map (fun i =>
            s.pantry.read (pantryAddr t (s.ringAt t slot (wfield w 4 15 0 * 256) (v * c.vb + i))))
          else c.got.getD v []
        let bank := if c.half = 0 then x.bankX else x.bankY
        let g := s.gen c.ctx (s.rd Reg.CTX_STEP_NUM c.ctx) (wfield w 8 15 0) (wfield w 8 31 16)
        let r := c.run mem vec bank (bit x.inex c.half == 1) g
        let y := { s.tile t with press := rest, inex := if r.inex then setBit x.inex c.half else clrBit x.inex c.half }
        let y := if c.half = 0 then { y with bankX := r.bank } else { y with bankY := r.bank }
        let s := (s.setTile t y).pantryPut t (wfield w 4 31 16 * 256) r.out
        let s := s.pxReport t r.flags r.peak r.breached r.nans
        (((s.progress (tilePage t) 1).count (tilePage t) 0 c.demand).count (0x300 + c.ctx) 1 c.demand).pxShow t
      | _, _, _ => r3.1

/-- Moves vectors from the Mangle buffer to the oldest command that still wants some, R118. -/
def feedPress : List PxCmd → List (List Byte) → List PxCmd × List (List Byte)
  | [], b => ([], b)
  | c :: r, b =>
    if wfield c.words 0 12 12 = 1 then let q := feedPress r b; (c :: q.1, q.2)
    else
      let n := c.demand - c.got.length
      let q := feedPress r (b.drop n)
      ({ c with got := c.got ++ b.take n } :: q.1, q.2)

end Sys2Proof.Machine
end

