-- ==== Sys2Proof/Machine/Moves.lean ====
section
/-! DEFINITION. Pegs (R82 to R85), and the transfers of a tile: FETCH (Table 6-6, R153), FOLD and the gradient fold (R154 to R158)
and SEND (Table 5-5, R112 to R114). -/

namespace Sys2Proof.Machine

open Sys2Proof

/-! ### Pegs -/

/-- The tile peg of a context-relative peg; none at or above PEG_N, R85. -/
def State.pegOf (s : State) (t slot p : Nat) : Option Nat :=
  if p < s.rd Reg.CS_PEG_N t slot then some (s.rd Reg.CS_PEG_BASE t slot + p) else none

/-- HIWATER of the receive queues whose data peg is peg `p` of the slot, Table 5-3. -/
def State.highWater (s : State) (t slot p : Nat) : State :=
  let c := s.rd Reg.CS_CTX t slot
  let n := s.rd Reg.PEG_COUNT t (s.rd Reg.CS_PEG_BASE t slot + p)
  (List.range 16).foldl (fun s q =>
    if s.rdB Reg.RQ_VALID t q && s.rd Reg.RQ_CTX t q == c && s.rd Reg.RQ_DATA_PEG t q == p
        && decide (s.rd Reg.RQ_HIWATER t q < min 1024 n) then s.wr Reg.RQ_HIWATER t q (min 1024 n) else s) s

/-- A post that reaches a peg of context `c` on physical tile `t`, R82 to R85. -/
def State.postPeg (s : State) (t c p n : Nat) : State :=
  match s.slotOf t c with
  | none => s
  | some slot =>
    match s.pegOf t slot p with
    | none => s.raise (tilePage t) 11 (some c) 0
    | some g =>
      let v := s.rd Reg.PEG_COUNT t g + n
      if 2 ^ 24 ≤ v then s.raise (tilePage t) 12 (some c) 0
      else (s.wr Reg.PEG_COUNT t g v).highWater t slot p

/-- A post by the open stage's own work: it is noted so that abandonment reverses it, R91. -/
def State.postOwn (s : State) (t c p n : Nat) : State :=
  if n = 0 then s
  else
    let s' := s.postPeg t c p n
    if s'.due.length ≠ s.due.length then s'
    else
      let x := s'.tile t
      match x.stage, (s'.slotOf t c).bind (fun sl => s'.pegOf t sl p) with
      | some st, some g =>
        if st.ctx = c then
          (s'.setTile t { x with stage := some { st with posts := (g, n) :: st.posts } }).wr Reg.PEG_HELD t g 1
        else s'
      | _, _ => s'

/-- The owner shown for each peg follows the context slots, Table 4-18. -/
def State.pegOwners (s : State) (t : Nat) : State :=
  (List.range 16).foldl (fun s n =>
    if s.rdB Reg.CS_VALID t n then
      (List.range (s.rd Reg.CS_PEG_N t n)).foldl (fun s i =>
        s.wr Reg.PEG_OWNER t (s.rd Reg.CS_PEG_BASE t n + i) (s.rd Reg.CS_CTX t n)) s
    else s) s

/-! ### The stage fabric between dies -/

/-- The bridge between two compute dies, or a die and the hub (4), is fenced, Table 13-6. -/
def State.bridgeDown (s : State) (d e : Nat) : Bool :=
  d != e && (s.isFenced (0x60 + d) e || (decide (e < 4) && s.isFenced (0x60 + e) d))

/-- A Larder access of a unit of die `d` reaches a stack of another die through the hub alone, R10, and crosses a fenced bridge. -/
def State.dieCut (s : State) (d a : Nat) : Bool :=
  let e := dieOfStack (stackOf a)
  !badAddr a && d != e && (s.bridgeDown d 4 || s.bridgeDown e 4)

/-- A Larder access of a tile crosses a fenced bridge. -/
def State.larderCut (s : State) (t a : Nat) : Bool := s.dieCut (dieOfTile t) a

/-- A compute die sends flits over its bridge to another die or to the hub (4); its end counts them, Table 5-13. -/
def State.flitsSent (s : State) (d e n : Nat) : State := s.countF (0x60 + d) Reg.BR_FLITS d e n

/-- Flits of `n` bytes of data. -/
def flitsOf (n : Nat) : Nat := (n + 31) / 32

/-- Data of a Larder access by die `d` at `a` crosses the hub in the LARDER class, Table 5-12: a write leaves by `d`'s hub bridge, and
what a read brings leaves by that of the stack's die. Requests and acknowledgements are not counted (DESIGN CHOICE, log entry 27). -/
def State.hubFlits (s : State) (d a n : Nat) (wr : Bool) : State :=
  let e := dieOfStack (stackOf a)
  if d = e ∨ badAddr a then s else s.flitsSent (if wr then d else e) 4 (flitsOf n)

/-- Traffic of a context is dropped at the fenced bridge between die `d` and the hub, as after a fourth failed replay, Table 13-6. -/
def State.hubLost (s : State) (d c : Nat) : State := s.raise (0x60 + d) 3 (some c) 4

/-- The stack whose page reports a bad descriptor: the one that the address names, or the first of the tile's die, R153. -/
def descStack (t a : Nat) : Nat := if 12 ≤ stackOf a then 3 * dieOfTile t else stackOf a

/-! ### Conversion of rows -/

/-- A row of source bytes as values. -/
def rowVals (f : Fmt) (l : List Byte) : List Val := (unpackElems f.width (l.length * 8 / f.width) (leNat l)).map f.decode

/-- The bytes of a converted row: elements packed from the first byte, then the scale bytes. -/
def convertBytes (f : Fmt) (mx : Bool) (rnd : Nat) (g : Gen) (base : Nat) (vs : List Val) : List Byte :=
  let q := f.convertRow mx rnd (vs.mapIdx (fun i v => (v, g.bits (base + i))))
  packBytes f.width q.1 ++ q.2.1.map (fun b => BitVec.ofNat 8 b)

/-- Bytes of a converted row of `n` elements. -/
def convertedLen (f : Fmt) (mx : Bool) (n : Nat) : Nat := n * f.width / 8 + (if mx then n / f.blockSize else 0)

/-! ### FETCH -/

/-- Source format of a FETCH. -/
def fetchSrc (fm : List Fmt) (w : List Nat) : Fmt :=
  if wfield w 0 14 14 = 1 then fmtF32 else fm.getD (wfield w 0 7 4) Fmt.absent

/-- Elements in a source row. -/
def fetchElems (fm : List Fmt) (w : List Nat) : Nat := wfield w 3 11 0 * 2048 / (fetchSrc fm w).width

/-- Bytes of a destination row. -/
def fetchDstRow (fm : List Fmt) (w : List Nat) : Nat :=
  if wfield w 0 2 2 = 0 then wfield w 3 11 0 * 256
  else convertedLen (fm.getD (wfield w 0 11 8) Fmt.absent) (wfield w 0 3 3 == 1) (fetchElems fm w)

/-- The descriptor follows Table 6-6 and R153. -/
def fetchOk (fm : List Fmt) (w : List Nat) : Bool :=
  let df := fm.getD (wfield w 0 11 8) Fmt.absent
  let sf := fetchSrc fm w
  let omx := wfield w 0 3 3 == 1
  wfield w 0 15 15 == 0 && wfield w 0 31 30 == 0 && wfield w 3 31 12 == 0 && wfield w 4 31 16 == 0 && wfield w 8 31 16 == 0
    && (w.drop 9).all (fun x => x == 0)
    && wfield w 3 11 0 != 0 && wfield w 4 15 0 != 0
    && !(wfield w 0 0 0 == 1 && wfield w 0 1 1 == 1)
    && (if wfield w 0 2 2 = 0 then wfield w 0 14 3 == 0
        else sf.valid && df.valid && (wfield w 0 14 14 == 0 || wfield w 0 7 4 == 0) && !mxMismatch df omx
          && wfield w 3 11 0 * 2048 % sf.width == 0
          && (fetchElems fm w * df.width) % 8 == 0
          && (!omx || fetchElems fm w % df.blockSize == 0)
          && fetchDstRow fm w % 256 == 0)

/-- Larder byte address of row `r` of a FETCH. -/
def fetchLarder (w : List Nat) (r : Nat) : Nat :=
  (w.getD 1 0 + r * (if w.getD 5 0 = 0 then wfield w 3 11 0 else w.getD 5 0)) * 256

/-- Bytes from the first Pantry byte of a FETCH to row `r`. -/
def fetchRowOff (fm : List Fmt) (w : List Nat) (r : Nat) : Nat :=
  r * (if wfield w 2 31 16 = 0 then fetchDstRow fm w else wfield w 2 31 16 * 256)

/-- Pantry byte address of row `r` of a FETCH that does not wrap. -/
def fetchPantry (fm : List Fmt) (w : List Nat) (r : Nat) : Nat := wfield w 2 15 0 * 256 + fetchRowOff fm w r

/-- Bytes of a FETCH row on the Larder side. -/
def fetchLarderLen (fm : List Fmt) (w : List Nat) : Nat :=
  if wfield w 0 0 0 = 0 then wfield w 3 11 0 * 256 else fetchDstRow fm w

/-- Bytes of a FETCH row on the Pantry side. -/
def fetchPantryLen (fm : List Fmt) (w : List Nat) : Nat :=
  if wfield w 0 0 0 = 0 then fetchDstRow fm w else wfield w 3 11 0 * 256

/-- The kind of a FETCH's Larder access, as State.larderCheck has it. -/
def fetchKind (w : List Nat) : Nat := if wfield w 0 1 1 = 1 then 2 else wfield w 0 0 0

/-- The Larder ranges of a FETCH, row by row. -/
def fetchRanges (fm : List Fmt) (w : List Nat) : List (Nat × Nat) :=
  (List.range (wfield w 4 15 0)).map (fun r => (fetchLarder w r, fetchLarderLen fm w))

/-- The check of every row's Larder access of a FETCH, with the fault of the first that fails. -/
def State.fetchCheck (s : State) (t c : Nat) (fm : List Fmt) (w : List Nat) : State × Bool :=
  match (fetchRanges fm w).findSome? (fun x => (s.larderCheck c (fetchKind w) 80 x.1 x.2).map (fun b => (b, x.1))) with
  | some (b, a) => (s.raise (0x40 + descStack t a) b (some c) (chanOf a), false)
  | none => (s, true)

/-- Starts a FETCH of a stage on tile `t`: descriptor, Pantry range and every row's Larder access are checked. -/
def State.fetchStart (s : State) (t slot c : Nat) (fm : List Fmt) (w : List Nat) : State :=
  let la := w.getD 1 0 * 256
  let n := wfield w 4 15 0
  if !fetchOk fm w then s.raise (0x40 + descStack t la) 13 (some c) 0
  else if (List.range n).any (fun r => s.larderCut t (fetchLarder w r)) then s.hubLost (dieOfTile t) c
  else if !(decide ((s.ringOf t slot).1 ≤ fetchPantry fm w 0 ∧ fetchPantry fm w 0 < (s.ringOf t slot).2)
      || (List.range n).all (fun r => s.inAlloc t slot (fetchPantry fm w r) (fetchPantryLen fm w))) then
    s.raise (tilePage t) 9 (some c) 0
  else
    let r := s.fetchCheck t c fm w
    if !r.2 then r.1
    else
      let ready := if fetchKind w = 2 then s.tagReady c (fetchRanges fm w) else none
      let s := s.openReaders (ready.getD [])
      { s with moves := s.moves ++ [⟨t, c, 0, w, fetchKind w != 2 || ready.isSome, ready.getD [], 0, []⟩] }

/-- One row of a FETCH: read, converted, written. False where a read found an uncorrectable word. -/
def State.fetchRow (s : State) (t slot c : Nat) (fm : List Fmt) (w : List Nat) (r : Nat) : State × Bool :=
  let src := if wfield w 0 0 0 = 0 then s.larderGet (some c) (fetchLarder w r) (fetchLarderLen fm w)
    else s.pantryGetL t (s.ringSpan t slot (fetchPantry fm w 0) (fetchRowOff fm w r) (fetchPantryLen fm w))
  match src with
  | (s, none) => (s, false)
  | (s, some l) =>
    let out := if wfield w 0 2 2 = 0 then l
      else
        let g := s.gen c (s.rd Reg.CTX_STEP_NUM c) (wfield w 6 15 0) (wfield w 6 31 16)
        convertBytes (fm.getD (wfield w 0 11 8) Fmt.absent) (wfield w 0 3 3 == 1) (wfield w 0 13 12) g
          (w.getD 7 0 + 2 ^ 32 * wfield w 8 15 0 + r * fetchElems fm w) (rowVals (fetchSrc fm w) l)
    let s := s.hubFlits (dieOfTile t) (fetchLarder w r) (fetchLarderLen fm w) (wfield w 0 0 0 == 1)
    if wfield w 0 0 0 = 0 then (s.pantryPutRing t slot (fetchPantry fm w 0) (fetchRowOff fm w r) out, true)
    else (s.larderPutFor c (fetchLarder w r) out, true)

/-- The `k`-th transfer of a kind that a tile has in flight, as its place in the list. -/
def State.moveAt (s : State) (t kind k : Nat) : Option (Nat × Move) :=
  ((s.moves.mapIdx (fun i m => (i, m))).filter (fun x => x.2.tile == t && x.2.kind == kind))[k]?

/-- Removes the transfer at a place of the list. -/
def State.dropMove (s : State) (i : Nat) : State := { s with moves := s.moves.eraseIdx i }

/-- FETCH_COMPLETE of the `k`-th FETCH of a tile: every row is checked as it stands, R150, and moved, and the peg posted, R153. -/
def State.fetchComplete (s : State) (t k : Nat) : State :=
  match s.moveAt t 0 k with
  | none => s
  | some (i, m) =>
    if !m.opened then s
    else
      let slot := (s.slotOf t m.ctx).getD 0
      let fm := ((s.tile t).stage.map (fun st => st.fmts)).getD []
      let w := m.words
      let s := (s.dropMove i).closeReaders m.regions
      let q := if fetchKind w = 2 then (s, true) else s.fetchCheck t m.ctx fm w
      let r := (List.range (wfield w 4 15 0)).foldl (fun (x : State × Bool) r =>
        if x.2 then x.1.fetchRow t slot m.ctx fm w r else x) q
      if r.2 then r.1.postOwn t m.ctx (wfield w 0 21 16) (wfield w 0 29 22) else r.1

/-- A waiting tag-checked FETCH opens once its region is LANDED at the context's step, R149. -/
def State.fetchOpen (s : State) (t k : Nat) : State :=
  match s.moveAt t 0 k with
  | none => s
  | some (i, m) =>
    if m.opened then s
    else match s.tagReady m.ctx (fetchRanges (((s.tile t).stage.map (fun st => st.fmts)).getD []) m.words) with
      | none => s
      | some rs =>
        let s := s.openReaders rs
        { s with moves := s.moves.set i { m with opened := true, regions := rs } }

/-! ### The gradient fold -/

/-- Bytes of a partial, P of Table 6-7. -/
def foldPartial (w : List Nat) : Nat :=
  let n := wfield w 6 23 0
  let p := if wfield w 1 16 16 = 0 then 4 * n else 32 + 16 * n + (n + 3) / 4
  (p + 255) / 256 * 256

/-- The descriptor follows Table 6-7. -/
def foldOk (w : List Nat) : Bool :=
  let nm := wfield w 1 5 0
  wfield w 1 7 6 == 0 && wfield w 1 31 27 == 0 && wfield w 2 31 8 == 0 && wfield w 5 31 16 == 0 && wfield w 6 31 24 == 0
    && (w.drop 9).all (fun x => x == 0)
    && decide (1 ≤ nm) && decide (nm ≤ 32) && decide (wfield w 1 15 8 + nm ≤ 160)
    && decide (wfield w 1 18 17 < 3) && !(wfield w 1 18 17 == 2 && wfield w 1 16 16 == 0)
    && (wfield w 1 20 19 == 0 || wfield w 1 20 19 == 3) && wfield w 6 23 0 != 0
    && stackOf (w.getD 3 0 * 256) == stackOf (w.getD 4 0 * 256)
    && !badAddr (w.getD 3 0 * 256) && !badAddr (w.getD 4 0 * 256)

/-- The parts of a FOLD descriptor that every member of a fold must share, R154. -/
def foldShared (w : List Nat) : List Nat :=
  [wfield w 1 5 0, wfield w 1 15 8, wfield w 1 16 16, wfield w 1 18 17, w.getD 3 0, w.getD 4 0, wfield w 6 23 0]

/-- The open fold slot of a context's key on a stack. -/
def State.foldSlot (s : State) (st c key : Nat) : Option Nat :=
  (List.range 64).find? (fun n => (SMap.find s.folds (64 * st + n)).any (fun f => f.ctx == c && f.key == key))

/-- Starts a FOLD: opens or joins the fold slot of its key, R154, R155. The answer names the mark that the boundary releases. -/
def State.foldStart (s : State) (t slot c : Nat) (w : List Nat) : State × Option Defer :=
  let ta := w.getD 3 0 * 256
  let st := descStack t ta
  let page := 0x40 + st
  let logical := (s.logicalOf t).getD 255
  let member := logical - wfield w 1 15 8
  let key := w.getD 0 0
  if !foldOk w || decide (logical < wfield w 1 15 8) || decide (wfield w 1 5 0 ≤ member) then (s.raise page 10 (some c) 0, none)
  else if s.larderCut t ta then (s.hubLost (dieOfTile t) c, none)
  else if !s.inAlloc t slot (wfield w 5 15 0 * 256) (foldPartial w - 255) then (s.raise (tilePage t) 9 (some c) 0, none)
  else
    let bad := match s.larderCheck c 1 80 (w.getD 4 0 * 256 + member * foldPartial w) (foldPartial w) with
      | some b => some b
      | none => s.larderCheck c 1 80 ta (if wfield w 1 18 17 = 1 then 2 * wfield w 6 23 0 else
          if wfield w 1 18 17 = 0 then 4 * wfield w 6 23 0 else foldPartial w)
    match bad with
    | some b => (s.raise page b (some c) (chanOf ta), none)
    | none =>
      let go := fun (s : State) =>
        (({ s with moves := s.moves ++ [⟨t, c, 1, w, true, [], 0, []⟩] } : State), some (Defer.mark st key member))
      match s.foldSlot st c key with
      | some n =>
        if !newer key (s.rd Reg.MEM_FDONE st (c % 16)) then (s.raise page 12 (some c) 0, none)
        else if (SMap.find s.folds (64 * st + n)).any (fun f => foldShared f.words == foldShared w) then go s
        else (s.raise page 10 (some c) 0, none)
      | none =>
        if !newer key (s.rd Reg.MEM_FDONE st (c % 16)) then (s.raise page 12 (some c) 0, none)
        else match (List.range 64).find? (fun n => (SMap.find s.folds (64 * st + n)).isNone) with
          | none => (s.raise page 11 (some c) 0, none)
          | some n =>
            let s := (s.wr Reg.FS_OPEN st n 1).wr Reg.FS_CTX st n c
            let s := (s.wr Reg.FS_MARKS st n 0).wr Reg.FS_HELD st n 0
            go { s with folds := SMap.put s.folds (64 * st + n) ⟨c, key, w, [], [], [], [], 0, none⟩ }

/-- FOLD_PARTIAL_LANDED: the partial of a tile's `k`-th FOLD lands in staging and its peg is posted. -/
def State.foldLanded (s : State) (t k : Nat) : State :=
  match s.moveAt t 1 k with
  | none => s
  | some (i, m) =>
    let w := m.words
    let st := stackOf (w.getD 3 0 * 256)
    let n := wfield w 6 23 0
    let raw := if wfield w 1 16 16 = 0 then 4 * n else 32 + 16 * n + (n + 3) / 4
    let s := s.dropMove i
    match s.pantryGet t (wfield w 5 15 0 * 256) raw with
    | (s, none) => s
    | (s, some l) =>
      let member := (s.logicalOf t).getD 0 - wfield w 1 15 8
      let p := foldPartial w
      let s := s.hubFlits (dieOfTile t) (w.getD 4 0 * 256) p true
      let s := s.larderPutFor m.ctx (w.getD 4 0 * 256 + member * p) (l ++ List.replicate (p - raw) 0)
      let s := match s.foldSlot st m.ctx (w.getD 0 0) with
        | none => s
        | some n =>
          match SMap.find s.folds (64 * st + n) with
          | none => s
          | some f => { s with folds := SMap.put s.folds (64 * st + n) { f with
              landed := if f.landed.contains member then f.landed else f.landed ++ [member] } }
      s.postOwn t m.ctx (wfield w 1 26 21) (wfield w 2 7 0)

/-- The elements of an exported partial: anchor, flags and accumulators, R59. -/
def readExport (n : Nat) (l : List Byte) : Nat × Nat × List Acc :=
  let h := leNat (l.take 4)
  let body := (l.drop 32).take (16 * n)
  let states := unpackElems 2 n (leNat (l.drop (32 + 16 * n)))
  (h % 2 ^ 11, bits h 18 16, (List.range n).map (fun i =>
    let q := toSigned 128 (leNat ((body.drop (16 * i)).take 16))
    match states.getD i 0 with
    | 1 => ⟨0, 1⟩
    | 2 => ⟨0, if q < 0 then 4 else 2⟩
    | 3 => ⟨0, 8⟩
    | _ => ⟨q, 0⟩))

/-- Two EXACT elements added, R60. -/
def addAcc (a b : Acc) : Acc :=
  let m := joinMarks a.marks b.marks
  let m := if bit m 1 = 1 ∨ bit m 2 = 1 then clrBit m 0 else m
  if m = 0 then ⟨wrap128 (a.q + b.q), 0⟩ else ⟨0, m⟩

/-- One member's partial added to a fold, R156. -/
def Fold.add (f : Fold) (member : Nat) (l : List Byte) : Fold :=
  let n := wfield f.words 6 23 0
  if wfield f.words 1 16 16 = 0 then
    let cs := unpackElems 32 n (leNat (l.take (4 * n)))
    let old := if f.added.isEmpty then List.replicate n (Acc.mk 0 0) else f.sum
    { f with added := f.added ++ [member], sum := List.zipWith (fun x c => ⟨(fadd x.q.toNat c : Nat), 0⟩) old cs }
  else
    let r := readExport n l
    match f.anchor with
    | none => { f with added := f.added ++ [member], sum := r.2.2, flags := r.2.1, anchor := some r.1 }
    | some a =>
      let sum := List.zipWith addAcc f.sum r.2.2
      { f with
        added := f.added ++ [member]
        flags := Nat.lor (Nat.lor f.flags r.2.1) (Nat.lor (if a = r.1 then 0 else 1) (if sum.any (fun x => bit x.marks 3 == 1) then 4 else 0))
        sum := if a = r.1 then sum else sum.map (fun x => ⟨0, if bit x.marks 3 = 1 ∨ bit x.marks 1 = 1 ∨ bit x.marks 2 = 1 then x.marks else 1⟩) }

/-- Adds, at most `n` of them, the members whose turn has come, R156. -/
def State.foldAdds (s : State) (st slot : Nat) : Nat → State
  | 0 => s
  | n + 1 =>
    match SMap.find s.folds (64 * st + slot) with
    | none => s
    | some f =>
      let ordered := wfield f.words 1 16 16 == 0
      let next := if ordered then (if f.marked.contains f.added.length then some f.added.length else none)
        else f.marked.find? (fun m => !f.added.contains m)
      match next with
      | none => s
      | some m =>
        let p := foldPartial f.words
        match s.larderGet (some f.ctx) (f.words.getD 4 0 * 256 + m * p) p with
        | (s, none) => s
        | (s, some l) =>
          let f := f.add m l
          let s : State := { s with folds := SMap.put s.folds (64 * st + slot) f }
          let s := (s.wr Reg.FS_MARKS st slot f.added.length).wr Reg.FS_HELD st slot (f.marked.length - f.added.length)
          s.foldAdds st slot n

/-- FOLD_MARK: the `k`-th released mark arrives; the member's partial is added in its turn, R156. -/
def State.foldMark (s : State) (k : Nat) : State :=
  match s.foldMarks[k]? with
  | none => s
  | some fm =>
    let s : State := { s with foldMarks := s.foldMarks.eraseIdx k }
    match s.foldSlot fm.stack fm.ctx fm.key with
    | none => s
    | some n =>
      match SMap.find s.folds (64 * fm.stack + n) with
      | none => s
      | some f =>
        if f.marked.contains fm.member then s.raise (0x40 + fm.stack) 10 (some fm.ctx) 0
        else
          let f := { f with marked := f.marked ++ [fm.member] }
          let s : State := { s with folds := SMap.put s.folds (64 * fm.stack + n) f }
          (s.wr Reg.FS_HELD fm.stack n (f.marked.length - f.added.length)).foldAdds fm.stack n 32

/-- Frees a fold slot. -/
def State.foldFree (s : State) (st n : Nat) : State :=
  let s := ((s.wr Reg.FS_OPEN st n 0).wr Reg.FS_MARKS st n 0).wr Reg.FS_HELD st n 0
  { s with folds := SMap.del s.folds (64 * st + n) }

/-- The bytes of a finished fold, R157. -/
def Fold.result (f : Fold) (g : Gen) : List Byte :=
  let w := f.words
  let exact := wfield w 1 16 16 == 1
  let a := toSigned 11 (f.anchor.getD 0)
  if wfield w 1 18 17 = 2 then exportBytes true a f.flags f.sum
  else
    let fm := if wfield w 1 18 17 = 0 then fmtF32 else fmtBf16
    let base := w.getD 8 0
    packBytes fm.width (f.sum.mapIdx (fun i x =>
      (fm.encode (wfield w 1 20 19) (g.bits (base + i)) (accValue exact a x).1).1))

/-- FOLD_COMPLETE: every partial is added; the sum is written, then FDONE is set and the slot freed, R157. -/
def State.foldComplete (s : State) (st n : Nat) : State :=
  match SMap.find s.folds (64 * st + n) with
  | none => s
  | some f =>
    let w := f.words
    if f.added.length < wfield w 1 5 0 then s
    else
      let g := s.gen f.ctx (s.rd Reg.CTX_STEP_NUM f.ctx) (wfield w 7 15 0) (wfield w 7 31 16)
      let out := f.result g
      let r := s.larderOk f.ctx 1 (w.getD 3 0 * 256) out.length
      if !r.2 then r.1.foldFree st n
      else ((r.1.larderPutFor f.ctx (w.getD 3 0 * 256) out).wr Reg.MEM_FDONE st (f.ctx % 16) f.key).foldFree st n

/-- Frees every fold slot of a context, R158. -/
def State.foldsFree (s : State) (c : Nat) : State :=
  let s := s.folds.foldl (fun s x => if x.2.ctx = c then s.foldFree (x.1 / 64) (x.1 % 64) else s) s
  { s with foldMarks := s.foldMarks.filter (fun m => m.ctx != c) }

/-! ### SEND -/

/-- The descriptor follows Table 5-5. -/
def sendOk (w : List Nat) : Bool :=
  wfield w 0 15 4 == 0 && wfield w 0 31 26 == 0 && wfield w 1 31 11 == 0 && wfield w 3 31 10 == 0
    && (w.drop 4).all (fun x => x == 0)
    && decide (1 ≤ wfield w 1 10 0) && decide (wfield w 1 10 0 ≤ 1024)
    && decide (1 ≤ wfield w 3 9 0) && decide (wfield w 3 9 0 ≤ 512)

/-- Source address of slab `i` of a SEND. -/
def sendSrc (w : List Nat) (i : Nat) : Nat :=
  (wfield w 2 15 0 + i * (if wfield w 2 31 16 = 0 then wfield w 3 9 0 else wfield w 2 31 16)) * 256

/-- Starts a SEND, R112, R113. -/
def State.sendStart (s : State) (t slot c : Nat) (w : List Nat) : State :=
  let q := wfield w 0 3 0
  if !sendOk w || !s.rdB Reg.SQ_VALID t q || s.rd Reg.SQ_CTX t q != c then s.raise (tilePage t) 16 (some c) 0
  else if !(List.range (wfield w 1 10 0)).all (fun i => s.inAlloc t slot (sendSrc w i) (wfield w 3 9 0 * 256)) then
    s.raise (tilePage t) 9 (some c) 0
  else { s with moves := s.moves ++ [⟨t, c, 2, w, true, [], s.rd Reg.SQ_QHEAD t q, []⟩] }

/-- The consumer's router accepts a slab, R113. -/
def State.slabOk (s : State) (t dest : Nat) (m : Move) (i : Nat) : Bool :=
  let w := m.words
  let q := wfield w 0 3 0
  let dq := s.rd Reg.SQ_DEST_Q t q
  let qs := s.rd Reg.SQ_QSLOTS t q
  let n := (m.head + wfield w 0 25 16 + i) % max 1 qs
  s.present dest && s.rdB Reg.RQ_VALID (s.phys dest) dq && s.rd Reg.RQ_CTX (s.phys dest) dq == m.ctx
    && some (s.rd Reg.RQ_PRODUCER (s.phys dest) dq) == s.logicalOf t
    && decide (n < s.rd Reg.RQ_QSLOTS (s.phys dest) dq)
    && decide (wfield w 3 9 0 ≤ 16 * s.rd Reg.RQ_SLOT_SZ (s.phys dest) dq)

/-- SLAB_WRITE: slab `i` of a tile's `k`-th SEND reaches the consumer's router, which writes it or refuses it, R113. -/
def State.slabWrite (s : State) (t k i : Nat) : State :=
  match s.moveAt t 2 k with
  | none => s
  | some (ix, m) =>
    let w := m.words
    let q := wfield w 0 3 0
    let dest := s.rd Reg.SQ_DEST t q
    let dt := s.phys dest
    if wfield w 1 10 0 ≤ i ∨ m.done.contains i then s
    else if s.bridgeDown (dieOfTile t) (dieOfTile dt) then
      (s.dropMove ix).raise (0x60 + dieOfTile dt) 3 (some m.ctx) (dieOfTile t)
    else if !s.slabOk t dest m i then
      ((s.dropMove ix).raise (tilePage dt) 17 (some m.ctx) 0).raise (tilePage t) 16 (some m.ctx) 0
    else
      let n := wfield w 3 9 0 * 256
      match s.pantryGet t (sendSrc w i) n with
      | (s, none) => s.dropMove ix
      | (s, some l) =>
        let dq := s.rd Reg.SQ_DEST_Q t q
        let sl := (m.head + wfield w 0 25 16 + i) % max 1 (s.rd Reg.SQ_QSLOTS t q)
        let a := s.rd Reg.RQ_BASE dt dq * 256 + sl * (s.rd Reg.RQ_SLOT_SZ dt dq * 4096)
        let s := s.pantryPut dt a l
        let s := if dieOfTile t = dieOfTile dt then s else s.flitsSent (dieOfTile t) (dieOfTile dt) (flitsOf n)
        let s := (s.countF (tilePage t) Reg.RT_SEND_OUT t 0 n).countF (tilePage dt) Reg.RT_SEND_IN dt 0 n
        { s with moves := s.moves.set ix { m with done := m.done ++ [i] } }

/-- SEND_COMPLETE: every slab is written and the acknowledgement has come back, R114. -/
def State.sendComplete (s : State) (t k : Nat) : State :=
  match s.moveAt t 2 k with
  | none => s
  | some (ix, m) => if m.done.length < wfield m.words 1 10 0 then s else s.dropMove ix

/-- Drops the transfers of a context, or of one tile's stage, that are in flight, R91; their tag-checked reads close. -/
def State.dropMoves (s : State) (q : Move → Bool) : State :=
  let s := s.moves.foldl (fun s m =>
    if q m then s.closeReaders m.regions else s) s
  { s with moves := s.moves.filter (fun m => !q m) }

/-- Credits at the receiver of a bridge direction for the CTRL class, Table 5-12. Vectors, slabs and Larder data pass a bridge within
one command, so that no flit of the other classes is held in its receiver between commands. -/
def ctrlCredits : Nat := 64

/-- The bridge direction that a released post crosses. -/
def State.postBridge (s : State) (p : Post) : Option (Nat × Nat) :=
  let d := dieOfTile p.src
  let e := dieOfTile (s.phys p.dest)
  if d = e then none else some (d, e)

/-- Posts released and not yet arrived on a bridge direction: the first `ctrlCredits` of them hold credits, the others wait for one,
R123. -/
def State.onBridge (s : State) (b : Nat × Nat) : List Post := s.posts.filter (fun p => s.postBridge p == some b)

/-- A post leaves over its bridge at once where the direction has a credit: its flit is counted. -/
def State.postLeaves (s : State) (p : Post) : State :=
  let s' : State := { s with posts := s.posts ++ [p] }
  match s.postBridge p with
  | some b => if (s.onBridge b).length < ctrlCredits then s'.flitsSent b.1 b.2 1 else s'
  | none => s'

/-- The arrival of a post gives its credit back: the next one that waited leaves. -/
def State.creditBack (s : State) (b : Nat × Nat) : State :=
  if ctrlCredits ≤ (s.onBridge b).length then s.flitsSent b.1 b.2 1 else s

/-- REMOTE_POST_ARRIVE: the `k`-th released post reaches its peg, R83. Posts on one bridge direction arrive in the order in which they
were released, R123: one with another before it there does not arrive yet. -/
def State.remotePost (s : State) (k : Nat) : State :=
  match s.posts[k]? with
  | none => s
  | some p =>
    let b := s.postBridge p
    if b.isSome && (s.posts.take k).any (fun q => s.postBridge q == b) then s
    else
    let s : State := { s with posts := s.posts.eraseIdx k }
    let s := b.elim s s.creditBack
    let dt := s.phys p.dest
    if !s.present p.dest then s
    else if s.bridgeDown (dieOfTile p.src) (dieOfTile dt) then s.raise (0x60 + dieOfTile dt) 3 (some p.ctx) (dieOfTile p.src)
    else s.postPeg dt p.ctx p.peg p.amount

end Sys2Proof.Machine
end

