-- ==== Sys2Proof/Machine/Lanes.lean ====
section
/-! DEFINITION. The Finisher's vector operations lane by lane (Tables 4-4, R73, R74, R76), curve tables and range reduction (R78 to
R80), and the conversions VCVT and VUNP (R451). A vector is 256 words of 32 bits; a mask 256 bits. -/

namespace Sys2Proof.Machine

open Sys2Proof

/-- A vector of zeros. -/
def vzero : List Nat := List.replicate 256 0

/-- BF16 rounding of an exact value. -/
def toBf (v : Val) : Nat := (fmtBf16.encode 0 0 v).1

/-- A floating operation on one lane of FP32 or two lanes of BF16 (R74): the word, and whether a result is NaN. -/
def fpLane (bf : Bool) (f : Val → Val → Val → Val) (a b c : Nat) : Nat × Bool :=
  if bf then
    let d := fun x k => fmtBf16.decode (x / 2 ^ (16 * k))
    let r := fun k => f (d a k) (d b k) (d c k)
    (toBf (r 0) + 2 ^ 16 * toBf (r 1), (r 0).isNan || (r 1).isNan)
  else
    let r := f (f32 a) (f32 b) (f32 c)
    (toF32 r, r.isNan)

/-- Signed 32-bit reading of a word. -/
def sgn (a : Nat) : Int := toSigned 32 a

/-- An integer cut to 32 bits. -/
def cut (i : Int) : Nat := ofSigned 32 i

/-- VADD in one lane: TYPE 0 F32, 1 B16, 2 I32. -/
def vAdd (ty a b : Nat) : Nat × Bool := if ty = 2 then ((a + b) % 2 ^ 32, false) else fpLane (ty == 1) (fun x y _ => x.add y) a b 0

/-- VSUB in one lane. -/
def vSub (ty a b : Nat) : Nat × Bool := if ty = 2 then (cut ((a : Int) - b), false) else fpLane (ty == 1) (fun x y _ => x.sub y) a b 0

/-- VMUL in one lane; I32 keeps the low 32 bits. -/
def vMul (ty a b : Nat) : Nat × Bool := if ty = 2 then (a * b % 2 ^ 32, false) else fpLane (ty == 1) (fun x y _ => x.mul y) a b 0

/-- VFMA in one lane, rounded once. -/
def vFma (ty a b c : Nat) : Nat × Bool := fpLane (ty == 1) (fun x y z => (x.mul y).add z) a b c

/-- VMAX in one lane. -/
def vMax (ty a b : Nat) : Nat × Bool := if ty = 2 then (if sgn a < sgn b then b else a, false) else fpLane (ty == 1) (fun x y _ => x.max y) a b 0

/-- VMIN in one lane. -/
def vMin (ty a b : Nat) : Nat × Bool := if ty = 2 then (if sgn b < sgn a then b else a, false) else fpLane (ty == 1) (fun x y _ => x.min y) a b 0

/-- VABS in one lane. -/
def vAbs (ty a : Nat) : Nat × Bool := fpLane (ty == 1) (fun x _ _ => x.abs) a 0 0

/-- VNEG in one lane. -/
def vNeg (ty a : Nat) : Nat × Bool := fpLane (ty == 1) (fun x _ _ => x.negate) a 0 0

/-- The condition of VCMP: 0 EQ, 1 NE, 2 LT, 3 LE, 4 GT, 5 GE, 6 UNORD; a NaN makes only NE and UNORD true. -/
def condTrue (cond : Nat) : Option Ordering → Bool
  | none => cond == 1 || cond == 6
  | some .eq => cond == 0 || cond == 3 || cond == 5
  | some .lt => cond == 1 || cond == 2 || cond == 3
  | some .gt => cond == 1 || cond == 4 || cond == 5

/-- VCMP in one lane. -/
def vCmp (ty cond a b : Nat) : Bool :=
  if ty = 2 then condTrue cond (some (compare (sgn a) (sgn b))) else condTrue cond ((f32 a).cmp (f32 b))

/-- One step of the tree of VRSUM: lane `i` takes lane `i` plus lane `i + s`. -/
def treeStep (s : Nat) (l : List Nat) : List Nat :=
  l.mapIdx (fun i x => if i < s then fadd x (l.getD (i + s) 0) else x)

/-- VRSUM, R76. -/
def vRsum (l : List Nat) : Nat := ([128, 64, 32, 16, 8, 4, 2, 1].foldl (fun l s => treeStep s l) l).headD 0

/-- VRMAX: the largest lane, NaN where a lane is. -/
def vRmax (l : List Nat) : Nat :=
  match l with
  | [] => 0
  | a :: r => toF32 (r.foldl (fun x b => x.max (f32 b)) (f32 a))

/-- VITOF in one lane. -/
def vItof (a : Nat) : Nat := toF32 (Val.ofInt (sgn a))

/-- VFTOI in one lane: RNE, saturating; NaN gives 0. -/
def vFtoi (a : Nat) : Nat :=
  match f32 a with
  | .nan => 0
  | .inf n => if n then 2 ^ 31 else 2 ^ 31 - 1
  | .fin n m e =>
    let i : Int := roundUnits 0 0 m e
    cut (max (-(2 ^ 31 : Nat)) (min ((2 ^ 31 : Nat) - 1) (if n then -i else i)))

/-! ### Curve tables -/

/-- Word `i` of a curve image. -/
def curveWord (img : List Byte) (i : Nat) : Nat := leNat ((img.drop (4 * i)).take 4)

/-- Segments of a curve image. -/
def curveSegs (img : List Byte) : Nat := bits (curveWord img 0) 25 16

/-- The checks of R78 and Table 4-8 on a curve image. LO < HI is what R78 asks, so a NaN bound is refused too (DEDUCED, log entry 11). -/
def curveOk (img : List Byte) : Bool :=
  let w0 := curveWord img 0
  let w4 := curveWord img 4
  let n := curveSegs img
  bits w0 15 8 == 0 && bits w0 31 26 == 0 && decide (bits w0 1 0 < 2) && decide (bits w0 3 2 < 3) && decide (bits w0 5 4 < 3)
    && decide (bits w0 7 6 < 3) && bits w4 31 16 == 0 && (List.range 9).all (fun i => curveWord img (7 + i) == 0)
    && decide (1 ≤ n) && decide (n ≤ 512)
    && (if bits w0 1 0 = 1 then bits w4 12 8 * 2 ^ bits w4 15 13 == n
        else (f32 (curveWord img 1)).cmp (f32 (curveWord img 2)) == some .lt)

/-- The polynomial of segment `k` at `t`. -/
def curvePoly (img : List Byte) (k t : Nat) : Nat :=
  let c := fun i => curveWord img (16 + 4 * k + i)
  ffma (ffma (ffma (c 3) t (c 2)) t (c 1)) t (c 0)

/-- FP32 one. -/
def one32 : Nat := 0x3F800000

/-- The value of a curve beyond an end: mode 0 constant, 1 end value, 2 identity. -/
def curveOut (img : List Byte) (hi : Bool) (x : Nat) : Nat :=
  match bits (curveWord img 0) (if hi then 7 else 5) (if hi then 6 else 4) with
  | 0 => canon32 (curveWord img (if hi then 6 else 5))
  | 1 => if hi then curvePoly img (curveSegs img - 1) one32 else curvePoly img 0 0
  | _ => x

/-- VCURVE in one lane, R79. -/
def curveAt (img : List Byte) (x0 : Nat) : Nat :=
  if (f32 x0).isNan then nan32
  else
    let w0 := curveWord img 0
    let sym := bits w0 3 2
    let neg := 2 ^ 31 ≤ x0
    let x := if neg ∧ (sym = 1 ∨ sym = 2) then x0 - 2 ^ 31 else x0
    let flip := decide (neg ∧ sym = 1)
    let lt := fun a b => (f32 a).cmp (f32 b) == some .lt
    let y :=
      if bits w0 1 0 = 0 then
        let lo := curveWord img 1
        if lt x lo then curveOut img false x
        else if !lt x (curveWord img 2) then curveOut img true x
        else
          let u := fmul (fsub x lo) (curveWord img 3)
          let k := if f32 u == .inf false then curveSegs img - 1 else (min (f32 u).floor ((curveSegs img : Int) - 1)).toNat
          curvePoly img k (fsub u (toF32 (Val.ofInt k)))
      else
        match f32 x with
        | .fin false m e =>
          if m = 0 then curveOut img false x
          else
            let emin := toSigned 8 (bits (curveWord img 4) 7 0)
            let span := bits (curveWord img 4) 12 8
            let mb := bits (curveWord img 4) 15 13
            let ex := floorLog2 m e
            if ex < emin then curveOut img false x
            else if emin + span ≤ ex then curveOut img true x
            else
              -- the fraction normalised to [1, 2), 23 bits
              let f := m * 2 ^ (23 - Nat.log2 m) - 2 ^ 23
              let k := (ex - emin).toNat * 2 ^ mb + f / 2 ^ (23 - mb)
              curvePoly img k (toF32 (.fin false (f % 2 ^ (23 - mb)) (-(23 - mb : Int))))
        | .inf false => curveOut img true x
        | _ => curveOut img false x
    if flip then toF32 (f32 y).negate else y

/-- VEXP2 in one lane, R80. -/
def vExp2 (img : List Byte) (a : Nat) : Nat :=
  let x := f32 a
  match x with
  | .nan => nan32
  | .inf n => if n then 0 else 0x7F800000
  | .fin _ _ _ =>
    if (x.cmp (Val.ofInt 128)) ≠ some .lt then 0x7F800000
    else if (x.cmp (Val.ofInt (-150))) = some .lt then 0
    else
      let n := x.floor
      toF32 ((f32 (curveAt img (toF32 (x.sub (Val.ofInt n))))).scale n)

/-- VLOG2 in one lane, R80. -/
def vLog2 (img : List Byte) (a : Nat) : Nat :=
  match f32 a with
  | .nan => nan32
  | .inf n => if n then nan32 else 0x7F800000
  | .fin n m e =>
    if m = 0 then 0xFF800000
    else if n then nan32
    else
      let k := floorLog2 m e
      toF32 ((Val.ofInt k).add (f32 (curveAt img (toF32 (.fin false m (e - k))))))

/-- VRCP in one lane, R80. -/
def vRcp (img : List Byte) (a : Nat) : Nat :=
  match f32 a with
  | .nan => nan32
  | .inf n => if n then 2 ^ 31 else 0
  | .fin n m e =>
    if m = 0 then (if n then 0xFF800000 else 0x7F800000)
    else
      let k := floorLog2 m e
      let c := (f32 (curveAt img (toF32 (.fin false m (e - k))))).scale (-k)
      toF32 (if n then c.negate else c)

/-- VRSQRT in one lane, R80: the argument is m·2^2k with m in [1, 4). -/
def vRsqrt (img : List Byte) (a : Nat) : Nat :=
  match f32 a with
  | .nan => nan32
  | .inf n => if n then nan32 else 0
  | .fin n m e =>
    if m = 0 then 0x7F800000
    else if n then nan32
    else
      let k := (floorLog2 m e) / 2
      toF32 ((f32 (curveAt img (toF32 (.fin false m (e - 2 * k))))).scale (-k))

/-! ### VCVT and VUNP -/

/-- A vector as one number. -/
def vNat (l : List Nat) : Nat := packElems 32 l

/-- A number as a vector. -/
def natV (n : Nat) : List Nat := unpackElems 32 256 n

/-- VCVT of a vector: the packed register, the scale register in MX form, and whether FP_NAN and FP_SAT are set. Element `l` is
lane `l` of the source; an element whose mask bit is 0 keeps its old bits and does not count. -/
def vCvt (f : Fmt) (mx : Bool) (rnd : Nat) (u : Nat → Nat) (mask : Nat) (old src : List Nat) : List Nat × List Nat × Bool × Bool :=
  let q := f.convertRow mx rnd (src.mapIdx (fun i x => (f32 x, u i)))
  let oldE := unpackElems f.width 256 (vNat old)
  let codes := q.1.mapIdx (fun i c => if bit mask i = 1 then c else oldE.getD i 0)
  let b := f.blockSize
  let live := (List.range 256).filter (fun i => bit mask i == 1)
  let sc := fun i => q.2.1.getD (i / b) 127
  let fl := fun i =>
    if mx then (if sc i = 255 then 4 else (f.encode rnd (u i) ((f32 (src.getD i 0)).scale (127 - (sc i : Int)))).2)
    else (f.encode rnd (u i) (f32 (src.getD i 0))).2
  let nan := live.any (fun i => (f32 (src.getD i 0)).isNan || (mx && sc i == 255))
  let sat := live.any (fun i => bit (fl i) 3 == 1)
  (natV (packElems f.width codes), natV (packElems 8 q.2.1), nan, sat)

/-- VUNP in lane `i`: element `i` of the packed source, with its block's scale. -/
def vUnp (f : Fmt) (mx : Bool) (src scales i : Nat) : Nat × Bool :=
  let v := f.decode (src / 2 ^ (f.width * i))
  let v := if mx then (match e8m0 (scales / 2 ^ (8 * (i / f.blockSize)) % 256) with
    | some e => v.scale e
    | none => .nan) else v
  (toF32 v, v.isNan)

end Sys2Proof.Machine
end

