-- ==== Sys2Proof/Machine/Soholt.lean ====
section
/-! DEFINITION. Soholt: restarts, the event log, crash dumps, the tray interface, the calibration store and the configuration
block (R331 to R345). -/

namespace Sys2Proof.Machine

open Sys2Proof

/-! ### Restarts, R331 and R332 -/

/-- Loads in progress end as failed: program and curve loads of every context and rule loads of every stack. -/
def State.failLoads (s : State) : State :=
  let s := allCtxs.foldl (fun s c =>
    let s := if s.rd Reg.CTX_LOAD_STATE c = 1 then s.wr Reg.CTX_LOAD_STATE c 0 3 else s
    if s.rd Reg.CTX_LOAD_CURVE_STATE c = 1 then s.wr Reg.CTX_LOAD_CURVE_STATE c 0 3 else s) s
  (List.range 12).foldl (fun s n => if s.rd Reg.STC_STATE n = 1 then s.wr Reg.STC_STATE n 0 3 else s) s

/-- An update ends in FAILED with a code, R347. -/
def State.updFail (s : State) (code : Nat) : State :=
  let s := (s.wr0 Reg.UPD_STATE 4).wr0 Reg.UPD_FAIL code
  (s.event 0x0013 1 0x009 (s.rd Reg.UPD_COMP + 2 ^ 32 * code)).occur 0x009 0 none 0

/-- A transaction becomes IDLE with an outcome: its shadow and marks are dropped, R414, R415. -/
def State.closeTxn (s : State) (t last fcode fpage : Nat) : State :=
  let s : State := { s with shadow := s.shadow.filter (fun e => e.2.1 != t), marks := s.marks.filter (fun m => m.txn != t) }
  (((s.wr Reg.CFG_TXN_STATE 0 t 0).wr Reg.CFG_TXN_LAST 0 t last).wr Reg.CFG_TXN_FCODE 0 t fcode).wr Reg.CFG_TXN_FPAGE 0 t fpage

/-- Rolls back every open transaction that satisfies `q`, R414. -/
def State.rollBackIf (s : State) (q : State → Nat → Bool) : State :=
  (List.range 5).foldl (fun s t => if s.rd Reg.CFG_TXN_STATE 0 t = 1 && q s t then s.closeTxn t 3 0 0 else s) s

/-- A Soholt restart begins, R331, R332. -/
def State.restartSoholt (s : State) : State :=
  let s := (s.wr0 Reg.SOH_RESTARTING 1).wr0 Reg.SOH_RESTARTS (satInc 255 (s.rd Reg.SOH_RESTARTS))
  let s := s.failLoads
  let s := if s.rd Reg.UPD_STATE = 2 then s.updFail 9 else s
  s.rollBackIf (fun s t => s.rd Reg.CFG_TXN_OWNER_SOH 0 t == 1)

/-- SOH_RESTART: cause 0 a lockstep mismatch, 1 an uncorrectable error in Soholt memory, 2 the watchdog. -/
def State.sohRestart (s : State) (cause : Nat) : State :=
  let s := s.restartSoholt
  s.occur 0x008 (if cause = 0 then 0 else 1) none 0

/-- SOH_IN_SERVICE: the records that waited are logged, and those beyond the buffer raise LOG_LOST. -/
def State.sohInService (s : State) : State :=
  if s.rd Reg.SOH_RESTARTING = 1 then
    let s := (s.wr0 Reg.SOH_RESTARTING 0).wr0 Reg.SOH_SLOT s.flash.slot
    let s := s.wr0 Reg.SOH_VER ((SMap.find s.flash.active 1).elim 0 (fun c => c.version))
    let held := s.soh.held
    let lost := s.soh.heldLost
    let mask := s.soh.actMask
    let s : State := { s with soh := { s.soh with held := [], heldLost := 0, actMask := 0 } }
    let s := held.foldl (fun s e => s.logNow e) s
    let s := if 0 < lost then s.occur 0x008 2 none 0 else s
    let s := s.event 0x0001 4 0x008 (s.flash.slot + 2 ^ 32 * s.rd Reg.SOH_VER)
    if mask ≠ 0 then s.event 0x0012 0 0x009 mask else s
  else s

/-! ### Log and dumps -/

/-- An event record as a number of 256 bits, Table 12-3. -/
def EventRec.pack (e : EventRec) : Nat :=
  e.serial
    + 2 ^ 32 * (e.page + 2 ^ 10 * e.bit + 2 ^ 15 * e.cls + 2 ^ 18 * e.ctx + 2 ^ 24 * (if e.ctxv then 1 else 0) + 2 ^ 25 * e.kind)
    + 2 ^ 64 * (e.time % 2 ^ 48) + 2 ^ 128 * e.bootGen + 2 ^ 160 * (e.rep + 2 ^ 16 * (e.code % 2 ^ 16)) + 2 ^ 192 * e.data

/-- The record with a serial, if it is still in flash, R336. -/
def State.logRecord (s : State) (serial : Nat) : Option EventRec :=
  s.flash.log.find? (fun e => e.serial == serial)

/-- A dump slot as an export, R338: the 64-byte header, then the captured words. -/
def Dump.bytes (d : Dump) : List Byte :=
  leBytes 4 0x504D5544 ++ leBytes 4 (64 + 8 * d.body.length) ++ leBytes 4 d.bootGen ++ leBytes 8 d.time
    ++ leBytes 4 d.serial ++ leBytes 4 d.sealMask ++ List.replicate 36 0
    ++ d.body.flatMap (fun x => leBytes 4 x.1 ++ leBytes 4 x.2)

/-- A dump slot with nothing in it. -/
def Dump.empty : Dump := ⟨false, false, false, 0, 0, 0, 0, 0, []⟩

/-- The oldest unpinned dump slot, R338. -/
def oldestUnpinned (l : List Dump) : Option Nat :=
  ((List.range l.length).filter (fun i => !(l.getD i Dump.empty).pinned)).foldl (fun b i =>
    match b with
    | none => some i
    | some j => if (l.getD i Dump.empty).age < (l.getD j Dump.empty).age then some i else some j) none

/-- DUMP_WRITE: the capture buffer goes to the oldest unpinned slot; with all four pinned it is dropped, R338. A Soholt
restart delays it. -/
def State.dumpWrite (s : State) : State :=
  match s.soh.capture with
  | none => s
  | some c =>
    if s.rd Reg.SOH_RESTARTING = 1 then s
    else
      let s : State := { s with soh := { s.soh with capture := none } }
      match oldestUnpinned s.flash.dumps with
      | none => s.occur 0x008 2 none 0
      | some i =>
        let d : Dump := ⟨false, true, c.redacted, c.serial, s.flash.bootGen, s.timeUs, c.sealMask, s.flash.dumpAge + 1, c.body⟩
        s.flashWrite (fun s =>
          ({ s with flash := { s.flash with dumps := s.flash.dumps.set i d, dumpAge := s.flash.dumpAge + 1 } } : State).count 0x008 3
            d.bytes.length)

/-- DUMP_EXPORT: starts the copy of slot DUMP_SEL to staging; discarded while an export is in progress, R338. -/
def State.dumpExport (s : State) : State :=
  match s.soh.exporting with
  | some _ => s
  | none => { s with soh := { s.soh with exporting := some ((s.flash.dumps.getD (s.rd Reg.SOH_DUMP_SEL) Dump.empty).bytes) } }

/-- The calibration image, R345. -/
def State.calImage (s : State) : List Byte :=
  let h := leBytes 4 0x4C414343 ++ leBytes 16 s.flash.deviceId ++ leBytes 4 (if s.flash.calUser then 1 else 0)
    ++ leBytes 4 (64 + s.flash.calStore.length + 32) ++ List.replicate 36 0
  let b := h ++ s.flash.calStore
  b ++ sha256 b

/-- CAL_EXPORT: starts the export of the calibration store, R345. -/
def State.calExport (s : State) : State :=
  match s.soh.exporting with
  | some _ => s
  | none => { s with soh := { s.soh with exporting := some s.calImage } }

/-- EXPORT_COMPLETE: the export in progress has been written to staging offset 0x3000000. -/
def State.exportComplete (s : State) : State :=
  match s.soh.exporting with
  | none => s
  | some b => { s with soh := { s.soh with exporting := none }, staging := s.staging.writeBytes 0x3000000 b }

/-- A calibration image is well formed for this package: TAG, DEVICE_ID, length and digest, R345. -/
def State.calImageOk (s : State) (img : List Byte) : Bool :=
  let n := leNat ((img.drop 24).take 4)
  decide (96 ≤ n) && decide (n = img.length) && leNat (img.take 4) == 0x4C414343
    && leNat ((img.drop 4).take 16) == s.flash.deviceId
    && img.drop (n - 32) == sha256 (img.take (n - 32))

/-- The staged image that CAL_SRC names. -/
def State.calStaged (s : State) : List Byte :=
  let a := 64 * s.rd Reg.SOH_CAL_SRC
  s.staging.readBytes a (s.staging.readNat (a + 24) 4)

/-- The import of a checked calibration image replaces the whole store, R344. -/
def State.calImport (s : State) (img : List Byte) : State :=
  let st := (img.take (img.length - 32)).drop 64
  s.flashWrite (fun s => ({ s with flash := { s.flash with calStore := st, calUser := true } } : State).event 0x0050 0 0x008 1)

/-- CAL_LOCK: once 1 it stays 1 until power-on reset, R345. -/
def State.calLock (s : State) (v : Nat) : State := if v = 1 then s.wr0 Reg.SOH_CAL_LOCK 1 else s

/-! ### Configuration block, R345 -/

/-- The fields that CFG_SAVE stores, with instance and element. -/
def configFields : List (Field × Nat × Nat) :=
  ([0, 1].flatMap (fun p =>
    ([Reg.HST_EN, Reg.HST_SPLIT, Reg.HST_V4_EN, Reg.HST_ALLOW_EN, Reg.HST_VLAN_ID, Reg.HST_UDP_PORT, Reg.HST_IP4_ADDR,
      Reg.HST_IP6_ADDR, Reg.HST_RTO_US, Reg.HST_SESS_TMO].map (fun f => (f, p, 0))) ++
    ([Reg.HST_AL_VALID, Reg.HST_AL_V6, Reg.HST_AL_SCOPE, Reg.HST_AL_ADDR].flatMap (fun f =>
      (List.range 16).map (fun a => (f, p, a)))))) ++
  ([Reg.THM_WARM_FLOOR, Reg.THM_WARM_EN, Reg.THM_PLAUS_LO, Reg.THM_NOM_FLOW, Reg.THM_COOL_CP, Reg.PWR_CAP, Reg.PWR_WINDOW,
    Reg.PWR_MODE, Reg.PWR_SAFE_PCT, Reg.PWR_PEAK, Reg.PWR_SSD_PCT, Reg.SOH_TRAY_COMPAT].map (fun f => (f, 0, 0)))

/-- CFG_SAVE: stores the fields in the configuration block. -/
def State.cfgSave (s : State) : State :=
  let m : SMap Nat := configFields.foldl (fun m x => SMap.put m (x.1.key x.2.1 x.2.2) (s.rd x.1 x.2.1 x.2.2)) []
  s.flashWrite (fun s => ({ s with flash := { s.flash with config := m } } : State).count 0x008 3 (4 * configFields.length))

/-- At cold bring-up Soholt writes the saved values back, R345. -/
def State.cfgRestore (s : State) : State :=
  configFields.foldl (fun s x =>
    match SMap.find s.flash.config (x.1.key x.2.1 x.2.2) with
    | none => s
    | some v => s.wr x.1 x.2.1 x.2.2 v) s

/-! ### The tray, R339 to R343 -/

/-- Soholt acknowledges its I3C address: it has one and no restart is in progress, R332, R339. -/
def State.i3cUp (s : State) : Bool := s.soh.daValid && s.rd Reg.SOH_RESTARTING == 0 && s.pins.vaux33Good && !s.boot.por

/-- What the tray reads at an index of Table 12-5 without an effect; none where the index is write-only, reserved or ACT. -/
def State.trayReg (s : State) (index : Nat) : Option Nat :=
  match index with
  | 0x00 => some 0xB08
  | 0x01 => some s.trayStatus
  | 0x02 => some (s.rd Reg.THM_TJ_MAX)
  | 0x03 => some (s.rd Reg.PWR_P_IN)
  | 0x04 => some (s.rd Reg.PWR_P_AVG)
  | 0x05 => some (s.rd Reg.PWR_EFF_CAP)
  | 0x06 => some (s.rd Reg.PWR_OPT + 8 * s.rd Reg.PWR_DUTY + 32 * s.rd Reg.PWR_LIMITER)
  | 0x07 => some s.soh.laser
  | _ => none

/-- I3C_STATUS_READ: the tray reads STATUS, which releases ALERT_N for bits other than SD_REQ, R341. -/
def State.i3cStatusRead (s : State) : State :=
  if s.i3cUp then
    let s : State := { s with
      soh := { s.soh with lastRead := (s.trayReg 0x01).getD 0 }
      pins := { s.pins with alertLow := s.rd Reg.THM_SD_REQ == 1 } }
    s.count 0x008 2 1
  else s

/-- ACT: the tray reads the next word of the head compat action record, R343; with none queued the word is open. -/
def State.actRead (s : State) : State :=
  if s.i3cUp then
    let s :=
      match s.soh.compat with
      | [] => ({ s with soh := { s.soh with lastRead := (Config.freeWord s.free).toNat } } : State).tick
      | [] :: r => { s with soh := { s.soh with compat := r } }
      | [w] :: r => { s with soh := { s.soh with compat := r, lastRead := w } }
      | (w :: ws) :: r => { s with soh := { s.soh with compat := ws :: r, lastRead := w } }
    (s.trayNote).count 0x008 2 1
  else s

/-- COMPAT_RECORD: 1 s after a protective action its record is completed, queued and logged with KIND ACTION; a full queue of
16 loses its oldest record, R343. -/
def State.compatRecord (s : State) : State :=
  match s.soh.compatDue with
  | [] => s
  | d :: r =>
    let a := d.getD 0 0
    let w := (d.set 0 (Config.actionCode a)) ++ [s.rd Reg.THM_TJ_MAX, s.rd Reg.PWR_P_IN]
    let q := s.soh.compat ++ [w]
    let s : State := { s with soh := { s.soh with compatDue := r, compat := q.drop (q.length - 16) } }
    let page := if a = 6 then 0x004 else 0x006
    (s.log ⟨0, page, 0, 5, 0, false, 2, s.timeUs, s.flash.bootGen, 0, Config.actionCode a, 0⟩).trayNote

/-- TRAY_WRITE: a private write of TIN, TOUT, FLOW, LEAK or TCAP waits for RSEQ; a write to any other index is not
acknowledged, R339, R340. -/
def State.trayWrite (s : State) (index value : Nat) : State :=
  if s.i3cUp && decide (0x10 ≤ index) && decide (index ≤ 0x14) then
    ({ s with soh := { s.soh with trayPend := SMap.put s.soh.trayPend index (value % 2 ^ 16) } } : State).count 0x008 2 1
  else s

/-- The static I3C address, R339. -/
def State.staticAddr (s : State) : Nat := 0x30 + s.rd Reg.GLB_STRAP_LOC_X

/-- I3C_CCC: kind 0 SETDASA with static address `a` and dynamic address `d`, 1 SETAASA, 2 RSTDAA, 3 GETSTATUS. Others are not
supported. -/
def State.i3cCcc (s : State) (kind a d : Nat) : State :=
  if s.rd Reg.SOH_RESTARTING = 1 || !s.pins.vaux33Good || s.boot.por then s
  else
    match kind with
    | 0 => if a = s.staticAddr then
        (({ s with soh := { s.soh with daValid := true } } : State).wr0 Reg.SOH_DADDR d).count 0x008 2 1
      else s
    | 1 => (({ s with soh := { s.soh with daValid := true } } : State).wr0 Reg.SOH_DADDR s.staticAddr).count 0x008 2 1
    | 2 => (({ s with soh := { s.soh with daValid := false } } : State).wr0 Reg.SOH_DADDR 0).count 0x008 2 1
    | 3 => if s.soh.daValid then
        ({ s with soh := { s.soh with lastRead := Config.getStatus s.trayStatus } } : State).count 0x008 2 1
      else s
    | _ => s

end Sys2Proof.Machine
end

