-- ==== Sys2Proof/Machine/Txn.lean ====
section
/-! DEFINITION. Configuration transactions (R409 to R415): who holds one, BEGIN, ROLLBACK, the shadow and its marks, and the
words of the register map. The checks of a COMMIT and its application are in Commit.lean. -/

namespace Sys2Proof.Machine

open Sys2Proof

/-! ### Words of the register map -/

/-- The fields with a part in the word at byte offset `off` of a block's page, with their element and the word's number within
the field. -/
def wordFields (b : Block) (off : Nat) : List (Field × Nat × Nat) :=
  Reg.all.filterMap (fun f =>
    if f.block ≠ b ∨ off < f.off then none
    else
      let i := if f.stride = 0 then 0 else (off - f.off) / f.stride
      let k := (off - f.off - f.stride * i) / 4
      if i < f.count ∧ k < (f.lo + f.width + 31) / 32 then some (f, i, k) else none)

/-- The part of a field's value in word `k` of it, in place. -/
def fieldPart (f : Field) (k v : Nat) : Nat := if f.width ≤ 32 then v * 2 ^ f.lo else v / 2 ^ (32 * k) % 2 ^ 32

/-- The field's value with the part in word `k` replaced from the written word `w`. -/
def fieldWith (f : Field) (k v w : Nat) : Nat :=
  if f.width ≤ 32 then w / 2 ^ f.lo % 2 ^ f.width
  else v - v / 2 ^ (32 * k) % 2 ^ 32 * 2 ^ (32 * k) + w % 2 ^ 32 * 2 ^ (32 * k)

/-- The page on which the circuit table lies behind its window. -/
def ctePage : Nat := 0x1000

/-- The place of a shadowed register word: CT_W words by the entry that CT_SEL names. -/
def State.shadowKey (s : State) (page off : Nat) : Nat :=
  if page = 0x00C ∧ 0x110 ≤ off ∧ off < 0x130 then ctePage * 1024 + (0x30 * s.rd Reg.CIR_CT_SEL + (off - 0x110)) / 4
  else page * 1024 + off / 4

/-- The register page that a shadow place belongs to. -/
def shadowPage (k : Nat) : Nat := if ctePage * 1024 ≤ k then 0x00C else k / 1024

/-- The value of an RWT field as transaction `t` would leave it: the shadow's where it holds the word, else the applied value. -/
def State.after (s : State) (t : Nat) (f : Field) (inst i : Nat) : Nat :=
  match SMap.find s.shadow ((f.block.base + inst) * 1024 + (f.off + f.stride * i) / 4) with
  | some (t', v) => if t' = t then v / 2 ^ f.lo % 2 ^ f.width else s.rd f inst i
  | none => s.rd f inst i

/-- The words that a transaction shadows, by place. -/
def State.shadowOf (s : State) (t : Nat) : List (Nat × Nat) :=
  (s.shadow.filter (fun e => e.2.1 == t)).map (fun e => (e.1, e.2.2))

/-! ### Holding a transaction -/

/-- The agent owns transaction `t`, which is not IDLE. -/
def State.owns (s : State) (ag : Agent) (t : Nat) : Bool :=
  s.rd Reg.CFG_TXN_STATE 0 t != 0 &&
    match ag with
    | .soholt => s.rdB Reg.CFG_TXN_OWNER_SOH 0 t
    | .session p n => !s.rdB Reg.CFG_TXN_OWNER_SOH 0 t && s.rd Reg.CFG_TXN_OWNER_SESS 0 t == n
        && s.rd Reg.CFG_TXN_OWNER_PORT 0 t == p
    | _ => false

/-- The transaction that the agent holds, if any. -/
def State.txnOf (s : State) (ag : Agent) : Option Nat := (List.range 5).find? (fun t => s.owns ag t)

/-- The agent may hold transactions: Soholt or a session of scope ALL, R409. -/
def State.mayTxn (s : State) (ag : Agent) : Bool :=
  match ag with
  | .soholt => true
  | .session p n => s.sessOpen p n && scopeAll (s.rd Reg.HST_S_SCOPE p n)
  | _ => false

/-- BEGIN with SCOPE `scope`, R410. -/
def State.txnBegin (s : State) (ag : Agent) (scope : Nat) : State :=
  let t := if scopeAll scope then 4 else scope % 4
  let opened := fun u => s.rd Reg.CFG_TXN_STATE 0 u != 0
  if !s.mayTxn ag || (s.txnOf ag).isSome || opened t || (t == 4 && (List.range 4).any opened) || (t != 4 && opened 4)
      || (t != 4 && !s.partPresent t) then s
  else
    let s := s.wr Reg.CFG_TXN_STATE 0 t 1
    match ag with
    | .session p n =>
      ((s.wr Reg.CFG_TXN_OWNER_SESS 0 t n).wr Reg.CFG_TXN_OWNER_PORT 0 t p).wr Reg.CFG_TXN_OWNER_SOH 0 t 0
    | _ => ((s.wr Reg.CFG_TXN_OWNER_SESS 0 t 0).wr Reg.CFG_TXN_OWNER_PORT 0 t 0).wr Reg.CFG_TXN_OWNER_SOH 0 t 1

/-- ROLLBACK by the owner of an OPEN transaction, R414. -/
def State.txnRollback (s : State) (ag : Agent) : State :=
  match s.txnOf ag with
  | none => s
  | some t => if s.rd Reg.CFG_TXN_STATE 0 t = 1 then s.closeTxn t 3 0 0 else s

/-- TXN_TMO passes for an OPEN transaction, R414. -/
def State.txnTimeout (s : State) (t : Nat) : State :=
  if t < 5 ∧ s.rd Reg.CFG_TXN_STATE 0 t = 1 then s.closeTxn t 3 0 0 else s

/-- The partition may write the RWT fields of the page's word at all, R411: its tiles, stacks, Starch engines and Hall port, its
format entries, groups and circuit entries. Groups and circuit entries are looked at again at COMMIT. -/
def State.txnPageOk (s : State) (p page off : Nat) : Bool :=
  match Block.ofPage page with
  | some .tile => s.partOfTile (page - 0x100) == p
  | some .mem => s.partOfStack (page - 0x40) == p
  | some .stc => s.partOfStack (page - 0x50) == p
  | some .lnk => partOfDie s.pmap (dieOfPort (page - 0x30)) == p
  | some .cfg => decide (off < 0x140) || (decide (0x200 + 0x80 * p ≤ off) && decide (off < 0x280 + 0x80 * p))
  | some .cir => true
  | _ => false

/-- A mark on a transaction. -/
def State.mark (s : State) (t code page : Nat) : State := { s with marks := s.marks ++ [⟨t, code, page⟩] }

/-- A write to a word with RWT fields: to the shadow of the agent's OPEN transaction, R409 to R411. -/
def State.shadowWrite (s : State) (ag : Agent) (page off v : Nat) : State :=
  match s.txnOf ag with
  | none => s
  | some t =>
    if s.rd Reg.CFG_TXN_STATE 0 t ≠ 1 then s
    else if t ≠ 4 ∧ !s.txnPageOk t page off then s.mark t 3 page
    else
      let k := s.shadowKey page off
      match SMap.find s.shadow k with
      | some (u, _) => if u = t then { s with shadow := SMap.put s.shadow k (t, v) } else s.mark t 5 page
      | none =>
        if 65536 ≤ (s.shadowOf t).length then s.mark t 2 page
        else { s with shadow := SMap.put s.shadow k (t, v) }

end Sys2Proof.Machine
end

