-- ==== Sys2Proof/Machine/Finisher.lean ====
section
/-! DEFINITION. The Finisher's bundles (Tables 4-2 to 4-6, R77): legality, waiting, execution of the three slots, branches and the
faults of R100. -/

namespace Sys2Proof.Machine

open Sys2Proof

/-! ### Registers of a stage -/

/-- Vector register `r`. -/
def Stage.v (st : Stage) (r : Nat) : List Nat := SMap.get vzero st.vreg (r % 64)

/-- Sets a vector register. -/
def Stage.setV (st : Stage) (r : Nat) (l : List Nat) : Stage := { st with vreg := SMap.set vzero st.vreg (r % 64) l }

/-- Mask register `r`; M0 reads as all ones. -/
def Stage.m (st : Stage) (r : Nat) : Nat := if r = 0 then 2 ^ 256 - 1 else SMap.get 0 st.mreg r

/-- Sets a mask register; M0 cannot be written. -/
def Stage.setM (st : Stage) (r v : Nat) : Stage := if r = 0 then st else { st with mreg := SMap.set 0 st.mreg r v }

/-- Scalar register `r`. -/
def Stage.s (st : Stage) (r : Nat) : Nat := SMap.get 0 st.sreg r

/-- Sets a scalar register. -/
def Stage.setS (st : Stage) (r v : Nat) : Stage := { st with sreg := SMap.set 0 st.sreg r (v % 2 ^ 32) }

/-! ### Bundles -/

/-- The parts of a bundle, Tables 4-2 and 4-3, each slot as a number of its own. -/
structure Bundle where
  vEn : Bool
  mEn : Bool
  cEn : Bool
  resv : Nat
  v : Nat
  m : Nat
  c : Nat
  deriving DecidableEq, Repr

/-- The bundle whose 128 bits are given. -/
def toBundle (b : Nat) : Bundle :=
  ⟨bit b 0 == 1, bit b 1 == 1, bit b 2 == 1, bit b 3, bits b 51 4, bits b 91 52, bits b 127 92⟩

/-- Operation of slot V; 0 where the slot does nothing. -/
def Bundle.vOp (b : Bundle) : Nat := if b.vEn then bits b.v 7 0 else 0

/-- Operation of slot M. -/
def Bundle.mOp (b : Bundle) : Nat := if b.mEn then bits b.m 5 0 else 0

/-- Operation of slot C. -/
def Bundle.cOp (b : Bundle) : Nat := if b.cEn then bits b.c 5 0 else 0

/-- The types that Table 4-4 lists for an operation. -/
def vTypes (op : Nat) : List Nat :=
  if op ∈ [1, 2, 3, 5, 6, 0x0A, 0x0B, 0x0E, 0x2A] then [0, 1, 2]
  else if op ∈ [4, 7, 8] then [0, 1]
  else if op = 9 then [0, 2]
  else if op ∈ [0x0C, 0x0D, 0x10, 0x11, 0x12, 0x13, 0x14, 0x18, 0x19, 0x29] then [0]
  else if op ∈ [0x20, 0x21, 0x22, 0x23, 0x24, 0x25, 0x28] then [2]
  else []

/-- The modifier is listed for the operation, R77. -/
def vModOk (fm : List Fmt) (op md : Nat) : Bool :=
  let f := fm.getD (md % 16) Fmt.absent
  let pair := f.valid && !mxMismatch f (bit md 6 == 1)
  if op = 9 then decide (md ≤ 6)
  else if 0x10 ≤ op ∧ op ≤ 0x14 then decide (md < 8)
  else if op = 0x18 then decide (md < 128) && pair
  else if op = 0x19 then decide (md < 128) && bits md 5 4 == 0 && pair
  else md == 0

/-- Slot V is legal. -/
def vLegal (fm : List Fmt) (v : Nat) : Bool :=
  let op := bits v 7 0
  (vTypes op).contains (bits v 37 35) && vModOk fm op (bits v 47 38)
    && (op != 9 || (bits v 13 11 == 0 && bits v 10 8 != 0))

/-- The vector registers that slot V writes. -/
def vDests (v : Nat) : List Nat :=
  let op := bits v 7 0
  if op = 9 then []
  else if op = 0x18 ∧ bit v 44 = 1 then [bits v 13 8, (bits v 13 8 + 1) % 64]
  else [bits v 13 8]

/-- Slot M is legal: a listed operation, and no amount of 0. -/
def mLegal (m : Nat) : Bool :=
  let op := bits m 5 0
  ([1, 2, 4, 5, 6, 7, 8, 9, 10, 11, 12, 13].contains op) &&
    !((op == 9 || op == 11 || op == 12) && bits m 24 17 == 0)

/-- Slot C is legal: a listed operation, and for SRD a listed offset of a word. -/
def cLegal (c : Nat) : Bool :=
  let op := bits c 5 0
  (decide (1 ≤ op) && decide (op ≤ 12) || decide (0x10 ≤ op) && decide (op ≤ 0x14) || op == 0x1F)
    && (op != 12 ||
      (let o := bits c 27 16
       o % 4 == 0 && (decide (0x100 ≤ o) && decide (o ≤ 0x13C) || decide (0x400 ≤ o) && decide (o ≤ 0x4FC))))

/-- The bundle may execute, R77. A 1 in its reserved bit 3 makes it illegal too (DESIGN CHOICE, log entry 11: R77 and Table 4-2 state no
effect of that bit). -/
def Bundle.legal (b : Bundle) (fm : List Fmt) : Bool :=
  b.resv == 0 && (!b.vEn || vLegal fm b.v) && (!b.mEn || mLegal b.m) && (!b.cEn || cLegal b.c)
    && !(b.vEn && b.mOp == 1 && (vDests b.v).contains (bits b.m 11 6))

/-- The bundle at the tile's program counter; none outside the region. -/
def State.bundleAt (s : State) (t : Nat) (st : Stage) : Option Bundle :=
  let pc := s.rd Reg.FN_STAT_PC t
  if s.rd Reg.CS_IMEM_SIZE t st.slot * 256 ≤ pc then none
  else some (toBundle (s.imem.readNat (t * 2 ^ 18 + s.rd Reg.CS_IMEM_BASE t st.slot * 4096 + 16 * pc) 16))

/-! ### Slot V -/

/-- The image of the curve at a list position of the context's program. -/
def Tile.curveImg (x : Tile) (slot pos : Nat) : Option (List Byte) :=
  ((SMap.get SlotRun.empty x.slots slot).curves[pos]?).bind (fun k => SMap.find x.curves k)

/-- The operation is one of those that use a curve. -/
def usesCurve (op : Nat) : Bool := decide (0x10 ≤ op) && decide (op ≤ 0x14)

/-- The result of slot V in every lane: the word, and whether it is a NaN result that R73 reports. VCMP and VCVT are apart. -/
def vLanes (st : Stage) (img : List Byte) (v : Nat) : List (Nat × Bool) :=
  let op := bits v 7 0
  let a := st.v (bits v 19 14)
  let b := st.v (bits v 25 20)
  let c := st.v (bits v 31 26)
  let ty := bits v 37 35
  let md := bits v 47 38
  let mask := st.m (bits v 34 32)
  let two := fun (f : Nat → Nat → Nat × Bool) => List.zipWith f a b
  let logic := fun (f : Nat → Nat → Nat) => List.zipWith (fun x y => (f x y, false)) a b
  let curve := fun (f : List Byte → Nat → Nat) => a.map (fun x => let r := f img x; (r, (f32 r).isNan))
  let all := fun (x : Nat) (n : Bool) => List.replicate 256 (x, n)
  match op with
  | 0x01 => two (vAdd ty)
  | 0x02 => two (vSub ty)
  | 0x03 => two (vMul ty)
  | 0x04 => List.zipWith (fun x y => vFma ty x y.1 y.2) a (b.zip c)
  | 0x05 => two (vMax ty)
  | 0x06 => two (vMin ty)
  | 0x07 => a.map (vAbs ty)
  | 0x08 => a.map (vNeg ty)
  | 0x0A => (a.zip b).mapIdx (fun i x => (if bit mask i = 1 then x.1 else x.2, false))
  | 0x0B => all (st.s (bits v 19 14 % 32)) false
  | 0x0C => all (vRsum a) (f32 (vRsum a)).isNan
  | 0x0D => all (vRmax a) (f32 (vRmax a)).isNan
  | 0x0E => b.map (fun x => (a.getD (x % 256) 0, false))
  | 0x10 => curve curveAt
  | 0x11 => curve vExp2
  | 0x12 => curve vLog2
  | 0x13 => curve vRcp
  | 0x14 => curve vRsqrt
  | 0x19 =>
    let f := st.fmts.getD (md % 16) Fmt.absent
    (List.range 256).map (vUnp f (bit md 6 == 1) (vNat a) (vNat b))
  | 0x20 => logic Nat.land
  | 0x21 => logic Nat.lor
  | 0x22 => logic Nat.xor
  | 0x23 => logic (fun x y => x * 2 ^ (y % 32) % 2 ^ 32)
  | 0x24 => logic (fun x y => x / 2 ^ (y % 32))
  | 0x25 => logic (fun x y => cut (sgn x / (2 ^ (y % 32) : Nat)))
  | 0x28 => a.map (fun x => (vItof x, false))
  | 0x29 => a.map (fun x => (vFtoi x, false))
  | _ => a.map (fun x => (x, false))

/-- What slot V writes: the stage after it, and whether FP_NAN and FP_SAT are set. -/
def vWrite (st : Stage) (img : List Byte) (g : Gen) (v : Nat) : Stage × Bool × Bool :=
  let op := bits v 7 0
  let vd := bits v 13 8
  let mask := st.m (bits v 34 32)
  let md := bits v 47 38
  if op = 9 then
    let a := st.v (bits v 19 14)
    let b := st.v (bits v 25 20)
    let old := st.m (vd % 8)
    let r := (a.zip b).mapIdx (fun i x =>
      if bit mask i = 1 then (if vCmp (bits v 37 35) (md % 8) x.1 x.2 then 1 else 0) else bit old i)
    (st.setM (vd % 8) (packElems 1 r), false, false)
  else if op = 0x18 then
    let f := st.fmts.getD (md % 16) Fmt.absent
    let mx := bit md 6 == 1
    let base := st.s 28 + 2 ^ 32 * (st.s 29 % 2 ^ 16)
    let q := vCvt f mx (bits md 5 4) (fun i => g.bits (base + i)) mask (st.v vd) (st.v (bits v 19 14))
    let st := st.setV vd q.1
    (if mx then st.setV (vd + 1) q.2.1 else st, q.2.2.1, q.2.2.2)
  else
    let r := vLanes st img v
    let all := op == 0x0A
    let old := st.v vd
    let new := r.mapIdx (fun i x => if all || bit mask i == 1 then x.1 else old.getD i 0)
    (st.setV vd new, (r.mapIdx (fun i x => x.2 && (all || bit mask i == 1))).any (fun b => b), false)

/-! ### Slot M -/

/-- The Pantry byte address of slot M. -/
def mAddr (st : Stage) (m : Nat) : Nat := cut ((st.s (bits m 16 12) : Int) + 64 * toSigned 15 (bits m 31 17))

/-- Bytes of VLD and VST. -/
def mSize (m : Nat) : Nat := 1024 / 2 ^ bits m 33 32

/-- What slot M waits on, as WAIT of FN_STAT shows it; 0 nothing. -/
def State.mWaits (s : State) (t : Nat) (st : Stage) (m : Nat) : Nat :=
  match bits m 5 0 with
  | 4 => if 2 ≤ (s.tile t).press.length then 2 else 0
  | 5 => if bits m 33 32 < (s.tile t).press.length then 2 else 0
  | 9 => match s.pegOf t st.slot (bits m 37 32) with
    | some g => if s.rd Reg.PEG_COUNT t g < bits m 24 17 then 1 else 0
    | none => 0
  | 10 => match s.pegOf t st.slot (bits m 37 32) with
    | some g => if s.rd Reg.PEG_COUNT t g < st.s (bits m 16 12) then 1 else 0
    | none => 0
  | 13 => if s.moves.any (fun x => x.tile == t) then 3 else 0
  | _ => 0

/-- Sets the stage that is open on a tile. -/
def State.setStage (s : State) (t : Nat) (st : Stage) : State := s.setTile t { s.tile t with stage := some st }

/-- Issues a Press command, R48, R52, R75. A refused command leaves PEAK_EXP 0x400 and both counts 0, as one without a product would
(DESIGN CHOICE, log entry 11: R48 and R68 name its flags and its serial only). -/
def State.pxIssue (s : State) (t : Nat) (st : Stage) (w : List Nat) : State :=
  let p := partOfCtx st.ctx
  let x := s.tile t
  let accIn := wfield w 0 17 17 == 1
  let half := if accIn then (st.prev.map (fun q => q.half)).getD 0 else x.half
  let c : PxCmd := ⟨st.ctx, w, s.fmt p (wfield w 0 3 0), s.fmt p (wfield w 0 7 4), s.fmt p (wfield w 0 11 8), half, [], 0⟩
  if s.pxRefused t st.slot st.prev c then s.pxReport t 32 0x400 0 0
  else
    let st := { st with
      prev := some ⟨wfield w 0 15 15, wfield w 1 10 0, c.lane, wfield w 2 8 0, wfield w 0 18 18, half⟩
      mangle := st.mangle || wfield w 0 12 12 == 0 }
    let q := feedPress (x.press ++ [c]) x.mbuf
    (s.setTile t { x with stage := some st, press := q.1, mbuf := q.2, half := 1 - half }).pxShow t

/-- Executes slot M; the stage read is the one before the bundle. A load's value comes beside the state. -/
def State.mExec (s : State) (t : Nat) (st : Stage) (m : Nat) : State × Option (Nat × List Nat) :=
  let c := st.ctx
  let a := mAddr st m
  let peg := bits m 37 32
  let amt := bits m 24 17
  let desc := fun (f : State → List Nat → State) =>
    if !s.inAlloc t st.slot a 64 then (s.raise (tilePage t) 9 (some c) 0, (none : Option (Nat × List Nat)))
    else match s.pantryGet t a 64 with
      | (s, none) => (s, none)
      | (s, some l) => (f s (toWords 16 l), none)
  match bits m 5 0 with
  | 1 =>
    if !s.inAlloc t st.slot a (mSize m) then (s.raise (tilePage t) 9 (some c) 0, none)
    else match s.pantryGet t a (mSize m) with
      | (s, none) => (s, none)
      | (s, some l) => (s, some (bits m 11 6, natV (leNat l)))
  | 2 =>
    if !s.inAlloc t st.slot a (mSize m) then (s.raise (tilePage t) 9 (some c) 0, none)
    else (s.pantryPut t a (leBytes (mSize m) (vNat (st.v (bits m 11 6)))), none)
  | 4 => desc (fun s w => s.pxIssue t st w)
  | 6 => desc (fun s w => s.fetchStart t st.slot c st.fmts w)
  | 7 => desc (fun s w =>
    if 64 ≤ st.deferred.length then s.raise (tilePage t) 14 (some c) 0
    else match s.foldStart t st.slot c w with
      | (s, some d) => s.setStage t { st with deferred := st.deferred ++ [d] }
      | (s, none) => s)
  | 8 => desc (fun s w =>
    let n := s.moves.length
    let s := s.sendStart t st.slot c w
    if s.moves.length = n then s
    else
      let q := wfield w 0 3 0
      s.setStage t { st with slabs := SMap.put st.slabs q (SMap.get 0 st.slabs q + wfield w 1 10 0) })
  | 9 => match s.pegOf t st.slot peg with
    | none => (s.raise (tilePage t) 11 (some c) 0, none)
    | some g =>
      ((((s.wr Reg.PEG_COUNT t g (s.rd Reg.PEG_COUNT t g - amt)).wr Reg.PEG_HELD t g 1).setStage t
        { st with takes := (g, amt) :: st.takes }), none)
  | 10 => if (s.pegOf t st.slot peg).isNone then (s.raise (tilePage t) 11 (some c) 0, none) else (s, none)
  | 11 => (s.postOwn t c peg amt, none)
  | 12 =>
    let dest := st.s (bits m 16 12)
    if !s.present dest || (s.slotOf (s.phys dest) c).isNone then (s.raise (tilePage t) 13 (some c) 0, none)
    else if 64 ≤ st.deferred.length then (s.raise (tilePage t) 14 (some c) 0, none)
    else (s.setStage t { st with deferred := st.deferred ++ [.post dest peg amt] }, none)
  | _ => (s, none)

/-! ### Slot C -/

/-- The signed 20-bit immediate. -/
def immOf (c : Nat) : Int := toSigned 20 (bits c 35 16)

/-- The word of a tile page at an offset, as its Finisher reads it; the context view is R437's. -/
def State.tileWord (s : State) (t off : Nat) : Nat :=
  (wordFields .tile off).foldl (fun v x => v + fieldPart x.1 x.2.2 (s.rd x.1 t x.2.1)) 0

/-- SRD: the value, and the latch of a high word that a read of the low word leaves, R427, R437. -/
def State.srd (s : State) (t : Nat) (st : Stage) (off : Nat) : Nat × Option (Nat × Nat) :=
  let c := st.ctx
  let old := (s.tile t).latch
  let view := fun (n : Nat) => if s.rd Reg.CTX_PERF_USER_EN c = 1 then s.rd Reg.CNT_N (0x300 + c) n else 0
  let pair := fun (base n : Nat) =>
    if off = base then (view n % 2 ^ 32, some (base + 4, view n / 2 ^ 32))
    else match old with
      | some (o, v) => if o = off then (v, none) else (view n / 2 ^ 32, old)
      | none => (view n / 2 ^ 32, old)
  if off = 0x128 ∨ off = 0x12C then pair 0x128 1
  else if off = 0x130 ∨ off = 0x134 then pair 0x130 3
  else if off = 0x138 ∨ off = 0x13C then pair 0x138 0
  else (s.tileWord t off, old)

/-- What slot C writes to its destination register. -/
def cValue (st : Stage) (srd c : Nat) : Nat :=
  let a := st.s (bits c 15 11)
  let r := st.s (bits c 20 16)
  let sh := bits c 20 16
  match bits c 5 0 with
  | 1 => cut ((a : Int) + immOf c)
  | 2 => (a + r) % 2 ^ 32
  | 3 => cut ((a : Int) - r)
  | 4 => a * r % 2 ^ 32
  | 5 => Nat.land a r
  | 6 => Nat.lor a r
  | 7 => a * 2 ^ sh % 2 ^ 32
  | 8 => a / 2 ^ sh
  | 9 => cut (immOf c)
  | 10 => bits c 35 16 * 4096 % 2 ^ 32
  | 11 => (st.v (bits c 29 24)).getD (bits c 23 16) 0
  | _ => srd

/-- The branch of slot C is taken. -/
def cTaken (st : Stage) (c : Nat) : Bool :=
  let d := st.s (bits c 10 6)
  let a := st.s (bits c 15 11)
  match bits c 5 0 with
  | 0x10 => true
  | 0x11 => d == a
  | 0x12 => d != a
  | 0x13 => decide (sgn d < sgn a)
  | 0x14 => decide (sgn a ≤ sgn d)
  | _ => false

/-! ### Execution -/

/-- Executes the bundle at the tile's program counter: all slots read before any writes, R77. -/
def State.runBundle (s : State) (t : Nat) (st : Stage) (b : Bundle) : State :=
  let c := st.ctx
  let img := (s.tile t).curveImg st.slot (bits b.v 40 38)
  if !b.legal st.fmts then s.raise (tilePage t) 8 (some c) 0
  else if usesCurve b.vOp && img.isNone then s.raise (tilePage t) 15 (some c) 0
  else
    let w := if b.mEn then s.mWaits t st b.m else 0
    if w ≠ 0 then s.wr Reg.FN_STAT_WAIT t 0 w
    else
      let s := (s.wr Reg.FN_STAT_WAIT t 0 0).count (tilePage t) 4 1
      let pc := s.rd Reg.FN_STAT_PC t
      let g := s.gen c (s.rd Reg.CTX_STEP_NUM c) (st.s 30 % 2 ^ 16) (st.s 30 / 2 ^ 16)
      let rd := if b.cOp = 12 then s.srd t st (bits b.c 27 16) else (0, (s.tile t).latch)
      let r := if b.mEn then s.mExec t st b.m else (s, none)
      -- a corrected word (bit 0) lets the bundle go on; any other fault ends it
      if (r.1.due.drop s.due.length).any (fun d => d.bit != 0) then r.1
      else
        let s := r.1
        let s := if b.cOp = 12 then s.setTile t { s.tile t with latch := rd.2 } else s
        -- slots V and C wrote from the registers before the bundle; what slot M noted in the stage is kept
        let now := ((s.tile t).stage).getD st
        let vr := if b.vEn then vWrite st (img.getD []) g b.v else (st, false, false)
        let nx := { now with vreg := vr.1.vreg, mreg := vr.1.mreg }
        let nx := r.2.elim nx (fun x => nx.setV x.1 x.2)
        let nx := if decide (1 ≤ b.cOp) && decide (b.cOp ≤ 12) then nx.setS (bits b.c 10 6) (cValue st rd.1 b.c) else nx
        let nx := if b.cOp = 0x1F then { nx with ended := true } else nx
        let s := s.setStage t nx
        let s := if vr.2.1 then s.wr Reg.FN_FP_NAN t 0 1 else s
        let s := if vr.2.2 then s.wr Reg.FN_FP_SAT t 0 1 else s
        if b.cOp = 0x1F then s.wr Reg.FN_STAT_WAIT t 0 5
        else
          let target : Int := if b.cEn && cTaken st b.c then (pc : Int) + immOf b.c else (pc : Int) + 1
          if target < 0 ∨ (s.rd Reg.CS_IMEM_SIZE t st.slot * 256 : Nat) ≤ target then s.raise (tilePage t) 10 (some c) 0
          else s.wr Reg.FN_STAT_PC t 0 target.toNat

/-- A command of the Finisher's program on tile `t`: the bundle at the program counter is executed where it holds operation `op`
in slot V (0), M (1) or C (2), and so are a bundle with no slot and one that R77 makes illegal, which no command names. -/
def State.finisher (s : State) (t slot op : Nat) : State :=
  if !s.tileRuns t then s
  else match (s.tile t).stage with
    | none => s
    | some st =>
      if st.ended then s
      else match s.bundleAt t st with
        | none => s.raise (tilePage t) 10 (some st.ctx) 0
        | some b =>
          let here := match slot with | 0 => b.vOp | 1 => b.mOp | _ => b.cOp
          let blank := !b.vEn && !b.mEn && !b.cEn
          if here = op ∨ blank ∨ !b.legal st.fmts then s.runBundle t st b else s

/-- PEG_WAIT_END: a PTAKE or PWAIT that waits finds the count sufficient and proceeds, R82. -/
def State.pegWaitEnd (s : State) (t : Nat) : State :=
  if s.rd Reg.FN_STAT_WAIT t ≠ 1 then s
  else
    let s := s.finisher t 1 9
    if s.rd Reg.FN_STAT_WAIT t = 1 then s.finisher t 1 10 else s

end Sys2Proof.Machine
end

