-- ==== Sys2Proof/Machine/Stages.lean ====
section
/-! DEFINITION. Stages: opening (R87, R88, R93), boundary (R89, R90), abandonment (R91, R120), the Mangle channels (R115 to R122),
bridges (R123 to R125), and loading of programs and curve tables (R95 to R98). -/

namespace Sys2Proof.Machine

open Sys2Proof

/-! ### Abandonment -/

/-- The physical tiles that a group's record in progress still goes to, R117. -/
def State.targetSet (s : State) (g : Nat) (f : Feed) : List Nat := (s.groupTiles g).filter (fun l => !f.done.contains l)

/-- The sum of the amounts that a list of takes or posts holds for a tile peg. -/
def pegSum (l : List (Nat × Nat)) (g : Nat) : Nat := ((l.filter (fun x => x.1 == g)).map Prod.snd).sum

/-- Reverses posts and takes of a stage, peg by peg, R91. -/
def State.undoPegs (s : State) (t : Nat) (st : Stage) : State :=
  let s := ((st.takes ++ st.posts).map Prod.fst).eraseDups.foldl (fun s g =>
    s.wr Reg.PEG_COUNT t g (s.rd Reg.PEG_COUNT t g + pegSum st.takes g - pegSum st.posts g)) s
  (st.takes ++ st.posts).foldl (fun s x => s.wr Reg.PEG_HELD t x.1 0) s

/-- Abandons the stage open on one tile, R91: commands cancelled, banks cleared, transfers in flight dropped, takes and own posts
reversed, deferred effects discarded. -/
def State.abandonTile (s : State) (t : Nat) : State :=
  let x := s.tile t
  match x.stage with
  | none => s
  | some st =>
    let s := s.dropMoves (fun m => m.tile == t)
    let s := s.undoPegs t st
    let s := s.setTile t { s.tile t with stage := none, press := [], bankX := [], bankY := [], inex := 0, mbuf := [] }
    let s := (s.wr Reg.FN_LAST_ABANDONED t 0 1).wr Reg.FN_BCTX t 0 st.ctx
    let s := ((s.wr Reg.FN_STAT_RUNNING t 0 0).wr Reg.FN_STAT_WAIT t 0 0).pxShow t
    s.count (0x300 + st.ctx) 4 1

/-- The feed of a group goes back to the first vector of its record, R120. -/
def State.rewindFeed (s : State) (g : Nat) : State :=
  match SMap.find s.feeds g with
  | none => s
  | some f => { s with feeds := SMap.put s.feeds g { f with sent := 0, far := 0, farBuf := [] } }

/-- Abandons the stage open on a tile and, where it took part in a feed record, the context's open stages on every other tile of
the target set, R120. -/
def State.abandon (s : State) (t : Nat) : State :=
  match (s.tile t).stage with
  | none => s
  | some st =>
    let g := (s.logicalOf t).bind s.groupOf
    let s := s.abandonTile t
    match g with
    | none => s
    | some g =>
      match SMap.find s.feeds g with
      | none => s
      | some f =>
        if f.ctx ≠ st.ctx ∨ !st.mangle ∨ f.done.contains ((s.logicalOf t).getD 255) then s
        else
          let s := (s.targetSet g f).foldl (fun s l =>
            if ((s.tile (s.phys l)).stage).any (fun x => x.ctx == st.ctx) then s.abandonTile (s.phys l) else s) s
          s.rewindFeed g

/-- Drops the record in progress of a context's feeds, closing its tag-checked reads. -/
def State.dropFeeds (s : State) (c : Nat) : State :=
  let s := s.feeds.foldl (fun s x => if x.2.ctx = c then s.closeReaders x.2.regions else s) s
  { s with feeds := s.feeds.filter (fun x => x.2.ctx != c) }

/-! ### Opening -/

/-- A stage list record is well formed, Table 4-10. -/
def recordOk (w : List Nat) (bundles : Nat) : Bool :=
  wfield w 0 15 14 == 0 && wfield w 0 31 22 == 0 && wfield w 1 31 24 == 0
    && wfield w 3 31 1 == 0 && decide (wfield w 0 13 0 < bundles)

/-- The context may open stages on the tile through a slot: bound, active program, step in progress, not reported, R93. -/
def State.slotLive (s : State) (t n : Nat) : Bool :=
  let c := s.rd Reg.CS_CTX t n
  let x := s.tile t
  s.rdB Reg.CS_VALID t n && s.rdB Reg.CTX_EXEC_STEP_BUSY c && s.cstate c == 1
    && !(SMap.get SlotRun.empty x.slots n).reported && (s.tilesOfCtx c).contains t
    && s.mayWork (tilePage t) 0 c

/-- The words of the slot's next stage list record. -/
def State.nextRecord (s : State) (t n : Nat) : List Nat :=
  let r := SMap.get SlotRun.empty (s.tile t).slots n
  toWords 4 (s.pantry.readBytes (pantryAddr t (s.rd Reg.CS_SLIST t n * 256 + 16 * r.ix)) 16)

/-- The slot's next record may open: its OPEN_PEG has reached OPEN_MIN; a bad record counts as ready, so that it is reached. -/
def State.slotReady (s : State) (t n : Nat) : Bool :=
  let w := s.nextRecord t n
  s.slotLive t n &&
    (!recordOk w (s.rd Reg.CS_IMEM_SIZE t n * 256) || wfield w 1 23 0 == 0 ||
      match s.pegOf t n (wfield w 0 21 16) with
      | none => true
      | some g => decide (wfield w 1 23 0 ≤ s.rd Reg.PEG_COUNT t g))

/-- Opens the stage of a slot's next record, R87, R88. -/
def State.openStage (s : State) (t n : Nat) : State :=
  let c := s.rd Reg.CS_CTX t n
  let x := s.tile t
  let r := SMap.get SlotRun.empty x.slots n
  let a := s.rd Reg.CS_SLIST t n * 256 + 16 * r.ix
  if !s.inAlloc t n a 16 then s.raise (tilePage t) 9 (some c) 0
  else match s.pantryGet t a 16 with
    | (s, none) => s
    | (s, some l) =>
      let w := toWords 4 l
      if !recordOk w (s.rd Reg.CS_IMEM_SIZE t n * 256) then s.raise (tilePage t) 8 (some c) 0
      else if wfield w 1 23 0 ≠ 0 ∧ (s.pegOf t n (wfield w 0 21 16)).isNone then s.raise (tilePage t) 11 (some c) 0
      else
        let sreg : SMap Nat := [(0, r.run), (1, wfield w 2 15 0 * 256), (2, s.rd Reg.CTX_STEP_NUM c),
          (3, (s.logicalOf t).getD 0), (4, r.ix)]
        let st : Stage := { ctx := c, slot := n, ix := r.ix, run := r.run, last := wfield w 3 0 0 == 1
                            lastRun := r.run == wfield w 2 31 16, fmts := s.fmts (partOfCtx c), vreg := [], mreg := []
                            sreg := sreg.filter (fun p => p.2 != 0), takes := [], posts := [], deferred := [], slabs := []
                            prev := none, mangle := false, marked := false, ended := false }
        let s := s.setTile t { s.tile t with stage := some st, lastSlot := n }
        let s := (s.wr Reg.FN_STAT_RUNNING t 0 1).wr Reg.FN_STAT_WAIT t 0 0
        (s.wr Reg.FN_STAT_CTX t 0 c).wr Reg.FN_STAT_PC t 0 (wfield w 0 13 0)

/-- STAGE_OPEN: the tile opens the next ready stage, in round-robin order after the slot that last opened, R93. -/
def State.stageOpen (s : State) (t : Nat) : State :=
  if !s.tileRuns t || (s.tile t).stage.isSome || s.rdB Reg.PAGE_DRAIN (tilePage t) then s
  else
    let x := s.tile t
    match ((List.range 16).map (fun i => (x.lastSlot + 1 + i) % 16)).find? (s.slotReady t) with
    | none => s
    | some n => s.openStage t n

/-- At the acceptance of a STEP: list positions, HIWATER and feed positions of the context, R87, R116, Table 5-3. -/
def State.tilesStep (s : State) (c : Nat) : State :=
  let s := (s.tilesOfCtx c).foldl (fun s t =>
    let s := match s.slotOf t c with
      | none => s
      | some n =>
        let x := s.tile t
        let r := SMap.get SlotRun.empty x.slots n
        s.setTile t { x with slots := SMap.set SlotRun.empty x.slots n { r with ix := 0, run := 0, reported := false } }
    (List.range 16).foldl (fun s q =>
      if s.rdB Reg.RQ_VALID t q && s.rd Reg.RQ_CTX t q == c then s.wr Reg.RQ_HIWATER t q 0 else s) s) s
  (s.groupsOf c).foldl (fun s g => s.wr Reg.CTX_MPOS c g 0) s

/-- The tile has reported the step of a context complete, R87. -/
def State.tileReported (s : State) (t c : Nat) : Bool :=
  match s.slotOf t c with
  | none => false
  | some n => (SMap.get SlotRun.empty (s.tile t).slots n).reported

/-! ### Boundary -/

/-- Total of a stage's takes from a tile peg. -/
def Stage.taken (st : Stage) (g : Nat) : Nat := pegSum st.takes g

/-- QHEAD and QTAIL advance at the boundary, R111. -/
def State.advanceQueues (s : State) (t : Nat) (st : Stage) : State :=
  let s := st.slabs.foldl (fun s x =>
    s.wr Reg.SQ_QHEAD t x.1 ((s.rd Reg.SQ_QHEAD t x.1 + x.2) % max 1 (s.rd Reg.SQ_QSLOTS t x.1))) s
  (List.range 16).foldl (fun s q =>
    if s.rdB Reg.RQ_VALID t q && s.rd Reg.RQ_CTX t q == st.ctx then
      match s.pegOf t st.slot (s.rd Reg.RQ_DATA_PEG t q) with
      | none => s
      | some g => s.wr Reg.RQ_QTAIL t q ((s.rd Reg.RQ_QTAIL t q + st.taken g) % max 1 (s.rd Reg.RQ_QSLOTS t q))
    else s) s

/-- Releases a stage's deferred effects in program order, R90. -/
def State.release (s : State) (t : Nat) (st : Stage) : State :=
  st.deferred.foldl (fun s d => match d with
    | .post dest peg amount => s.postLeaves ⟨st.ctx, t, dest, peg, amount⟩
    | .mark stack key member => { s with foldMarks := s.foldMarks ++ [⟨st.ctx, stack, key, member⟩] }) s

/-- STAGE_BOUNDARY: END has been reached and every command, transfer and bundle is done; the boundary commits in one step, R89. -/
def State.stageBoundary (s : State) (t : Nat) : State :=
  let x := s.tile t
  match x.stage with
  | none => s
  | some st =>
    if !s.tileRuns t || !st.ended || !x.press.isEmpty || s.moves.any (fun m => m.tile == t) then s
    else if st.mangle && (!st.marked || !x.mbuf.isEmpty) then
      s.raise (0x60 + dieOfTile t) 0 (some st.ctx) (((s.logicalOf t).bind s.groupOf).elim 0 (fun g => s.rd Reg.CFG_SGM_CH 0 g))
    else if st.last && st.lastRun && st.deferred.length == 64 then s.raise (tilePage t) 14 (some st.ctx) 0
    else
      let r := SMap.get SlotRun.empty x.slots st.slot
      let r := if st.lastRun then { r with ix := st.ix + 1, run := 0, reported := r.reported || st.last }
        else { r with run := st.run + 1 }
      let s := (s.advanceQueues t st).release t st
      let s := (st.takes ++ st.posts).foldl (fun s x => s.wr Reg.PEG_HELD t x.1 0) s
      let s := s.setTile t { s.tile t with
        stage := none, bankX := [], bankY := [], inex := 0, mbuf := []
        slots := SMap.set SlotRun.empty (s.tile t).slots st.slot r }
      let s := (s.addF Reg.FN_STAGE_SERIAL t 0 1).wr Reg.FN_BCTX t 0 st.ctx
      let s := ((s.wr Reg.FN_LAST_ABANDONED t 0 0).wr Reg.FN_STAT_RUNNING t 0 0).wr Reg.FN_STAT_WAIT t 0 0
      let s := ((s.progress (tilePage t) 1).count (tilePage t) 7 1).count (0x300 + st.ctx) 3 1
      match (s.logicalOf t), (s.logicalOf t).bind s.groupOf with
      | some l, some g =>
        match SMap.find s.feeds g with
        | some f => if st.mangle && f.ctx == st.ctx && !f.done.contains l then
            { s with feeds := SMap.put s.feeds g { f with done := f.done ++ [l] } } else s
        | none => s
      | _, _ => s

/-! ### Mangle, R115 to R122 -/

/-- The dies of a group: of its first and last tile. -/
def State.groupDies (s : State) (g : Nat) : Nat × Nat :=
  (dieOfLogical (s.rd Reg.CFG_SG_FIRST 0 g), dieOfLogical (s.rd Reg.CFG_SG_FIRST 0 g + s.rd Reg.CFG_SG_SIZE 0 g - 1))

/-- The context for which a tile grants a credit, R117. -/
def State.credit (s : State) (t : Nat) : Option Nat :=
  let x := s.tile t
  if 64 ≤ x.mbuf.length then none
  else (x.press.find? (fun c => wfield c.words 0 12 12 == 0)).map (fun c => c.ctx)

/-- A tile's Press demands a vector after the marked one, or has one of the wrong size: MANGLE_SKEW, R118. -/
def State.skewed (s : State) (t : Nat) : Bool :=
  let x := s.tile t
  x.press.any (fun c => wfield c.words 0 12 12 == 0 &&
    (c.got.any (fun v => v.length != c.vb) || (x.stage.any (fun st => st.marked) && decide (c.got.length < c.demand))))

/-- Raises MANGLE_SKEW for a tile of a group where it holds. -/
def State.skewCheck (s : State) (t : Nat) : State :=
  if s.skewed t then
    s.raise (0x60 + dieOfTile t) 0 ((s.tile t).stage.map (fun st => st.ctx))
      (((s.logicalOf t).bind s.groupOf).elim 0 (fun g => s.rd Reg.CFG_SGM_CH 0 g))
  else s

/-- RECORD_START: the channel of a group starts the record of the context that every tile of the group credits, R119, R121. -/
def State.recordStart (s : State) (g : Nat) : State :=
  let ls := s.groupTiles g
  let d := (s.groupDies g).1
  let ch := s.rd Reg.CFG_SGM_CH 0 g
  if 8 ≤ g ∨ ls.isEmpty ∨ s.rd Reg.CFG_SGM_MEN 0 g = 0 ∨ (SMap.find s.feeds g).isSome ∨ s.rd Reg.FLT_HALTED = 1 then s
  else match s.credit (s.phys (ls.headD 0)) with
    | none => s
    | some c =>
      if !ls.all (fun l => s.credit (s.phys l) == some c) then s
      else
        let a := s.rd Reg.CTX_MFEED c g * 256 + 16 * s.rd Reg.CTX_MPOS c g
        let bad := fun (s : State) => s.raise (0x60 + d) 1 (some c) ch
        let r := s.larderOk c 0 a 16
        if !r.2 then bad r.1
        else if s.dieCut d a then s.hubLost d c
        else match r.1.larderGet (some c) a 16 with
          | (s, none) => s
          | (s, some l) =>
            let w := toWords 4 l
            let vb := 4 * wfield w 1 31 24
            if wfield w 2 31 2 ≠ 0 ∨ w.getD 3 0 ≠ 0 ∨ wfield w 1 23 0 = 0 ∨ vb = 0 ∨ 256 < vb then bad s
            else
              let circ := wfield w 2 0 0 == 1
              let r := s.larderOk c (if circ then 2 else 0) (w.getD 0 0 * 256) (wfield w 1 23 0 * vb)
              if !r.2 then bad r.1
              else if s.dieCut d (w.getD 0 0 * 256) then s.hubLost d c
              else
                let rg := if circ then s.tagReady c [(w.getD 0 0 * 256, wfield w 1 23 0 * vb)] else none
                if circ && rg.isNone then s
                else
                  let s := s.openReaders (rg.getD [])
                  let f : Feed := ⟨c, s.rd Reg.CTX_MPOS c g, w, 0, 0, [], [], circ, rg.getD []⟩
                  let s : State := { s with feeds := SMap.put s.feeds g f }
                  let s := (s.wr Reg.MCH_OPEN d ch 1).wr Reg.MCH_CTX d ch c
                  if (s.groupDies g).2 = d then s
                  else
                    let e := (s.groupDies g).2
                    let rc := s.rd Reg.CFG_SGM_RCH 0 g
                    (s.wr Reg.MCH_OPEN e rc 1).wr Reg.MCH_CTX e rc c

/-- Gives a vector to a tile: into its buffer and on to its commands; the last vector of a record is marked. -/
def State.takeVector (s : State) (t : Nat) (v : List Byte) (last : Bool) : State :=
  let x := s.tile t
  let q := feedPress x.press (x.mbuf ++ [v])
  let st := x.stage.map (fun st => { st with marked := st.marked || last, mangle := true })
  let s := s.setTile t { x with stage := st, press := q.1, mbuf := q.2 }
  (s.countF (tilePage t) Reg.RT_MVEC t 0 1).skewCheck t

/-- MANGLE_DELIVER: the channel of a group, or its repeat channel, delivers the next vector to every tile of the target set on its
die once all hold a credit, R117, R122. -/
def State.mangleDeliver (s : State) (g : Nat) (far : Bool) : State :=
  match SMap.find s.feeds g with
  | none => s
  | some f =>
    let d := (s.groupDies g).1
    let e := (s.groupDies g).2
    let n := wfield f.words 1 23 0
    let vb := 4 * wfield f.words 1 31 24
    let die := if far then e else d
    let ts := (s.targetSet g f).filter (fun l => dieOfLogical l == die)
    let idx := if far then f.far else f.sent
    if s.rd Reg.FLT_HALTED = 1 || (far && (d == e || f.farBuf.isEmpty)) || decide (n ≤ idx) || !ts.all (fun l => s.credit (s.phys l) == some f.ctx)
        || (!far && d != e && decide (64 ≤ f.farBuf.length)) then s
    else if far then
      let v := f.farBuf.headD []
      let s : State := { s with feeds := SMap.put s.feeds g { f with far := f.far + 1, farBuf := f.farBuf.drop 1 } }
      let s := ts.foldl (fun s l => s.takeVector (s.phys l) v (idx + 1 == n)) s
      (s.countF (0x60 + e) Reg.MCH_VEC e (s.rd Reg.CFG_SGM_RCH 0 g) 1).count (0x300 + f.ctx) 2 ts.length
    else if d != e && s.bridgeDown d e then s.raise (0x60 + e) 3 (some f.ctx) d
    else if s.dieCut d (f.words.getD 0 0 * 256 + idx * vb) then s.hubLost d f.ctx
    else match s.larderGet (some f.ctx) (f.words.getD 0 0 * 256 + idx * vb) vb with
      | (s, none) => s
      | (s, some v) =>
        let s : State := { s with feeds := SMap.put s.feeds g { f with
          sent := f.sent + 1, farBuf := if d == e then [] else f.farBuf ++ [v] } }
        let s := if d == e then s else s.flitsSent d e vb
        let s := ts.foldl (fun s l => s.takeVector (s.phys l) v (idx + 1 == n)) s
        (s.countF (0x60 + d) Reg.MCH_VEC d (s.rd Reg.CFG_SGM_CH 0 g) 1).count (0x300 + f.ctx) 2 ts.length

/-- RECORD_RETIRE: every tile of the group has committed the consuming stage; POS advances, R119. -/
def State.recordRetire (s : State) (g : Nat) : State :=
  match SMap.find s.feeds g with
  | none => s
  | some f =>
    if !(s.targetSet g f).isEmpty then s
    else
      let d := (s.groupDies g).1
      let e := (s.groupDies g).2
      let s := s.closeReaders f.regions
      let s : State := { s with feeds := SMap.del s.feeds g }
      let s := s.addF Reg.CTX_MPOS f.ctx g 1
      let s := s.wr Reg.MCH_OPEN d (s.rd Reg.CFG_SGM_CH 0 g) 0
      if d = e then s else s.wr Reg.MCH_OPEN e (s.rd Reg.CFG_SGM_RCH 0 g) 0

/-- LAGGARD, Table 5-10: tile `t` of a group comes to hold a credit for context `c`, and was the last that the channel of its die
waited for: among the tiles of the group before a record starts, among those of its die that the record still goes to after. -/
def State.laggard (s : State) (t c : Nat) : State :=
  match s.logicalOf t, (s.logicalOf t).bind s.groupOf with
  | some l, some g =>
    let d := (s.groupDies g).1
    let e := dieOfLogical l
    let near := fun ls => ls.all (fun k => s.credit (s.phys k) == some c)
    match SMap.find s.feeds g with
    | none => if near (s.groupTiles g) then s.wr Reg.MCH_LAGGARD d (s.rd Reg.CFG_SGM_CH 0 g) l else s
    | some f =>
      let ls := (s.targetSet g f).filter (fun k => dieOfLogical k == e)
      if f.ctx = c ∧ ls.contains l ∧ near ls then
        s.wr Reg.MCH_LAGGARD e (s.rd (if e = d then Reg.CFG_SGM_CH else Reg.CFG_SGM_RCH) 0 g) l
      else s
  | _, _ => s

/-- After a Press command has been issued on a tile whose credit was `had`: one fed from Mangle may find the marked vector already
received, R118, and the tile may be the last to grant its credit. -/
def State.afterIssue (s : State) (t : Nat) (had : Option Nat) : State :=
  let s := match had, s.credit t with
    | none, some c => s.laggard t c
    | _, _ => s
  s.skewCheck t

/-- The group that channel `i` of die `d` is assigned to, and whether as its repeat channel, Table 5-10, R115. -/
def State.chanGroup (s : State) (d i : Nat) : Option (Nat × Bool) :=
  ((List.range 8).filter (fun g => s.rd Reg.CFG_SG_SIZE 0 g != 0 && s.rdB Reg.CFG_SGM_MEN 0 g)).findSome? (fun g =>
    let ds := s.groupDies g
    if ds.1 = d ∧ s.rd Reg.CFG_SGM_CH 0 g = i then some (g, false)
    else if ds.2 = d ∧ ds.1 ≠ d ∧ s.rd Reg.CFG_SGM_RCH 0 g = i then some (g, true)
    else none)

/-! ### Bridges and the mesh, R124 and R125 -/

/-- A flit arrives wrong for the fifth time, after four replays, or, on the mesh, once: its packet is dropped, R124. -/
def State.flitLost (s : State) (mesh : Bool) (d e : Nat) (errs : List (Nat × Nat)) (badCrc : Bool) : Bool :=
  (badCrc || (rsDecode false errs).isNone)
    && (if mesh then decide (d < 176)
        else decide (d < 4) && decide (e < 5) && d != e && s.rdB Reg.BE_UP d e && decide (4 ≤ (SMap.get ⟨0, 0⟩ s.bridges (8 * d + e)).fails))

/-- FLIT_ARRIVE: a flit with an error pattern, or a packet with a bad sideband CRC, of a context or of none, arrives at a tile
router (`mesh`) or at end `e` of die `d`. -/
def State.flitArrive (s : State) (mesh : Bool) (d e : Nat) (errs : List (Nat × Nat)) (badCrc : Bool) (c : Option Nat) : State :=
  let dec := rsDecode false errs
  let bad := badCrc || dec.isNone
  let fixed := dec.any (fun x => !x.1.isEmpty)
  if mesh then
    if 176 ≤ d then s
    else if bad then s.raise (tilePage d) 19 c 0
    else if fixed then s.raise (tilePage d) 18 c 0 else s
  else if 4 ≤ d ∨ 5 ≤ e ∨ d = e ∨ s.rd Reg.BE_UP d e = 0 then s
  else
    let k := 8 * d + e
    let b := SMap.get ⟨0, 0⟩ s.bridges k
    let set := fun (s : State) (b : Bridge) => ({ s with bridges := SMap.set ⟨0, 0⟩ s.bridges k b } : State)
    -- the sending end counts the flit and the replays, where a compute die holds it
    let src := fun (s : State) (f : Field) => if e < 4 then s.countF (0x60 + e) f e d 1 else s
    let s := src s Reg.BR_FLITS
    if bad then
      -- the first arrival and four replays have failed
      if 4 ≤ b.fails then
        let s := (set s { b with fails := 0 }).wr Reg.BE_RETRYING d e 0
        let s := if c.isSome then s else { s with lostReqs := s.lostReqs ++ [(d, e)] }
        s.raise (0x60 + d) 3 c e
      else (set (src s Reg.BR_REPLAY) { b with fails := b.fails + 1 }).wr Reg.BE_RETRYING d e 1
    else
      let s := s.wr Reg.BE_RETRYING d e 0
      if fixed then
        ((set s { fails := 0, corr := b.corr + 1 }).countF (0x60 + d) Reg.BR_CE d e 1).raise (0x60 + d) 2 c e
      else set s { b with fails := 0 }

/-- BRIDGE_WEAK: at the end of a second, more corrections than BR_CE_LIM, R125. -/
def State.bridgeWeak (s : State) (d e : Nat) : State :=
  if 4 ≤ d ∨ 5 ≤ e ∨ d = e then s
  else
    let b := SMap.get ⟨0, 0⟩ s.bridges (8 * d + e)
    let s : State := { s with bridges := SMap.set ⟨0, 0⟩ s.bridges (8 * d + e) { b with corr := 0 } }
    if s.rd Reg.BR_CE_LIM d e < b.corr then s.raise (0x60 + d) 4 none e else s

/-! ### Loading, R95 to R98 -/

/-- First staging byte of a partition's area, Table 12-2. -/
def stagePart (p : Nat) : Nat := 0x3800000 + 0x200000 * p

/-- `n` bytes at staging offset `a` lie in a partition's area. -/
def inStagePart (p a n : Nat) : Bool := decide (stagePart p ≤ a) && decide (a + n ≤ stagePart p + 0x200000)

/-- The image that SRC and LEN of a context name. -/
def State.staged (s : State) (c : Nat) : List Byte := s.staging.readBytes (s.rd Reg.CTX_LOAD_SRC c * 64) (s.rd Reg.CTX_LOAD_LEN c)

/-- Bundles of a program image. -/
def imgBundles (img : List Byte) : Nat := bits (curveWord img 1) 31 16

/-- Curve digests of a program image. -/
def imgCurves (img : List Byte) : Nat := bits (curveWord img 2) 3 0

/-- The header of a program image follows Table 4-12, and the length agrees with it. -/
def imageOk (img : List Byte) : Bool :=
  curveWord img 0 == 0x50534E46 && bits (curveWord img 1) 15 0 == 1 && decide (1 ≤ imgBundles img)
    && decide (imgBundles img ≤ 16384) && decide (imgCurves img ≤ 8) && bits (curveWord img 2) 15 4 == 0
    && (List.range 13).all (fun i => curveWord img (3 + i) == 0)
    && img.length == 64 + 32 * imgCurves img + 16 * imgBundles img

/-- INUSE of the curve slots of a tile, Table 4-16. -/
def State.showCurves (s : State) (t : Nat) : State :=
  let x := s.tile t
  (List.range 8).foldl (fun s k =>
    s.wrB Reg.FN_CT_INUSE t k (x.slots.any (fun r => r.2.active && r.2.curves.contains k))) s

/-- Marks of received chunks: bits of the chunk registers. -/
def chunkMask (n lo hi : Nat) (missed : List Nat) : Nat :=
  ((List.range n).filter (fun i => decide (lo ≤ i) && decide (i < hi) && !missed.contains i)).foldl (fun m i => m + 2 ^ (i - lo)) 0

/-- A tile begins to receive the chunks of an image of `len` bytes for a context: FN_LOAD and the chunk registers, Table 4-16. -/
def State.chunksBegin (s : State) (t c len : Nat) : State :=
  let s := (s.wr Reg.FN_LCTX t 0 c).wr Reg.FN_MISSING t 0 ((len + 4095) / 4096)
  ((s.wr Reg.FN_CHUNK_LO t 0 0).wr Reg.FN_CHUNK_HI t 0 0).wr Reg.FN_CHUNK_64 t 0 0

/-- The chunks that a tile has marked when the rounds are over: all of `n` but those `lost`. -/
def State.chunksEnd (s : State) (t n : Nat) (lost : List Nat) : State :=
  let s := (s.wr Reg.FN_MISSING t 0 lost.length).wr Reg.FN_CHUNK_LO t 0 (chunkMask n 0 32 lost)
  (s.wr Reg.FN_CHUNK_HI t 0 (chunkMask n 32 64 lost)).wrB Reg.FN_CHUNK_64 t 0 (decide (64 < n) && !lost.contains 64)

/-- The chunks of `n` that a LOAD_DONE or CURVE_DONE names as still missing on a tile. -/
def lostOn (missed : List (Nat × List Nat)) (n t : Nat) : List Nat :=
  (List.range n).filter (fun i => (((missed.find? (fun x => x.1 == t)).map Prod.snd).getD []).contains i)

/-- The received bytes of a program's bundles, as (offset in the region, bytes): whole, or what the chunks that came hold of them. -/
def codeParts (img : List Byte) (n : Nat) (lost : List Nat) : List (Nat × List Byte) :=
  let h := 64 + 32 * imgCurves img
  if lost.isEmpty then [(0, img.drop h)]
  else ((List.range n).filter (fun i => !lost.contains i)).map (fun i =>
    (4096 * i - h, ((img.drop (4096 * i)).take 4096).drop (h - 4096 * i)))

/-- LOAD, R96: refused, or loading begins on every tile of the groups in SG_MASK. An absent logical tile has no slot (DEDUCED, log entry 24). -/
def State.load (s : State) (c : Nat) : State :=
  let p := partOfCtx c
  let ts := s.tilesOfCtx c
  let img := s.staged c
  let a := s.rd Reg.CTX_LOAD_SRC c * 64
  if s.cstate c ≠ 1 ∨ s.rd Reg.CTX_EXEC_STEP_BUSY c = 1 ∨ s.rd Reg.CTX_LOAD_STATE c = 1 ∨ s.rd Reg.CTX_SG_MASK c = 0
      ∨ !ts.all (fun t => (s.slotOf t c).isSome) ∨ !(s.groupsOf c).all (fun g => (s.groupTiles g).all s.present)
      ∨ !inStagePart p a (s.rd Reg.CTX_LOAD_LEN c) ∨ !imageOk img
      ∨ !ts.all (fun t => decide (imgBundles img * 16 ≤ s.rd Reg.CS_IMEM_SIZE t ((s.slotOf t c).getD 0) * 4096)) then
    s.wr Reg.CTX_LOAD_REFUSED c 0 1
  else
    let s := (s.wr Reg.CTX_LOAD_REFUSED c 0 0).wr Reg.CTX_LOAD_STATE c 0 1
    let s := s.setCtx c { s.ctx c with loadDig := s.rd Reg.CTX_PROG_DIGEST c, loadImg := img, loadTiles := ts }
    ts.foldl (fun s t =>
      let n := (s.slotOf t c).getD 0
      let x := s.tile t
      let r := SMap.get SlotRun.empty x.slots n
      let s := s.setTile t { x with slots := SMap.set SlotRun.empty x.slots n { r with active := false, curves := [] } }
      let s := (s.wr Reg.FN_DIGEST_OK t 0 0).wr Reg.FN_DIGEST_BAD t 0 0
      (s.chunksBegin t c img.length).showCurves t) s

/-- The curve slot of a tile that holds a digest. -/
def State.curveSlot (s : State) (t dig : Nat) : Option Nat :=
  (List.range 8).find? (fun k => s.rdB Reg.FN_CT_VALID t k && s.rd Reg.FN_CT_DIG t k == dig)

/-- LOAD_DONE: the chunks are in, or still missing on some tiles after 8 rounds; the program becomes active on every tile
together, or the load fails, R96, R97. The tiles are those of the LOAD. -/
def State.loadDone (s : State) (c : Nat) (missed : List (Nat × List Nat)) : State :=
  if 64 ≤ c ∨ s.rd Reg.CTX_LOAD_STATE c ≠ 1 then s
  else
    let ts := (s.ctx c).loadTiles
    let img := (s.ctx c).loadImg
    let n := (img.length + 4095) / 4096
    let same := digNat (sha256 img) == (s.ctx c).loadDig
    let digs := (List.range (imgCurves img)).map (fun i => leNat ((img.drop (64 + 32 * i)).take 32))
    let step := fun (x : State × Nat) t =>
      let slot := (x.1.slotOf t c).getD 0
      let lost := lostOn missed n t
      let s := x.1.chunksEnd t n lost
      let base := t * 2 ^ 18 + s.rd Reg.CS_IMEM_BASE t slot * 4096
      let s : State := { s with imem := (codeParts img n lost).foldl (fun m p => m.writeBytes (base + p.1) p.2) s.imem }
      -- a tile that misses a chunk does not hold the image, whatever it holds there
      let ok := same && lost.isEmpty
      let s := (s.wrB Reg.FN_DIGEST_OK t 0 ok).wrB Reg.FN_DIGEST_BAD t 0 !ok
      let absent := !lost.contains 0 && digs.any (fun d => (s.curveSlot t d).isNone)
      let s := if absent then s.raise (tilePage t) 15 (some c) 0 else s
      (s, if ok && !absent then x.2 else x.2 + 1)
    let r := ts.foldl step (s, 0)
    let s := r.1.setCtx c { r.1.ctx c with loadImg := [] }
    if r.2 = 0 then
      let s := (s.wr Reg.CTX_LOAD_STATE c 0 2).wr Reg.CTX_LOAD_FAIL_TILES c 0 0
      ts.foldl (fun s t =>
        let slot := (s.slotOf t c).getD 0
        let x := s.tile t
        let q := SMap.get SlotRun.empty x.slots slot
        (s.setTile t { x with slots := SMap.set SlotRun.empty x.slots slot { q with
          active := true, curves := digs.map (fun d => (s.curveSlot t d).getD 0) } }).showCurves t) s
    else (s.wr Reg.CTX_LOAD_STATE c 0 3).wr Reg.CTX_LOAD_FAIL_TILES c 0 (min 255 r.2)

/-- CURVE, R98: refused, or the curve load begins on every tile of the groups in SG_MASK. -/
def State.curve (s : State) (c : Nat) : State :=
  let a := s.rd Reg.CTX_LOAD_SRC c * 64
  let img := s.staged c
  let ts := s.tilesOfCtx c
  if s.cstate c ≠ 1 ∨ s.rd Reg.CTX_LOAD_STATE c = 1 ∨ s.rd Reg.CTX_LOAD_CURVE_STATE c = 1 ∨ s.rd Reg.CTX_SG_MASK c = 0
      ∨ !inStagePart (partOfCtx c) a (s.rd Reg.CTX_LOAD_LEN c) ∨ s.rd Reg.CTX_LOAD_LEN c ≠ 64 + 16 * curveSegs img then
    s.wr Reg.CTX_LOAD_CURVE_REFUSED c 0 1
  else
    let s := (s.wr Reg.CTX_LOAD_CURVE_REFUSED c 0 0).wr Reg.CTX_LOAD_CURVE_STATE c 0 1
    ts.foldl (fun s t => s.chunksBegin t c img.length) (s.setCtx c { s.ctx c with curveImg := img, curveTiles := ts })

/-- CURVE_DONE: every tile holds the table, or some failed to take it, R98. -/
def State.curveDone (s : State) (c : Nat) (missed : List (Nat × List Nat)) : State :=
  if 64 ≤ c ∨ s.rd Reg.CTX_LOAD_CURVE_STATE c ≠ 1 then s
  else
    let img := (s.ctx c).curveImg
    let n := (img.length + 4095) / 4096
    let dig := digNat (sha256 img)
    let step := fun (x : State × Nat) t =>
      let lost := lostOn missed n t
      let s := x.1.chunksEnd t n lost
      if (s.curveSlot t dig).isSome then (s, x.2)
      else match (List.range 8).find? (fun k => !s.rdB Reg.FN_CT_VALID t k || !s.rdB Reg.FN_CT_INUSE t k) with
        | none => (s, x.2 + 1)
        | some k =>
          if !lost.isEmpty || !curveOk img then (s, x.2 + 1)
          else
            let s := s.setTile t { s.tile t with curves := SMap.put (s.tile t).curves k img }
            (((s.wr Reg.FN_CT_VALID t k 1).wr Reg.FN_CT_NSEG t k (curveSegs img)).wr Reg.FN_CT_DIG t k dig, x.2)
    let r := (s.ctx c).curveTiles.foldl step (s, 0)
    let s := r.1.setCtx c { r.1.ctx c with curveImg := [] }
    if r.2 = 0 then (s.wr Reg.CTX_LOAD_CURVE_STATE c 0 2).wr Reg.CTX_LOAD_CURVE_FAIL_TILES c 0 0
    else (s.wr Reg.CTX_LOAD_CURVE_STATE c 0 3).wr Reg.CTX_LOAD_CURVE_FAIL_TILES c 0 (min 255 r.2)

/-- The program of a context is gone, R97, R99: STATE none, and no tile's slot holds it active. -/
def State.programGone (s : State) (c : Nat) : State :=
  (List.range 176).foldl (fun s t =>
    match s.slotOf t c with
    | none => s
    | some n =>
      let x := s.tile t
      let r := SMap.get SlotRun.empty x.slots n
      if !r.active then s
      else (s.setTile t { x with slots := SMap.set SlotRun.empty x.slots n { r with active := false, curves := [] } }).showCurves t)
    (s.wr Reg.CTX_LOAD_STATE c 0 0)

end Sys2Proof.Machine
end

