-- ==== Sys2Proof/Machine/Starch.lean ====
section
/-! DEFINITION. Starch: update records and their checks (R159 to R165), the optimizer rules (R166 to R168), user rules (R169), and
the copies that it lands. -/

namespace Sys2Proof.Machine

open Sys2Proof

/-! ### Rules, R166 to R168 -/

/-- −1.0, +0.0 or +1.0; NaN gives NaN. -/
def fsign (a : Nat) : Nat :=
  if (f32 a).isNan then nan32 else if (f32 a).isZero then 0 else if (f32 a).neg? then 0xBF800000 else 0x3F800000

/-- A > 0. -/
def fpos (a : Nat) : Bool := !(f32 a).isNan && !(f32 a).isZero && !(f32 a).neg?

/-- The inputs and outputs of an element: W, M1, M2 and the gradient. -/
structure Elem where
  w  : Nat
  m1 : Nat
  m2 : Nat
  g  : Nat
  deriving DecidableEq, Repr

/-- ADAMW. -/
def ruleAdamw (p : List Nat) (e : Elem) : Elem :=
  let P := fun i => p.getD i 0
  let g := fmul e.g (P 9)
  let m := ffma (P 1) e.m1 (fmul (P 2) g)
  let v := ffma (P 3) e.m2 (fmul (P 4) (fmul g g))
  let u := fdiv (fmul m (P 7)) (fadd (fsqrt (fmul v (P 8))) (P 5))
  ⟨ffnma (P 0) (ffma (P 6) e.w u) e.w, m, v, e.g⟩

/-- MSGD. -/
def ruleMsgd (p : List Nat) (e : Elem) : Elem :=
  let P := fun i => p.getD i 0
  let g := fmul e.g (P 9)
  let m := ffma (P 1) e.m1 g
  let u := if fpos (P 10) then ffma (P 1) m g else m
  ⟨ffnma (P 0) (ffma (P 6) e.w u) e.w, m, e.m2, e.g⟩

/-- SIGNMOM. -/
def ruleSignmom (p : List Nat) (e : Elem) : Elem :=
  let P := fun i => p.getD i 0
  let g := fmul e.g (P 9)
  let u := fsign (ffma (P 1) e.m1 (fmul (P 2) g))
  ⟨ffnma (P 0) (ffma (P 6) e.w u) e.w, ffma (P 3) e.m1 (fmul (P 4) g), e.m2, e.g⟩

/-- Pass 2 of FACTORED for an element of row statistic `rv` and column statistic `cv`, R167. -/
def ruleFactored (p : List Nat) (rv cv mean : Nat) (e : Elem) : Elem :=
  let P := fun i => p.getD i 0
  let g := fmul e.g (P 9)
  let vh := fdiv (fmul rv cv) mean
  let u := fdiv g (fadd (fsqrt vh) (P 5))
  ⟨ffnma (P 0) (ffma (P 6) e.w u) e.w, e.m1, e.m2, e.g⟩

/-- A statistic of pass 1: the sum of squares over the scaled gradients, divided, and mixed with the old value. -/
def factoredStat (p : List Nat) (old n : Nat) (gs : List Nat) : Nat :=
  let P := fun i => p.getD i 0
  let t := gs.foldl (fun t g => ffma (fmul g (P 9)) (fmul g (P 9)) t) 0
  ffma (P 3) old (fmul (P 4) (fdiv t (toF32 (Val.ofInt n))))

/-- One instruction of a user rule over the element registers, Table 6-11. -/
def ruleIns (p : List Nat) (e : List Nat) (ins : Nat) : List Nat :=
  let val := fun i => if i < 16 then e.getD i 0 else p.getD (i - 16) 0
  let a := val (bits ins 14 10)
  let b := val (bits ins 19 15)
  let c := val (bits ins 24 20)
  let r := match bits ins 5 0 with
    | 1 => fadd a b
    | 2 => fsub a b
    | 3 => fmul a b
    | 4 => ffma a b c
    | 5 => ffnma a b c
    | 6 => fdiv a b
    | 7 => fsqrt a
    | 8 => frsqrt a
    | 9 => toF32 (Val.max (f32 a) (f32 b))
    | 10 => toF32 (Val.min (f32 a) (f32 b))
    | 11 => canon32 (a % 2 ^ 31)
    | 12 => canon32 (if a < 2 ^ 31 then a + 2 ^ 31 else a - 2 ^ 31)
    | 13 => fsign a
    | 14 => canon32 (if fpos a then b else c)
    | _ => canon32 a
  e.set (bits ins 9 6) r

/-- A user rule on an element: `inm` and `outm` are its masks, `code` its instruction words. -/
def ruleUser (inm outm : Nat) (code p : List Nat) (e : Elem) : Elem :=
  let pick := fun i v => if bit inm i = 1 then v else 0
  let r := code.foldl (ruleIns p) ([pick 0 e.w, pick 1 e.m1, pick 2 e.m2, pick 3 e.g] ++ List.replicate 12 0)
  let out := fun i old => if bit outm i = 1 then r.getD i 0 else old
  ⟨out 0 e.w, out 1 e.m1, out 2 e.m2, e.g⟩

/-- Words of a user rule image. -/
def ruleWord (img : List Byte) (i : Nat) : Nat := leNat ((img.drop (4 * i)).take 4)

/-- Instructions of an image. -/
def ruleNins (img : List Byte) : Nat := bits (ruleWord img 1) 5 0

/-- OUTMASK of an image. -/
def ruleOut (img : List Byte) : Nat := bits (ruleWord img 1) 11 8

/-- INMASK of an image. -/
def ruleIn (img : List Byte) : Nat := bits (ruleWord img 1) 15 12

/-- The image follows Table 6-10, and its length agrees with NINS, R169. -/
def ruleOk (img : List Byte) : Bool :=
  ruleWord img 0 == 0x4C525453 && decide (1 ≤ ruleNins img) && decide (ruleNins img ≤ 32) && bits (ruleWord img 1) 7 6 == 0
    && bits (ruleWord img 1) 31 16 == 0 && [2, 3, 4, 5, 6, 7].all (fun i => ruleWord img i == 0)
    && (bit (ruleOut img) 3 == 0 || bit (ruleOut img) 0 == 1)
    && img.length == 32 + 4 * ruleNins img
    && (List.range (ruleNins img)).all (fun i =>
      let w := ruleWord img (8 + i)
      decide (1 ≤ bits w 5 0) && decide (bits w 5 0 ≤ 15) && bits w 31 25 == 0)

/-- What a rule slot reads and writes: inputs as INMASK, outputs as OUTMASK. None for an empty slot. -/
def State.ruleMasks (s : State) (st slot : Nat) : Option (Nat × Nat) :=
  match slot with
  | 0 => some (0b1111, 0b1111)
  | 1 => some (0b1011, 0b1011)
  | 2 => some (0b1011, 0b1011)
  | 3 => some (0b1001, 0b1001)
  | n => (SMap.find (SMap.get Starch.empty s.starch st).rules n).map (fun img => (ruleIn img, ruleOut img))

/-! ### Records, R159 to R162 -/

/-- A Starch engine beside its registers. -/
def State.starchAt (s : State) (st : Nat) : Starch := SMap.get Starch.empty s.starch st

/-- Sets a Starch engine's record. -/
def State.setStarch (s : State) (st : Nat) (x : Starch) : State := { s with starch := SMap.set Starch.empty s.starch st x }

/-- Larder address of record `k` of a context's update list on a stack. -/
def State.recAddr (s : State) (st c k : Nat) : Nat := s.rd Reg.STC_LIST st (c % 16) * 256 + 64 * k

/-- The words of that record as a read of Larder returns them; none where they are uncorrectable. -/
def State.recSeen (s : State) (st c k : Nat) : Option (List Nat) := (s.larderSeen (s.recAddr st c k) 64).map (toWords 16)

/-- The words of that record, none of them where it cannot be read. -/
def State.recWords (s : State) (st c k : Nat) : List Nat := (s.recSeen st c k).getD []

/-- The read of that record at a trigger, R170. -/
def State.recRead (s : State) (st c k : Nat) : State × Option (List Nat) :=
  let r := s.larderGet (some c) (s.recAddr st c k) 64
  (r.1, r.2.map (toWords 16))

/-- EN of a record. -/
def recEn (w : List Nat) : Bool := wfield w 0 3 3 == 1

/-- Bytes of a gradient element. -/
def recGsize (w : List Nat) : Nat := if wfield w 0 5 4 = 0 then 4 else 2

/-- Bytes of the copy's elements; its scale bytes follow. -/
def copyElems (f : Fmt) (w : List Nat) : Nat := (w.getD 1 0 * f.width + 7) / 8

/-- Bytes of the whole copy. In MX form a block holds as many elements as the BLOCK of its entry says, R65, be it 32, which Table 6-8
names, or 16 (DEDUCED, log entry 14). -/
def copyLen (f : Fmt) (w : List Nat) : Nat :=
  copyElems f w + (if wfield w 0 12 12 = 1 then (w.getD 1 0 + f.blockSize - 1) / f.blockSize else 0)

/-- Batches of a record. -/
def recBatches (w : List Nat) : Nat := (w.getD 1 0 + 4095) / 4096

/-- `n` bytes from `a` lie on the stack, in regions of context `c` that a kind of access may use. -/
def State.onStack (s : State) (st c kind a n : Nat) : Bool :=
  stackOf a == st && (s.larderCheck c kind 80 a n).isNone

/-- Region `r` of a stack is a valid tagged region of context `c`. -/
def State.taggedOf (s : State) (st c r : Nat) : Bool :=
  s.rdB Reg.LR_VALID st r && s.rdB Reg.LR_TAGGED st r && s.rd Reg.LR_CTX st r == c

/-- A record follows Table 6-8 and R159. -/
def State.recOk (s : State) (st c : Nat) (w : List Nat) : Bool :=
  match s.ruleMasks st (wfield w 0 2 0) with
  | none => false
  | some (inm, outm) =>
    let n := w.getD 1 0
    let greg := wfield w 5 5 0
    let oreg := wfield w 5 13 8
    let f := s.fmt (partOfCtx c) (wfield w 0 9 6)
    let mx := wfield w 0 12 12 == 1
    let fac := wfield w 0 2 0 == 3
    decide (wfield w 0 5 4 ≤ 1) && wfield w 0 31 13 == 0 && wfield w 5 7 6 == 0 && wfield w 5 31 14 == 0 && decide (1 ≤ n)
      -- every address, those that the rule leaves unused as well
      && [0, 1, 2].all (fun i => s.onStack st c 1 (w.getD (2 + i) 0 * 256) (if bit inm i = 0 ∧ bit outm i = 0 then 1 else 4 * n))
      && s.taggedOf st c greg && (bit inm 3 == 0 || decide (n * recGsize w ≤ s.regionSize st greg))
      && s.taggedOf st c oreg && (bit outm 3 == 0 || (f.valid && !mxMismatch f mx
        && (copyLen f w + 65535) / 65536 == s.rd Reg.LR_LLEN st oreg))
      && s.onStack st c 0 (w.getD 8 0 * 256) 512
      && (!fac || (w.getD 9 0 * w.getD 10 0 == n && s.onStack st c 1 (w.getD 11 0 * 256) (8 * w.getD 9 0)
        && s.onStack st c 1 (w.getD 12 0 * 256) (8 * w.getD 10 0)))

/-- FP32 numbers from a byte list. -/
def f32s (l : List Byte) : List Nat := toWords (l.length / 4) l

/-- Gradient elements, widened. -/
def gradVals (w : List Nat) (l : List Byte) : List Nat :=
  if recGsize w = 4 then f32s l else (unpackElems 16 (l.length / 2) (leNat l)).map (fun x => x * 65536)

/-- Reads and gives up at the first uncorrectable word. -/
def State.getAll (s : State) (c : Nat) : List (Nat × Nat) → State × Option (List (List Byte))
  | [] => (s, some [])
  | x :: r =>
    match if x.2 = 0 then (s, some []) else s.larderGet (some c) x.1 x.2 with
    | (s, none) => (s, none)
    | (s, some l) => let q := s.getAll c r; (q.1, q.2.map (fun t => l :: t))

/-- The copy of a batch from its new masters: codes, scale bytes and flags, R163. -/
def State.copyRow (s : State) (c step : Nat) (w : List Nat) (b : Nat) (ws : List Nat) : List Nat × List Nat × Nat :=
  let g := s.gen c step (wfield w 6 15 0) (wfield w 6 31 16)
  (s.fmt (partOfCtx c) (wfield w 0 9 6)).convertRow (wfield w 0 12 12 == 1) (wfield w 0 11 10)
    (ws.mapIdx (fun i x => (f32 x, g.bits (w.getD 7 0 + 4096 * b + i))))

/-- The copy bytes of a batch, by offset in OREG, R163. -/
def State.copyOf (s : State) (c step : Nat) (w : List Nat) (b : Nat) (ws : List Nat) : List (Nat × Byte) :=
  let f := s.fmt (partOfCtx c) (wfield w 0 9 6)
  let q := s.copyRow c step w b ws
  (packBytes f.width q.1).mapIdx (fun i x => (4096 * b * f.width / 8 + i, x))
    ++ q.2.1.mapIdx (fun i x => (copyElems f w + 4096 / f.blockSize * b + i, BitVec.ofNat 8 x))

/-- Which elements of a batch are NaN in the copy: by their code, or by the scale byte of their block, R166. -/
def State.copyNans (s : State) (c step : Nat) (w : List Nat) (b : Nat) (ws : List Nat) : List Bool :=
  let f := s.fmt (partOfCtx c) (wfield w 0 9 6)
  let q := s.copyRow c step w b ws
  q.1.mapIdx (fun i x => (f.decode x).isNan || (wfield w 0 12 12 == 1 && q.2.1.getD (i / f.blockSize) 0 == 255))

/-- Chunks of OREG that copy bytes fall in. -/
def copyChunks (l : List (Nat × Byte)) : List Nat := (l.map (fun x => x.1 / 65536)).eraseDups

/-- Bytes of the copy that fall in chunk `i`. -/
def copyIn (f : Fmt) (w : List Nat) (i : Nat) : Nat := min 65536 (copyLen f w - 65536 * i)

/-- Lands every chunk of the copy whose bytes have all been gathered, R163: full 64 KiB, the rest zeros. -/
def State.landCopies (s : State) (st : Nat) : State :=
  match (s.starchAt st).run with
  | none => s
  | some r =>
    let f := s.fmt (partOfCtx r.ctx) (wfield r.words 0 9 6)
    let oreg := wfield r.words 5 13 8
    (copyChunks r.copy).foldl (fun s i =>
      let cur := match (s.starchAt st).run with | some q => q.copy | none => []
      let mine := cur.filter (fun x => x.1 / 65536 == i)
      if mine.length < copyIn f r.words i then s
      else
        let x := s.starchAt st
        let rest := cur.filter (fun x => x.1 / 65536 != i)
        let s := s.setStarch st { x with run := x.run.map (fun q => { q with copy := rest }) }
        let data := mine.map Prod.snd ++ List.replicate (65536 - mine.length) 0
        let wr : LandWrite := ⟨r.ctx, s.regionBase st oreg + 65536 * i, (r.step + 1) % 2 ^ 32, data, .starch⟩
        match s.landWrite wr with
        | (s, .done) => s
        | (s, .waits) => { s with landQ := s.landQ ++ [wr] }
        | (s, .refused b) => s.raise (0x40 + st) b (some r.ctx) oreg) s

/-- A landing of the engine waits at the arrival point and holds it, R149. -/
def State.starchHeld (s : State) (st : Nat) : Bool := s.landQ.any (fun w => w.writer == .starch && stackOf w.addr == st)

/-- Pass 1 of FACTORED: the statistics of this step, written to the set of its parity. -/
def State.factoredPass (s : State) (st : Nat) (r : StarchRun) : State × Option StarchRun :=
  let w := r.words
  let rows := w.getD 9 0
  let cols := w.getD 10 0
  let par := r.step % 2
  let rs := w.getD 11 0 * 256
  let cs := w.getD 12 0 * 256
  match s.getAll r.ctx [(s.regionBase st (wfield w 5 5 0), w.getD 1 0 * recGsize w),
      (rs + (1 - par) * 4 * rows, 4 * rows), (cs + (1 - par) * 4 * cols, 4 * cols)] with
  | (s, some [gb, rb, cb]) =>
    let g := gradVals w gb
    let ro := f32s rb
    let co := f32s cb
    let rv := (List.range rows).map (fun i => factoredStat r.param (ro.getD i 0) cols ((g.drop (i * cols)).take cols))
    let cv := (List.range cols).map (fun j =>
      factoredStat r.param (co.getD j 0) rows ((List.range rows).map (fun i => g.getD (i * cols + j) 0)))
    let mean := fdiv (rv.foldl fadd 0) (toF32 (Val.ofInt rows))
    let s := s.larderPutFor r.ctx (rs + par * 4 * rows) (rv.flatMap (leBytes 4))
    let s := s.larderPutFor r.ctx (cs + par * 4 * cols) (cv.flatMap (leBytes 4))
    (s, some { r with rowv := rv, colv := cv, mean := mean })
  | (s, _) => (s, none)

/-- Rebuilds the part of the chunks in progress that earlier batches had filled, R163. -/
def State.rebuildCopy (s : State) (r : StarchRun) : State × Option StarchRun :=
  let w := r.words
  let f := s.fmt (partOfCtx r.ctx) (wfield w 0 9 6)
  let later := (List.range (recBatches w)).filter (fun b => decide (r.batch ≤ b))
  let spans := fun b =>
    let e0 := 4096 * b * f.width / 8
    let e1 := (min (4096 * (b + 1)) (w.getD 1 0) * f.width + 7) / 8 - 1
    let sc := copyElems f w + 4096 / f.blockSize * b
    (List.range (e1 / 65536 + 1 - e0 / 65536)).map (fun i => e0 / 65536 + i)
      ++ (if wfield w 0 12 12 = 1 then [sc / 65536, (min (sc + 4096 / f.blockSize - 1) (copyLen f w - 1)) / 65536] else [])
  let openChunks := (later.flatMap spans).eraseDups
  (List.range r.batch).foldl (fun x b =>
    match x with
    | (s, none) => (s, none)
    | (s, some r) =>
      if !(spans b).any openChunks.contains then (s, some r)
      else
        let n := min 4096 (w.getD 1 0 - 4096 * b)
        match s.larderGet (some r.ctx) (w.getD 2 0 * 256 + 16384 * b) (4 * n) with
        | (s, none) => (s, none)
        | (s, some l) =>
          let bytes := (s.copyOf r.ctx r.step w b (f32s l)).filter (fun y => openChunks.contains (y.1 / 65536))
          (s, some { r with copy := bytes.foldl (fun m y => SMap.put m y.1 y.2) r.copy })) (s, some r)

/-- The engine takes the oldest triggered record when it runs none and no landing of its own waits, R149: the parameter block of the step's parity is read, R164. -/
def State.starchNext (s : State) (st : Nat) : State :=
  let x := s.starchAt st
  match x.run, x.queue.find? (fun e => s.mayWork (0x50 + st) 0 e.1) with
  | none, some (c, k, step) =>
    let q := x.queue.erase (c, k, step)
    if s.isFenced (0x50 + st) 0 || (s.stack st).out || s.rdB Reg.PAGE_DRAIN (0x50 + st) 0 || s.starchHeld st then s
    else
      let s := s.setStarch st { x with queue := q }
      let s := s.wr Reg.STC_QUEUED st 0 (min 255 q.length)
      let w := s.recWords st c k
      match s.larderGet (some c) (w.getD 8 0 * 256 + 256 * (step % 2)) 256 with
      | (s, none) => s
      | (s, some l) =>
        let r : StarchRun := ⟨c, k, w, step, toWords 16 l, wfield w 14 31 0, [], [], [], 0⟩
        let put := fun (s : State) (r : StarchRun) =>
          let s := s.setStarch st { s.starchAt st with run := some r }
          ((s.wr Reg.STC_BUSY st 0 1).wr Reg.STC_CTX st 0 c).wr Reg.STC_REC st 0 k
        let f := if wfield w 0 2 0 = 3 then s.factoredPass st r else (s, some r)
        match f with
        | (s, none) => s
        | (s, some r) =>
          let copies := (s.ruleMasks st (wfield w 0 2 0)).any (fun m => bit m.2 3 == 1)
          if r.batch = 0 || !copies then put s r
          else match s.rebuildCopy r with
            | (s, none) => s
            | (s, some r) => put s r
  | _, _ => s

/-- Record `k` is triggered as things stand, R160: EN = 1, its context trains and is in a step that the record has not done, and its
GREG is LANDED at that step by a landing that has triggered nothing yet. -/
def State.triggers (s : State) (st c k : Nat) : Bool :=
  let w := s.recWords st c k
  let greg := wfield w 5 5 0
  let step := s.rd Reg.CTX_STEP_NUM c
  s.rd Reg.CTX_EXEC_MODE c == 0 && s.rd Reg.CTX_EXEC_STEP_BUSY c == 1 && recEn w && w.getD 13 0 != step
    && s.rdB Reg.LR_VALID st greg && s.rd Reg.LR_STATE st greg == 2 && s.rd Reg.LR_TAG st greg == step
    && !(s.landing (64 * st + greg)).fired
    && !((s.starchAt st).queue.any (fun q => q.1 == c && q.2.1 == k))
    && !((s.starchAt st).run.any (fun r => r.ctx == c && r.ix == k))

/-- A triggered record is read and checked, R159, R162, and waits its turn. -/
def State.trigRecord (s : State) (st c k : Nat) : State :=
  let r := s.larderOk c 1 (s.recAddr st c k) 64
  if !r.2 then r.1
  else match r.1.recRead st c k with
    | (s, none) => s
    | (s, some w) =>
      if !s.recOk st c w then s.raise (0x50 + st) 1 (some c) k
      else if wfield w 15 31 31 = 1 then s.raise (0x50 + st) 2 (some c) k
      else
        let x := s.starchAt st
        let q := x.queue ++ [(c, k, s.rd Reg.CTX_STEP_NUM c)]
        (s.setStarch st { x with queue := q }).wr Reg.STC_QUEUED st 0 (min 255 q.length)

/-- The records of a context's list that the landing in record `k`'s GREG triggers in one cycle, ascending, R160. -/
def State.trigSet (s : State) (st c k : Nat) : List Nat :=
  (List.range (s.rd Reg.STC_NREC st (c % 16))).filter (fun j =>
    wfield (s.recWords st c j) 5 5 0 == wfield (s.recWords st c k) 5 5 0 && s.triggers st c j)

/-- STARCH_TRIGGER: the GREG of record `k` of context `c` on stack `st` has become LANDED at the context's step: that landing triggers,
once, every record of the list that names the region, in ascending index, R159 to R162. -/
def State.starchTrigger (s : State) (st c k : Nat) : State :=
  if 12 ≤ st ∨ 64 ≤ c ∨ s.partOfStack st ≠ partOfCtx c ∨ s.rd Reg.STC_NREC st (c % 16) ≤ k ∨ (s.stack st).out
      ∨ !s.triggers st c k then s
  else
    let key := 64 * st + wfield (s.recWords st c k) 5 5 0
    let ks := s.trigSet st c k
    let s := s.setLanding key { s.landing key with fired := true }
    (ks.foldl (fun s j => s.trigRecord st c j) s).starchNext st

/-- The new values of an element of the batch. -/
def State.ruleApply (s : State) (st : Nat) (r : StarchRun) (i : Nat) (e : Elem) : Elem :=
  match wfield r.words 0 2 0 with
  | 0 => ruleAdamw r.param e
  | 1 => ruleMsgd r.param e
  | 2 => ruleSignmom r.param e
  | 3 =>
    let cols := r.words.getD 10 1
    ruleFactored r.param (r.rowv.getD (i / cols) 0) (r.colv.getD (i % cols) 0) r.mean e
  | n => match SMap.find (s.starchAt st).rules n with
    | none => e
    | some img => ruleUser (ruleIn img) (ruleOut img) ((List.range (ruleNins img)).map (fun j => ruleWord img (8 + j))) r.param e

/-- STARCH_BATCH: the next batch of the record in progress, R161. -/
def State.starchBatch (s : State) (st : Nat) : State :=
  match (s.starchAt st).run with
  | none => s.starchNext st
  | some r =>
    if s.isFenced (0x50 + st) 0 || s.starchHeld st || (s.stack st).out || s.rdB Reg.FLT_HALTED || !s.mayWork (0x50 + st) 0 r.ctx then s
    else
      let w := r.words
      let b := r.batch
      let n := min 4096 (w.getD 1 0 - 4096 * b)
      let m := (s.ruleMasks st (wfield w 0 2 0)).getD (0, 0)
      let need := fun i => bit m.1 i == 1
      let src := [0, 1, 2].map (fun i => (w.getD (2 + i) 0 * 256 + 16384 * b, if need i then 4 * n else 0))
        ++ [(s.regionBase st (wfield w 5 5 0) + 4096 * b * recGsize w, if need 3 then n * recGsize w else 0)]
      match s.getAll r.ctx src with
      | (s, some [wb, m1b, m2b, gb]) =>
        let ws := f32s wb
        let m1s := f32s m1b
        let m2s := f32s m2b
        let gs := gradVals w gb
        let es := (List.range n).map (fun i =>
          s.ruleApply st r (4096 * b + i) ⟨ws.getD i 0, m1s.getD i 0, m2s.getD i 0, gs.getD i 0⟩)
        let put := fun (s : State) (i : Nat) (vals : List Nat) =>
          if bit m.2 i = 1 then s.larderPutFor r.ctx (w.getD (2 + i) 0 * 256 + 16384 * b) (vals.flatMap (leBytes 4)) else s
        let s := put (put (put s 0 (es.map Elem.w)) 1 (es.map Elem.m1)) 2 (es.map Elem.m2)
        let nan := fun i v => bit m.2 i == 1 && (f32 v).isNan
        let cn := if bit m.2 3 = 1 then s.copyNans r.ctx r.step w b (es.map Elem.w) else []
        let nans := ((es.mapIdx (fun i e => nan 0 e.w || nan 1 e.m1 || nan 2 e.m2 || cn.getD i false)).filter id).length
        let s := (List.range nans).foldl (fun (s : State) _ => s.raise (0x50 + st) 3 (some r.ctx) r.ix) s
        let last := b + 1 == recBatches w
        let a := s.recAddr st r.ctx r.ix
        let s := if last then s.larderPutFor r.ctx (a + 52) (leBytes 4 r.step ++ leBytes 4 0 ++ leBytes 4 b)
          else s.larderPutFor r.ctx (a + 56) (leBytes 4 (b + 1) ++ leBytes 4 b)
        let bytes := if bit m.2 3 = 1 then s.copyOf r.ctx r.step w b (es.map Elem.w) else []
        let r' : StarchRun := { r with batch := b + 1, copy := bytes.foldl (fun q y => SMap.put q y.1 y.2) r.copy }
        let s := (s.setStarch st { s.starchAt st with run := some r' }).landCopies st
        let page := 0x50 + st
        let s := ((s.progress page 1).count page 0 n).count page 3 nans
        if !last then s
        else
          let x := s.starchAt st
          (((s.setStarch st { x with run := none }).wr Reg.STC_BUSY st 0 0).count page 2 1).starchNext st
      | (s, _) => s

/-- The Starch condition of R37: every EN = 1 record of the context's update lists has DONE_STEP equal to the step, R165. -/
def State.starchDone (s : State) (c : Nat) : Bool :=
  (s.stacksOf (partOfCtx c)).all (fun st => (List.range (s.rd Reg.STC_NREC st (c % 16))).all (fun k =>
    -- a record that cannot be read has not completed
    (s.recSeen st c k).any (fun w => !recEn w || w.getD 13 0 == s.rd Reg.CTX_STEP_NUM c)))

/-- An aborted or scrubbed context loses its queued records; the one in progress stops at its batch's end, Table 13-12. -/
def State.starchDrop (s : State) (c : Nat) : State :=
  (List.range 12).foldl (fun s st =>
    let x := s.starchAt st
    let q := x.queue.filter (fun e => e.1 != c)
    let mine := x.run.any (fun r => r.ctx == c)
    if q.length = x.queue.length && !mine then s
    else
      let s := (s.setStarch st { x with queue := q, run := if mine then none else x.run }).wr Reg.STC_QUEUED st 0 (min 255 q.length)
      (if mine then s.wr Reg.STC_BUSY st 0 0 else s).starchNext st) s

/-! ### User rules, R169 -/

/-- Some record with EN = 1 that names a slot belongs to a context with a step in progress. -/
def State.ruleInUse (s : State) (st slot : Nat) : Bool :=
  (ctxsOf (s.partOfStack st)).any (fun c => s.rd Reg.CTX_EXEC_STEP_BUSY c == 1 &&
    (List.range (s.rd Reg.STC_NREC st (c % 16))).any (fun k =>
      recEn (s.recWords st c k) && wfield (s.recWords st c k) 0 2 0 == slot))

/-- RULE_LOAD: a write of LOAD on a stack's STC page. -/
def State.ruleLoad (s : State) (st : Nat) : State :=
  let slot := s.rd Reg.STC_SLOT st
  let a := s.rd Reg.STC_RULE_SRC st * 64
  let len := s.rd Reg.STC_RULE_LEN st
  let img := s.staging.readBytes a len
  if slot < 4 ∨ !inStagePart (s.partOfStack st) a len ∨ !ruleOk img ∨ s.ruleInUse st slot then s.wr Reg.STC_REFUSED st 0 1
  else ((s.wr Reg.STC_REFUSED st 0 0).wr Reg.STC_STATE st 0 1).setStarch st { s.starchAt st with image := img, target := slot }

/-- RULE_LOAD_DONE: the image is in its slot, or the load failed after transfer. -/
def State.ruleLoadDone (s : State) (st : Nat) (ok : Bool) : State :=
  if 12 ≤ st ∨ s.rd Reg.STC_STATE st ≠ 1 then s
  else
    let x := s.starchAt st
    if ok then
      let s := s.setStarch st { x with rules := SMap.put x.rules x.target x.image, image := [], target := 0 }
      ((s.wr Reg.STC_STATE st 0 2).wr Reg.STC_RSLOT_VALID st x.target 1).wr Reg.STC_RSLOT_NINS st x.target (ruleNins x.image)
    else ((s.setStarch st { x with image := [], target := 0 }).wr Reg.STC_STATE st 0 3).raise (0x50 + st) 0 none x.target

end Sys2Proof.Machine
end

