-- ==== Sys2Proof/Machine/Circuits.lean ====
section
/-! DEFINITION. The circuit router: packets and their checks (R213, R214, R230), the sending side of a Trinal port (R182, R185),
forwarding (R208 to R210), endpoints and paths (R215 to R233), and CIR_EVQ. -/

namespace Sys2Proof.Machine

open Sys2Proof

/-! ### Packets, Tables 8-4 to 8-6 -/

/-- Header word `i`. -/
def Packet.w (p : Packet) (i : Nat) : Nat := p.words.getD i 0
/-- CID. -/
def Packet.cid (p : Packet) : Nat := bits (p.w 0) 9 0
/-- PATH. -/
def Packet.path (p : Packet) : Nat := bit (p.w 0) 10
/-- TYPE. -/
def Packet.typ (p : Packet) : Nat := bits (p.w 0) 15 12
/-- FENCE. -/
def Packet.fence (p : Packet) : Bool := bit (p.w 0) 16 == 1
/-- ENC. -/
def Packet.enc (p : Packet) : Bool := bit (p.w 0) 17 == 1
/-- SEQ. -/
def Packet.seq (p : Packet) : Nat := p.w 1
/-- XSEQ. -/
def Packet.xseq (p : Packet) : Nat := p.w 2
/-- CLAIM. -/
def Packet.claim (p : Packet) : Nat := bits (p.w 3) 15 0
/-- GEN. -/
def Packet.gen (p : Packet) : Nat := bits (p.w 3) 31 16
/-- TAG or CPAY. -/
def Packet.pay (p : Packet) : Nat := p.w 4 + 2 ^ 32 * p.w 5
/-- ECHK. -/
def Packet.echk (p : Packet) : Nat := p.w 6
/-- A DATA packet; every other type is of the control class. -/
def Packet.isData (p : Packet) : Bool := p.typ == 8
/-- A numbered type. -/
def Packet.numbered (p : Packet) : Bool := p.typ == 0 || p.typ == 8

/-- Word 0 with bits [10:0] replaced. -/
def lowWord (w v : Nat) : Nat := w - w % 2048 + v % 2048

/-- The packet with another CID, as a hop writes it. -/
def Packet.setCid (p : Packet) (c : Nat) : Packet :=
  { p with words := p.words.set 0 (p.w 0 - p.w 0 % 1024 + c % 1024) }

/-- The packet for a path: PATH, CID and CLAIM. -/
def Packet.forPath (p : Packet) (path cid claim : Nat) : Packet :=
  { p with words := (p.words.set 0 (lowWord (p.w 0) (cid % 1024 + 1024 * path))).set 3 (claim % 65536 + 65536 * p.gen) }

/-- Words `i` to `j` in transmission order, word 0 with bits [10:0] taken as 0. -/
def Packet.headBytes (p : Packet) (n : Nat) : List Byte :=
  (List.range n).flatMap (fun i => leBytes 4 (if i = 0 then lowWord (p.w 0) 0 else p.w i))

/-- The end-to-end check of an unsealed or management packet, R214; words 0 to 5 exclude CLAIM's path only through PATH and CID. -/
def Packet.echkOf (p : Packet) : Nat := crc32c (p.headBytes 6 ++ p.body)

/-- The packet with its ECHK. -/
def Packet.sealEchk (p : Packet) : Packet := { p with words := p.words.set 6 p.echkOf }

/-- A management packet for a path, R214: type, word 3 (CLAIM and GEN), CPAY. -/
def mgmt (typ cid path w3 pay : Nat) : Packet :=
  (⟨[cid % 1024 + 1024 * path + 4096 * typ, 0, 0, w3, pay % 2 ^ 32, pay / 2 ^ 32, 0], []⟩ : Packet).sealEchk

/-- Link credits that a packet takes, R185, R216. -/
def Packet.units (p : Packet) : Nat := if p.isData then 2 + bits (p.w 0) 28 24 + (if p.enc then 1 else 0) else 1

/-- Flits of a packet on a bridge: its header, and what it carries. -/
def Packet.flits (p : Packet) : Nat := if p.isData then 1 + 8 * (bits (p.w 0) 28 24 + 1) + (if p.enc then 1 else 0) else 1

/-! ### The sending side of a port, R182, R185 -/

/-- A port beside its registers. -/
def State.port (s : State) (k : Nat) : Port := SMap.get Port.empty s.ports k

/-- Sets a port's record. -/
def State.setPort (s : State) (k : Nat) (x : Port) : State := { s with ports := SMap.set Port.empty s.ports k x }

/-- LNK page of a port. -/
def lnkPage (k : Nat) : Nat := 0x30 + k

/-- Sends what waits, in order, while credit lasts; `n` bounds the sends. -/
def LinkClass.flush (c : LinkClass) : Nat → LinkClass
  | 0 => c
  | n + 1 =>
    match c.wait with
    | [] => c
    | p :: r =>
      if p.units ≤ c.cred then
        LinkClass.flush { c with
          wait := r, cred := c.cred - p.units, tx := (c.tx + 1) % 65536, kept := c.kept ++ [⟨c.tx, p, 1⟩] } n
      else c

/-- A packet accepted for the link: sent, or held for credit. -/
def LinkClass.accept (c : LinkClass) (p : Packet) (up : Bool) : LinkClass :=
  let c := { c with wait := c.wait ++ [p] }
  if up then c.flush c.wait.length else c

/-- Gives a packet to port `k`: in UP it is sent, in RETRAIN it waits; false in any other state, where it is discarded. -/
def State.portSend (s : State) (k : Nat) (p : Packet) : State × Bool :=
  let st := s.rd Reg.LNK_STATE k
  if st ≠ 4 ∧ st ≠ 5 then (s, false)
  else
    let x := s.port k
    (s.setPort k (if p.isData then { x with dat := x.dat.accept p (st == 4) } else { x with ctl := x.ctl.accept p (st == 4) }), true)

/-- Link credit of a packet is given back to the peer of port `k`, R185, R223. -/
def State.freeCredit (s : State) (k : Nat) (p : Packet) : State :=
  let x := s.port k
  s.setPort k (if p.isData then { x with dat := { x.dat with freed := (x.dat.freed + p.units) % 65536 } }
    else { x with ctl := { x.ctl with freed := (x.ctl.freed + 1) % 65536 } })

/-! ### Entries -/

/-- CIR page. -/
def cirPage : Nat := 0x00C

/-- A circuit table entry beside its registers. -/
def State.circ (s : State) (e : Nat) : Circ := SMap.get Circ.empty s.circs e

/-- Sets an entry's record. -/
def State.setCirc (s : State) (e : Nat) (x : Circ) : State := { s with circs := SMap.set Circ.empty s.circs e x }

/-- CT_RUN STATE of an entry. -/
def State.cirState (s : State) (e : Nat) : Nat := s.rd Reg.CT_RUN_STATE 0 e

/-- A side or path is up. -/
def State.sideUp (s : State) (e path : Nat) : Bool := s.rdB (if path = 0 then Reg.CT_RUN_A_UP else Reg.CT_RUN_B_UP) 0 e

/-- Sets a side up or down. -/
def State.setSide (s : State) (e path : Nat) (b : Bool) : State :=
  s.wrB (if path = 0 then Reg.CT_RUN_A_UP else Reg.CT_RUN_B_UP) 0 e b

/-- Port of a side. -/
def State.sidePort (s : State) (e path : Nat) : Nat := s.rd (if path = 0 then Reg.CT_PORT_A else Reg.CT_PORT_B) 0 e

/-- CID written into packets sent on a side. -/
def State.sideCid (s : State) (e path : Nat) : Nat := s.rd (if path = 0 then Reg.CT_PEER_CID_A else Reg.CT_PEER_CID_B) 0 e

/-- Claim of a path. -/
def State.sideClaim (s : State) (e path : Nat) : Nat := s.rd (if path = 0 then Reg.CT_CLAIM_A else Reg.CT_CLAIM_B) 0 e

/-- A valid endpoint entry. -/
def State.isEndpoint (s : State) (e : Nat) : Bool := decide (e < 1024) && s.rdB Reg.CT_VALID 0 e && s.rdB Reg.CT_KIND 0 e

/-- A valid forwarding entry. -/
def State.isForward (s : State) (e : Nat) : Bool := decide (e < 1024) && s.rdB Reg.CT_VALID 0 e && !s.rdB Reg.CT_KIND 0 e

/-- Paths of an endpoint. -/
def State.pathsOf (s : State) (e : Nat) : List Nat := if s.rdB Reg.CT_TWIN 0 e then [0, 1] else [0]

/-- A path's record. -/
def Circ.path' (x : Circ) (p : Nat) : PathState := if p = 0 then x.a else x.b

/-- Sets a path's record. -/
def Circ.setPath (x : Circ) (p : Nat) (q : PathState) : Circ := if p = 0 then { x with a := q } else { x with b := q }

/-- Changes a path's record of an entry. -/
def State.onPath (s : State) (e p : Nat) (f : PathState → PathState) : State :=
  let x := s.circ e
  s.setCirc e (x.setPath p (f (x.path' p)))

/-- The context that an endpoint is bound to. -/
def State.cirCtx (s : State) (e : Nat) : Nat := s.rd Reg.CT_CTX 0 e

/-- An event for CIR_EVQ, R234: a full queue drops it and marks the next one. -/
def State.cirEvent (s : State) (e kind path : Nat) : State :=
  if 256 ≤ s.evq.length then { s with evLost := true }
  else { s with evq := s.evq ++ [⟨e, kind, path, s.evLost⟩], evLost := false }

/-- EV_POP: a read of CIR_EVQ returns the head event and advances, R234. The view shows what the read returned. -/
def State.evPop (s : State) : State :=
  match s.evq with
  | [] => ((((s.wr0 Reg.CIR_EV_ENTRY 0).wr0 Reg.CIR_EV_KIND 0).wr0 Reg.CIR_EV_PATH 0).wr0 Reg.CIR_EV_LOST 0).wr0 Reg.CIR_EV_VALID 0
  | v :: r =>
    let s := (({ s with evq := r } : State).wr0 Reg.CIR_EV_ENTRY v.entry).wr0 Reg.CIR_EV_KIND v.kind
    ((s.wr0 Reg.CIR_EV_PATH v.path).wrB Reg.CIR_EV_LOST 0 0 v.lost).wr0 Reg.CIR_EV_VALID 1

/-- Sends a management packet on a path of an endpoint that is up; counted in CNT_7. -/
def State.sendMgmt (s : State) (e path typ pay : Nat) : State :=
  let p := mgmt typ (s.sideCid e path) path (s.sideClaim e path + 65536 * s.rd Reg.CT_GEN 0 e) pay
  let r := s.portSend (s.sidePort e path) p
  if r.2 then r.1.count cirPage 7 1 else r.1

/-- Sends a management packet on every path of an endpoint that is up. -/
def State.sendMgmtAll (s : State) (e typ pay : Nat) : State :=
  (s.pathsOf e).foldl (fun s p => if s.sideUp e p then s.sendMgmt e p typ pay else s) s

/-! ### The neighbour table, R270 -/

/-- Some endpoint circuit of engine `d` to package `pkg` is OPEN or DEGRADED. -/
def State.nbLive (s : State) (d pkg : Nat) : Bool :=
  (List.range 1024).any (fun e => s.isEndpoint e && s.rd Reg.CT_DIE 0 e == d && s.rd Reg.CT_FAR_PKG 0 e == pkg
    && (s.cirState e == 2 || s.cirState e == 3))

/-- The neighbour-table entry of a package on engine `d`. -/
def State.nbOf (s : State) (d pkg : Nat) : Option Nat :=
  match (List.range 32).find? (fun n => s.rdB Reg.NB_VALID d n && s.rd Reg.NB_PKG d n == pkg) with
  | some n => some n
  | none => if s.rdB Reg.NB_VALID d 31 && s.rd Reg.NB_PKG d 31 == 0xFFFF && s.nbLive d pkg then some 31 else none

/-- A circuit to a package reached OPEN: the package takes an entry. -/
def State.nbTake (s : State) (d pkg : Nat) : State :=
  if (s.nbOf d pkg).isSome then s
  else match (List.range 32).find? (fun n => !s.rdB Reg.NB_VALID d n) with
    | some n => (s.wr Reg.NB_PKG d n pkg).wr Reg.NB_VALID d n 1
    | none => s.wr Reg.NB_PKG d 31 0xFFFF

/-- Entry 31, shared by packages beyond the 32nd, still stands for one: some endpoint of the engine is OPEN or DEGRADED to a package
with no entry of its own. -/
def State.nbShared (s : State) (d : Nat) : Bool :=
  (List.range 1024).any (fun e => s.isEndpoint e && s.rd Reg.CT_DIE 0 e == d && (s.cirState e == 2 || s.cirState e == 3)
    && !(List.range 31).any (fun n => s.rdB Reg.NB_VALID d n && s.rd Reg.NB_PKG d n == s.rd Reg.CT_FAR_PKG 0 e))

/-- Entries whose package has no circuit OPEN or DEGRADED are freed with their values. -/
def State.nbFree (s : State) (d : Nat) : State :=
  (List.range 32).foldl (fun s n =>
    let live := if s.rd Reg.NB_PKG d n = 0xFFFF then s.nbShared d else s.nbLive d (s.rd Reg.NB_PKG d n)
    if s.rdB Reg.NB_VALID d n && !live then
      let s : State := { s with hearth := { s.hearth with paces := SMap.del s.hearth.paces (32 * d + n) } }
      (((s.wr Reg.NB_PKG d n 0).wr Reg.NB_VALID d n 0).wr Reg.NB_PACE d n 0).wr Reg.NB_WAITED d n 0
    else s) s

/-- The pace words received for a neighbour entry in the last 10 ms, with their senders, newest first, R266. -/
def State.freshPaces (s : State) (d n : Nat) : List (Nat × Nat) :=
  if !s.rdB Reg.NB_VALID d n then []
  else ((SMap.get [] s.hearth.paces (32 * d + n)).filter (fun x => decide (s.timeUs ≤ x.1 + 10000))).map Prod.snd

/-! ### Endpoint states, Table 8-7 -/

/-- The held packets of an entry are dropped and their credits returned. -/
def State.dropHeld (s : State) (e : Nat) : State :=
  let x := s.circ e
  let s := (x.heldC ++ x.heldD).foldl (fun s h => s.freeCredit h.port h.pkt) s
  s.setCirc e { s.circ e with heldC := [], heldD := [], gapsC := [], gapsD := [] }

/-- Sets STATE of an endpoint. -/
def State.setCirState (s : State) (e st : Nat) : State :=
  let s := s.wr Reg.CT_RUN_STATE 0 e st
  let d := s.rd Reg.CT_DIE 0 e
  if st = 2 then s.nbTake d (s.rd Reg.CT_FAR_PKG 0 e) else if st = 3 then s else s.nbFree d

/-- An endpoint goes to BROKEN with a cause. -/
def State.breakCir (s : State) (e cause : Nat) : State :=
  let s := (s.dropHeld e).wr Reg.CT_RUN_CAUSE 0 e cause
  let s := (s.setCirState e 6).cirEvent e 4 0
  let s := s.raise cirPage 6 (some (s.cirCtx e)) e
  if cause = 6 then s.raise cirPage 7 (some (s.cirCtx e)) e
  else if cause = 5 then s.raise cirPage 8 (some (s.cirCtx e)) e else s

/-- An endpoint goes to CLOSED. -/
def State.closedCir (s : State) (e : Nat) : State := ((s.dropHeld e).setCirState e 5).cirEvent e 5 0

/-- A DRAINING endpoint with QUIET on every path that is up goes to CLOSED. -/
def State.drainCheck (s : State) (e : Nat) : State :=
  let x := s.circ e
  if s.cirState e = 4 ∧ (s.pathsOf e).all (fun p => !s.sideUp e p || (x.path' p).quiet) then s.closedCir e else s

/-- A path of an endpoint goes down, R227, R229. -/
def State.pathDown (s : State) (e path : Nat) : State :=
  let x := s.circ e
  let was := s.sideUp e path
  if !was && !(x.path' path).rejoin then s
  else
    let s := (s.setSide e path false).onPath e path (fun q => { q with rejoin := false, opened := false, marks := none })
    let s := (s.cirEvent e 2 path).raise cirPage 5 (some (s.cirCtx e)) e
    if !was then s
    else
      let other := 1 - path
      let st := s.cirState e
      if (s.pathsOf e).contains other && s.sideUp e other then
        -- a packet that only the lost path could still have brought whole is lost, R220 (DEDUCED, log entry 16)
        if (st = 2 ∨ st = 3) ∧ !(x.gapsC.isEmpty && x.gapsD.isEmpty) then s.breakCir e 7
        else (if st = 2 then s.setCirState e 3 else s).drainCheck e
      else if st = 2 ∨ st = 3 then
        let rej := (x.path' other).rejoin
        s.breakCir e (if !rej && x.lost == some (s.rd Reg.CT_FAR_PKG 0 e) then 2 else 3)
      else s.drainCheck e

/-- A side of an entry goes down: an endpoint's path, or a forwarding side, which sends PATH_DOWN on the other side, R210. -/
def State.sideDown (s : State) (e side cause : Nat) : State :=
  if !s.sideUp e side && !(s.isEndpoint e && ((s.circ e).path' side).rejoin) then s
  else
    let lost := s.rd Reg.LNK_PEER_ID_LO (s.sidePort e side) % 65536
    if s.isEndpoint e then s.pathDown e side
    else
      let s := s.setSide e side false
      let o := 1 - side
      if s.sideUp e o then
        let p := mgmt 5 (s.sideCid e o) (s.circ e).path (s.sideClaim e o) (lost + 65536 * s.sidePort e side + 2 ^ 20 * cause)
        let r := s.portSend (s.sidePort e o) p
        if r.2 then r.1.count cirPage 7 1 else r.1
      else s

/-- Entries with a side on port `k`, with the side. -/
def State.entriesOn (s : State) (k : Nat) : List (Nat × Nat) :=
  (List.range 1024).flatMap (fun e =>
    if !s.rdB Reg.CT_VALID 0 e then []
    else
      let twoSided := s.isForward e || s.rdB Reg.CT_TWIN 0 e
      (if s.rd Reg.CT_PORT_A 0 e = k then [(e, 0)] else []) ++ (if twoSided && s.rd Reg.CT_PORT_B 0 e == k then [(e, 1)] else []))

/-- A port has left UP and RETRAIN: its sides go down. With `dark`, it lost the light of its neighbour, R227. -/
def State.sidesDown (s : State) (k : Nat) (dark : Bool) : State :=
  (s.entriesOn k).foldl (fun s x =>
    let far := s.rd Reg.LNK_PEER_ID_LO k % 65536
    let s := if dark && s.isEndpoint x.1 then s.setCirc x.1 { s.circ x.1 with lost := some far } else s
    s.sideDown x.1 x.2 0) s

/-- Sides whose neighbour shows another BOOT_GEN than the one latched go down, R233. -/
def State.bootGenCheck (s : State) (k : Nat) : State :=
  let bg := s.rd Reg.LNK_PEER_ID_LO k / 2 ^ 22
  (s.entriesOn k).foldl (fun s x =>
    if s.rd (if x.2 = 0 then Reg.CT_RUN_BG_A else Reg.CT_RUN_BG_B) 0 x.1 ≠ bg then s.sideDown x.1 x.2 1 else s) s

/-- Port `k` carries an open circuit: an endpoint in OPENING to DRAINING or a forwarding entry with the side up. -/
def State.portOpen (s : State) (k : Nat) : Bool :=
  (s.entriesOn k).any (fun x => if s.isEndpoint x.1 then decide (1 ≤ s.cirState x.1) && decide (s.cirState x.1 ≤ 4)
    else s.sideUp x.1 x.2)

/-! ### Opening and closing, R217 and R218 -/

/-- The CPAY of an OPEN, Table 8-5. -/
def State.openPay (s : State) (e reply : Nat) : Nat :=
  let f := fun r => s.rd r 0 e
  f Reg.CT_CNAME + 2 ^ 32 * f Reg.CT_KEPOCH + 2 ^ 40 * f Reg.CT_ORDER + 2 ^ 41 * f Reg.CT_TWIN + 2 ^ 42 * f Reg.CT_SEALED
    + 2 ^ 43 * f Reg.CT_LEVEL + 2 ^ 44 * f Reg.CT_COLL + 2 ^ 45 * reply

/-- OPEN_RESEND: an OPENING endpoint sends OPEN on each path whose side is up. -/
def State.openResend (s : State) (e : Nat) : State :=
  if s.isEndpoint e && s.cirState e == 1 then s.sendMgmtAll e 1 (s.openPay e 0) else s

/-- OPEN: an OPEN received on a path. -/
def State.openIn (s : State) (e path pay : Nat) : State :=
  if s.cirState e ≠ 1 ∧ s.cirState e ≠ 2 then s
  else if pay % 2 ^ 45 ≠ s.openPay e 0 then s.breakCir e 5
  else
    let s := if bit pay 45 = 0 then s.sendMgmt e path 1 (s.openPay e 1) else s
    let s := s.onPath e path (fun q => { q with opened := true })
    if s.cirState e = 1 ∧ (s.pathsOf e).all (fun p => ((s.circ e).path' p).opened) then (s.setCirState e 2).cirEvent e 1 0 else s

/-- OPEN_TMO: an endpoint still OPENING goes to BROKEN. -/
def State.openTmo (s : State) (e : Nat) : State := if s.isEndpoint e && s.cirState e == 1 then s.breakCir e 6 else s

/-- CLOSE_GO, or the teardown of the context: OPEN or DEGRADED to DRAINING. -/
def State.closeGo (s : State) (e : Nat) : State :=
  if s.isEndpoint e && (s.cirState e == 2 || s.cirState e == 3) then
    ((s.sendMgmtAll e 2 0).dropHeld e).setCirState e 4
  else s

/-- CLOSE received: QUIET is sent on every path that is up, and the endpoint is CLOSED. -/
def State.closeIn (s : State) (e : Nat) : State :=
  if s.cirState e = 2 ∨ s.cirState e = 3 then (s.sendMgmtAll e 3 0).closedCir e else s

/-- QUIET received on a path. -/
def State.quietIn (s : State) (e path : Nat) : State :=
  (s.onPath e path (fun q => { q with quiet := true })).drainCheck e

/-- QUIET_TMO: a DRAINING endpoint goes to CLOSED. -/
def State.quietTmo (s : State) (e : Nat) : State := if s.isEndpoint e && s.cirState e == 4 then s.closedCir e else s

/-- RESET_NOTICE received. -/
def State.resetNotice (s : State) (e : Nat) : State :=
  if 1 ≤ s.cirState e ∧ s.cirState e ≤ 3 then s.breakCir e 1 else s

/-- PATH_DOWN received on a path whose claim it carries, R227. -/
def State.pathDownIn (s : State) (e path pay : Nat) : State :=
  (s.setCirc e { s.circ e with lost := some (pay % 65536) }).pathDown e path

/-! ### Rejoin, R229 -/

/-- A rejoining path whose marks are reached is up as the second copy. -/
def State.rejoinCheck (s : State) (e : Nat) : State :=
  (s.pathsOf e).foldl (fun s p =>
    let q := (s.circ e).path' p
    match q.marks with
    | some (c, d) =>
      if q.rejoin && !newer c (s.rd Reg.CT_RUN_CLAST 0 e) && !newer d (s.rd Reg.CT_RUN_DLAST 0 e) then
        let s := (s.onPath e p (fun q => { q with
          rejoin := false, marks := none, opened := q.opened || s.cirState e != 1 })).setSide e p true
        let s := s.cirEvent e 3 p
        if s.cirState e = 3 ∧ (s.pathsOf e).all (fun p => s.sideUp e p) then s.setCirState e 2 else s
      else s
    | none => s) s

/-- REJOIN received on a rejoining path. -/
def State.rejoinIn (s : State) (e path pay : Nat) : State :=
  if ((s.circ e).path' path).rejoin then
    (s.onPath e path (fun q => { q with marks := some (pay % 2 ^ 32, pay / 2 ^ 32) })).rejoinCheck e
  else s

/-- REJOIN_RESEND: sent on a rejoined path until a packet of the new claim has come. REJOIN carries SEQ = S0. -/
def State.rejoinResend (s : State) (e path : Nat) : State :=
  let q := (s.circ e).path' path
  if s.isEndpoint e && decide (path < 2) && decide (0 < q.s0) && !q.heard && (q.rejoin || s.sideUp e path) then
    let p := mgmt 6 (s.sideCid e path) path (s.sideClaim e path + 65536 * s.rd Reg.CT_GEN 0 e) (q.ctl0 + 2 ^ 32 * q.dat0)
    let p := ({ p with words := p.words.set 1 q.s0 } : Packet).sealEchk
    let r := s.portSend (s.sidePort e path) p
    if r.2 then r.1.count cirPage 7 1 else r.1
  else s

/-! ### Sealed circuits, R230 -/

/-- The direction key of a sealed circuit, sent by package `src`. -/
def State.cirKey (s : State) (e src : Nat) : List Byte :=
  let mk := ((SMap.find s.sec.sealed (partOfCtx (s.cirCtx e))).map (fun i => i.key)).getD []
  hmac256 mk (ascii "BVQ-CIRC" ++ beBytes 4 (s.rd Reg.CT_CNAME 0 e) ++ beBytes 1 (s.rd Reg.CT_KEPOCH 0 e) ++ beBytes 2 src)

/-- The IV of a sequence number. -/
def State.cirIv (s : State) (e seq : Nat) : List Byte := beBytes 4 (s.rd Reg.CT_CNAME 0 e) ++ [0, 0, 0, 0] ++ beBytes 4 seq

/-- The authenticated data of a packet. -/
def Packet.aad (p : Packet) : List Byte := if p.isData then p.headBytes 6 else p.headBytes 4

/-- Encrypts a numbered packet for a sealed circuit. -/
def State.sealPkt (s : State) (e : Nat) (p : Packet) : Packet :=
  let own := s.rd Reg.GLB_STRAP_LOC_X + 4 * s.rd Reg.GLB_STRAP_LOC_Y + 16 * s.rd Reg.GLB_STRAP_LOC_Z + 64 * s.rd Reg.GLB_STRAP_BLOCK
  let p : Packet := { p with words := p.words.set 0 (setBit (p.w 0) 17) }
  let key := s.cirKey e own
  let iv := s.cirIv e p.seq
  if p.isData then
    let ct := gcmCrypt key iv p.body
    let p : Packet := { p with body := ct ++ gcmTag key iv p.aad ct ++ List.replicate 16 0 }
    p.sealEchk
  else
    let ct := gcmCrypt key iv (leBytes 4 (p.w 4) ++ leBytes 4 (p.w 5))
    let tag := gcmTag key iv p.aad ct
    { p with words := ((p.words.set 4 (leNat (ct.take 4))).set 5 (leNat (ct.drop 4))).set 6 (leNat (tag.take 4)) }

/-- Checks a received numbered packet: the plain packet, or none; the second part says that authentication failed. -/
def State.openPkt (s : State) (e : Nat) (p : Packet) : Option Packet × Bool :=
  if !s.rdB Reg.CT_SEALED 0 e then (if p.echk = p.echkOf then some p else none, false)
  else
    let key := s.cirKey e (s.rd Reg.CT_FAR_PKG 0 e)
    let iv := s.cirIv e p.seq
    if p.isData then
      if p.echk ≠ p.echkOf then (none, false)
      else
        let ct := p.body.take (p.body.length - 32)
        if gcmTag key iv p.aad ct = (p.body.drop ct.length).take 16 then (some { p with body := gcmCrypt key iv ct }, false)
        else (none, true)
    else
      let ct := leBytes 4 (p.w 4) ++ leBytes 4 (p.w 5)
      if leNat ((gcmTag key iv p.aad ct).take 4) = p.echk then
        let pt := gcmCrypt key iv ct
        (some { p with words := (p.words.set 4 (leNat (pt.take 4))).set 5 (leNat (pt.drop 4)) }, false)
      else (none, true)

/-! ### Sending numbered packets, R213, R224 -/

/-- The endpoint sends a numbered packet of its engine on each path in service: class, CPAY or TAG, payload. Only in OPEN or
DEGRADED. -/
def State.cirSend (s : State) (e : Nat) (data : Bool) (fence : Bool) (pay : Nat) (body : List Byte) : State :=
  if !s.isEndpoint e || (s.cirState e != 2 && s.cirState e != 3) then s
  else
    let x := s.circ e
    let seq := (s.rd Reg.CT_RUN_TX_SEQ 0 e + 1) % 2 ^ 32
    let xseq := if data then x.lastCtl else x.lastDat
    let len := if data then body.length / 256 - 1 else 0
    let w0 := (if data then 0x8000 else 0) + (if fence then 2 ^ 16 else 0) + 2 ^ 24 * len
    let base : Packet := ⟨[w0, seq, xseq, 65536 * s.rd Reg.CT_GEN 0 e, pay % 2 ^ 32, pay / 2 ^ 32 % 2 ^ 32, 0], body⟩
    let s := (s.wr Reg.CT_RUN_TX_SEQ 0 e seq).setCirc e (if data then { x with lastDat := seq } else { x with lastCtl := seq })
    let sealed_ := s.rdB Reg.CT_SEALED 0 e
    let s := (s.pathsOf e).foldl (fun s p =>
      if s.sideUp e p || ((s.circ e).path' p).rejoin then
        let q := base.forPath p (s.sideCid e p) (s.sideClaim e p)
        let q := if sealed_ then s.sealPkt e q else q.sealEchk
        (s.portSend (s.sidePort e p) q).1
      else s) s
    if sealed_ && seq == 2 ^ 32 - 1 then s.breakCir e 8 else s

/-! ### Receiving, R208, R215, R225, R228 -/

/-- PACKET_FORWARD: a packet that arrives on port `k` for an entry that is no endpoint, R208. -/
def State.packetForward (s : State) (k : Nat) (p : Packet) : State :=
  let e := p.cid
  if s.isEndpoint e then s
  else
    let s := s.freeCredit k p
    if !([0, 1, 2, 3, 4, 5, 6, 8].contains p.typ) then s.count cirPage 3 1
    else
    let side := if s.isForward e && s.sidePort e 0 == k then some 0 else if s.isForward e && s.sidePort e 1 == k then some 1 else none
    match side with
    | none => (s.count cirPage 3 1).raise cirPage 0 none e
    | some d =>
      let o := 1 - d
      if !s.sideUp e 0 || !s.sideUp e 1 then (s.count cirPage 3 1).count cirPage 6 1
      else
        let s := s.setCirc e { s.circ e with path := p.path }
        let dk := dieOfPort k
        let dout := dieOfPort (s.sidePort e o)
        if s.bridgeDown dk dout then s.sideDown e o 2
        else
          -- another die: the direct bridge, a data packet in the TILE class, a control packet in the CTRL class, R209
          let s := if dk = dout then s else s.flitsSent dk dout p.flits
          let r := s.portSend (s.sidePort e o) (p.setCid (s.sideCid e o))
          if r.2 then r.1.count cirPage 0 1 else r.1.sideDown e o 2

/-- FLIT_ARRIVE, whose packet may be one that a forwarding entry `ent` carries, on its way to a side: with the fourth failed replay it is
lost, and that side goes down, R210. -/
def State.flitIn (s : State) (mesh : Bool) (d e : Nat) (errs : List (Nat × Nat)) (badCrc : Bool) (c : Option Nat)
    (ent : Option (Nat × Nat)) : State :=
  let lost := s.flitLost mesh d e errs badCrc
  let s := s.flitArrive mesh d e errs badCrc c
  match ent with
  | some (n, side) => if lost && s.isForward n && decide (side < 2) then s.sideDown n side 2 else s
  | none => s

/-- An ECHK or authentication failure on a path, R228. A twin endpoint with no other path up is on a single path. -/
def State.echkFail (s : State) (e path : Nat) (auth : Bool) : State :=
  let s := (s.count cirPage 5 1).raise cirPage 2 (some (s.cirCtx e)) e
  let s := if auth then s.raise cirPage 3 (some (s.cirCtx e)) e else s
  if !s.rdB Reg.CT_TWIN 0 e || !s.sideUp e (1 - path) then (if s.cirState e = 2 ∨ s.cirState e = 3 then s.breakCir e 7 else s)
  else
    let recent := ((s.circ e).path' path).fails.filter (fun t => decide (s.timeUs < t + 1000000)) ++ [s.timeUs]
    let s := s.onPath e path (fun q => { q with fails := recent })
    if 4 < recent.length then s.pathDown e path else s

/-- The last sequence number of a class taken from the paths: held or delivered. -/
def State.lastTaken (s : State) (e : Nat) (data : Bool) : Nat :=
  let x := s.circ e
  let held := if data then x.heldD else x.heldC
  (held.getLast?.map (fun h => h.pkt.seq)).getD (s.rd (if data then Reg.CT_RUN_DLAST else Reg.CT_RUN_CLAST) 0 e)

/-- Numbers of a class whose packet is still to come from the other path, R228. -/
def Circ.gaps (x : Circ) (data : Bool) : List Nat := if data then x.gapsD else x.gapsC

/-- Sets them. -/
def Circ.setGaps (x : Circ) (data : Bool) (l : List Nat) : Circ := if data then { x with gapsD := l } else { x with gapsC := l }

/-- A copy whose check failed: where no good copy has been taken the number stays open for the other path's copy; where that copy has
failed too, no path can deliver it and the endpoint breaks (DEDUCED, log entry 16). -/
def State.copyFailed (s : State) (e : Nat) (p : Packet) (auth : Bool) : State :=
  let s := s.echkFail e p.path auth
  let x := s.circ e
  let g := x.gaps p.isData
  if s.cirState e ≠ 2 ∧ s.cirState e ≠ 3 ∧ s.cirState e ≠ 1 then s
  else if g.contains p.seq then s.breakCir e 7
  else if newer p.seq (s.lastTaken e p.isData) && !(x.path' p.path).rejoin then s.setCirc e (x.setGaps p.isData (g ++ [p.seq]))
  else s

/-- What the two copies of a packet share, as one number to compare them by, R224, R228: the check over words 0 to 5 and the payload
with PATH, CID and CLAIM left out. Claims that a repair has made different make word 3 and ECHK differ between the paths, as R215 and
R214 ask (DEDUCED, log entry 16). -/
def Packet.copyCheck (p : Packet) : Nat := (p.forPath 0 0 0).echkOf

/-- A held packet put in its place by sequence number. -/
def holdIn (h : HeldPkt) : List HeldPkt → List HeldPkt
  | [] => [h]
  | x :: r => if newer x.pkt.seq h.pkt.seq then h :: x :: r else x :: holdIn h r

/-- A numbered packet accepted by R215. -/
def State.numberedIn (s : State) (k e : Nat) (p : Packet) : State :=
  let path := p.path
  let st := s.cirState e
  if st ≠ 1 ∧ st ≠ 2 ∧ st ≠ 3 then s.freeCredit k p
  else match s.openPkt e p with
    | (none, auth) => (s.freeCredit k p).copyFailed e p auth
    | (some q, _) =>
      let x := s.circ e
      let awaited := (x.gaps p.isData).contains p.seq
      if !awaited && !newer p.seq (s.lastTaken e p.isData) then
        let s := (s.freeCredit k p).count cirPage 2 1
        match x.echks.find? (fun c => c.1 == p.seq) with
        | some c => if c.2 ≠ p.copyCheck then (s.raise cirPage 4 (some (s.cirCtx e)) e).breakCir e 7 else s
        | none => s
      else if (x.path' path).rejoin then s.freeCredit k p
      else
        let echks := x.echks ++ [(p.seq, p.copyCheck)]
        let x := { x with echks := echks.drop (echks.length - 256) }
        let x := x.setGaps p.isData ((x.gaps p.isData).filter (fun n => n != p.seq))
        s.setCirc e (if p.isData then { x with heldD := holdIn ⟨k, q⟩ x.heldD } else { x with heldC := holdIn ⟨k, q⟩ x.heldC })

/-- PACKET_RECEIVE: a packet that arrives on port `k` for an endpoint entry, R215. -/
def State.packetReceive (s : State) (k : Nat) (p : Packet) : State :=
  let e := p.cid
  let path := p.path
  if !s.isEndpoint e then s
  else if !([0, 1, 2, 3, 4, 5, 6, 8].contains p.typ) then (s.freeCredit k p).count cirPage 3 1
  else
    let placed := (s.pathsOf e).contains path && s.sidePort e path == k && (s.sideUp e path || ((s.circ e).path' path).rejoin)
    let genOk := !p.numbered || p.gen == s.rd Reg.CT_GEN 0 e
    let claimOk := p.claim == s.sideClaim e path
    if !placed || !genOk || !claimOk then
      let s := (s.freeCredit k p).count cirPage 3 1
      let s := if (s.pathsOf e).contains path && s.sidePort e path == k && !placed then s.count cirPage 6 1 else s
      if placed && genOk then s.raise cirPage 1 (some (s.cirCtx e)) e else s
    else
      let s := s.onPath e path (fun q => { q with heard := true })
      if p.numbered then s.numberedIn k e p
      else
        let s := s.freeCredit k p
        if p.echk ≠ p.echkOf then s.echkFail e path false
        else match p.typ with
          | 1 => s.openIn e path p.pay
          | 2 => s.closeIn e
          | 3 => s.quietIn e path
          | 4 => s.resetNotice e
          | 5 => s.pathDownIn e path p.pay
          | _ => s.rejoinIn e path p.pay

/-- The router takes a packet from port `k`. -/
def State.routePacket (s : State) (k : Nat) (p : Packet) : State :=
  if s.isEndpoint p.cid then s.packetReceive k p else s.packetForward k p

/-! ### Ordering, R220 to R222 -/

/-- The oldest held packet of a class may be delivered. -/
def State.mayDeliver (s : State) (e : Nat) (data : Bool) : Option HeldPkt :=
  let x := s.circ e
  match (if data then x.heldD else x.heldC) with
  | [] => none
  | h :: _ =>
    let other := s.rd (if data then Reg.CT_RUN_CLAST else Reg.CT_RUN_DLAST) 0 e
    -- a packet before it in its class is still to come from the other path
    if (x.gaps data).any (fun n => newer h.pkt.seq n) then none
    else if (s.rd Reg.CT_ORDER 0 e = 1 ∧ !h.pkt.fence) ∨ h.pkt.xseq = 0 ∨ !newer h.pkt.xseq other then some h else none

/-- Takes the oldest packet of a class for delivery: CLAST or DLAST, the link credit, the marks of a rejoin. -/
def State.takeHeld (s : State) (e : Nat) (data : Bool) : State × Option Packet :=
  match s.mayDeliver e data with
  | none => (s, none)
  | some h =>
    let x := s.circ e
    let s := s.setCirc e (if data then { x with heldD := x.heldD.drop 1 } else { x with heldC := x.heldC.drop 1 })
    let s := s.wr (if data then Reg.CT_RUN_DLAST else Reg.CT_RUN_CLAST) 0 e h.pkt.seq
    let s := ((s.freeCredit h.port h.pkt).count cirPage 1 1).rejoinCheck e
    (s, some h.pkt)

/-! ### Reset and commit -/

/-- A warm reset of this package: RESET_NOTICE on every path that is up, then BROKEN with LOCAL_RESET, R232. -/
def State.circuitsReset (s : State) : State :=
  let own := s.rd Reg.GLB_STRAP_LOC_X + 4 * s.rd Reg.GLB_STRAP_LOC_Y + 16 * s.rd Reg.GLB_STRAP_LOC_Z + 64 * s.rd Reg.GLB_STRAP_BLOCK
  (List.range 1024).foldl (fun s e =>
    if s.isEndpoint e && decide (1 ≤ s.cirState e) && decide (s.cirState e ≤ 4) then (s.sendMgmtAll e 4 own).breakCir e 4 else s) s

/-- The word of an entry at `0x110 + 4·i` from its fields, Table 8-1. -/
def State.entryWord (s : State) (e i : Nat) : Nat :=
  ((wordFields .cte (4 * i)).filter (fun x => x.1.acc = .rwt)).foldl (fun m x => m + s.rd x.1 0 e * 2 ^ x.1.lo) 0

/-- The refusal code of Table 8-3 for an entry whose words become `w`; 0 where none. DEDUCED, log entry 20: a 1 written to a reserved
bit or word of CT_W stays in the shadow, though R6 gives it no effect, so that code 0x01 can refuse it. -/
def State.entryCode (s : State) (e : Nat) (w : List Nat) : Nat :=
  let g := fun i hi lo => wfield w i hi lo
  let valid := g 0 0 0 == 1
  let ep := g 0 1 1 == 1
  let twin := g 0 3 3 == 1
  let hall := fun p => decide (12 ≤ p)
  let two := !ep || twin
  let st := s.cirState e
  let live := s.isEndpoint e && decide (1 ≤ st) && decide (st ≤ 4)
  let old := (List.range 8).map (s.entryWord e)
  let same := fun i => old.getD i 0 == w.getD i 0
  let down := fun p => !s.sideUp e p
  let repair := same 0 && same 1 && same 4 && same 5 && (same 2 || down 0) && (same 3 || down 1)
  let fwd := s.isForward e && valid && !ep
  let claimOk := fun i => same i || newerClaim (g i 31 16) (bits (old.getD i 0) 31 16)
  if g 0 7 7 ≠ 0 ∨ g 0 31 16 ≠ 0 ∨ g 2 15 14 ≠ 0 ∨ g 3 15 14 ≠ 0 ∨ g 5 31 8 ≠ 0 ∨ w.getD 6 0 ≠ 0 ∨ w.getD 7 0 ≠ 0 then 1
  else if !valid then (if live then 8 else 0)
  else if g 0 5 5 = 0 ∧ (hall (g 2 3 0) || (two && hall (g 3 3 0))) then 2
  else if ep ∧ g 0 5 5 = 1 ∧ g 0 2 2 = 0 then 3
  else if ep ∧ g 0 5 5 = 1 ∧ g 0 6 6 = 1 ∧ !twin then 4
  else if (two && g 2 3 0 == g 3 3 0) || (!two && w.getD 3 0 != 0) || (!ep && g 2 31 16 != g 3 31 16) then 5
  else if ep && (!s.ctxAssigned (g 0 13 8) || partOfDie s.pmap (g 0 15 14) != partOfCtx (g 0 13 8)) then 6
  else if ep && (g 0 4 4 == 1) != s.isSealed (partOfCtx (g 0 13 8)) then 7
  else if live && !repair then 8
  else if live && !(claimOk 2 && claimOk 3) then 9
  else if fwd && !newerClaim (g 2 31 16) (bits (old.getD 2 0) 31 16) then 9
  else 0
where
  newerClaim (a b : Nat) : Bool :=
    let d := (a + 65536 - b) % 65536
    decide (1 ≤ d) && decide (d < 32768)

/-- Sets the side's up bit from its port and latches the neighbour's BOOT_GEN, R207, R233. -/
def State.latchSide (s : State) (e side : Nat) : State :=
  let k := s.sidePort e side
  (s.setSide e side (s.rd Reg.LNK_STATE k == 4)).wr (if side = 0 then Reg.CT_RUN_BG_A else Reg.CT_RUN_BG_B) 0 e
    (s.rd Reg.LNK_PEER_ID_LO k / 2 ^ 22)

/-- An applied entry takes up its words `w`, R205, R207, R217, R229. -/
def State.applyEntry (s : State) (e : Nat) (w : List Nat) : State :=
  let st := s.cirState e
  let live := s.isEndpoint e && decide (1 ≤ st) && decide (st ≤ 4)
  let old := (List.range 8).map (s.entryWord e)
  let d := s.rd Reg.CT_DIE 0 e
  let s := (List.range 6).foldl (fun s i =>
    ((wordFields .cte (4 * i)).filter (fun x => x.1.acc = .rwt)).foldl (fun s x => s.wr x.1 0 e (w.getD i 0 / 2 ^ x.1.lo)) s) s
  if live then
    [0, 1].foldl (fun s p =>
      if old.getD (2 + p) 0 = w.getD (2 + p) 0 then s
      else
        let s := s.latchSide e p
        if s.sideUp e p then
          let x := s.circ e
          (s.setSide e p false).onPath e p (fun q => { q with
            rejoin := true, s0 := (s.rd Reg.CT_RUN_TX_SEQ 0 e + 1) % 2 ^ 32, ctl0 := x.lastCtl, dat0 := x.lastDat
            heard := false, marks := none })
        else s) s
  else
    let s := { s with circs := SMap.del s.circs e, wires := SMap.del s.wires e }
    let s := [Reg.CT_RUN_STATE, Reg.CT_RUN_A_UP, Reg.CT_RUN_B_UP, Reg.CT_RUN_CAUSE, Reg.CT_RUN_BG_A, Reg.CT_RUN_BG_B,
      Reg.CT_RUN_TX_SEQ, Reg.CT_RUN_CLAST, Reg.CT_RUN_DLAST].foldl (fun s f => s.rst f 0 e) s
    let s := s.nbFree d
    if s.isForward e then ((s.latchSide e 0).latchSide e 1).wr Reg.CT_RUN_STATE 0 e 7
    else if s.isEndpoint e then
      let s := s.latchSide e 0
      (if s.rdB Reg.CT_TWIN 0 e then s.latchSide e 1 else s).setCirState e 1
    else s

end Sys2Proof.Machine
end

