-- ==== Sys2Proof/Machine/Kp4.lean ====
section
/-! DEFINITION. The lane code of the Trinal ports, R177: RS(544,514) over 10-bit symbols, which corrects up to 15 symbols of a codeword.
The spec names the code of IEEE 802.3 Clause 91; its field polynomial x^10 + x^3 + 1, its generator roots α^0 to α^29 and the order of
its symbols are PRESUMED from there, log entry 15. A codeword is held as the message that was sent and the pattern of the symbols that
arrived wrong. -/

namespace Sys2Proof.Machine

open Sys2Proof

/-- Multiplication by α in GF(2^10). -/
def kpDouble (a : Nat) : Nat := if a < 512 then 2 * a else Nat.xor (2 * a - 1024) 9

/-- Product in GF(2^10), over the low `n` bits of the second factor. -/
def kpMulN (a : Nat) : Nat → Nat → Nat
  | 0, _ => 0
  | n + 1, b => Nat.xor (if b % 2 = 1 then a else 0) (kpMulN (kpDouble a) n (b / 2))

/-- Product in GF(2^10). -/
def kpMul (a b : Nat) : Nat := kpMulN a 10 b

/-- `a` to the power 2^n − 2, for n from 1. -/
def kpInvN (a : Nat) : Nat → Nat
  | 0 => 1
  | n + 1 => let q := kpInvN a n; kpMul (kpMul q q) (if n = 0 then 1 else kpMul a a)

/-- The inverse of a nonzero element: its power 2^10 − 2. -/
def kpInv (a : Nat) : Nat := kpInvN a 10

/-- α to the power `n`. -/
def kpPowN : Nat → Nat
  | 0 => 1
  | n + 1 => kpDouble (kpPowN n)

/-- α to the power `n`, whose order is 1,023. -/
def kpPow (n : Nat) : Nat := kpPowN (n % 1023)

/-- The value of a polynomial, lowest coefficient first. -/
def kpEval (x : Nat) : List Nat → Nat
  | [] => 0
  | c :: r => Nat.xor c (kpMul x (kpEval x r))

/-- The sum of two polynomials. -/
def kpAdd : List Nat → List Nat → List Nat
  | [], q => q
  | p, [] => p
  | a :: p, b :: q => Nat.xor a b :: kpAdd p q

/-- A polynomial times a scalar and x^n. -/
def kpScale (c n : Nat) (p : List Nat) : List Nat := List.replicate n 0 ++ p.map (kpMul c)

/-- The 30 syndromes of a pattern: symbol `i`, as sent, has the power α^(543 − i). -/
def kpSyndromes (e : List (Nat × Nat)) : List Nat :=
  (List.range 30).map (fun j => e.foldl (fun a x => Nat.xor a (kpMul x.2 (kpPow (j * (543 - x.1))))) 0)

/-- What finding the error locator holds on to: locator, the one before its last change with that discrepancy and the steps since, and
its length. -/
structure KpSearch where
  cur   : List Nat
  old   : List Nat
  disc  : Nat
  since : Nat
  len   : Nat
  deriving DecidableEq, Repr

/-- One step of the search for the shortest recurrence of the syndromes. -/
def kpStep (syn : List Nat) (x : KpSearch) (n : Nat) : KpSearch :=
  let d := (List.range (x.len + 1)).foldl (fun a i => Nat.xor a (kpMul (x.cur.getD i 0) (syn.getD (n - i) 0))) 0
  if d = 0 then { x with since := x.since + 1 }
  else
    let next := kpAdd x.cur (kpScale (kpMul d (kpInv x.disc)) x.since x.old)
    if 2 * x.len ≤ n then ⟨next, x.cur, d, 1, n + 1 - x.len⟩ else { x with cur := next, since := x.since + 1 }

/-- The error locator of the syndromes. -/
def kpLocator (syn : List Nat) : KpSearch := (List.range 30).foldl (kpStep syn) ⟨[1], [1], 1, 1, 0⟩

/-- The first 30 coefficients of the product of syndromes and locator. -/
def kpOmega (syn loc : List Nat) : List Nat :=
  (List.range 30).map (fun n => (List.range (n + 1)).foldl (fun a i => Nat.xor a (kpMul (loc.getD i 0) (syn.getD (n - i) 0))) 0)

/-- The derivative of a polynomial: its odd coefficients, one place down. -/
def kpDeriv (p : List Nat) : List Nat := (List.range (p.length - 1)).map (fun i => if i % 2 = 0 then p.getD (i + 1) 0 else 0)

/-- The correction of at most 15 symbols that explains nonzero syndromes, if there is one. -/
def kpCorrect (syn : List Nat) : Option (List (Nat × Nat)) :=
  let x := kpLocator syn
  let roots := (List.range 544).filter (fun i => kpEval (kpPow (1023 - (543 - i))) x.cur == 0)
  if 15 < x.len ∨ roots.length ≠ x.len then none
  else
    let om := kpOmega syn x.cur
    let dv := kpDeriv x.cur
    some (roots.map (fun i =>
      let inv := kpPow (1023 - (543 - i))
      (i, kpMul (kpPow (543 - i)) (kpMul (kpEval inv om) (kpInv (kpEval inv dv))))))

/-- Adds up a list of errors by symbol, symbols without error left out. -/
def kpNormal (l : List (Nat × Nat)) : List (Nat × Nat) :=
  (((l.map Prod.fst).eraseDups).map (fun i =>
    (i, (l.filter (fun x => x.1 == i)).foldl (fun a x => Nat.xor a (x.2 % 1024)) 0))).filter
      (fun x => decide (x.1 < 544) && decide (x.2 ≠ 0))

/-- Decodes the errors of a codeword: none where it is uncorrectable, else the symbols corrected and the errors left, which make another
codeword. Up to 15 errors are always corrected; more may fail or be taken for others. -/
def kpDecode (errs : List (Nat × Nat)) : Option (Nat × List (Nat × Nat)) :=
  let e := kpNormal errs
  if e.length ≤ 15 then some (e.length, [])
  else
    let syn := kpSyndromes e
    if syn.all (fun x => x == 0) then some (0, e)
    else (kpCorrect syn).map (fun c => (c.length, kpNormal (e ++ c)))

/-- The number whose bits are a lane's message: 19 blocks, then the 276 bits of the trailer. -/
def LaneWord.message (l : LaneWord) : Nat :=
  leNat l.blocks + 2 ^ 4864 * ((List.range 9).map (fun i => 2 ^ (32 * i) * (l.trailer.getD i 0 % 2 ^ 32))).sum % 2 ^ 5140

/-- A lane as received, its errors corrected: the lane and the symbols corrected; none where its codeword is uncorrectable. -/
def LaneWord.decode (l : LaneWord) : Option (LaneWord × Nat) :=
  (kpDecode l.errs).map (fun d =>
    if d.2.isEmpty then (l, d.1)
    else
      let m := d.2.foldl (fun m x => if x.1 < 514 then Nat.xor m (x.2 * 2 ^ (10 * x.1)) else m) l.message
      (⟨[], leBytes 608 (m % 2 ^ 4864), (List.range 9).map (fun i => m / 2 ^ (4864 + 32 * i) % 2 ^ 32)⟩, d.1))

end Sys2Proof.Machine
end

