-- ==== Sys2Proof/Machine/Links.lean ====
section
/-! DEFINITION. The Trinal ports: laser light (R175, R176), frames and replay (R177 to R186), port states (R187 to R189), the
training sequence (R190, R191), identity (R192 to R195) and error thresholds (R196 to R200). -/

namespace Sys2Proof.Machine

open Sys2Proof

/-! ### Sequence tables, Tables 7-5 to 7-7 -/

/-- Freroso's default table, Table 7-7; SEQ_VER 0. -/
def seqDefault : SeqTable :=
  ⟨0, 0, 11,
   [⟨1, 255, 1, 5⟩, ⟨2, 255, 1, 0⟩, ⟨3, 255, 10000, 0⟩, ⟨4, 255, 30000, 64⟩, ⟨2, 255, 1, 1⟩,
    ⟨5, 3, 2000, 1000 + 2240 * 65536⟩, ⟨2, 255, 1, 2⟩, ⟨6, 255, 1000, 0⟩, ⟨7, 255, 50000, 0⟩, ⟨8, 255, 100, 1500⟩,
    ⟨9, 255, 100, 0⟩, ⟨2, 255, 1, 2⟩, ⟨3, 255, 5, 0⟩, ⟨4, 255, 8, 4⟩, ⟨6, 255, 3, 0⟩, ⟨7, 255, 2, 0⟩, ⟨9, 255, 1, 0⟩]⟩

/-- Word `i` of a table image. -/
def seqWord (b : List Byte) (i : Nat) : Nat := leNat ((b.drop (4 * i)).take 4)

/-- A table image read. -/
def seqOf (b : List Byte) : SeqTable :=
  ⟨bits (seqWord b 1) 15 0, bits (seqWord b 2) 7 0, bits (seqWord b 2) 15 8,
   (List.range (bits (seqWord b 1) 23 16)).map (fun i =>
     let w := seqWord b (8 + 2 * i)
     ⟨bits w 7 0, bits w 15 8, bits w 31 16, seqWord b (9 + 2 * i)⟩)⟩

/-- The activation checks of R191 on a table image. -/
def seqImageOk (b : List Byte) : Bool :=
  let n := bits (seqWord b 1) 23 16
  let t := seqOf b
  seqWord b 0 == 0x51534C54 && decide (1 ≤ n) && decide (n ≤ 128) && bits (seqWord b 1) 31 24 == 0 && bits (seqWord b 2) 31 16 == 0
    && [3, 4, 5, 6, 7].all (fun i => seqWord b i == 0) && b.length == 32 + 8 * n
    && decide (t.train < n) && decide (t.retrain < n)
    && t.steps.all (fun x => decide (1 ≤ x.op) && decide (x.op ≤ 11) && (x.onfail == 255 || decide (x.onfail < n))
      && (x.op != 10 || decide (x.arg % 256 < n)) && (x.op != 8 || decide (x.arg ≤ 1500)) && decide (1 ≤ x.tmo))
    && t.steps.any (fun x => x.op == 9)

/-- The table in force: component 2 of the flash, or the default. -/
def State.seqTable (s : State) : SeqTable := ((SMap.find s.flash.active 2).map (fun c => seqOf c.body)).getD seqDefault

/-! ### States, Tables 7-3 and 7-4 -/

/-- STATE of a port. -/
def State.lnk (s : State) (k : Nat) : Nat := s.rd Reg.LNK_STATE k

/-- The identity word this port sends, Table 7-9. -/
def State.ownIdLo (s : State) (k : Nat) : Nat :=
  s.rd Reg.GLB_STRAP_LOC_X + 4 * s.rd Reg.GLB_STRAP_LOC_Y + 16 * s.rd Reg.GLB_STRAP_LOC_Z + 64 * s.rd Reg.GLB_STRAP_BLOCK
    + 2 ^ 16 * k + 2 ^ 20 * s.rd Reg.GLB_STRAP_VAR + 2 ^ 22 * (s.flash.bootGen % 1024)

/-- Its versions, from the active Soholt image. -/
def State.ownIdHi (s : State) : Nat := ((SMap.find s.flash.active 1).map (fun c => c.links % 2 ^ 20)).getD 0

/-- The neighbour of a torus port: package and port, R18, Table 1-3. -/
def State.neighbour (s : State) (k : Nat) : Nat × Nat :=
  let x := s.rd Reg.GLB_STRAP_LOC_X
  let y := s.rd Reg.GLB_STRAP_LOC_Y
  let z := s.rd Reg.GLB_STRAP_LOC_Z
  let step := if k % 4 < 2 then 1 else 3
  let q := match k / 4 with
    | 0 => ((x + step) % 4, y, z)
    | 1 => (x, (y + step) % 4, z)
    | _ => (x, y, (z + step) % 4)
  (q.1 + 4 * q.2.1 + 16 * q.2.2 + 64 * s.rd Reg.GLB_STRAP_BLOCK, if k % 4 < 2 then k + 2 else k - 2)

/-- The straps set the expectations of the torus ports, R194, and the word that shows the own identity; OWN_ID_HI follows the active Soholt image (Views). DESIGN CHOICE, log entry 15:
under a reserved VAR, for which R194 gives no expectation, EXP_VALID is 0, so that the torus ports that train stay HELD. -/
def State.strapPorts (s : State) : State :=
  (List.range 16).foldl (fun s k =>
    let s := s.wr Reg.LNK_OWN_ID_LO k 0 (s.ownIdLo k)
    if k < 12 then
      let n := s.neighbour k
      ((s.wr Reg.LNK_EXP_PKG k 0 n.1).wr Reg.LNK_EXP_PORT k 0 n.2).wr Reg.LNK_EXP_VALID k 0
        (if s.rd Reg.GLB_STRAP_VAR = 0 then 1 else 0)
    else s) s

/-- The port moves to a state. Leaving UP and RETRAIN discards what is not acknowledged and takes its sides down; leaving TRAIN
clears REMOTE_DOWN. `dark`: the light of the neighbour was lost. -/
def State.setLnk (s : State) (k st : Nat) (dark : Bool := false) : State :=
  let old := s.lnk k
  let s := s.wr Reg.LNK_STATE k 0 st
  let s := if old = 2 ∧ st ≠ 2 then s.wr Reg.LNK_REMOTE_DOWN k 0 0 else s
  if (old = 4 ∨ old = 5) ∧ st ≠ 4 ∧ st ≠ 5 then
    let x := s.port k
    (s.setPort k { x with ctl := LinkClass.fresh 0, dat := LinkClass.fresh 0, part := none }).sidesDown k dark
  else s

/-- The port fails with LINK_FAILED. -/
def State.linkFailed (s : State) (k : Nat) : State := (s.setLnk k 8).raise (lnkPage k) 4 none 0

/-- The sequence goes to a step; an unlisted operation ends it with SEQ_BAD. -/
def State.seqGo (s : State) (k step : Nat) : State :=
  let s := s.wr Reg.LNK_STEP k 0 step
  match (s.port k).table.steps[step]? with
  | none => (s.setLnk k 8).raise (lnkPage k) 13 none 0
  | some x => if x.op = 0 ∨ 11 < x.op then (s.setLnk k 8).raise (lnkPage k) 13 none 0 else s

/-- Enters TRAIN or RETRAIN at the table's entry point. -/
def State.enterTrain (s : State) (k : Nat) (re : Bool) : State :=
  let t := s.seqTable
  let s := s.setLnk k (if re then 5 else 2)
  let s := (s.setPort k { s.port k with table := t }).wr Reg.LNK_SEQ_VER k 0 t.ver
  s.seqGo k (if re then t.retrain else t.train)

/-- The port is UP after training: fresh credits and sequence numbers, R185. -/
def State.linkFresh (s : State) (k : Nat) : State :=
  s.setPort k { s.port k with ctl := LinkClass.fresh 512, dat := LinkClass.fresh 4096, part := none }

/-- Sends again, from the acknowledged number, what a class keeps, R183: `lim` is the transmissions allowed. The answer says how many
packets went out and whether one was held back by R186. -/
def LinkClass.resend (c : LinkClass) (lim : Nat) : LinkClass × Nat × Bool :=
  let held := c.kept.any (fun x => decide (lim ≤ x.sends))
  if held then ({ c with restart := some ((c.kept.head?.map Kept.seq).getD c.tx) }, 0, true)
  else ({ c with
    kept := c.kept.map (fun x => { x with sends := x.sends + 1 })
    restart := some ((c.kept.head?.map Kept.seq).getD c.tx) }, c.kept.length, false)

/-- A class takes up a replay again after a retrain, R188: from the acknowledged number every packet it keeps is sent, one held back
by R186 too, whose transmissions count anew. The answer says how many were sent again. -/
def LinkClass.resume (c : LinkClass) : LinkClass × Nat :=
  if c.restart.isNone then (c, 0)
  else ({ c with
    kept := c.kept.map (fun q => { q with sends := if 7 ≤ q.sends then 1 else q.sends + 1 })
    restart := if c.kept.isEmpty then none else some ((c.kept.head?.map Kept.seq).getD c.tx) }, c.kept.length)

/-- Return from RETRAIN to UP: a replay in progress resumes, R188, and held packets flow again. -/
def State.linkBack (s : State) (k : Nat) : State :=
  let x := s.port k
  let c := x.ctl.resume
  let d := x.dat.resume
  let go := fun (c : LinkClass) => c.flush c.wait.length
  (((s.setPort k { x with ctl := go c.1, dat := go d.1 }).count (lnkPage k) 5 (c.2 + d.2)).setLnk k 4).raise (lnkPage k) 3 none 0

/-- A retrain starts. -/
def State.startRetrain (s : State) (k : Nat) : State :=
  let x := s.port k
  let recent := x.retrains.filter (fun t => decide (s.timeUs < t + 60000000))
  let s := s.setPort k { x with retrains := recent ++ [s.timeUs] }
  (s.enterTrain k true).count (lnkPage k) 7 1

/-- A retrain trigger of R198 in UP: a retrain, or FAILED beyond RETRAIN_LIM in 60 s. -/
def State.retrainTrigger (s : State) (k : Nat) : State :=
  if s.lnk k ≠ 4 then s
  else
    let n := ((s.port k).retrains.filter (fun t => decide (s.timeUs < t + 60000000))).length
    if s.rd Reg.LNK_RETRAIN_LIM k ≤ n then s.linkFailed k else s.startRetrain k

/-- The type of the frames that a port sends, Tables 7-2 and 7-3; none while it sends a pattern or nothing: 0 data, 1 training,
2 identity, 3 retrain request, 4 down. In RETRAIN it asks the peer for the retrain until its sequence has passed the entry point,
R197; in an IDENT step it sends identity frames, R192. -/
def State.sendsFrame (s : State) (k : Nat) : Option Nat :=
  let p := s.port k
  let op := (p.table.steps[s.rd Reg.LNK_STEP k]?).map SeqStep.op
  match s.lnk k with
  | 2 => if op = some 9 then some 2 else if p.pattern = 2 then some 1 else none
  | 3 => some 0
  | 4 => some 0
  | 5 => if op = some 9 then some 2 else if s.rd Reg.LNK_STEP k = p.table.retrain then some 3 else some 1
  | 6 => some 2
  | 7 => some 2
  | 8 => some 4
  | 9 => some 0
  | _ => none

/-- The trailer words 3 to 6 of the frames that a port sends: sequence numbers, acknowledgements, NAKs and credits of the two classes,
Table 7-2. -/
def State.sentTrailer (s : State) (k : Nat) : List Nat :=
  let c := (s.port k).ctl
  let d := (s.port k).dat
  [c.tx + 65536 * d.tx, c.rx + 65536 * d.rx, (if c.nak then 1 else 0) + (if d.nak then 2 else 0), c.freed + 65536 * d.freed]

/-! ### Laser light, R175 and R176 -/

/-- STATUS shows a laser input below LP_MIN at an engine that has measured, Table 12-5. -/
def State.laserNote (s : State) (las : Nat) : State :=
  let low := [las, las + 8].any (fun k => s.rd Reg.LNK_LP k != 0x200
    && decide (toSigned 10 (s.rd Reg.LNK_LP k) < toSigned 10 (s.rd Reg.LNK_LP_MIN k)))
    || (las % 4 == 0 && s.rd Reg.HST_LP (las / 4) != 0x200 && decide (toSigned 10 (s.rd Reg.HST_LP (las / 4)) < 160))
  let m := s.soh.laser
  ({ s with soh := { s.soh with laser := if low then setBit m las else clrBit m las } } : State).trayNote

/-- LASER_MEASURE: a reading in 0.1 dBm. -/
def State.laserMeasure (s : State) (k lp : Nat) : State :=
  if 16 ≤ k ∨ !s.powered (lnkPage k) then s
  else
    let s := (s.wr Reg.LNK_LP k 0 lp).laserNote (k % 8)
    let v := toSigned 10 lp
    let s := if v < toSigned 10 (s.rd Reg.LNK_LP_WARN k) then s.raise (lnkPage k) 8 none 0 else s
    if 220 < v then s.raise (lnkPage k) 10 none 0 else s

/-- LP of a port is below LP_MIN. -/
def State.lpLow (s : State) (k : Nat) : Bool := decide (toSigned 10 (s.rd Reg.LNK_LP k) < toSigned 10 (s.rd Reg.LNK_LP_MIN k))

/-- LASER_LOSS: the light has been below LP_MIN for 1 ms. -/
def State.laserLoss (s : State) (k : Nat) : State :=
  if 16 ≤ k ∨ !s.lpLow k ∨ s.lnk k = 0 ∨ s.lnk k = 10 then s
  else (s.setLnk k 10).raise (lnkPage k) 9 none 0

/-- LASER_RESTORE: the light has been at or above LP_WARN for 100 ms. -/
def State.laserRestore (s : State) (k : Nat) : State :=
  if s.lnk k = 10 ∧ toSigned 10 (s.rd Reg.LNK_LP_WARN k) ≤ toSigned 10 (s.rd Reg.LNK_LP k) then s.setLnk k 1 else s

/-! ### Received light, R187 and R200 -/

/-- The received power of the eight lanes: RXP, and LOS below −14.0 dBm until above −12.0 dBm, Table 7-1. -/
def State.rxPower (s : State) (k : Nat) (p : List Nat) : State :=
  let s := (List.range 8).foldl (fun s l =>
    let v := toSigned 10 (p.getD l 0x200)
    let los := if v < -140 then true else if -120 < v then false else s.rdB Reg.LNK_LOS k l
    (s.wr Reg.LNK_RXP k l (p.getD l 0x200)).wrB Reg.LNK_LOS k l los) s
  s.wr Reg.LNK_LOS_LANES k 0 ((List.range 8).map (fun l => 2 ^ l * s.rd Reg.LNK_LOS k l)).sum

/-- LOSS_OF_SIGNAL: the light of the receive lanes, `p`; with all eight dark the port goes to DARK. -/
def State.lossOfSignal (s : State) (k : Nat) (p : List Nat) : State :=
  if 16 ≤ k then s
  else
    let s := s.rxPower k p
    let st := s.lnk k
    if s.rd Reg.LNK_LOS_LANES k ≠ 255 ∨ st = 0 ∨ st = 10 ∨ st = 1 then s
    else
      let s := s.setLnk k 1 true
      if st = 3 ∨ st = 4 ∨ st = 5 ∨ st = 9 then s.raise (lnkPage k) 5 none 0 else s

/-- SIGNAL_DETECT: the light of the receive lanes, `p`; with all eight above the release level a DARK port trains. -/
def State.signalDetect (s : State) (k : Nat) (p : List Nat) : State :=
  if 16 ≤ k then s
  else
    let s := s.rxPower k p
    if s.lnk k = 1 ∧ s.rd Reg.LNK_LOS_LANES k = 0 then s.enterTrain k false else s

/-! ### Controls, R189, R198 -/

/-- LNK_EN: a write of EN. -/
def State.lnkEn (s : State) (k v : Nat) : State :=
  if 16 ≤ k ∨ !s.powered (lnkPage k) then s
  else if v % 2 = 0 then
    if s.portOpen k then s.wr Reg.LNK_REFUSED k 0 1
    else ((s.wr Reg.LNK_REFUSED k 0 0).wr Reg.LNK_EN k 0 0).setLnk k 0
  else if 12 ≤ k ∧ s.rd Reg.GLB_STRAP_STRAP_BAD = 1 then s
  else
    let s := s.wr Reg.LNK_EN k 0 1
    if s.lnk k = 0 then s.setLnk k (if s.lpLow k then 10 else 1) else s

/-- RETRY. -/
def State.lnkRetry (s : State) (k : Nat) : State :=
  if 16 ≤ k then s
  else if s.isFenced (lnkPage k) 0 then s.wr Reg.LNK_REFUSED k 0 1
  else
    let s := s.wr Reg.LNK_REFUSED k 0 0
    if 6 ≤ s.lnk k ∧ s.lnk k ≤ 8 then s.setLnk k 1 else s

/-- RETRAIN. -/
def State.lnkRetrain (s : State) (k : Nat) : State := if k < 16 then s.retrainTrigger k else s

/-- LOOP. -/
def State.lnkLoop (s : State) (k v : Nat) : State :=
  if 16 ≤ k then s
  else if v % 2 = 1 ∧ s.rd Reg.GLB_STRAP_VAR ≠ 1 then s else s.wr Reg.LNK_LOOP k 0 v

/-! ### Sequence steps, R190 -/

/-- The step in progress, where the port trains and the step has operation `op`. -/
def State.seqAt (s : State) (k op : Nat) : Option SeqStep :=
  if 16 ≤ k ∨ (s.lnk k ≠ 2 ∧ s.lnk k ≠ 5) then none
  else ((s.port k).table.steps[s.rd Reg.LNK_STEP k]?).filter (fun x => x.op == op)

/-- The step completes. -/
def State.seqNext (s : State) (k : Nat) : State := s.seqGo k (s.rd Reg.LNK_STEP k + 1)

/-- The step in progress fails: on to ONFAIL, or FAILED. -/
def State.seqFail (s : State) (k : Nat) : State :=
  match (s.port k).table.steps[s.rd Reg.LNK_STEP k]? with
  | none => s
  | some x => if x.onfail = 255 then s.linkFailed k else s.seqGo k x.onfail

/-- TX_PRESET. -/
def State.seqTxPreset (s : State) (k : Nat) : State :=
  match s.seqAt k 1 with
  | none => s
  | some x => (s.setPort k { s.port k with preset := x.arg % 16 }).seqNext k

/-- TX_PATTERN. -/
def State.seqTxPattern (s : State) (k : Nat) : State :=
  match s.seqAt k 2 with
  | none => s
  | some x => (s.setPort k { s.port k with pattern := x.arg % 4 }).seqNext k

/-- WAIT_LOCK: clock recovery has locked on the lanes of `locked`. -/
def State.seqWaitLock (s : State) (k locked : Nat) : State :=
  match s.seqAt k 3 with
  | none => s
  | some _ => if locked % 256 = 255 then s.seqNext k else s

/-- ADAPT: the rounds have run. -/
def State.seqAdapt (s : State) (k : Nat) : State :=
  match s.seqAt k 4 with
  | none => s
  | some _ => s.seqNext k

/-- CHECK_BER: the errors counted on each lane. -/
def State.seqCheckBer (s : State) (k : Nat) (errs : List Nat) : State :=
  match s.seqAt k 5 with
  | none => s
  | some x => if errs.any (fun n => decide (x.arg / 65536 < n)) then s.seqFail k else s.seqNext k

/-- FEC_LOCK: every lane has lock and one FSEQ; `order` is the transmit lane on each receive lane. -/
def State.seqFecLock (s : State) (k : Nat) (order : List Nat) : State :=
  match s.seqAt k 6 with
  | none => s
  | some _ =>
    let m := ((List.range 8).map (fun l => 8 ^ l * (order.getD l 0 % 8))).sum
    ((s.wr Reg.LNK_LANE_MAP k 0 m).wrB Reg.LNK_LANE_PERM k 0 (m != 0xFAC688)).seqNext k

/-- PEER_SYNC: the peer's training frames carry TSTEP `t`. -/
def State.seqPeerSync (s : State) (k t : Nat) : State :=
  match s.seqAt k 7 with
  | none => s
  | some _ => if t = s.rd Reg.LNK_STEP k then s.seqNext k else s

/-- RTT: the round trip measured, ns. -/
def State.seqRtt (s : State) (k ns : Nat) : State :=
  match s.seqAt k 8 with
  | none => s
  | some x =>
    let s := s.wr Reg.LNK_RTT k 0 ns
    if x.arg < ns then (s.raise (lnkPage k) 11 none 0).seqFail k else s.seqNext k

/-- GOTO. -/
def State.seqGoto (s : State) (k : Nat) : State :=
  match s.seqAt k 10 with
  | none => s
  | some x => s.seqGo k (x.arg % 256)

/-- DELAY: the time has passed. -/
def State.seqDelay (s : State) (k : Nat) : State :=
  match s.seqAt k 11 with
  | none => s
  | some _ => s.seqNext k

/-- SEQ_STEP_TIMEOUT. -/
def State.seqTimeout (s : State) (k : Nat) : State :=
  if k < 16 ∧ (s.lnk k = 2 ∨ s.lnk k = 5) then s.seqFail k else s

/-- TRAIN_TIMEOUT. -/
def State.trainTimeout (s : State) (k : Nat) : State :=
  if k < 16 ∧ (s.lnk k = 2 ∨ s.lnk k = 5) then s.linkFailed k else s

/-! ### Identity, R192 to R195 -/

/-- The settled version of two ends, or none outside the window: identity words HI. -/
def settleVersion (a b : Nat) : Option (Nat × Nat) :=
  let maj := fun v => bits v 3 0
  let mi := fun v => bits v 11 4
  let old := fun v => bits v 19 12
  if maj a = maj b then some (maj a, min (mi a) (mi b))
  else if maj a = maj b + 1 then some (maj b, min (old a) (mi b))
  else if maj b = maj a + 1 then some (maj a, min (old b) (mi a))
  else none

/-- The expectation in force on a port matches an identity. -/
def State.expMatches (s : State) (k lo : Nat) : Bool :=
  lo % 65536 == s.rd Reg.LNK_EXP_PKG k && bits lo 19 16 == s.rd Reg.LNK_EXP_PORT k

/-- The identity that a run of identity blocks (LO, HI, echo of LO) makes accepted: that of the last block which stands three times in a
row, R192. -/
def identAccepted : List (Nat × Nat × Nat) → Option (Nat × Nat)
  | a :: b :: c :: r =>
    match identAccepted (b :: c :: r) with
    | some x => some x
    | none => if a = b ∧ b = c then some (a.1, a.2.1) else none
  | _ => none

/-- IDENT: the identity blocks of the frames that the peer has sent, in their order. The peer's identity is accepted from three equal
ones in a row; while the echo it sends is 0 it has not accepted this port's, which goes on sending, R192; its echo decides, R193. -/
def State.seqIdent (s : State) (k : Nat) (blocks : List (Nat × Nat × Nat)) : State :=
  match s.seqAt k 9, identAccepted blocks with
  | some _, some (lo, hi) =>
    let st := s.lnk k
    let echo := (blocks.getLast?.map (fun b => b.2.2)).getD 0
    let s := (s.wr Reg.LNK_PEER_ID_LO k 0 lo).wr Reg.LNK_PEER_ID_HI k 0 hi
    let s := s.bootGenCheck k
    let own := s.ownIdLo k
    if echo % 2 ^ 32 = 0 ∧ own ≠ 0 then s
    else
    let var := s.rd Reg.GLB_STRAP_VAR
    let loop := s.rdB Reg.LNK_LOOP k && var == 1
    let inForce := s.rdB Reg.LNK_EXP_VALID k && var != 1
    let wired := echo % 2 ^ 32 == own && bits lo 21 20 == var && (!inForce || s.expMatches k lo) && (!loop || lo == own)
    if !wired then (s.setLnk k 6).raise (lnkPage k) 6 none 0
    else match settleVersion s.ownIdHi hi with
      | none => (s.setLnk k 7).raise (lnkPage k) 7 none 0
      | some v =>
        let s := (s.wr Reg.LNK_NEG_MAJOR k 0 v.1).wr Reg.LNK_NEG_MINOR k 0 v.2
        if st = 5 then (if inForce then s.linkBack k else s)
        else (s.linkFresh k).setLnk k (if loop then 9 else if inForce then 4 else 3)
  | _, _ => s

/-- A COMMIT has set the expectation of a port, R194. -/
def State.expCommitted (s : State) (k : Nat) : State :=
  let st := s.lnk k
  if s.rd Reg.LNK_EXP_VALID k = 0 ∨ s.rd Reg.GLB_STRAP_VAR = 1 ∨ (st ≠ 3 ∧ st ≠ 4) then s
  else if s.expMatches k (s.rd Reg.LNK_PEER_ID_LO k) then (if st = 3 then s.setLnk k 4 else s)
  else (s.setLnk k 6).raise (lnkPage k) 6 none 0

/-! ### Frames, R177 to R186 -/

/-- Trailer word `i` of a lane. -/
def LaneWord.t (l : LaneWord) (i : Nat) : Nat := l.trailer.getD i 0

/-- The fields that all lanes of a frame share. -/
def LaneWord.shared (l : LaneWord) : List Nat := [l.t 0 / 16, l.t 2 / 64, l.t 3, l.t 4, l.t 5, l.t 6, l.t 7, l.t 8]

/-- Kind of block `i` of a lane. -/
def LaneWord.kind (l : LaneWord) (i : Nat) : Nat :=
  if i < 16 then bits (l.t 1) (2 * i + 1) (2 * i) else bits (l.t 2) (2 * (i - 16) + 1) (2 * (i - 16))

/-- Bytes of block `i` of a lane. -/
def LaneWord.block (l : LaneWord) (i : Nat) : List Byte := (l.blocks.drop (32 * i)).take 32

/-- The lane that carries transmit lane `n`. -/
def laneOf (ls : List LaneWord) (n : Nat) : Option LaneWord := ls.find? (fun l => l.t 0 % 16 == n)

/-- The lanes of a frame whose codewords decode, corrected. -/
def goodLanes (ls : List LaneWord) : List LaneWord := ls.filterMap (fun l => l.decode.map Prod.fst)

/-- R180, of the lanes of a frame that decoded: a codeword is uncorrectable, a block kind is reserved, or the lanes disagree. -/
def frameLost (good : List LaneWord) : Bool :=
  good.length != 8 || good.any (fun l => (List.range 19).any (fun i => l.kind i == 3))
    || !((List.range 8).all (fun n => (laneOf good n).isSome))
    || (match good with
        | [] => true
        | g :: r => r.any (fun l => l.shared != g.shared))

/-- The lane from which the shared fields are taken, R178: the lowest-numbered of those that decoded. -/
def sharedLane (good : List LaneWord) : Option LaneWord := ((List.range 16).filterMap (laneOf good)).head?

/-- The blocks of a frame in link order: index, kind, bytes. -/
def frameBlocks (ls : List LaneWord) : List (Nat × Nat × List Byte) :=
  (List.range 152).map (fun b => match laneOf ls (b % 8) with
    | none => (b, 2, [])
    | some l => (b, l.kind (b / 8), l.block (b / 8)))

/-- A packet from its bytes, and whether its LCRC holds. -/
def packetOf (b : List Byte) : Packet × Bool :=
  (⟨toWords 7 b, b.drop 32⟩, leNat ((b.drop 28).take 4) == crc32 (b.take 28 ++ [0, 0, 0, 0] ++ b.drop 32))

/-- Serial order of 16-bit link numbers: `a` is newer than `b`. -/
def newer16 (a b : Nat) : Bool :=
  let d := (a + 65536 - b % 65536) % 65536
  decide (1 ≤ d) && decide (d < 32768)

/-- A packet of a class arrives with its link number: taken in order, else discarded, R182, R183. -/
def State.linkTake (s : State) (k seq : Nat) (b : List Byte) (data : Bool) : State :=
  let x := s.port k
  let c := if data then x.dat else x.ctl
  let put := fun (s : State) (c : LinkClass) => s.setPort k (if data then { s.port k with dat := c } else { s.port k with ctl := c })
  let q := packetOf b
  if !q.2 then (put ((s.count (lnkPage k) 4 1).raise (lnkPage k) 2 none 0) { c with nak := c.nak || !newer16 c.rx seq })
  else if seq = c.rx then (put s { c with rx := (c.rx + 1) % 65536, nak := false }).routePacket k q.1
  else if newer16 seq c.rx then put s { c with nak := true }
  else s

/-- Bytes of a data packet, from its header. -/
def dataBytes (b : List Byte) : Nat :=
  let w := leNat (b.take 4)
  32 + 256 * (bits w 28 24 + 1) + (if bit w 17 = 1 then 32 else 0)

/-- Takes the blocks of a data frame: control packets at once, data blocks into the packet in progress. `cs` and `ds` are the link
numbers of the next control packet and of the next data header. -/
def State.takeBlocks (s : State) (k dhdr cs ds : Nat) : List (Nat × Nat × List Byte) → State
  | [] => s
  | (i, kind, b) :: r =>
    if kind = 1 then (s.linkTake k cs b false).takeBlocks k dhdr ((cs + 1) % 65536) ds r
    else if kind = 0 then
      let cur := (s.port k).part
      let cur := if i = dhdr then none else cur
      match cur, decide (i < dhdr) with
      | none, true => s.takeBlocks k dhdr cs ds r
      | cur, _ =>
        let seq := (cur.map Prod.fst).getD ds
        let ds := if cur.isNone then (ds + 1) % 65536 else ds
        let bytes := (cur.map Prod.snd).getD [] ++ b
        if dataBytes bytes ≤ bytes.length then
          let s := s.setPort k { s.port k with part := none }
          (s.linkTake k seq bytes true).takeBlocks k dhdr cs ds r
        else (s.setPort k { s.port k with part := some (seq, bytes) }).takeBlocks k dhdr cs ds r
    else s.takeBlocks k dhdr cs ds r

/-- Drops acknowledged packets of a class and takes its credits. -/
def LinkClass.acked (c : LinkClass) (ack freed : Nat) (nak : Bool) : LinkClass :=
  let kept := c.kept.filter (fun x => !newer16 ack x.seq)
  { c with
    kept := kept, cred := c.cred + (freed + 65536 - c.peerFreed) % 65536, peerFreed := freed, peerNak := nak
    restart := match c.restart with
      | some a => if kept.isEmpty ∨ newer16 ack a then none else some a
      | none => none }

/-- A restart of a class of port `k`, R183, R186. -/
def State.linkRestart (s : State) (k : Nat) (data : Bool) : State :=
  let x := s.port k
  let r := (if data then x.dat else x.ctl).resend 7
  let s := s.setPort k (if data then { x with dat := r.1 } else { x with ctl := r.1 })
  if r.2.2 then s.retrainTrigger k
  else (s.count (lnkPage k) 5 r.2.1).raise (lnkPage k) 0 none 0

/-- Acknowledgements, credits and NAKs of a good data frame. -/
def State.frameAcks (s : State) (k : Nat) (g : LaneWord) : State :=
  let x := s.port k
  let cn := bit (g.t 5) 0 == 1
  let dn := bit (g.t 5) 1 == 1
  let newC := cn && !x.ctl.peerNak
  let newD := dn && !x.dat.peerNak
  let c := x.ctl.acked (g.t 4 % 65536) (g.t 6 % 65536) cn
  let d := x.dat.acked (g.t 4 / 65536) (g.t 6 / 65536) dn
  let up := s.lnk k == 4
  let s := s.setPort k { x with
    ctl := if up then c.flush c.wait.length else c, dat := if up then d.flush d.wait.length else d }
  let s := if newC then s.linkRestart k false else s
  if newD then s.linkRestart k true else s

/-- The errors of a frame's codewords are counted, R196, R203. -/
def State.frameErrors (s : State) (k : Nat) (ls : List LaneWord) : State :=
  let page := lnkPage k
  let ns := ls.map (fun l => l.decode.map Prod.snd)
  let uc := (ns.filter Option.isNone).length
  let s := (s.count page 2 (ns.filter (fun n => n.any (fun x => x != 0))).length).count page 3 uc
  let s := (ns.mapIdx (fun i n => (i, n.getD 0))).foldl (fun s x =>
    if x.2 = 0 then s
    else
      let p := s.port k
      let near := if 13 ≤ x.2 then 1 else 0
      let s := s.setPort k { p with
        syms := SMap.set 0 p.syms x.1 (SMap.get 0 p.syms x.1 + x.2)
        nears := SMap.set 0 p.nears x.1 (SMap.get 0 p.nears x.1 + near) }
      (s.countF page Reg.LN_SYM k x.1 x.2).countF page Reg.LN_NEAR k x.1 near) s
  let p := s.port k
  let s := s.setPort k { p with ucw := p.ucw + uc }
  if p.ucw ≤ s.rd Reg.LNK_UCW_LIM k ∧ s.rd Reg.LNK_UCW_LIM k < p.ucw + uc then s.retrainTrigger k else s

/-- What a frame's shared fields do, R178: acknowledgements, credits and NAKs, and the numbers that show a loss, of a data frame; a
retrain request; the peer's down frames. -/
def State.frameShared (s : State) (k : Nat) (g : LaneWord) : State :=
  let st := s.lnk k
  match bits (g.t 0) 7 4 with
  | 0 =>
    if st ≠ 4 then s
    else
      let s := s.frameAcks k g
      -- a number ahead of the expected one shows a loss
      let x := s.port k
      let due := x.dat.rx + (if x.part.isSome then 1 else 0)
      s.setPort k { x with
        ctl := { x.ctl with nak := x.ctl.nak || newer16 (g.t 3 % 65536) x.ctl.rx }
        dat := { x.dat with nak := x.dat.nak || newer16 (g.t 3 / 65536) due } }
  | 3 => if st = 4 then s.startRetrain k else s
  | 4 =>
    if 3 ≤ st ∧ st ≤ 5 then
      ((s.enterTrain k false).wr Reg.LNK_REMOTE_DOWN k 0 1).raise (lnkPage k) 12 none 0
    else s
  | _ => s

/-- FRAME_RECEIVE: eight codewords arrive at a port. The shared fields come from the lowest lane that decoded, R178, also of a lost
frame, whose packets are discarded, R180. -/
def State.frameReceive (s : State) (k : Nat) (ls : List LaneWord) : State :=
  if 16 ≤ k ∨ s.lnk k < 2 ∨ s.lnk k = 10 ∨ s.lnk k = 8 then s
  else
    let good := goodLanes ls
    let s := s.frameErrors k ls
    let lost := frameLost good
    let s := if lost then s.setPort k { s.port k with part := none } else s.count (lnkPage k) 1 1
    match sharedLane good with
    | none => s
    | some g =>
      let up := s.lnk k == 4
      let s := s.frameShared k g
      if lost || !up || bits (g.t 0) 7 4 != 0 then s
      else s.takeBlocks k (bits (g.t 2) 13 6) (g.t 3 % 65536) (g.t 3 / 65536) (frameBlocks good)

/-- REPLAY_TIMEOUT: 4 µs after a restart of a class the acknowledgement has not advanced, R183. -/
def State.replayTimeout (s : State) (k : Nat) (data : Bool) : State :=
  let c := if data then (s.port k).dat else (s.port k).ctl
  if 16 ≤ k ∨ s.lnk k ≠ 4 ∨ c.restart.isNone then s else s.linkRestart k data

/-- ERROR_WINDOW: the 1 s window of a port ends, R196. -/
def State.errorWindow (s : State) (k : Nat) : State :=
  if 16 ≤ k then s
  else
    let p := s.port k
    let s := s.setPort k { p with ucw := 0, syms := [], nears := [] }
    (List.range 8).foldl (fun s l =>
      if s.rd Reg.LNK_SYM_WARN k < SMap.get 0 p.syms l ∨ s.rd Reg.LNK_NEAR_LIM k < SMap.get 0 p.nears l then
        s.raise (lnkPage k) 1 none l
      else s) s

/-- The port's optical domain is switched off, or it is fenced: OFF, or FAILED from HELD, UP or RETRAIN. -/
def State.linkFence (s : State) (k : Nat) : State :=
  let s := s.wr Reg.LNK_FENCED k 0 1
  if 3 ≤ s.lnk k ∧ s.lnk k ≤ 5 then s.setLnk k 8 else s

end Sys2Proof.Machine
end

