-- ==== Sys2Proof/Machine/Collectives.lean ====
section
/-! DEFINITION. The collective engines: groups and acceptance (R238 to R241), triggers (R243, R244), the schedules (R251 to R259), chunks
and their checks (R245 to R250), failure (R261 to R265), pace words (R266), and completion. -/

namespace Sys2Proof.Machine

open Sys2Proof

/-- CE page of an engine. -/
def cePage (d : Nat) : Nat := 0x20 + d

/-! ### Descriptor and group, Tables 9-1 to 9-3 -/

namespace Slot
/-- OP. -/
def op (x : Slot) : Nat := wfield x.words 0 3 0
/-- DTYPE. -/
def dtype (x : Slot) : Nat := wfield x.words 0 6 4
/-- AXROT. -/
def axrot (x : Slot) : Bool := wfield x.words 0 7 7 == 1
/-- BIDIR. -/
def bidir (x : Slot) : Bool := wfield x.words 0 8 8 == 1
/-- ORND. -/
def ornd (x : Slot) : Nat := wfield x.words 0 10 9
/-- OTYPE. -/
def otype (x : Slot) : Nat := wfield x.words 0 12 11
/-- FWAIT. -/
def fwait (x : Slot) : Bool := wfield x.words 0 13 13 == 1
/-- STAGCHK. -/
def stagchk (x : Slot) : Bool := wfield x.words 0 14 14 == 1
/-- DTAG. -/
def dtag (x : Slot) : Bool := wfield x.words 0 15 15 == 1
/-- GID. -/
def gid (x : Slot) : Nat := wfield x.words 0 31 16
/-- The key: GID in [15:0], GSEQ in [31:16]. -/
def key (x : Slot) : Nat := x.gid + 65536 * wfield x.words 1 15 0
/-- BIND. -/
def bind (x : Slot) : Bool := wfield x.words 1 16 16 == 1
/-- GROUP, a Larder byte address. -/
def group (x : Slot) : Nat := x.words.getD 3 0 * 256
/-- SRC, a Larder byte address. -/
def src (x : Slot) : Nat := x.words.getD 4 0 * 256
/-- DPANTRY. -/
def dpantry (x : Slot) : Bool := wfield x.words 14 22 22 == 1
/-- DST, a Larder or Pantry byte address. -/
def dst (x : Slot) : Nat := (if x.dpantry then x.words.getD 5 0 % 65536 else x.words.getD 5 0) * 256
/-- The area of intermediate results: SCR, or SRC under R246. -/
def scr (x : Slot) : Nat := if x.words.getD 6 0 = 0 then x.src else x.words.getD 6 0 * 256
/-- SIZE. -/
def size (x : Slot) : Nat := wfield x.words 7 19 0
/-- TAGV. -/
def tagv (x : Slot) : Nat := x.words.getD 8 0
/-- PTILE, PEG and AMOUNT. -/
def ptile (x : Slot) : Nat := wfield x.words 14 7 0
/-- An EXACT buffer. -/
def isExact (x : Slot) : Bool := x.dtype == 3
/-- NMEMB. -/
def nmemb (x : Slot) : Nat := (x.axes.map Axis.size).foldl (fun a b => a * b) 1
/-- ROOT; R241 refuses no value of it, and one at or above NMEMB is taken modulo NMEMB (DESIGN CHOICE, log entry 17). -/
def root (x : Slot) : Nat := wfield x.words 13 15 0 % x.nmemb
/-- Axes of SIZE 2 or more. -/
def act (x : Slot) : List Nat := (List.range x.axes.length).filter (fun a => decide (2 ≤ ((x.axes[a]?).map Axis.size).getD 0))
/-- Axis `a`. -/
def axis (x : Slot) (a : Nat) : Axis := (x.axes[a]?).getD ⟨1, 0, 0, none, 0, none, []⟩
/-- Product of the sizes of the axes below `a`. -/
def low (x : Slot) (a : Nat) : Nat := ((x.axes.take a).map Axis.size).foldl (fun a b => a * b) 1
/-- The index of position `j` on axis `a`. -/
def coord (x : Slot) (j a : Nat) : Nat := j / x.low a % (x.axis a).size
/-- POS of this member. -/
def pos (x : Slot) : Nat := ((List.range x.axes.length).map (fun a => (x.axis a).idx * x.low a)).sum
/-- The stream count S. -/
def streams (x : Slot) : Nat := (if x.axrot then x.act.length else 1) * (if x.bidir then 2 else 1)
/-- The stream of chunk `c` where a shard has `per` chunks. -/
def stream (x : Slot) (c per : Nat) : Nat := c % per * x.streams / per
/-- The axis order of stream `k`: it begins at the (k div 2)th axis of SIZE ≥ 2. -/
def order (x : Slot) (k : Nat) : List Nat :=
  let r := if x.axrot then k / 2 % x.act.length else 0
  x.act.drop r ++ x.act.take r
/-- The direction of stream `k`: 0 ascending. -/
def dir (x : Slot) (k : Nat) : Nat := if x.bidir then k % 2 else 0
/-- Chunks of the gathered result: those of the buffer after conversion. -/
def gathered (x : Slot) : Nat :=
  if x.op = 1 ∧ x.isExact then (match x.otype with | 1 => x.size / 4 | 2 => x.size / 8 | _ => x.size) else x.size
/-- Stages of the whole collective. -/
def stages (x : Slot) : Nat := if x.op = 1 then 2 * x.act.length else x.act.length
/-- The reduce-scatter half. -/
def reducing (x : Slot) (st : Nat) : Bool := x.op == 2 || (x.op == 1 && decide (st < x.act.length))
/-- Circuit to the successor for chunk `c`. -/
def next (x : Slot) (a c : Nat) : Nat := if c % 2 = 1 then (x.axis a).next1.getD (x.axis a).next0 else (x.axis a).next0
/-- Circuit to the predecessor for chunk `c`. -/
def prev (x : Slot) (a c : Nat) : Nat := if c % 2 = 1 then (x.axis a).prev1.getD (x.axis a).prev0 else (x.axis a).prev0
/-- The circuit to index `k` on axis `a`. -/
def peer (x : Slot) (a k : Nat) : Option Nat := ((x.axis a).peers[k]?).join
end Slot

/-- What this member does with a chunk in a stage: the circuits it sends it on and receives it on. -/
structure Role where
  send : Option Nat
  recv : Option Nat
  deriving DecidableEq, Repr

/-- The role for chunk `c` of a ring stage, R251, R252, R255. -/
def Slot.role (x : Slot) (st c : Nat) : Role :=
  let red := x.reducing st
  let n := if red then x.size else x.gathered
  let per := n / x.nmemb
  let k := x.stream c per
  let j := c / per
  let ord := if red then x.order k else (x.order k).reverse
  let i' := if red then st else if x.op = 1 then st - x.act.length else st
  match ord[i']? with
  | none => ⟨none, none⟩
  | some a =>
    let fixed := if red then ord.take i' else ord.drop (i' + 1)
    if per = 0 ∨ !fixed.all (fun b => x.coord j b == (x.axis b).idx) then ⟨none, none⟩
    else
      let N := (x.axis a).size
      let i := (x.axis a).idx
      let o := x.coord j a
      let asc := x.dir k == 0
      let out := if asc then x.next a c else x.prev a c
      let inn := if asc then x.prev a c else x.next a c
      if red then
        let first := if asc then (o + 1) % N else (o + N - 1) % N
        ⟨if i = o then none else some out, if i = first then none else some inn⟩
      else
        let nx := if asc then (i + 1) % N else (i + N - 1) % N
        ⟨if o = nx then none else some out, if o = i then none else some inn⟩

/-- The stage in which this member receives a broadcast; none at the root, R259. -/
def Slot.bcastStage (x : Slot) : Option Nat :=
  ((List.range x.act.length).filter (fun t =>
    let a := x.act.getD t 0
    x.coord x.root a != (x.axis a).idx)).getLast?

/-- This member holds the broadcast data at a stage. -/
def Slot.bcastHolds (x : Slot) (st : Nat) : Bool := x.bcastStage.all (fun t => decide (t < st))

/-- Chunks that a circuit carries in a stage of an all-to-all, R257. -/
def Slot.a2aChunks (x : Slot) (a : Nat) : Nat := x.nmemb / (x.axis a).size * x.size

/-- The label of the `n`-th block, in ascending order, whose index on axis `a` is `k`. -/
def Slot.a2aLabel (x : Slot) (a k n : Nat) : Nat :=
  let l := x.low a
  n % l + k * l + n / l * (l * (x.axis a).size)

/-- Chunks of an all-to-allv that go to index `k` on axis `a`: segment, offset and length, R258. -/
def Slot.a2avOut (x : Slot) (a k : Nat) : List (Segment × Nat × Nat) :=
  (x.segs.filter (fun g => x.coord g.dpos a == k)).flatMap (fun g =>
    (List.range ((g.data.length + 65535) / 65536)).map (fun i => (g, 65536 * i, min 65536 (g.data.length - 65536 * i))))

/-- The sends of a stage: circuit and CIDX. -/
def Slot.sends (x : Slot) (st : Nat) : List (Nat × Nat) :=
  let a := x.act.getD st 0
  let others := (List.range (x.axis a).size).filter (fun k => k != (x.axis a).idx)
  if x.stages ≤ st then []
  else match x.op with
    | 4 => others.flatMap (fun k => match x.peer a k with
        | none => []
        | some e => (List.range (x.a2aChunks a)).map (fun c => (e, c)))
    | 5 => others.flatMap (fun k => match x.peer a k with
        | none => []
        | some e => (List.range (x.a2avOut a k).length).map (fun c => (e, c)))
    | 6 => if x.bcastHolds st then others.flatMap (fun k => match x.peer a k with
        | none => []
        | some e => (List.range x.size).map (fun c => (e, c))) else []
    | _ => (List.range (if x.reducing st then x.size else x.gathered)).filterMap (fun c => (x.role st c).send.map (fun e => (e, c)))

/-- The receipts of a stage: circuit and CIDX. Those of an all-to-allv are not known beforehand. -/
def Slot.recvs (x : Slot) (st : Nat) : List (Nat × Nat) :=
  let a := x.act.getD st 0
  let others := (List.range (x.axis a).size).filter (fun k => k != (x.axis a).idx)
  if x.stages ≤ st then []
  else match x.op with
    | 4 => others.flatMap (fun k => match x.peer a k with
        | none => []
        | some e => (List.range (x.a2aChunks a)).map (fun c => (e, c)))
    | 5 => []
    | 6 => if x.bcastStage = some st then (match x.peer a (x.coord x.root a) with
        | none => []
        | some e => (List.range x.size).map (fun c => (e, c))) else []
    | _ => (List.range (if x.reducing st then x.size else x.gathered)).filterMap (fun c => (x.role st c).recv.map (fun e => (e, c)))

/-- Circuits of an axis toward the successor, or the predecessor. -/
def Slot.ring (x : Slot) (a : Nat) (fwd : Bool) : List Nat :=
  let q := x.axis a
  if fwd then q.next0 :: q.next1.toList else q.prev0 :: q.prev1.toList

/-- Circuits by stage on which the schedule sends (`out`) or receives: pairs of circuit and stage. -/
def Slot.circuitsAt (x : Slot) (st : Nat) (out : Bool) : List Nat :=
  let a := x.act.getD st 0
  let peers := ((List.range (x.axis a).size).filter (fun k => k != (x.axis a).idx)).filterMap (x.peer a)
  if x.stages ≤ st then []
  else match x.op with
    | 4 | 5 => peers
    | 6 => if out then (if x.bcastHolds st then peers else [])
      else if x.bcastStage = some st then (x.peer a (x.coord x.root a)).toList else []
    | _ =>
      ((List.range x.streams).flatMap (fun k =>
        let ord := if x.reducing st then x.order k else (x.order k).reverse
        let i := if x.reducing st then st else if x.op = 1 then st - x.act.length else st
        x.ring (ord.getD i 0) (out == (x.dir k == 0)))).eraseDups

/-- Every circuit on which the schedule sends. -/
def Slot.outCircuits (x : Slot) : List Nat := ((List.range x.stages).flatMap (fun st => x.circuitsAt st true)).eraseDups

/-- The first stage that receives on a circuit. -/
def Slot.inStage (x : Slot) (e : Nat) : Option Nat := (List.range x.stages).find? (fun st => (x.circuitsAt st false).contains e)

/-- Every circuit that the group names. -/
def Slot.groupCircuits (x : Slot) : List Nat :=
  (x.act.flatMap (fun a => x.ring a true ++ x.ring a false ++ (x.axis a).peers.filterMap id)).eraseDups

/-! ### Buffers -/

/-- Bytes of a buffer of `n` chunks, R254. -/
def Slot.bufBytes (x : Slot) (n : Nat) : Nat := if x.isExact then 32 + n * 66560 else n * 65536

/-- Bytes of the result that a reduction writes, for `n` chunks before conversion. -/
def Slot.outBytes (x : Slot) (n : Nat) : Nat :=
  if x.isExact then (match x.otype with | 1 => n * 16384 | 2 => n * 8192 | _ => x.bufBytes n) else n * 65536

/-- Bytes written at DST. -/
def Slot.dstBytes (x : Slot) : Nat :=
  match x.op with
  | 1 => x.outBytes x.size
  | 2 => x.outBytes (x.size / x.nmemb)
  | 4 => x.nmemb * x.size * 65536
  | 5 => x.words.getD 12 0 * 256
  | _ => x.size * 65536

/-- Bytes read at SRC; `sv` are the sizes of SVEC. -/
def Slot.srcBytes (x : Slot) (sv : List Nat) : Nat :=
  match x.op with
  | 1 | 2 => x.bufBytes x.size
  | 4 => x.nmemb * x.size * 65536
  | 5 => sv.sum * 256
  | 6 => if x.pos = x.root then x.size * 65536 else 0
  | _ => x.size / x.nmemb * 65536

/-- Bytes written in the area of intermediate results: at SCR, or at SRC where SCR = 0. -/
def Slot.scrBytes (x : Slot) : Nat :=
  match x.op with
  | 1 | 2 => if x.act.isEmpty then 0 else x.bufBytes x.size
  | 4 => if x.act.length < 2 then 0 else x.nmemb * x.size * 65536
  | 5 => if x.act.length < 2 then 0 else x.words.getD 15 0 * 256
  | _ => 0

/-- Physical tile of PTILE. -/
def State.collTile (s : State) (x : Slot) : Nat := s.phys x.ptile

/-- A collective engine on die `d` reads Larder for a context: through the hub where the stack is another die's (R10), checked at the
arrival point (R148), decoded (R136). -/
def State.ceRead (s : State) (d c a n : Nat) : State × Option (List Byte) :=
  if s.dieCut d a then (s.hubLost d c, none)
  else
    let r := s.larderOk c 0 a n
    if r.2 then (r.1.hubFlits d a n false).larderGet (some c) a n else (r.1, none)

/-- Reads `n` bytes for a collective; `p` reads PTILE's Pantry. -/
def State.collRead (s : State) (x : Slot) (p : Bool) (a n : Nat) : State × Option (List Byte) :=
  if p then s.pantryGet (s.collTile x) a n else s.ceRead x.die x.ctx a n

/-- Writes bytes for a collective. A Larder write is checked at its arrival point, R148. -/
def State.collWrite (s : State) (x : Slot) (p : Bool) (a : Nat) (l : List Byte) : State :=
  if p then s.pantryPut (s.collTile x) a l
  else if s.dieCut x.die a then s.hubLost x.die x.ctx
  else
    let r := s.larderOk x.ctx 1 a l.length
    if r.2 then (r.1.hubFlits x.die a l.length true).larderPutFor x.ctx a l else r.1

/-- A landing write of a collective: chunk `c` of DST with tag TAGV, R256. -/
def State.collLand (s : State) (x : Slot) (slot c : Nat) (data : List Byte) : State :=
  let w : LandWrite := ⟨x.ctx, x.dst + 65536 * c, x.tagv, data ++ List.replicate (65536 - data.length) 0, .coll x.die slot⟩
  if s.dieCut x.die w.addr then s.hubLost x.die x.ctx
  else match (s.hubFlits x.die w.addr 65536 true).landWrite w with
  | (s, .done) => s
  | (s, .waits) => { s with landQ := s.landQ ++ [w] }
  | (s, .refused b) => if badAddr w.addr then s else s.raise (0x40 + stackOf w.addr) b (some x.ctx) 0

/-- Writes chunk `c` of DST. -/
def State.collPut (s : State) (x : Slot) (slot c : Nat) (data : List Byte) : State :=
  if x.dtag then s.collLand x slot c data else s.collWrite x x.dpantry (x.dst + 65536 * c) data

/-- The trailer of a chunk, Table 9-5: CHK, flags, source and destination, length, units, states. -/
def mkTrailer (data : List Byte) (anchor spkg dpos seglen : Nat) (states : List Byte) : List Byte :=
  let rest := leBytes 4 anchor ++ leBytes 4 (spkg + 65536 * dpos) ++ leBytes 4 seglen ++ leBytes 4 (data.length / 256)
    ++ List.replicate 232 0 ++ states
  leBytes 8 (crc64 (data ++ rest)) ++ rest

/-- CHK of a chunk holds, R247. -/
def Chunk.checks (c : Chunk) : Bool := leNat (c.trailer.take 8) == crc64 (c.data ++ c.trailer.drop 8)

/-- A trailer word. -/
def Chunk.tw (c : Chunk) (i : Nat) : Nat := leNat ((c.trailer.drop (4 * i)).take 4)

/-- Changes a slot. -/
def State.onSlot (s : State) (d n : Nat) (f : Slot → Slot) : State :=
  match SMap.find s.slots (16 * d + n) with
  | none => s
  | some x => { s with slots := SMap.put s.slots (16 * d + n) (f x) }

/-- Word 0 of the header of SRC, which the engine reads before it writes sums there, R254. -/
def State.srcHead (s : State) (n : Nat) (x : Slot) : State × Option Nat :=
  match x.head with
  | some w => (s, some w)
  | none =>
    match s.collRead x false x.src 32 with
    | (s, none) => (s, none)
    | (s, some h) => (s.onSlot x.die n (fun y => { y with head := some (leNat (h.take 4)) }), some (leNat (h.take 4)))

/-- Chunk `c` of slot `n`'s own contribution (`own`), or of the running sum, as data and trailer, R254: an EXACT contribution takes
ANCHOR and flags from SRC's header, a running sum those of its own adds, so that neither depends on other chunks (R260). -/
def State.bufChunk (s : State) (n : Nat) (x : Slot) (own : Bool) (c : Nat) : State × Option Chunk :=
  let base := if own then x.src else x.scr
  if x.isExact then
    match (if own then s.srcHead n x else (s, some (SMap.get 0 x.sums c))) with
    | (s, none) => (s, none)
    | (s, some w) =>
      match s.collRead x false (base + 32 + 65536 * c) 65536 with
      | (s, none) => (s, none)
      | (s, some dat) =>
        match s.collRead x false (base + 32 + 65536 * x.size + 1024 * c) 1024 with
        | (s, none) => (s, none)
        | (s, some st) => (s, some ⟨c, dat, mkTrailer dat (w % 2 ^ 11 + 2 ^ 16 * bits w 18 16) 0 0 0 st⟩)
  else
    match s.collRead x false (base + 65536 * c) 65536 with
    | (s, none) => (s, none)
    | (s, some dat) => (s, some ⟨c, dat, mkTrailer dat 0 0 0 0 []⟩)

/-- Writes a chunk of a sum to the working buffer: data, states, and a header with the anchor and the ORed flags of the sums so far. -/
def State.putWork (s : State) (n : Nat) (x : Slot) (c : Chunk) : State :=
  let base := x.scr
  if x.isExact then
    let w := c.tw 2
    let sums := SMap.put x.sums c.cidx w
    let s := s.onSlot x.die n (fun y => { y with sums := sums })
    let fl := sums.foldl (fun f q => Nat.lor f (bits q.2 18 16)) 0
    let s := s.collWrite x false base (leBytes 4 (w % 2 ^ 11 + 2 ^ 16 * fl) ++ List.replicate 28 0)
    let s := s.collWrite x false (base + 32 + 65536 * c.cidx) c.data
    s.collWrite x false (base + 32 + 65536 * x.size + 1024 * c.cidx) (c.trailer.drop 256)
  else s.collWrite x false (base + 65536 * c.cidx) c.data

/-- A chunk as an export: anchor, flags and accumulators. -/
def Chunk.export (c : Chunk) : Nat × Nat × List Acc := readExport 4096 (leBytes 4 (c.tw 2) ++ List.replicate 28 0 ++ c.data ++ c.trailer.drop 256)

/-- Two contributions added, R253. In EXACT the flags of the sum are the OR of both, with BREACH where the anchors differ and NAN_SEEN
where an element is NaN; the sum's range is checked at conversion, R60. -/
def addChunks (dtype : Nat) (a b : Chunk) : Chunk :=
  match dtype with
  | 1 =>
    let dat := (List.zipWith fadd (f32s a.data) (f32s b.data)).flatMap (leBytes 4)
    ⟨a.cidx, dat, mkTrailer dat 0 0 0 0 []⟩
  | 2 =>
    let f := fun (l : List Byte) => unpackElems 16 (l.length / 2) (leNat l)
    let dat := packBytes 16 (List.zipWith (fun p q => (fmtBf16.encode 0 0 ((fmtBf16.decode p).add (fmtBf16.decode q))).1) (f a.data) (f b.data))
    ⟨a.cidx, dat, mkTrailer dat 0 0 0 0 []⟩
  | _ =>
    let p := a.export
    let q := b.export
    let sum := List.zipWith addAcc p.2.2 q.2.2
    let same := p.1 == q.1
    let sum := if same then sum else sum.map (fun z => ⟨0, if z.marks = 0 then 1 else z.marks⟩)
    let fl := Nat.lor (Nat.lor p.2.1 q.2.1) ((if same then 0 else 1) + (if sum.any (fun z => bit z.marks 3 == 1) then 4 else 0))
    let out := exportBytes true (toSigned 11 p.1) fl sum
    let dat := (out.drop 32).take 65536
    ⟨a.cidx, dat, mkTrailer dat (p.1 + 2 ^ 16 * fl) 0 0 0 (out.drop 65568)⟩

/-- The result bytes of reduced chunks in order: converted to OTYPE, or raw, R253, R254. -/
def Slot.result (x : Slot) (l : List Chunk) : List Byte :=
  if !x.isExact then l.flatMap Chunk.data
  else if x.otype = 0 then
    let fl := l.foldl (fun f c => Nat.lor f (bits (c.tw 2) 18 16)) 0
    let an := (l.head?.map (fun c => c.tw 2 % 2 ^ 11)).getD 0
    leBytes 4 (an + 2 ^ 16 * fl) ++ List.replicate 28 0 ++ l.flatMap Chunk.data ++ l.flatMap (fun c => c.trailer.drop 256)
  else
    let f := if x.otype = 1 then fmtF32 else fmtBf16
    packBytes f.width (l.flatMap (fun c =>
      let e := c.export
      e.2.2.map (fun acc => (f.encode x.ornd 0 (accValue true (toSigned 11 e.1) acc).1).1)))

/-! ### Slots and messages -/

/-- Collective slot `n` of engine `d`. -/
def State.slot (s : State) (d n : Nat) : Option Slot := SMap.find s.slots (16 * d + n)

/-- The slot of engine `d` that holds a key of a context. -/
def State.slotOfKey (s : State) (d c key : Nat) : Option Nat :=
  (List.range 16).find? (fun n => (s.slot d n).any (fun x => x.ctx == c && x.key == key))

/-- What a circuit carries for its engine. -/
def State.wire (s : State) (e : Nat) : Wire := SMap.get Wire.empty s.wires e

/-- Sets it. -/
def State.setWire (s : State) (e : Nat) (w : Wire) : State := { s with wires := SMap.set Wire.empty s.wires e w }

/-- The engine of an endpoint. -/
def State.dieOfCir (s : State) (e : Nat) : Nat := s.rd Reg.CT_DIE 0 e

/-- Sends an ENGINE packet: kind, status, stage, ARG and key, Table 9-6. -/
def State.engineSend (s : State) (e kind status stage arg key : Nat) : State :=
  s.cirSend e false false (kind + 16 * status + 2 ^ 9 * stage + 2 ^ 12 * arg + 2 ^ 32 * key) []

/-- The circuit may carry sends. -/
def State.cirReady (s : State) (e : Nat) : Bool := s.isEndpoint e && (s.cirState e == 2 || s.cirState e == 3)

/-- Chunks of staging that engine `d` has set aside for chunks to come. -/
def State.stagingHeld (s : State) (d : Nat) : Nat :=
  ((List.range 16).map (fun n => ((s.slot d n).map (fun x =>
    ((x.granted.filter (fun q => decide (s.rd Reg.SL_STAGE d n ≤ q.1 % 8))).map Prod.snd).sum)).getD 0)).sum

/-- Grants credits on a circuit for a stage, once, R246: 16, or what is left of the 512 staging buffers, of which a grant sets aside its
count until the stage ends; with none left the grant waits. The order in which waiting grants are served is that of the slots
(DESIGN CHOICE, log entry 17). -/
def State.grant (s : State) (d n e st : Nat) : State :=
  match s.slot d n with
  | none => s
  | some x =>
    let k := 8 * e + st
    let g := min 16 (512 - s.stagingHeld d)
    if (SMap.find x.granted k).isSome then s
    else if g = 0 then s.onSlot d n (fun x => { x with want := x.want.filter (fun q => q != k) ++ [k] })
    else
      let s := s.onSlot d n (fun x => { x with granted := SMap.put x.granted k g, want := x.want.filter (fun q => q != k) })
      s.engineSend e 2 0 st g x.key

/-- Grants that waited for staging are made where buffers are free. -/
def State.regrant (s : State) (d : Nat) : State :=
  (List.range 16).foldl (fun s n => (((s.slot d n).map Slot.want).getD []).foldl (fun s k => s.grant d n (k / 8) (k % 8)) s) s

/-- A slot returns to FREE and its register keeps STATUS, KEY and OTHER. -/
def State.freeSlot (s : State) (d n : Nat) : State :=
  match s.slot d n with
  | none => s
  | some x =>
    let s := x.reader.elim s s.closeReader
    let s : State := { s with
      slots := SMap.del s.slots (16 * d + n)
      landQ := s.landQ.filter (fun w => w.writer != .coll d n)
      rooms := s.rooms.filter (fun h => !(h.1 / 64 == d && h.2.ctx == x.ctx && h.2.key == x.key))
      doneKeys :=
        let mine := s.doneKeys.filter (fun k => k.1 == d && k.2.1 == x.ctx)
        let rest := s.doneKeys.filter (fun k => !(k.1 == d && k.2.1 == x.ctx))
        rest ++ mine.drop (mine.length - 63) ++ [(d, x.ctx, x.key)] }
    (s.wr Reg.SL_STATE d n 0).regrant d

/-- The record of a collective's end, Table 10-7. -/
def State.collRecord (s : State) (c cser : Nat) (words : List Nat) (status other : Nat) : State :=
  let key := wfield words 0 31 16 + 65536 * wfield words 1 15 0
  let x := s.ctx c
  let s := s.setCtx c { x with collOpen := x.collOpen.filter (fun n => n != cser) }
  s.report c ⟨⟨2, status, cser, words.getD 2 0, key, if status = 5 then other else 0, 0, 0⟩, 0⟩

/-- A collective fails, R262, R265: ABORT goes out on the group's circuits but `except`; a bound one fails its step, R242. -/
def State.collFail (s : State) (d n status other : Nat) (fromPeer : Bool) (except : Option Nat) : State :=
  match s.slot d n with
  | none => s
  | some x =>
    let s := x.groupCircuits.foldl (fun s e =>
      if some e = except || !s.cirReady e then s
      else
        let s := if status = 5 then s.engineSend e 6 0 0 0 other else s
        s.engineSend e 4 status 0 0 x.key) s
    let s := s.freeSlot d n
    let s := ((s.wr Reg.SL_STATUS d n status).wrB Reg.SL_FROM_PEER d n fromPeer).wr Reg.SL_OTHER d n other
    let page := cePage d
    let own := fun (s : State) (b : Nat) => if fromPeer then s else s.raise page b (some x.ctx) n
    let s := match status with
      | 5 => own s 4
      | 6 => own s 1
      | 8 => own s 5
      | 9 => own s 9
      | _ => s
    let s := (s.raise page 8 (some x.ctx) n).count page 5 1
    let s := s.collRecord x.ctx x.cser x.words status other
    if x.bind && s.rd Reg.CTX_EXEC_STEP_BUSY x.ctx == 1 then
      let q := s.ctx x.ctx
      s.setCtx x.ctx { q with collFail := some (q.collFail.getD (x.key, status)) }
    else s

/-! ### Acceptance, R241 -/

/-- Every byte lies in valid regions of the context; with `wr`, of WRITE = 1. -/
def State.inRegions (s : State) (c : Nat) (wr : Bool) : Nat → Nat → Nat → Bool
  | 0, _, _ => false
  | f + 1, a, n =>
    if n = 0 then true
    else match s.regionAt a with
      | none => false
      | some r =>
        let st := stackOf a
        let left := s.regionBase st r + s.regionSize st r - a
        s.rd Reg.LR_CTX st r == c && (!wr || s.rdB Reg.LR_WRITE st r) && s.inRegions c wr f (a + left) (n - left)

/-- An axis of a group record, with its peer table's bytes. -/
def readAxis (g : List Nat) (a : Nat) (tab : List Byte) : Axis :=
  let w := fun i hi lo => wfield g (i + 8 * a) hi lo
  ⟨w 8 9 0, w 8 19 10, w 9 9 0, if w 9 20 20 = 1 then some (w 9 19 10) else none, w 10 9 0,
   if w 10 20 20 = 1 then some (w 10 19 10) else none,
   if w 11 31 0 = 0 then [] else (List.range (w 8 9 0)).map (fun k =>
     let v := leNat ((tab.drop (2 * k)).take 2)
     if bit v 15 = 1 then some (v % 1024) else none)⟩

/-- The peer tables that a group record names: address and bytes, one for each axis. -/
def groupTables (g : List Nat) : List (Nat × Nat) :=
  (List.range (wfield g 0 17 16 + 1)).map (fun a =>
    (g.getD (11 + 8 * a) 0 * 256, if g.getD (11 + 8 * a) 0 = 0 then 0 else 2 * wfield g (8 + 8 * a) 9 0))

/-- A slot before anything has happened in it. -/
def newSlot (d c cser : Nat) (words : List Nat) (axes : List Axis) (now : Nat) : Slot :=
  ⟨d, words, c, cser, axes, none, [], [], [], [], [], [], [], [], [], [], none, [], [], [], false, now, []⟩

/-- Reads parts of Larder for an engine, one after the other; none where one of them cannot be read. A part outside the context's
regions is not read: the collective is refused for it. -/
def State.ceReads (s : State) (d c : Nat) : List (Nat × Nat) → State × Option (List (List Byte))
  | [] => (s, some [])
  | (a, n) :: l =>
    let r := if s.inRegions c false 80 a n then s.ceRead d c a n else (s, some [])
    match r with
    | (s, none) => (s, none)
    | (s, some b) =>
      match s.ceReads d c l with
      | (s, none) => (s, none)
      | (s, some r) => (s, some (b :: r))

/-- What an engine reads to judge a command: the group record with its peer tables, and SVEC. The answer is the slot that the
collective would take, the group record and the sizes. -/
def State.collPlan (s : State) (d c cser : Nat) (words : List Nat) : State × Option (Slot × List Nat × List Nat) :=
  match s.ceReads d c [(words.getD 3 0 * 256, 256)] with
  | (s, some [rec]) =>
    let g := toWords 64 rec
    match s.ceReads d c (groupTables g) with
    | (s, some tabs) =>
      let x := newSlot d c cser words (tabs.mapIdx (fun a t => readAxis g a t)) s.timeUs
      if x.op = 5 ∧ x.nmemb ≤ 32768 then
        match s.ceReads d c [(words.getD 10 0 * 256, 4 * x.nmemb)] with
        | (s, some [sv]) => (s, some (x, g, toWords x.nmemb sv))
        | (s, _) => (s, none)
      else (s, some (x, g, []))
    | (s, none) => (s, none)
  | (s, _) => (s, none)

/-- The base of a TAGGED region of the context. -/
def State.taggedBase (s : State) (c a : Nat) : Option Nat :=
  (s.regionAt a).filter (fun r => s.rdB Reg.LR_TAGGED (stackOf a) r && s.regionBase (stackOf a) r == a && s.rd Reg.LR_CTX (stackOf a) r == c)

/-- Two byte ranges share a byte. -/
def overlaps (a n b m : Nat) : Bool := decide (n ≠ 0) && decide (m ≠ 0) && decide (a < b + m) && decide (b < a + n)

/-- The collective is accepted under R241: `g` is the group record, `sv` the sizes of SVEC. -/
def State.collOk (s : State) (x : Slot) (g sv : List Nat) : Bool :=
  let w := x.words
  let c := x.ctx
  let d := x.die
  let ring := x.op == 1 || x.op == 2 || x.op == 3 || x.op == 7
  let all2 := x.op == 4 || x.op == 5 || x.op == 6
  let inR := fun (wr : Bool) (a n : Nat) => s.inRegions c wr 80 a n
  let chunks := (x.dstBytes + 65535) / 65536
  decide (1 ≤ x.op) && decide (x.op ≤ 7)
    && (if x.op ≤ 2 then decide (1 ≤ x.dtype) && decide (x.dtype ≤ 3) else x.dtype == 0)
    && x.ornd != 3 && x.otype != 3 && wfield w 1 31 17 == 0 && wfield w 7 31 20 == 0 && wfield w 13 31 16 == 0
    && wfield w 14 31 23 == 0 && decide (1 ≤ x.size)
    && inR false x.group 256
    && wfield w 1 15 0 == (wfield g 1 15 0 + 1) % 65536
    && wfield g 0 31 26 == 0 && wfield g 1 31 16 == 0 && [2, 3, 4, 5, 6, 7].all (fun i => g.getD i 0 == 0)
    && wfield g 0 15 0 == x.gid && wfield g 0 25 20 == c && wfield g 0 19 18 == d
    && (List.range x.axes.length).all (fun a =>
      wfield g (8 + 8 * a) 31 20 == 0 && wfield g (9 + 8 * a) 31 21 == 0 && wfield g (10 + 8 * a) 31 21 == 0
        && [12, 13, 14, 15].all (fun i => g.getD (i + 8 * a) 0 == 0)
        && decide (1 ≤ (x.axis a).size) && decide ((x.axis a).size ≤ 512) && decide ((x.axis a).idx < (x.axis a).size))
    && decide (x.nmemb ≤ 32768)
    && (groupTables g).all (fun t => inR false t.1 t.2)
    && x.groupCircuits.all (fun e => s.isEndpoint e && s.dieOfCir e == d && s.cirCtx e == c && s.rdB Reg.CT_COLL 0 e)
    && (!all2 || x.act.all (fun a => (x.axis a).peers.length == (x.axis a).size
      && (List.range (x.axis a).size).all (fun k => (x.peer a k).isSome != (k == (x.axis a).idx))))
    && (!ring || (decide (0 < x.streams) && x.size % (x.nmemb * x.streams) == 0))
    && (!(x.op == 1 || x.op == 2) || !x.isExact || x.otype == 0
      || x.size / x.nmemb % (if x.otype = 1 then 4 else 8) == 0)
    && (x.op != 5 || (inR false (w.getD 10 0 * 256) (4 * x.nmemb) && inR true (w.getD 11 0 * 256) (4 * x.nmemb)))
    && inR false x.src (x.srcBytes sv)
    && inR true x.scr x.scrBytes
    && (if x.dpantry then
          s.present x.ptile && (match s.slotOf (s.collTile x) c with
            | none => false
            | some sl => s.inAlloc (s.collTile x) sl x.dst x.dstBytes)
        else inR (!x.dtag) x.dst x.dstBytes)
    && (!x.dtag || (s.taggedBase c x.dst).any (fun r => s.rd Reg.LR_LLEN (stackOf x.dst) r == chunks))
    && (!x.stagchk || (s.taggedBase c x.src).isSome)
    && (x.dpantry || !overlaps x.src (x.srcBytes sv) x.dst x.dstBytes || (x.op == 1 && x.src == x.dst))
    && (w.getD 6 0 == 0 || !overlaps x.src (x.srcBytes sv) x.scr x.scrBytes)
    && (x.op != 7 || (x.stagchk && x.dtag))
    && (!x.dpantry || (!x.dtag && [3, 4, 5, 6].contains x.op))
    && (!x.bind || w.getD 2 0 == s.rd Reg.CTX_STEP_NUM c)

/-! ### Chunks, R246 to R258 -/

/-- The buffer that stage `t` of an all-to-all reads, and stage `t − 1` writes: Pantry or Larder, and base, R257. With DTAG = 1 only the
last stage writes DST, as landing writes, and the stages before it exchange blocks within SCR (DEDUCED, log entry 17). -/
def Slot.a2aBuf (x : Slot) (t : Nat) : Bool × Nat :=
  if t = 0 then (false, x.src)
  else if (x.act.length - t) % 2 = 0 && (!x.dtag || t == x.act.length) then (x.dpantry, x.dst)
  else (false, x.scr)

/-- The chunk at place `i` of the buffer that stage `t − 1` writes: a landing write where that is a tagged DST. -/
def State.a2aPut (s : State) (x : Slot) (n t i : Nat) (data : List Byte) : State :=
  let b := x.a2aBuf t
  if t == x.act.length && x.dtag then s.collLand x n i data else s.collWrite x b.1 (b.2 + 65536 * i) data

/-- The chunk that stage `st` sends on circuit `e` with index `c`. A chunk that is forwarded keeps the trailer it arrived with, R248; a
forwarded segment's is the same again, since nothing that CHK covers has changed. -/
def State.sendData (s : State) (n : Nat) (x : Slot) (st e c : Nat) : State × Option Chunk :=
  let a := x.act.getD st 0
  let k := ((List.range (x.axis a).size).find? (fun k => x.peer a k == some e)).getD 0
  let raw := fun (s : State) (p : Bool) (adr : Nat) =>
    match s.collRead x p adr 65536 with
    | (s, none) => (s, none)
    | (s, some dat) => (s, some (⟨c, dat, mkTrailer dat 0 0 0 0 []⟩ : Chunk))
  let kept := fun (s : State) (dflt : State × Option Chunk) =>
    match x.got.find? (fun q => q.cidx == c) with
    | some q => (s, some q)
    | none => dflt
  match x.op with
  | 4 =>
    let b := x.a2aBuf st
    let i := x.a2aLabel a k (c / x.size) * x.size + c % x.size
    match raw s b.1 (b.2 + 65536 * i), x.got.find? (fun q => q.cidx == i) with
    | (s, some q), some w => (s, some { q with trailer := w.trailer })
    | r, _ => r
  | 5 =>
    match (x.a2avOut a k)[c]? with
    | none => (s, none)
    | some (g, ofs, len) =>
      let dat := (g.data.drop ofs).take len
      (s, some ⟨c, dat, mkTrailer dat 0 g.spkg g.dpos (g.data.length / 256) []⟩)
  | 6 => kept s (raw s false (x.src + 65536 * c))
  | 3 | 7 => kept s (raw s false (x.src + 65536 * (c % (x.size / x.nmemb))))
  | _ =>
    if x.reducing st then
      s.bufChunk n x (st == 0 && (x.role 0 c).recv.isNone) c
    else kept s (s, none)

/-- The chunk is ready to be sent. -/
def Slot.sendReady (x : Slot) (st c : Nat) : Bool :=
  match x.op with
  | 4 | 5 => true
  | 6 => true
  | _ => (x.role st c).recv.all (fun e => x.used.contains (e, c))

/-- Every chunk of a stage has been sent and used. -/
def Slot.stageDone (x : Slot) (st : Nat) : Bool :=
  (x.sends st).all x.sent.contains && (x.recvs st).all x.used.contains

/-- A received chunk's use: added, written, kept for forwarding. `adds` counts mismatches of the two adders. The Boolean says that
the collective goes on. -/
def State.useChunk (s : State) (d n : Nat) (x : Slot) (st e : Nat) (c : Chunk) (adds : Nat) : State × Bool :=
  let a := x.act.getD st 0
  let k := ((List.range (x.axis a).size).find? (fun k => x.peer a k == some e)).getD 0
  match x.op with
  | 4 =>
    let i := x.a2aLabel a k (c.cidx / x.size) * x.size + c.cidx % x.size
    let s := s.onSlot d n (fun x => { x with got := x.got.filter (fun q => q.cidx != i) ++ [⟨i, [], c.trailer⟩] })
    (s.a2aPut x n (st + 1) i c.data, true)
  | 5 =>
    let spkg := c.tw 3 % 65536
    let dpos := c.tw 3 / 65536
    let units := c.tw 4
    let cur := x.segIn.find? (fun g => g.entry == e && g.spkg == spkg && g.dpos == dpos)
    let dat := ((cur.map InSegment.data).getD []) ++ c.data
    let rest := x.segIn.filter (fun g => some g != cur)
    let spos := if x.act.length = 1 then k else Config.positionOf x.gid spkg % x.nmemb
    (s.onSlot d n (fun x =>
      if units * 256 ≤ dat.length then { x with segIn := rest, segs := x.segs ++ [⟨spos, spkg, dpos, dat⟩] }
      else { x with segIn := rest ++ [⟨e, spkg, dpos, units, dat⟩] }), true)
  | 3 | 6 | 7 => ((s.onSlot d n (fun x => { x with got := x.got ++ [c] })).collPut x n c.cidx c.data, true)
  | _ =>
    if x.reducing st then
      match s.bufChunk n x (st == 0) c.cidx with
      | (s, none) => (s, false)
      | (s, some q) =>
        let page := cePage d
        let s := if 1 ≤ adds then s.raise page 2 (some x.ctx) n else s
        if 2 ≤ adds then ((s.raise page 3 (some x.ctx) n).collFail d n 7 0 false none, false)
        else (((s.putWork n x (addChunks x.dtype c q)).count page 2 1).progress page 1, true)
    else (s.onSlot d n (fun x => { x with got := x.got ++ [c] }), true)

/-- The reduced chunks of this member's shard, read from the working buffer. -/
def State.ownSum (s : State) (n : Nat) (x : Slot) : State × Option (List Chunk) :=
  let per := x.size / x.nmemb
  (List.range per).foldl (fun (r : State × Option (List Chunk)) i =>
    match r with
    | (s, none) => (s, none)
    | (s, some l) =>
      match s.bufChunk n x x.act.isEmpty (x.pos * per + i) with
      | (s, none) => (s, none)
      | (s, some c) => (s, some (l ++ [c]))) (s, some [])

/-- The chunks of a reduced shard as the all-gather half carries them, R255. -/
def Slot.toGather (x : Slot) (l : List Chunk) : List Chunk :=
  if x.isExact && x.otype == 0 then l
  else
    let per := x.gathered / x.nmemb
    let b := x.result l
    (List.range per).map (fun i =>
      let dat := (b.drop (65536 * i)).take 65536
      ⟨x.pos * per + i, dat, mkTrailer dat 0 0 0 0 []⟩)

/-- Blocks that stay in place are in the next buffer too, R257. -/
def State.a2aStay (s : State) (n : Nat) (x : Slot) (st : Nat) : State :=
  let a := x.act.getD st 0
  let b := x.a2aBuf st
  let q := x.a2aBuf (st + 1)
  if b = q then s
  else (List.range (x.a2aChunks a)).foldl (fun s c =>
    let i := x.a2aLabel a (x.axis a).idx (c / x.size) * x.size + c % x.size
    match s.collRead x b.1 (b.2 + 65536 * i) 65536 with
    | (s, none) => s
    | (s, some l) => s.a2aPut x n (st + 1) i l) s

/-- The end of a stage: what it leaves, and the next stage's credits. `fuel` bounds the stages that end at once. -/
def State.collAdvance (s : State) (d n : Nat) : Nat → State
  | 0 => s
  | fuel + 1 =>
    match s.slot d n with
    | none => s
    | some x =>
      let st := s.rd Reg.SL_STAGE d n
      if x.op = 5 ∨ s.rd Reg.SL_STATE d n ≠ 3 ∨ x.stages ≤ st + 1 ∨ !x.stageDone st then s
      else
        let s := if x.op = 4 then s.a2aStay n x st else s
        let enter := x.op == 1 && st + 1 == x.act.length
        let r := if enter then s.ownSum n x else (s, some [])
        match r with
        | (s, none) => s
        | (s, some l) =>
          let s := s.onSlot d n (fun x => { x with
            sent := [], used := [], got := x.got ++ (if enter then x.toGather l else []), since := s.timeUs })
          let s := (s.wr Reg.SL_STAGE d n (st + 1)).wr Reg.SL_CDONE d n 0
          let s := ((x.circuitsAt (st + 1) false).foldl (fun s e => s.grant d n e (st + 1)) s).regrant d
          s.collAdvance d n fuel

/-- A chunk of the stage in progress is used, and its credit returned. Each use may let chunks that came early be used. -/
def State.chunkUse (s : State) (d n st e : Nat) (c : Chunk) (adds : Nat) : State :=
  match s.slot d n with
  | none => s
  | some x =>
    let r := s.useChunk d n x st e c adds
    if !r.2 then r.1
    else
      let s := r.1.onSlot d n (fun x => { x with used := x.used ++ [(e, c.cidx)], heard := SMap.put x.heard e r.1.timeUs })
      let s := s.engineSend e 2 0 st 1 x.key
      let s := s.addF Reg.SL_CDONE d n 1
      (s.wr Reg.SL_STALLED d n 0).collAdvance d n 16

/-- A chunk may be used now: its stage is in progress and it is scheduled and next in order where order matters. -/
def Slot.mayUse (x : Slot) (st cur e : Nat) (c : Chunk) : Bool :=
  st == cur && (match x.op with
    | 4 => x.a2aBuf st != x.a2aBuf (st + 1) || x.sent.contains (e, c.cidx)
    | 5 => (x.used.filter (fun u => u.1 == e)).length == c.cidx
    | _ => true)

/-- Slot `n` uses chunks now: its triggers are met (R243), it may work, and no landing write of its own waits (R149; the writer that a
waiting landing holds is the slot, DEDUCED, log entry 17). -/
def State.slotMoves (s : State) (d n : Nat) (x : Slot) : Bool :=
  decide (2 ≤ s.rd Reg.SL_STATE d n) && s.mayWork (cePage d) 0 x.ctx && !s.landQ.any (fun w => w.writer == .coll d n)

/-- The chunks that came early and may be used now are used. -/
def State.drainEarly (s : State) (d n : Nat) : Nat → State
  | 0 => s
  | f + 1 =>
    match s.slot d n with
    | none => s
    | some x =>
      match x.early.find? (fun q => s.slotMoves d n x && x.mayUse q.stage (s.rd Reg.SL_STAGE d n) q.entry q.chunk) with
      | none => s
      | some q =>
        let s := s.onSlot d n (fun x => { x with early := x.early.erase q })
        (s.chunkUse d n q.stage q.entry q.chunk 0).drainEarly d n f

/-- A slot goes on as far as it can: stages that have ended, then chunks that came early. -/
def State.collGo (s : State) (d n : Nat) : State :=
  (s.collAdvance d n 16).drainEarly d n ((((s.slot d n).map (fun x => x.early.length)).getD 0) + 1)

/-! ### Triggers and acceptance, R238 to R244 -/

/-- The segments that an all-to-allv sends, read from SVEC and SRC, R258. -/
def State.collSegs (s : State) (x : Slot) : State × Option (List Segment) :=
  let own := s.rd Reg.GLB_STRAP_LOC_X + 4 * s.rd Reg.GLB_STRAP_LOC_Y + 16 * s.rd Reg.GLB_STRAP_LOC_Z + 64 * s.rd Reg.GLB_STRAP_BLOCK
  match s.collRead x false (x.words.getD 10 0 * 256) (4 * x.nmemb) with
  | (s, none) => (s, none)
  | (s, some b) =>
    let sv := toWords x.nmemb b
    (List.range x.nmemb).foldl (fun (r : State × Option (List Segment)) j =>
      if sv.getD j 0 = 0 then r
      else match r with
        | (s, none) => (s, none)
        | (s, some l) =>
          match s.collRead x false (x.src + 256 * (sv.take j).sum) (256 * sv.getD j 0) with
          | (s, none) => (s, none)
          | (s, some dat) => (s, some (l ++ [⟨x.pos, own, j, dat⟩]))) (s, some [])

/-- COLL_TRIGGER: a slot in TRIGGER whose triggers are met sends START and goes to START, R243, R244. -/
def State.collTrigger (s : State) (d n : Nat) : State :=
  match s.slot d n with
  | none => s
  | some x =>
    let st := stackOf x.src
    let done := s.rd Reg.MEM_FDONE st (x.ctx % 16)
    let fk := x.words.getD 9 0
    let region := s.taggedBase x.ctx x.src
    let tagOk := x.reader.isSome || region.any (fun r => s.rd Reg.LR_STATE st r == 2 && s.rd Reg.LR_TAG st r == x.tagv && decide (s.rd Reg.LR_READERS st r < 255))
    if s.rd Reg.SL_STATE d n ≠ 1 ∨ !s.mayWork (cePage d) 0 x.ctx ∨ (x.fwait && !(done == fk || newer done fk)) ∨ (x.stagchk && !tagOk) then s
    else
      let s := if x.stagchk && x.reader.isNone then
          let k := 64 * st + region.getD 0
          (s.openReader k).onSlot d n (fun x => { x with reader := some k })
        else s
      match (if x.op = 5 then s.collSegs x else (s, some [])) with
      | (s, none) => s
      | (s, some l) =>
        let s := x.outCircuits.foldl (fun s e => s.engineSend e 1 0 0 0 x.key) s
        let s := s.onSlot d n (fun x => { x with unanswered := x.outCircuits, since := s.timeUs, segs := l })
        (s.wr Reg.SL_STATE d n (if x.outCircuits.isEmpty then 3 else 2)).collGo d n

/-- Collective commands whose OP is reserved are refused when they come first, R241. -/
def State.collRefuse (s : State) (d : Nat) (w : CollWait) : State :=
  let s : State := { s with collWait := s.collWait.erase w }
  ((s.raise (cePage d) 6 (some w.ctx) 0).raise (cePage d) 8 (some w.ctx) 0).collRecord w.ctx w.cser w.words 11 0

/-- The oldest command waiting at engine `d`. -/
def State.collHead (s : State) (d : Nat) : Option CollWait := s.collWait.find? (fun w => w.die == d)

/-- Refuses waiting commands with a reserved OP at the head. -/
def State.collSkim (s : State) (d : Nat) : Nat → State
  | 0 => s
  | f + 1 => match s.collHead d with
    | none => s
    | some w => if wfield w.words 0 3 0 = 0 ∨ 7 < wfield w.words 0 3 0 then (s.collRefuse d w).collSkim d f else s

/-- A collective is among those that its context's step waits for, R37, R242. -/
def State.collHolds (s : State) (c cser : Nat) : State :=
  let x := s.ctx c
  if x.collOpen.contains cser then s else s.setCtx c { x with collOpen := x.collOpen ++ [cser] }

/-- Accepts the oldest command waiting at engine `d`, where it has operation `op`, into the lowest free slot, or refuses it, R238,
R241. A key whose ABORT is held fails at once, R262. -/
def State.collAccept (s : State) (d op : Nat) : State :=
  match s.collHead d with
  | none => s
  | some w =>
    if wfield w.words 0 3 0 ≠ op ∨ s.isFenced (cePage d) 0 || s.rdB Reg.PAGE_DRAIN (cePage d) 0 || !s.mayWork (cePage d) 0 w.ctx then s
    else match (List.range 16).find? (fun n => (s.slot d n).isNone) with
      | none => s
      | some n =>
        match s.collPlan d w.ctx w.cser w.words with
        | (s, none) => s
        | (s, some (x, g, sv)) =>
        if !s.collOk x g sv then (s.collRefuse d w).collSkim d s.collWait.length
        else
          let s : State := { s with collWait := s.collWait.erase w, slots := SMap.put s.slots (16 * d + n) x }
          let s := s.collWrite x false (x.group + 4) (leBytes 2 (wfield w.words 1 15 0))
          let s := [(Reg.SL_STATE, 1), (Reg.SL_STATUS, 0), (Reg.SL_FROM_PEER, 0), (Reg.SL_STALLED, 0), (Reg.SL_BOUND, if x.bind then 1 else 0),
            (Reg.SL_OP, op), (Reg.SL_CTX, w.ctx), (Reg.SL_STAGE, 0), (Reg.SL_KEY, x.key), (Reg.SL_CDONE, 0), (Reg.SL_OTHER, 0),
            (Reg.SL_WAIT_PREV, 0), (Reg.SL_WAIT_NEXT, 0)].foldl (fun s f => s.wr f.1 d n f.2) s
          let s := if x.bind then s.collHolds w.ctx w.cser else s
          let mine := s.rooms.filter (fun h => h.1 / 64 == d && h.2.ctx == w.ctx && h.2.key == x.key)
          let s := match mine.find? (fun (h : Nat × Hold) => h.2.aborted) with
            | some h => s.collFail d n h.2.status h.2.other true none
            | none =>
              let s : State := { s with rooms := s.rooms.filter (fun h => !mine.contains h) }
              let s := mine.foldl (fun (s : State) (h : Nat × Hold) => match h.2.entry with
                | none => s
                | some e => match x.inStage e with
                  | some st => s.grant d n e st
                  | none => s.collFail d n 9 0 false none) s
              s.collTrigger d n
          s.collSkim d s.collWait.length

/-- COLL: a descriptor is handed to an engine and queues there, R286. One that is bound to the context's step holds the step's end from
here on, R242. -/
def State.collQueue (s : State) (d c cser : Nat) (words : List Nat) : State :=
  let s : State := { s with collWait := s.collWait ++ [⟨d, c, cser, words⟩] }
  let s := if wfield words 1 16 16 = 1 ∧ words.getD 2 0 = s.rd Reg.CTX_STEP_NUM c then s.collHolds c cser else s
  s.collSkim d s.collWait.length

/-! ### The holding room, R250, R262 -/

/-- Takes a place in engine `d`'s holding room; HOLD_FULL where there is none. -/
def State.holdPut (s : State) (d : Nat) (h : Hold) : State :=
  match (List.range 64).find? (fun i => (SMap.find s.rooms (64 * d + i)).isNone) with
  | none => s.raise (cePage d) 7 (some h.ctx) 0
  | some i => { s with rooms := SMap.put s.rooms (64 * d + i) h }

/-- START received on circuit `e` for a key, R250, R240. -/
def State.startIn (s : State) (e key : Nat) : State :=
  let d := s.dieOfCir e
  let c := s.cirCtx e
  match s.slotOfKey d c key with
  | some n =>
    match (s.slot d n).bind (fun x => x.inStage e) with
    | some st => s.grant d n e st
    | none => s.collFail d n 9 0 false none
  | none =>
    if s.doneKeys.contains (d, c, key) then s
    else if s.rooms.any (fun h => h.1 / 64 == d && h.2.ctx == c && h.2.key == key && h.2.entry == some e) then s
    else s.holdPut d ⟨c, key, some e, s.rd Reg.CT_FAR_PKG 0 e, false, 0, 0, s.timeUs⟩

/-- START_RESEND: START again on every circuit that has not been answered. -/
def State.startResend (s : State) (d n : Nat) : State :=
  match s.slot d n with
  | none => s
  | some x => x.unanswered.foldl (fun s e => s.engineSend e 1 0 0 0 x.key) s

/-- CREDIT received on circuit `e`, R246. The first for a stage is the grant; a later one returns credit of the chunks sent longest ago,
where a chunk sent again under R248 counts from then: its RESEND came before the credits of the chunks behind it. -/
def State.creditIn (s : State) (e stage arg key : Nat) : State :=
  let d := s.dieOfCir e
  match s.slotOfKey d (s.cirCtx e) key with
  | none => s
  | some n =>
    let k := 8 * e + stage
    let s := s.onSlot d n (fun x =>
      let first := (SMap.find x.credit k).isNone
      let gone := if first then [] else (x.kept.filter (fun q => q.entry == e && q.stage == stage)).take arg
      { x with
        unanswered := x.unanswered.filter (fun y => y != e)
        credit := SMap.put x.credit k ((SMap.find x.credit k).getD 0 + arg)
        kept := x.kept.filter (fun q => !gone.contains q), heard := SMap.put x.heard e s.timeUs })
    let s := s.wr Reg.SL_STALLED d n 0
    let s := if s.rd Reg.SL_STATE d n = 2 ∧ (s.slot d n).any (fun x => x.unanswered.isEmpty) then s.wr Reg.SL_STATE d n 3 else s
    s.collGo d n

/-- Sends a chunk on a circuit as DATA packets and trailer, R245. -/
def State.chunkOut (s : State) (x : Slot) (e stage : Nat) (c : Chunk) : State :=
  let tag := x.key + 2 ^ 32 * c.cidx + 2 ^ 52 * stage
  let s := (List.range ((c.data.length + 8191) / 8192)).foldl (fun s i =>
    s.cirSend e true false tag ((c.data.drop (8192 * i)).take 8192)) s
  s.cirSend e true false tag c.trailer

/-- RESEND received on circuit `e`, R248. -/
def State.resendIn (s : State) (e stage cidx key : Nat) : State :=
  let d := s.dieOfCir e
  match s.slotOfKey d (s.cirCtx e) key with
  | none => s
  | some n =>
    match s.slot d n with
    | none => s
    | some x =>
      match x.kept.find? (fun q => q.entry == e && q.stage == stage && q.chunk.cidx == cidx) with
      | none => s
      | some q =>
        let s := s.onSlot d n (fun x => { x with kept := x.kept.filter (fun k => k != q) ++ [{ q with sends := q.sends + 1 }] })
        ((s.chunkOut x e stage q.chunk).count (cePage d) 3 1).progress (cePage d) 1

/-- ABORT received on circuit `e`, with the key of an OTHER that came before it, R262. -/
def State.abortIn (s : State) (e status key : Nat) : State :=
  let d := s.dieOfCir e
  let c := s.cirCtx e
  let other := (s.wire e).other.getD 0
  let s := s.setWire e { s.wire e with other := none }
  match s.slotOfKey d c key with
  | some n => s.collFail d n status other true (some e)
  | none =>
    let has := s.rooms.any (fun h => h.1 / 64 == d && h.2.ctx == c && h.2.key == key)
    if has then
      { s with rooms := s.rooms.map (fun h =>
          if h.1 / 64 = d ∧ h.2.ctx = c ∧ h.2.key = key then (h.1, { h.2 with aborted := true, status := status, other := other }) else h) }
    else s.holdPut d ⟨c, key, none, s.rd Reg.CT_FAR_PKG 0 e, true, status, other, s.timeUs⟩

/-- OTHER received on circuit `e`. -/
def State.otherIn (s : State) (e key : Nat) : State := s.setWire e { s.wire e with other := some key }

/-- PACE received on circuit `e`, R266. -/
def State.paceIn (s : State) (e word : Nat) : State :=
  let d := s.dieOfCir e
  match s.nbOf d (s.rd Reg.CT_FAR_PKG 0 e) with
  | none => s
  | some n =>
    let old := (SMap.get [] s.hearth.paces (32 * d + n)).filter (fun x => decide (s.timeUs ≤ x.1 + 10000))
    ({ s with hearth := { s.hearth with
      paces := SMap.put s.hearth.paces (32 * d + n) ((s.timeUs, word, s.rd Reg.CT_FAR_PKG 0 e) :: old) } } : State).wr Reg.NB_PACE d n word

/-- PACE_SEND: the engine sends the package's pace word on every OPEN or DEGRADED circuit on which a slot has sent START. -/
def State.paceSend (s : State) (d : Nat) : State :=
  let es := ((List.range 16).flatMap (fun n =>
    if 2 ≤ s.rd Reg.SL_STATE d n then ((s.slot d n).map Slot.outCircuits).getD [] else [])).eraseDups
  es.foldl (fun s e => if s.cirReady e then s.cirSend e false false (5 + 2 ^ 32 * s.rd Reg.CE_PACE_OWN d) [] else s) s

/-! ### Chunks sent and received, R245 to R250 -/

/-- CHUNK_SEND: slot `n` of engine `d` sends chunk `c` on circuit `e` against a credit, R246. -/
def State.chunkSend (s : State) (d n e c : Nat) : State :=
  match s.slot d n with
  | none => s
  | some x =>
    let st := s.rd Reg.SL_STAGE d n
    let cr := SMap.get 0 x.credit (8 * e + st)
    if !(x.sends st).contains (e, c) ∨ x.sent.contains (e, c) ∨ !x.sendReady st c ∨ cr = 0
        ∨ !s.cirReady e ∨ s.isFenced (cePage d) 0 ∨ !s.slotMoves d n x then s
    else match s.sendData n x st e c with
      | (s, none) => s
      | (s, some q) =>
        let s := s.chunkOut x e st q
        let s := s.onSlot d n (fun x => { x with
          sent := x.sent ++ [(e, c)], credit := SMap.put x.credit (8 * e + st) (cr - 1), kept := x.kept ++ [⟨e, st, q, 1⟩]
          heard := SMap.put x.heard e s.timeUs })
        ((s.count (cePage d) 0 1).progress (cePage d) 1).collGo d n

/-- A chunk arrives on circuit `e` for a key, R247 to R249. `adds` counts mismatches of the two adders. -/
def State.chunkIn (s : State) (e key stage : Nat) (c : Chunk) (adds : Nat) : State :=
  let d := s.dieOfCir e
  let page := cePage d
  match s.slotOfKey d (s.cirCtx e) key with
  | none => s
  | some n =>
    match s.slot d n with
    | none => s
    | some x =>
      if !c.checks then
        let fails := (x.bad.filter (fun b => b == (8 * e + stage, c.cidx))).length + 1
        let s := s.raise page 0 (some x.ctx) n
        if s.rd Reg.CE_RESEND_LIM d < fails then s.collFail d n 6 0 false none
        else (s.onSlot d n (fun x => { x with bad := x.bad ++ [(8 * e + stage, c.cidx)] })).engineSend e 3 0 stage c.cidx key
      else
        let cur := s.rd Reg.SL_STAGE d n
        let known := x.op == 5 || (x.recvs stage).contains (e, c.cidx)
        if !known || decide (stage < cur) || (stage == cur && x.used.contains (e, c.cidx)) then s
        else
          let s := (s.count page 1 1).progress page (if s.mayWork page 0 x.ctx then 1 else 0)
          if s.slotMoves d n x && x.mayUse stage cur e c then (s.chunkUse d n stage e c adds).collGo d n
          else s.onSlot d n (fun x => { x with early := x.early ++ [⟨e, stage, c⟩] })

/-- A DATA packet delivered to the engine: chunks are gathered by key, index and stage until their trailer, R245. -/
def State.dataIn (s : State) (e : Nat) (p : Packet) : State :=
  let w := s.wire e
  let tag := p.pay
  let cur := w.parts.find? (fun q => q.1 == tag)
  let bytes := (cur.map (fun q => q.2.1)).getD []
  let cnt := (cur.map (fun q => q.2.2)).getD 0
  let rest := w.parts.filter (fun q => q.1 != tag)
  let short := p.body.length == 256 && decide (0 < bytes.length) && leNat ((p.body.drop 20).take 4) % 512 * 256 == bytes.length
  if cnt = 8 ∨ short then
    (s.setWire e { w with parts := rest }).chunkIn e (tag % 2 ^ 32) (bits tag 54 52) ⟨bits tag 51 32, bytes, p.body⟩ 0
  else s.setWire e { w with parts := rest ++ [(tag, bytes ++ p.body, cnt + 1)] }

/-- An ENGINE packet delivered to the engine, Table 9-6. -/
def State.engineIn (s : State) (e pay : Nat) : State :=
  let key := pay / 2 ^ 32
  let stage := bits pay 11 9
  let arg := bits pay 31 12
  match pay % 16 with
  | 1 => s.startIn e key
  | 2 => s.creditIn e stage arg key
  | 3 => s.resendIn e stage arg key
  | 4 => s.abortIn e (bits pay 8 4) key
  | 5 => s.paceIn e key
  | 6 => s.otherIn e key
  | _ => s.count (cePage (s.dieOfCir e)) 7 1

/-- PACKET_DELIVER: the oldest held packet of a class of an endpoint goes to its engine once ordering allows, R221, R222. -/
def State.packetDeliver (s : State) (e : Nat) (data : Bool) : State :=
  match s.takeHeld e data with
  | (s, none) => s
  | (s, some p) => if data then s.dataIn e p else s.engineIn e p.pay

/-! ### The end of a collective -/

/-- What remains to be written at the end: the own shard, the reduced result, blocks and segments, R255 to R258. -/
def State.collFinalWrite (s : State) (n : Nat) (x : Slot) : State :=
  let putAll := fun (s : State) (b : List Byte) =>
    if x.dtag then (List.range ((b.length + 65535) / 65536)).foldl (fun s i => s.collLand x n i ((b.drop (65536 * i)).take 65536)) s
    else s.collWrite x x.dpantry x.dst b
  match x.op with
  | 1 =>
    if x.act.isEmpty then
      match s.ownSum n x with
      | (s, none) => s
      | (s, some l) => putAll s (x.result l)
    else
      let l := (List.range x.gathered).map (fun c => (x.got.find? (fun q => q.cidx == c)).getD ⟨c, [], []⟩)
      if x.isExact && x.otype == 0 then putAll s (x.result l) else putAll s (l.flatMap Chunk.data)
  | 2 =>
    match s.ownSum n x with
    | (s, none) => s
    | (s, some l) => putAll s (x.result l)
  | 3 | 7 =>
    let per := x.size / x.nmemb
    (List.range per).foldl (fun s i =>
      match s.collRead x false (x.src + 65536 * i) 65536 with
      | (s, none) => s
      | (s, some l) => s.collPut x n (x.pos * per + i) l) s
  | 4 =>
    if x.act.isEmpty then
      match s.collRead x false x.src (x.size * 65536) with
      | (s, none) => s
      | (s, some l) => putAll s l
    else s.a2aStay n x (x.act.length - 1)
  | 5 =>
    let mine := x.segs.mergeSort (fun p q => decide (p.spkg ≤ q.spkg))
    let s := putAll s (mine.flatMap Segment.data)
    s.collWrite x false (x.words.getD 11 0 * 256) ((List.range x.nmemb).flatMap (fun j =>
      leBytes 4 ((((x.segs.find? (fun g => g.spos == j)).map (fun g => g.data.length)).getD 0) / 256)))
  | _ => s

/-- The completion: post, record, counter, R259. -/
def State.collFinish (s : State) (d n : Nat) (x : Slot) : State :=
  let amount := wfield x.words 14 21 14
  let s := if amount = 0 ∨ !s.present x.ptile then s else s.postPeg (s.collTile x) x.ctx (wfield x.words 14 13 8) amount
  let s := ((s.freeSlot d n).wr Reg.SL_STATUS d n 0).count (cePage d) 4 1
  s.collRecord x.ctx x.cser x.words 0 0

/-- The end of a stage of an all-to-allv: the segments sent are gone; too much data fails the collective, R258. -/
def State.a2avStage (s : State) (d n : Nat) (x : Slot) (st : Nat) : State :=
  let a := x.act.getD st 0
  let left := x.segs.filter (fun g => x.coord g.dpos a == (x.axis a).idx)
  let total := (left.map (fun g => g.data.length)).sum
  let last := x.act.length ≤ st + 1
  let cap := if last then x.words.getD 12 0 else x.words.getD 15 0
  if cap * 256 < total then s.collFail d n 8 0 false none
  else
    let s := s.onSlot d n (fun x => { x with segs := left, sent := [], used := [], since := s.timeUs })
    let s := (s.wr Reg.SL_STAGE d n (if last then st else st + 1)).wr Reg.SL_CDONE d n 0
    if last then s.onSlot d n (fun x => { x with wrote := true })
    else ((x.circuitsAt (st + 1) false).foldl (fun s e => s.grant d n e (st + 1)) s).regrant d

/-- COLL_COMPLETE: slot `n` of engine `d` ends its last stage, writes what remains of DST, and ends in a completion record. For an
all-to-allv, whose receivers cannot know that nothing more comes, the command is the end of the stage in progress. -/
def State.collComplete (s : State) (d n : Nat) : State :=
  let s := s.collGo d n
  match s.slot d n with
  | none => s
  | some x =>
    let st := s.rd Reg.SL_STAGE d n
    let ready := s.rd Reg.SL_STATE d n == 3 && (x.stages == 0 || (x.stageDone st && x.kept.isEmpty))
    if !ready then s
    else if x.op = 5 then
      if !x.segIn.isEmpty then s
      else
        let s := if x.stages = 0 then
            (if x.words.getD 12 0 * 256 < (x.segs.map (fun g => g.data.length)).sum then s.collFail d n 8 0 false none
              else s.onSlot d n (fun x => { x with wrote := true }))
          else (s.a2avStage d n x st).collGo d n
        match s.slot d n with
        | none => s
        | some y => if y.wrote then (s.collFinalWrite n y).collFinish d n y else s
    else if decide (st + 1 < x.stages) then s
    else
      let s := if x.wrote then s else (s.collFinalWrite n x).onSlot d n (fun x => { x with wrote := true })
      if s.landQ.any (fun w => w.writer == .coll d n) then s
      else match s.slot d n with
        | none => s
        | some y => s.collFinish d n y

/-- Slot `n` waits for a CREDIT on circuit `e`: for the answer to START, or with a chunk ready to be sent, R261. -/
def State.waitsCredit (s : State) (d n e : Nat) (x : Slot) : Bool :=
  let st := s.rd Reg.SL_STAGE d n
  x.unanswered.contains e || (SMap.get 0 x.credit (8 * e + st) == 0
    && (x.sends st).any (fun q => q.1 == e && !x.sent.contains q && x.sendReady st q.2))

/-- Slot `n` waits for a START or a chunk on circuit `e`: one that its stage receives has not come, or a segment is not whole. -/
def State.waitsChunk (s : State) (d n e : Nat) (x : Slot) : Bool :=
  let st := s.rd Reg.SL_STAGE d n
  decide (2 ≤ s.rd Reg.SL_STATE d n) && ((x.recvs st).any (fun q => q.1 == e && !x.used.contains q && !x.early.any (fun k => k.entry == e && k.stage == st && k.chunk.cidx == q.2))
    || x.segIn.any (fun g => g.entry == e))

/-- ORDER_STALL: a slot has waited OSTALL_MS on circuit `e`, R261. The wait is counted from START or the stage's begin, or from what last
moved on the circuit. -/
def State.orderStall (s : State) (d n e : Nat) : State :=
  match s.slot d n with
  | none => s
  | some x =>
    let lim := 1000 * s.rd Reg.CE_OSTALL_MS d
    let from_ := max x.since ((SMap.find x.heard e).getD 0)
    if s.rd Reg.SL_STATE d n < 2 ∨ !(s.waitsCredit d n e x || s.waitsChunk d n e x) ∨ s.timeUs < from_ + lim then s
    else
      let pkg := s.rd Reg.CT_FAR_PKG 0 e
      let held := s.rooms.filter (fun h => h.1 / 64 == d && h.2.entry.isSome && h.2.pkg == pkg && decide (h.2.time + lim ≤ s.timeUs))
      match held.foldl (fun (b : Option Hold) h => match b with
          | none => some h.2
          | some q => if h.2.time < q.time then some h.2 else some q) none with
      | none => s.wr Reg.SL_STALLED d n 1
      | some h => s.collFail d n 5 h.key false none

/-- CIRCUIT_BREAK_REPORT: a circuit in BROKEN or CLOSED fails every slot whose group uses it, R264. -/
def State.breakReport (s : State) (e : Nat) : State :=
  let st := s.cirState e
  if !s.isEndpoint e || (st != 5 && st != 6) then s
  else
    let d := s.dieOfCir e
    let cause := s.rd Reg.CT_RUN_CAUSE 0 e
    let status := if st = 5 then 4 else match cause with | 1 => 1 | 2 => 2 | 3 => 3 | 4 => 10 | _ => 4
    (List.range 16).foldl (fun s n =>
      if (s.slot d n).any (fun x => x.ctx == s.cirCtx e && x.groupCircuits.contains e) then s.collFail d n status 0 false none else s) s

/-- Every collective of a context fails with LOCAL_ABORT, waiting commands too, Table 9-8. The context is on its way out, so that its step
does not fail by them a second time. -/
def State.collAbort (s : State) (c : Nat) : State :=
  let why := (s.ctx c).collFail
  let s := (List.range 64).foldl (fun s k =>
    if (s.slot (k / 16) (k % 16)).any (fun x => x.ctx == c) then s.collFail (k / 16) (k % 16) 10 0 false none else s) s
  let mine := s.collWait.filter (fun w => w.ctx == c)
  let s : State := { s with collWait := s.collWait.filter (fun w => w.ctx != c) }
  let s := mine.foldl (fun s w => ((s.raise (cePage w.die) 8 (some w.ctx) 0).count (cePage w.die) 5 1).collRecord w.ctx w.cser w.words 10 0) s
  s.setCtx c { s.ctx c with collFail := why }

/-- Every collective of an engine fails with LOCAL_ABORT. -/
def State.engineAbort (s : State) (d : Nat) : State :=
  (List.range 16).foldl (fun s n => s.collFail d n 10 0 false none) s

/-! ### Landing writes that waited, R149 -/

/-- LWAIT falls when no write waits on the region any more. -/
def State.landQuiet (s : State) (w : LandWrite) : State :=
  let same := fun (v : LandWrite) => s.regionAt v.addr == s.regionAt w.addr && stackOf v.addr == stackOf w.addr
  match s.regionAt w.addr with
  | none => s
  | some rg => if s.landQ.any same then s else s.wr Reg.LR_LWAIT (stackOf w.addr) rg 0

/-- LANDING_RESUME: the `k`-th waiting landing write proceeds once Table 6-5 lets it. -/
def State.landResume (s : State) (k : Nat) : State :=
  match s.landQ[k]? with
  | none => s
  | some w =>
    match s.landWrite w with
    | (s, .waits) => s
    | (s, r) =>
      let s : State := { s with landQ := s.landQ.eraseIdx k }
      let s := s.landQuiet w
      let s := match r with
        | .refused b => if badAddr w.addr then s else s.raise (0x40 + stackOf w.addr) b (some w.ctx) 0
        | _ => s
      match w.writer with
      | .starch => s.landCopies (stackOf w.addr)
      | .coll d n => s.collGo d n
      | _ => s

/-- LANDING_WRITE: a landing write of a context reaches its arrival point, Table 6-5. -/
def State.landIn (s : State) (w : LandWrite) : State :=
  match s.landWrite w with
  | (s, .done) => s
  | (s, .waits) => { s with landQ := s.landQ ++ [w] }
  | (s, .refused b) => if badAddr w.addr then s else s.raise (0x40 + stackOf w.addr) b (some w.ctx) 0

end Sys2Proof.Machine
end

