-- ==== Sys2Proof/Machine/Update.lean ====
section
/-! DEFINITION. Firmware and table update (R346 to R350). The verdicts of the signature, of the tiles' digest checks and of the
flash read-back come with the command that reports the end of a verification. -/

namespace Sys2Proof.Machine

open Sys2Proof

/-- Chunks of an image of `len` bytes, 64 KiB each, R346. -/
def updChunks (len : Nat) : Nat := (len + 65535) / 65536

/-- A list of byte intervals (start, length) covers `[a, b)`. `n` bounds the joins. -/
def covers (l : List (Nat × Nat)) (a b : Nat) : Nat → Bool
  | 0 => decide (b ≤ a)
  | n + 1 =>
    if b ≤ a then true
    else
      match l.find? (fun x => decide (x.1 ≤ a) && decide (a < x.1 + x.2)) with
      | none => false
      | some x => covers l (x.1 + x.2) b n

/-- The chunk bitmap after writes covered the intervals, R346. -/
def updMapOf (cov : List (Nat × Nat)) (len : Nat) : Nat :=
  (List.range (updChunks len)).foldl (fun m k =>
    if covers cov (65536 * k) (min len (65536 * (k + 1))) (cov.length + 1) then m + 2 ^ k else m) 0

/-- UPD_OPEN: reception starts, R346. During VERIFYING it is discarded. -/
def State.updOpen (s : State) : State :=
  if s.rd Reg.UPD_STATE = 2 then s
  else
    let s : State := { s with soh := { s.soh with covered := [] } }
    (((s.wr0 Reg.UPD_STATE 1).wr0 Reg.UPD_FAIL 0).wr0 Reg.UPD_MAP 0).wr0 Reg.UPD_MISSING (updChunks (s.rd Reg.UPD_LEN))

/-- A completed write transfer covered `len` bytes of staging from `ofs`: chunk bits are set while RECEIVING, R346. A chunk
counted as missing at the last CHECK is missing no longer. -/
def State.updCovered (s : State) (ofs len : Nat) : State :=
  if s.rd Reg.UPD_STATE = 1 ∧ ofs < 0x3000000 then
    let s : State := { s with soh := { s.soh with covered := s.soh.covered ++ [(ofs, len)] } }
    let m := updMapOf s.soh.covered (s.rd Reg.UPD_LEN)
    let new := popCount 768 m - popCount 768 (s.rd Reg.UPD_MAP)
    ((s.wr0 Reg.UPD_MAP m).wr0 Reg.UPD_MISSING (s.rd Reg.UPD_MISSING - new)).count 0x009 0 new
  else s

/-- CHECK: counts the missing chunks and logs UPD_MISSING with the first one, R346. -/
def State.updCheck (s : State) : State :=
  let n := updChunks (s.rd Reg.UPD_LEN)
  let miss := (List.range n).filter (fun k => bit (s.rd Reg.UPD_MAP) k == 0)
  (s.wr0 Reg.UPD_MISSING miss.length).event 0x0010 0 0x009 (miss.headD 0 + 2 ^ 32 * miss.length)

/-- VERIFY: starts verification of a whole image, or fails at once with SHORT, R347. -/
def State.updVerify (s : State) : State :=
  if s.rd Reg.UPD_STATE = 1 then
    if s.rd Reg.UPD_MISSING = 0 then s.wr0 Reg.UPD_STATE 2 else s.updFail 1
  else s

/-- The signature that ends an image, R347: its length in bytes. -/
def imageSigLen : Nat := 29792

/-- The header layout of an image of `len` bytes, Table 12-7: TAG, COMP, LEN and reserved words. -/
def imageFormatOk (h : List Byte) (len : Nat) : Bool :=
  let w := fun i => leNat ((h.drop (4 * i)).take 4)
  let comp := bits (w 1) 7 0
  decide (h.length = 128) && w 0 == 0x474D4946 && decide (1 ≤ comp) && decide (comp ≤ 5) && bits (w 1) 15 8 == 0
    && bits (w 2) 31 24 == 0 && decide (128 + w 3 + imageSigLen = len)
    && (if comp = 1 then bits (w 4) 31 20 == 0 else w 4 == 0)
    && [5, 6, 7, 16, 17, 18, 19, 20, 21, 22, 23, 24, 25, 26, 27, 28, 29, 30, 31].all (fun i => w i == 0)

/-- The body of a DERATE table, R317: a count of 2 to 16, then pairs of 16 bits, flow strictly ascending. -/
def derateOk (b : List Byte) : Bool :=
  let n := leNat (b.take 2)
  let fl := fun i => leNat ((b.drop (2 + 4 * i)).take 2)
  decide (2 ≤ n) && decide (n ≤ 16) && decide (b.length = 2 + 4 * n)
    && (List.range (n - 1)).all (fun i => decide (fl i < fl (i + 1)))

/-- The body of a PLAN table: 37 bytes, each a place 0 to 10. -/
def planOk (b : List Byte) : Bool := decide (b.length = 37) && b.all (fun x => decide (x.toNat ≤ 10))

/-- VERIFY_DONE: the checks of R347 in order. `seqOk` is the check of R191 on the staged LINK_SEQ table; `sig` and
`ucode` are the verdicts of the signature and of the tiles' digest checks; `readBack` is 0 where the flash write reads back well, 1 where
only the second block does, R333, and more where neither does. -/
def State.updVerifyDone (s : State) (seqOk : List Byte → Bool) (sig ucode : Bool) (readBack : Nat) : State :=
  if s.rd Reg.UPD_STATE ≠ 2 then s
  else
    let len := s.rd Reg.UPD_LEN
    let h := s.staging.readBytes 0 128
    let w := fun i => leNat ((h.drop (4 * i)).take 4)
    let comp := bits (w 1) 7 0
    let s := s.wr0 Reg.UPD_COMP comp
    if !imageFormatOk h len then s.updFail 2
    else if bits (w 1) 31 16 < s.flash.minSvn then s.updFail 3
    else
      let body := s.staging.readBytes 128 (w 3)
      if sha256 body ≠ (h.drop 32).take 32 then s.updFail 4
      else if !sig then s.updFail 5
      else if !((comp != 2 || seqOk body) && (comp != 3 || derateOk body) && (comp != 4 || planOk body)) then s.updFail 6
      else if comp = 5 ∧ !ucode then s.updFail 7
      else if 2 ≤ readBack then (s.updFail 8).occur 0x008 3 none 0
      else
        let s := if readBack = 1 then s.occur 0x008 3 none 0 else s
        let c : Component := ⟨bits (w 2) 23 0, bits (w 1) 31 16, digNat ((h.drop 32).take 32), w 4, body⟩
        let s : State := { s with flash := { s.flash with pend := SMap.put s.flash.pend comp c } }
        let s := (s.wr0 Reg.UPD_STATE 3).count 0x009 1 1
        (s.event 0x0011 0 0x009 (comp + 2 ^ 32 * c.version)).count 0x008 3 (128 + w 3 + imageSigLen)

/-- SVN_RAISE: MIN_SVN rises to `v`, above its value and no higher than any active or pending component's SVN, R350. -/
def State.svnRaise (s : State) (v : Nat) : State :=
  if s.flash.minSvn < v ∧ v < 2 ^ 16 ∧ (s.flash.active ++ s.flash.pend).all (fun x => decide (v ≤ x.2.svn)) then
    s.flashWrite (fun s => { s with flash := { s.flash with minSvn := v } })
  else s

/-- The condition of R348 on a COMMIT that activates the components of `mask` (bit c component c). -/
def State.updActOk (s : State) (mask : Nat) : Bool :=
  ((List.range 6).all (fun c => bit mask c == 0 || (SMap.find s.flash.pend c).isSome))
    && (bit mask 5 == 0 || allCtxs.all (fun c => s.rd Reg.CTX_EXEC_STEP_BUSY c == 0))
    && (bit mask 1 == 0 || s.rd Reg.UPD_STATE != 2)

/-- The named components become active in one cycle; SOHOLT by a restart into the other slot, after which UPD_ACTIVATED is
logged, R348. -/
def State.updActivate (s : State) (mask : Nat) : State :=
  if mask = 0 then s
  else
    let cs := (List.range 6).filter (fun c => bit mask c == 1)
    let s := cs.foldl (fun s c =>
      match SMap.find s.flash.pend c with
      | none => s
      | some k =>
        let prev := if bit mask 1 = 1 then SMap.put s.flash.previous c (SMap.find s.flash.active c) else s.flash.previous
        { s with flash := { s.flash with
          active := SMap.put s.flash.active c k, pend := SMap.del s.flash.pend c, previous := prev } })
      (if bit mask 1 = 1 then ({ s with flash := { s.flash with previous := [] } } : State) else s)
    let s := s.count 0x009 2 1
    let s : State := { s with soh := { s.soh with actMask := mask } }
    if bit mask 1 = 1 then
      let s : State := { s with flash := { s.flash with slot := 1 - s.flash.slot }, soh := { s.soh with selfCheck := true } }
      s.restartSoholt
    else
      let s : State := { s with soh := { s.soh with actMask := 0 } }
      s.event 0x0012 0 0x009 mask

/-- UPD_FALLBACK: a Soholt image without its self-check within 5 s is abandoned; every component of the same COMMIT returns to
its previous copy, R349. -/
def State.updFallback (s : State) : State :=
  if !s.soh.selfCheck then s
  else
    let ver := s.rd Reg.SOH_VER
    let old := s.flash.slot
    let s : State := { s with
      flash := { s.flash with
        active := s.flash.previous.foldl (fun m x => x.2.elim (SMap.del m x.1) (SMap.put m x.1)) s.flash.active
        previous := [], slot := 1 - s.flash.slot }
      soh := { s.soh with selfCheck := false, actMask := 0 } }
    let s := (s.wr0 Reg.SOH_FALLBACK 1).restartSoholt
    let s := s.event 0x0002 1 0x008 (old + 2 ^ 32 * ver)
    (s.occur 0x009 1 none 0).count 0x009 3 1

/-- Power-on loading of the registers whose reset value comes from flash or fuses: versions, identity and voltages. The views
that read flash directly need no copy. -/
def State.loadFlash (s : State) : State :=
  let s := s.wr0 Reg.SOH_VER ((SMap.find s.flash.active 1).elim 0 (fun c => c.version))
  let s := s.wr0 Reg.SOH_SLOT s.flash.slot
  let s := (List.range 8).foldl (fun s n => s.wr Reg.CLK_OPV 0 n (s.flash.opv.getD n 0)) s
  let s := (List.range 2).foldl (fun s p =>
    (s.wr Reg.HST_MAC_LO p 0 (s.flash.macs.getD p 0)).wr Reg.HST_MAC_HI p 0 (s.flash.macs.getD p 0 / 2 ^ 32)) s
  (List.range 4).foldl (fun s d =>
    (s.wr Reg.DARN_FUSE_LO 0 d (s.flash.fuseBad.getD d 0)).wr Reg.DARN_FUSE_HI 0 d (s.flash.fuseBad.getD d 0 / 2 ^ 32)) s

end Sys2Proof.Machine
end

