-- ==== Sys2Proof/Machine/Hearth.lean ====
section
/-! DEFINITION. Hearth: the power model and the control loop, droop, temperature, coolant, warming, pace words and following
(R297 to R325). The readings and the model's estimates come with the commands. -/

namespace Sys2Proof.Machine

open Sys2Proof

/-! ### Places and the pace word -/

/-- RATE of a place: CCLK in MHz truncated, times the duty, truncated, R322. -/
def rateOf (place : Nat) : Nat := [2250, 2000, 1800, 1500, 1285, 1125, 1000, 750, 562, 375, 187].getD place 187

/-- Divider of an operating point, Table 11-2, and the one after OP7 for droop, R308. -/
def dividerOf (opt : Nat) : Nat := [8, 9, 10, 12, 14, 16, 18, 24, 32].getD opt 32

/-- OPT of a place. -/
def optOf (place : Nat) : Nat := min place 7

/-- DUTY of a place. -/
def dutyOf (place : Nat) : Nat := place - 7

/-- The floor. -/
def floorPlace : Nat := 10

/-- The ceilings of R302 in the order of Table 11-3: LIMITER code and watts. -/
def State.ceilings (s : State) : List (Nat × Nat) :=
  let cap := 10 * s.hearth.lim.cap
  let failed := (List.range 32).any (fun n => s.rdB Reg.THM_FAIL_A 0 n || s.rdB Reg.THM_FAIL_B 0 n)
    || (List.range 12).any (fun n => s.rdB Reg.THM_STK_FAIL_A 0 n || s.rdB Reg.THM_STK_FAIL_B 0 n)
    || (List.range 18).any (fun n => s.rdB Reg.THM_OPT_FAIL 0 n)
  [(4, s.rd Reg.THM_DERATE_CAP)]
    ++ (if failed then [(5, cap * (100 - s.hearth.lim.ssdPct) / 100)] else [])
    ++ (if s.rdB Reg.PWR_HB_LOST then [(6, s.hearth.safeCap)] else [])
    ++ (if s.rd Reg.PWR_TRAYCAP = 0 then [] else [(7, 10 * s.rd Reg.PWR_TRAYCAP)])
    ++ [(8, cap)]

/-- EFF_CAP: the lowest ceiling, R302. -/
def State.effCap (s : State) : Nat := s.ceilings.foldl (fun m x => min m x.2) (10 * s.hearth.lim.cap)

/-- A region is unmonitored, R314. -/
def State.unmonitored (s : State) : Bool :=
  (List.range 32).any (fun n => s.rdB Reg.THM_FAIL_A 0 n && s.rdB Reg.THM_FAIL_B 0 n)
    || (List.range 12).any (fun n => s.rdB Reg.THM_STK_FAIL_A 0 n && s.rdB Reg.THM_STK_FAIL_B 0 n)
    || (List.range 18).any (fun n => s.rdB Reg.THM_OPT_FAIL 0 n)

/-- The places that the limits other than the cap controller require, with their LIMITER codes, R302. -/
def State.otherLimits (s : State) : List (Nat × Nat) :=
  let h := s.hearth
  [(1, if s.rdB Reg.THM_SUDDEN then floorPlace else 0),
   (2, if s.rdB Reg.THM_SD_REQ then floorPlace else h.thermal),
   (3, if s.unmonitored then 7 else 0),
   (9, h.peak), (10, h.plan), (11, h.follow)]

/-- Holds of bring-up and reset, which Table 11-3 does not name. -/
def State.resetHold (s : State) : Nat :=
  if s.hearth.resetFloor then floorPlace else if s.hearth.bringUp then 7 else 0

/-- LIMITER for a place in force, R302, Table 11-3. -/
def State.limiterAt (s : State) (place : Nat) : Nat :=
  if place = 0 then 0
  else
    let o := s.otherLimits
    let eff := s.rd Reg.PWR_EFF_CAP
    let capCode := (s.ceilings.find? (fun x => x.2 ≤ eff)).elim 8 (fun x => x.1)
    let early := (o.filter (fun x => decide (x.1 ≤ 3))).find? (fun x => x.2 == place)
    let late := (o.filter (fun x => decide (9 ≤ x.1))).find? (fun x => x.2 == place)
    match early with
    | some x => x.1
    | none =>
      if s.hearth.capBinds && s.hearth.capPlace == place then capCode
      else match late with
        | some x => x.1
        | none => if s.hearth.capPlace == place then capCode else 0

/-- The pace word, Table 9-9, R322. -/
def State.paceWord (s : State) : Nat :=
  let l := s.rd Reg.PWR_LIMITER
  rateOf s.hearth.place + 2 ^ 12 * s.rd Reg.PWR_OPT + 2 ^ 15 * s.rd Reg.PWR_DUTY
    + (if 6 ≤ l ∧ l ≤ 10 then 2 ^ 17 else 0) + (if 1 ≤ l ∧ l ≤ 5 then 2 ^ 18 else 0)
    + 2 ^ 19 * s.rd Reg.PWR_CAP_UNREACHABLE + (if l = 11 then 2 ^ 20 else 0)

/-- Warming may run: the model's estimate with the warming load is at most EFF_CAP − GUARD, and no limit binds, R321. -/
def State.warmingAllowed (s : State) : Bool :=
  s.rd Reg.THM_WARM_EN != 0 && s.rd Reg.PWR_LIMITER == 0 && decide (64 * s.hearth.warmEst ≤ 63 * s.rd Reg.PWR_EFF_CAP)

/-- Sets the registers that follow the place in force: point, duty, dividers, LIMITER, flags, the pace word of every CE page,
and MINRATE of every step in progress; warming stops at once where a limit binds, R321. -/
def State.showPlace (s : State) : State :=
  let p := s.hearth.place
  let s := (((s.wr0 Reg.PWR_OPT (optOf p)).wr0 Reg.PWR_DUTY (dutyOf p)).wr0 Reg.PWR_LIMITER (s.limiterAt p)).wrB
    Reg.PWR_AT_FLOOR 0 0 (p == floorPlace)
  let s := s.wrB Reg.PWR_FOLLOWING 0 0 (decide (0 < s.hearth.follow))
  let s := if s.warmingAllowed then s else s.wr0 Reg.THM_WARMING 0
  let dv := fun d => dividerOf (optOf p + SMap.get 0 s.hearth.drooped d)
  let s := (((s.wr0 Reg.CLK_DIV_0 (dv 0)).wr0 Reg.CLK_DIV_1 (dv 1)).wr0 Reg.CLK_DIV_2 (dv 2)).wr0 Reg.CLK_DIV_3 (dv 3)
  let w := s.paceWord
  let s := (List.range 4).foldl (fun s d => s.wr Reg.CE_PACE_OWN d 0 w) s
  s.ctxs.foldl (fun s x =>
    if s.rd Reg.CTX_EXEC_STEP_BUSY x.1 = 1 then
      s.setCtx x.1 { s.ctx x.1 with minRate := min (s.ctx x.1).minRate (rateOf p) }
    else s) s

/-- EFF_CAP follows its ceilings, and the place in force becomes the slowest that any limit requires, R302; the cap controller then
holds no faster place, so that the package steps up one place at a time, R303. -/
def State.settleHearth (s : State) : State :=
  let s := s.wr0 Reg.PWR_EFF_CAP s.effCap
  let h := s.hearth
  let want := s.otherLimits.foldl (fun m x => max m x.2) (max h.capPlace s.resetHold)
  let s := if h.place < want then s.count 0x004 2 (want - h.place)
    else if want < h.place then s.count 0x004 3 (h.place - want) else s
  let s : State := { s with hearth := { h with
    place := want, capPlace := want, stepAt := if want = h.place then h.stepAt else some s.timeUs } }
  s.showPlace

/-! ### Power, R300 to R307 -/

/-- PEAK_CHECK: the model's raw estimate of the last 10 µs; one step down while P_EST exceeds PEAK, R300, R305. -/
def State.peakCheck (s : State) (raw : Nat) : State :=
  let est := s.rd Reg.PWR_GAIN * raw / 2 ^ 14
  let s := s.wr0 Reg.PWR_P_EST est
  let s : State := { s with hearth := { s.hearth with
    estSum := s.hearth.estSum + est, rawSum := s.hearth.rawSum + raw, estN := s.hearth.estN + 1 } }
  if 10 * s.hearth.lim.peak < est then
    let s := s.count 0x004 4 1
    ({ s with hearth := { s.hearth with peak := min floorPlace (s.hearth.place + 1) } } : State).settleHearth
  else ({ s with hearth := { s.hearth with peak := 0 } } : State).settleHearth

/-- GAIN after a measurement, in units of 2^−14, truncated and held within 0.75 to 1.25, R301. -/
def gainNext (g pin pm1 : Nat) : Nat :=
  if pm1 < 300 then g else max 12288 (min 20480 ((g * 63 * pm1 + pin * 2 ^ 14) / (64 * pm1)))

/-- The mean of `n` samples of sum `sum`, in whole watts, as a register shows it; 0 without samples. -/
def meanShown (sum n : Nat) : Nat := sum / n

/-- The mean of `n` samples of sum `sum` is above, and is below, `num`/64 of `eff`: compared exactly. -/
def meanAbove (sum n num eff : Nat) : Bool := decide (num * eff * n < 64 * sum)
def meanBelow (sum n num eff : Nat) : Bool := decide (64 * sum < num * eff * n)

/-- The operating limits of the registers, which a tick puts in force, R306. -/
def State.limitsNow (s : State) : OpLimits := ⟨s.rd Reg.PWR_CAP, s.rd Reg.PWR_SAFE_PCT, s.rd Reg.PWR_PEAK, s.rd Reg.PWR_SSD_PCT⟩

/-- At least 50 ms have passed since the last step of any cause, R303. -/
def State.mayStepUp (s : State) : Bool := s.hearth.stepAt.all (fun t => decide (t + 50000 ≤ s.timeUs))

/-- A cap ceiling binds: the cap controller holds the place in force, and a power condition keeps it there or no other limit
requires it, R302. -/
def State.capBound (s : State) : Bool :=
  let p := s.hearth.place
  p != 0 && (s.hearth.capBinds || !s.otherLimits.any (fun x => x.2 == p))

/-- The limit of a LIMITER code requires the place in force. -/
def State.limitBinds (s : State) (code : Nat) : Bool :=
  s.hearth.place != 0 && s.otherLimits.any (fun x => x.1 == code && x.2 == s.hearth.place)

/-- Fastest place of the default plan for a cap, Table 11-5. -/
def planDefault (cap : Nat) : Nat :=
  if 3200 ≤ cap then 0 else if 2900 ≤ cap then 1 else if 2600 ≤ cap then 2 else if 2200 ≤ cap then 3
  else if 1900 ≤ cap then 4 else if 1700 ≤ cap then 5 else if 1500 ≤ cap then 6 else if 1200 ≤ cap then 7
  else if 1000 ≤ cap then 9 else 10

/-- The plan place for a cap from the plan table in flash, the default plan where none is stored, R324. -/
def State.planPlace (s : State) (cap : Nat) : Nat :=
  match SMap.find s.flash.active 4 with
  | some c => (c.body.getD (min 36 (cap / 100)) 10).toNat
  | none => planDefault cap

/-- The follow limit, R323: the slowest point whose RATE at 100 % is at least the lowest fresh RATE not itself following. -/
def State.followPlace (s : State) : Nat :=
  if s.rd Reg.PWR_PACE_FOLLOW = 0 then 0
  else
    let ws := (List.range 4).flatMap (fun d => (List.range 32).flatMap (fun n =>
      (s.freshPaces d n).filterMap (fun x => if bit x.1 20 = 0 then some (bits x.1 11 0) else none)))
    match ws with
    | [] => 0
    | w :: r =>
      let m := r.foldl min w
      ((List.range 8).filter (fun p => decide (m ≤ rateOf p))).foldl max 0

/-- CAP_TICK: the measurement of the last ms and the model's estimate for the next faster place, R301 to R309, R322 to R324. -/
def State.capTick (s : State) (pin upEst : Nat) : State :=
  let h := s.hearth
  let n1 := if h.estN = 0 then 1 else h.estN
  let sum1 := if h.estN = 0 then s.rd Reg.PWR_P_EST else h.estSum
  let s := (s.wr0 Reg.PWR_P_IN pin).wr0 Reg.PWR_P_1MS (meanShown sum1 n1)
  let s := s.wr0 Reg.PWR_GAIN (gainNext (s.rd Reg.PWR_GAIN) pin (meanShown h.rawSum n1))
  let samples := (pin :: h.pin).take 16000
  let win := samples.take (1000 * s.rd Reg.PWR_WINDOW)
  let s := s.wr0 Reg.PWR_P_AVG (meanShown win.sum win.length)
  let mj := h.energy + pin
  let s : State := { s with hearth := { h with
    pin := samples, estSum := 0, rawSum := 0, estN := 0, energy := mj % 1000, lim := s.limitsNow } }
  let s := s.count 0x004 6 (mj / 1000)
  let eff := s.effCap
  let s := s.wr0 Reg.PWR_EFF_CAP eff
  let plan := s.planPlace eff
  let s := (s.wr0 Reg.PWR_PLAN_OPT (optOf plan)).wr0 Reg.PWR_PLAN_DUTY (dutyOf plan)
  let s : State := { s with hearth := { s.hearth with
    plan := if s.rd Reg.PWR_MODE = 0 then plan else 0, follow := s.followPlace } }
  let place := s.hearth.place
  let down := (meanAbove sum1 n1 64 eff && meanAbove win.sum win.length 63 eff) || s.hearth.storm
  let powerOk := meanBelow win.sum win.length 63 eff && decide (64 * upEst ≤ 63 * eff)
  let others := s.otherLimits.foldl (fun m x => max m x.2) s.resetHold
  let up := powerOk && decide (0 < place) && s.mayStepUp && decide (others < place) && decide (500 ≤ s.hearth.coolRun)
  let s : State := { s with hearth := { s.hearth with
    storm := false, capBinds := down || !powerOk
    capPlace := if down then min floorPlace (place + 1) else if up then place - 1 else s.hearth.capPlace } }
  let s := s.settleHearth
  -- CAP_UNREACHABLE, R307
  let atFloor := s.hearth.place == floorPlace
  let overN := if atFloor && meanAbove sum1 n1 64 eff then s.hearth.overRun + 1 else 0
  let underN := if meanAbove sum1 n1 63 eff then 0 else s.hearth.underRun + 1
  let s : State := { s with hearth := { s.hearth with overRun := min 100 overN, underRun := min 100 underN } }
  let s := if overN = 100 ∧ s.rd Reg.PWR_CAP_UNREACHABLE = 0 then
      ((((s.wr0 Reg.PWR_CAP_UNREACHABLE 1).occur 0x004 0 none 0).event 0x0030 5 0x004 (eff + 2 ^ 32 * meanShown sum1 n1)).protect 6).trayNote
    else s
  let s := if 100 ≤ underN then s.wr0 Reg.PWR_CAP_UNREACHABLE 0 else s
  -- the counters of R329
  let s := if s.capBound then s.count 0x004 0 1 else s
  let s := if atFloor then s.count 0x004 1 1 else s
  let s := if s.limitBinds 11 then s.count 0x004 5 1 else s
  let s := if s.rd Reg.THM_WARMING ≠ 0 then s.count 0x004 7 1 else s
  let s := if s.limitBinds 2 then s.count 0x006 0 1 else s
  let s := if s.capBound && decide (s.rd Reg.THM_DERATE_CAP ≤ eff) then s.count 0x006 1 1 else s
  s.showPlace

/-- GAIN_CLAMPED: 1 s at a bound sets CLAMPED and raises MODEL_DRIFT; 1 s strictly between the bounds clears CLAMPED, R301. -/
def State.gainClamped (s : State) : State :=
  let g := s.rd Reg.PWR_GAIN
  if g = 12288 ∨ g = 20480 then
    if s.rd Reg.PWR_CLAMPED = 1 then s else (s.wr0 Reg.PWR_CLAMPED 1).occur 0x004 1 none 0
  else s.wr0 Reg.PWR_CLAMPED 0

/-! ### Droop, R308 and R309 -/

/-- A die's droop events within the last ms, R309. -/
def State.droopsIn (s : State) (d : Nat) : List Nat :=
  (SMap.get [] s.hearth.droops d).filter (fun x => decide (s.timeUs < x + 1000))

/-- DROOP: a detector of die `d` fires; more than DROOP_LIM events within 1 ms call for one step down at the next tick. -/
def State.droop (s : State) (d : Nat) : State :=
  let s := s.count 0x005 d 1
  let l := s.timeUs :: s.droopsIn d
  let s : State := { s with hearth := { s.hearth with
    droops := SMap.put s.hearth.droops d l, drooped := SMap.put s.hearth.drooped d 1 } }
  let s := if s.rd Reg.CLK_DROOP_LIM < l.length ∧ s.hearth.storm = false then
      ({ s with hearth := { s.hearth with storm := true } } : State).occur 0x004 2 none 0
    else s
  s.showPlace

/-- DROOP_RELEASE: no detector of die `d` has fired for DROOP_HOLD. -/
def State.droopRelease (s : State) (d : Nat) : State :=
  ({ s with hearth := { s.hearth with drooped := SMap.del s.hearth.drooped d } } : State).showPlace

/-! ### Temperature, R310 to R315 -/

/-- The valid readings of hot spot `n`, in quarter degrees. -/
def State.hotReadings (s : State) (n : Nat) : List Int :=
  (if s.rdB Reg.THM_FAIL_A 0 n then [] else [toSigned 10 (s.rd Reg.THM_TA 0 n)])
    ++ (if s.rdB Reg.THM_FAIL_B 0 n then [] else [toSigned 10 (s.rd Reg.THM_TB 0 n)])

/-- The valid readings of stack `n`. -/
def State.stackReadings (s : State) (n : Nat) : List Int :=
  (if s.rdB Reg.THM_STK_FAIL_A 0 n then [] else [toSigned 10 (s.rd Reg.THM_STK_TA 0 n)])
    ++ (if s.rdB Reg.THM_STK_FAIL_B 0 n then [] else [toSigned 10 (s.rd Reg.THM_STK_TB 0 n)])

/-- The valid readings of the optical engines. -/
def State.opticalReadings (s : State) : List Int :=
  (List.range 18).filterMap (fun k => if s.rdB Reg.THM_OPT_FAIL 0 k then none else some (toSigned 10 (s.rd Reg.THM_OPT_T 0 k)))

/-- The hottest valid reading of dies and stacks and its source, TJ_MAX and TJ_SRC. -/
def State.hottest (s : State) : Option (Int × Nat) :=
  let l := (List.range 32).flatMap (fun n => (s.hotReadings n).map (fun t => (t, n)))
    ++ (List.range 12).flatMap (fun n => (s.stackReadings n).map (fun t => (t, 32 + n)))
  l.foldl (fun b x => match b with
    | none => some x
    | some y => if y.1 < x.1 then some x else some y) none

/-- Some optical reading is at or above a limit in quarter degrees. -/
def State.opticalAt (s : State) (lim : Int) : Bool := s.opticalReadings.any (fun t => decide (lim ≤ t))

/-- A hot spot on one remaining sensor reads 90 °C or more, R314. -/
def State.singleHot (s : State) : Bool :=
  (List.range 32).any (fun n => match s.hotReadings n with
    | [t] => decide (360 ≤ t)
    | _ => false)

/-- Some region runs on one sensor: one of a pair is failed, SINGLE of Table 11-10. -/
def State.onOneSensor (s : State) : Bool :=
  (List.range 32).any (fun n => s.rdB Reg.THM_FAIL_A 0 n != s.rdB Reg.THM_FAIL_B 0 n)
    || (List.range 12).any (fun n => s.rdB Reg.THM_STK_FAIL_A 0 n != s.rdB Reg.THM_STK_FAIL_B 0 n)

/-- The lowest valid hot-spot reading of die `d`, R321. -/
def State.coldest (s : State) (d : Nat) : Option Int :=
  ((List.range 7).flatMap (fun k => s.hotReadings (7 * d + k))).foldl (fun b t => match b with
    | none => some t
    | some y => some (min y t)) none

/-- WARMING after a sample: dies below WARM_FLOOR start, dies at WARM_FLOOR + 3 °C stop; warming needs the model's estimate with
the warming load at or below EFF_CAP − GUARD and no limit that binds, R321. -/
def State.warmNext (s : State) : Nat :=
  if !s.warmingAllowed then 0
  else
    ((List.range 4).map (fun d => match s.coldest d with
      | none => 0
      | some t =>
        if t < 4 * (s.rd Reg.THM_WARM_FLOOR : Int) then 2 ^ d
        else if t < 4 * ((s.rd Reg.THM_WARM_FLOOR : Int) + 3) then 2 ^ d * bit (s.rd Reg.THM_WARMING) d else 0)).sum

/-- Stores the 106 readings of a sample: 32 pairs of hot-spot sensors, 12 pairs of stack sensors, 18 optical sensors. -/
def State.storeTemps (s : State) (t : List Nat) : State :=
  let s := (List.range 32).foldl (fun s n =>
    (s.wr Reg.THM_TA 0 n (t.getD (2 * n) 0x200)).wr Reg.THM_TB 0 n (t.getD (2 * n + 1) 0x200)) s
  let s := (List.range 12).foldl (fun s n =>
    (s.wr Reg.THM_STK_TA 0 n (t.getD (64 + 2 * n) 0x200)).wr Reg.THM_STK_TB 0 n (t.getD (65 + 2 * n) 0x200)) s
  (List.range 18).foldl (fun s k => s.wr Reg.THM_OPT_T 0 k (t.getD (88 + k) 0x200)) s

/-- The reading of sensor `i` of the 106. -/
def State.sensor (s : State) (i : Nat) : Int :=
  toSigned 10 (if i < 64 then (if i % 2 = 0 then s.rd Reg.THM_TA 0 (i / 2) else s.rd Reg.THM_TB 0 (i / 2))
    else if i < 88 then (if i % 2 = 0 then s.rd Reg.THM_STK_TA 0 ((i - 64) / 2) else s.rd Reg.THM_STK_TB 0 ((i - 64) / 2))
    else s.rd Reg.THM_OPT_T 0 (i - 88))

/-- The failed mark of sensor `i`. -/
def State.sensorFailed (s : State) (i : Nat) : Bool :=
  if i < 64 then (if i % 2 = 0 then s.rdB Reg.THM_FAIL_A 0 (i / 2) else s.rdB Reg.THM_FAIL_B 0 (i / 2))
  else if i < 88 then
    (if i % 2 = 0 then s.rdB Reg.THM_STK_FAIL_A 0 ((i - 64) / 2) else s.rdB Reg.THM_STK_FAIL_B 0 ((i - 64) / 2))
  else s.rdB Reg.THM_OPT_FAIL 0 (i - 88)

/-- Sets the failed mark of sensor `i`. -/
def State.setSensorFailed (s : State) (i : Nat) (b : Bool) : State :=
  if i < 64 then (if i % 2 = 0 then s.wrB Reg.THM_FAIL_A 0 (i / 2) b else s.wrB Reg.THM_FAIL_B 0 (i / 2) b)
  else if i < 88 then
    (if i % 2 = 0 then s.wrB Reg.THM_STK_FAIL_A 0 ((i - 64) / 2) b else s.wrB Reg.THM_STK_FAIL_B 0 ((i - 64) / 2) b)
  else s.wrB Reg.THM_OPT_FAIL 0 (i - 88) b

/-- The sensor that shares a spot with sensor `i`. -/
def twinOf (i : Nat) : Nat := if i % 2 = 0 then i + 1 else i - 1

/-- The condition of R315 holds for sensor `i` now: within 4 °C of its twin, or within PLAUS_LO of EXP_T without one. -/
def State.readmits (s : State) (exp : List Int) (i : Nat) : Bool :=
  if i < 88 then decide ((s.sensor i - s.sensor (twinOf i)).natAbs ≤ 16)
  else decide ((s.sensor i - exp.getD (i - 88) 0).natAbs ≤ 4 * s.rd Reg.THM_PLAUS_LO)

/-- SENSOR_SAMPLE: the readings of one sample, the expected temperatures of the optical engines, and the model's estimate with the
warming load, R310, R311, R315, R321. The shutdown request of R311 is made when TJ_MAX reaches 105 °C, and again only after it has been
below 100 °C; SD_REQ returns to 0 at any reading below 100 °C, one that a leak set too (DEDUCED, log entry 22). -/
def State.sensorSample (s : State) (t : List Nat) (exp : List Int) (warmEst : Nat) : State :=
  let s := s.storeTemps t
  let s : State := { s with hearth := { s.hearth with
    goodRun := (List.range 106).filterMap (fun i =>
      if s.sensorFailed i && s.readmits exp i then some (i, min 100000 (SMap.get 0 s.hearth.goodRun i + 1)) else none)
    trips := s.hearth.trips.filterMap (fun x =>
      if (s.hotReadings x.1).any (fun t => decide (400 ≤ t)) then some (x.1, 0)
      else if x.2 + 1 < 10000 then some (x.1, x.2 + 1) else none) } }
  let tj := s.hottest
  let s := match tj with
    | none => s
    | some x => (s.wr0 Reg.THM_TJ_MAX (ofSigned 10 x.1)).wr0 Reg.THM_TJ_SRC x.2
  let hot := (tj.any (fun (x : Int × Nat) => decide (380 ≤ x.1))) || s.opticalAt 320 || s.singleHot
  let cool := (tj.all (fun (x : Int × Nat) => decide (x.1 < 372))) && !s.opticalAt 312
  let s : State := { s with hearth := { s.hearth with coolRun := if cool then min 500 (s.hearth.coolRun + 1) else 0 } }
  let s :=
    if hot then
      let s : State := { s with hearth := { s.hearth with thermal := min floorPlace (s.hearth.place + 1) } }
      if s.rd Reg.THM_THROTTLE = 1 then s else ((s.wr0 Reg.THM_THROTTLE 1).occur 0x006 0 none 0).protect 0
    else if 500 ≤ s.hearth.coolRun ∧ s.rd Reg.THM_THROTTLE = 1 then
      (({ s with hearth := { s.hearth with thermal := 0 } } : State).wr0 Reg.THM_THROTTLE 0).protect 1
    else s
  let tooHot := tj.any (fun (x : Int × Nat) => decide (420 ≤ x.1))
  let under := tj.all (fun (x : Int × Nat) => decide (x.1 < 400))
  let s :=
    if tooHot && !s.hearth.sdHot then
      ((((s.wr0 Reg.THM_SD_REQ 1).occur 0x006 1 none 0).event 0x0031 5 0x006 (s.rd Reg.THM_TJ_MAX)).protect 4).trayNote
    else if under && s.rd Reg.THM_SD_REQ == 1 then
      let s := ((s.wr0 Reg.THM_SD_REQ 0).protect 5).trayNote
      { s with pins := { s.pins with alertLow := false } }
    else s
  let s : State := { s with hearth := { s.hearth with sdHot := tooHot || (s.hearth.sdHot && !under), warmEst := warmEst } }
  let s := s.settleHearth
  s.wr0 Reg.THM_WARMING s.warmNext

/-- SENSOR_DISAGREE: hot spot `n`'s readings have differed by more than 4 °C for 2 s, or by 4 °C or less for 2 s, R313. -/
def State.sensorDisagree (s : State) (n : Nat) : State :=
  if 16 < (s.sensor (2 * n) - s.sensor (2 * n + 1)).natAbs then
    if s.rdB Reg.THM_DISAGREE 0 n then s
    else ((s.wr Reg.THM_DISAGREE 0 n 1).occur 0x006 3 none 0).count 0x006 2 1
  else s.wr Reg.THM_DISAGREE 0 n 0

/-- The coolant data are fresh, R316. -/
def State.fresh (s : State) : Bool := s.rd Reg.PWR_HB_LOST == 0 && decide (s.rd Reg.PWR_HB_AGE < 2000)

/-- Sensor `i` is implausible, R314; the one that holds the higher reading in a disagreement never is. With the expected temperature `expT` of its region in quarter degrees. -/
def State.implausible (s : State) (i : Nat) (expT : Int) : Bool :=
  let r := s.sensor i
  let disagree := decide (i < 64) && s.rdB Reg.THM_DISAGREE 0 (i / 2)
  !(disagree && decide (s.sensor (twinOf i) < r)) &&
    (decide (r < -160) || decide (500 < r)
      || (s.fresh && decide (r < toSigned 10 (s.rd Reg.THM_T_IN) - 8))
      || (disagree && decide (r < s.sensor (twinOf i)) && decide (r < expT - 4 * s.rd Reg.THM_PLAUS_LO)))

/-- SENSOR_FAIL: an implausible sensor is marked failed; an unmonitored region raises SENSOR_LOST and sets REPLACE_REQ, R314. -/
def State.sensorFail (s : State) (i : Nat) (expT : Int) : State :=
  if decide (i < 106) && !s.sensorFailed i && s.implausible i expT then
    let s := (s.setSensorFailed i true).occur 0x006 4 none 0
    let gone := if i < 88 then s.sensorFailed (twinOf i) else true
    let s := if gone then (s.occur 0x006 5 none 0).replaceReq 0x006 5 else s
    s.settleHearth
  else s

/-- SENS_CLR: re-admits every failed sensor that has met the condition of R315 for 10 s, 100,000 samples. -/
def State.sensClr (s : State) : State :=
  let s := (List.range 106).foldl (fun s i =>
    if s.sensorFailed i && decide (100000 ≤ SMap.get 0 s.hearth.goodRun i) then s.setSensorFailed i false else s) s
  s.settleHearth

/-! ### Coolant, R316 to R319 -/

/-- The implied flow in 0.01 L/min, where T_out − T_in is 2 °C or more, R318. -/
def State.impliedFlow (s : State) : Option Nat :=
  let dt := toSigned 10 (s.rd Reg.THM_T_OUT) - toSigned 10 (s.rd Reg.THM_T_IN)
  if dt < 8 ∨ s.rd Reg.THM_COOL_CP = 0 then none
  else
    let l := s.hearth.pin.take 1000
    if l.isEmpty then some 0 else some (l.sum * 24000 / (l.length * (s.rd Reg.THM_COOL_CP * dt.toNat)))

/-- Freroso's default derate table, Table 11-4. -/
def derateDefault : List (Nat × Nat) := [(100, 900), (200, 1700), (300, 2500), (400, 3200), (500, 3600)]

/-- The derate table in flash, or the default, R317. -/
def State.derateTable (s : State) : List (Nat × Nat) :=
  match SMap.find s.flash.active 3 with
  | none => derateDefault
  | some c => (List.range (leNat (c.body.take 2))).map (fun i =>
      (leNat ((c.body.drop (2 + 4 * i)).take 2), leNat ((c.body.drop (4 + 4 * i)).take 2)))

/-- The piecewise-linear derate at a flow, R317. -/
def derateAt : List (Nat × Nat) → Nat → Nat
  | [], _ => 0
  | [p], _ => p.2
  | p :: q :: r, f =>
    if f ≤ p.1 then p.2
    else if f < q.1 then ((p.2 : Int) + ((f - p.1 : Nat) : Int) * ((q.2 : Int) - p.2) / ((q.1 - p.1 : Nat) : Int)).toNat
    else derateAt (q :: r) f

/-- A sudden stop or a leak moves the package to the floor; a leak sends the shutdown request, R319. -/
def State.sudden (s : State) (leak : Bool) : State :=
  let s := ((s.wr0 Reg.THM_SUDDEN 1).occur 0x006 (if leak then 8 else 7) none 0).count 0x006 3 1
  let s := s.protect 2
  if leak then
    ((s.wr0 Reg.THM_SD_REQ 1).event 0x0031 5 0x006 (s.rd Reg.THM_TJ_MAX + 2 ^ 32)).trayNote
  else s

/-- RSEQ: the tray's pending values are applied together, Hearth timestamps them, and evaluates flow, derate and the sudden
stop, R316 to R319, R340. -/
def State.rseq (s : State) : State :=
  if !s.i3cUp then s
  else
    let v := fun i => SMap.get 0 s.soh.trayPend i
    let leaked := s.rd Reg.THM_LEAK == 1
    let s := s.count 0x008 2 1
    let s := (((s.wr0 Reg.THM_T_IN (v 0x10)).wr0 Reg.THM_T_OUT (v 0x11)).wr0 Reg.THM_FLOW (v 0x12)).wr0 Reg.THM_LEAK (v 0x13)
    let tc := v 0x14
    let s := s.wr0 Reg.PWR_TRAYCAP (if tc = 0 then 0 else if tc < 120 then 120 else tc)
    let s := ((s.wr0 Reg.PWR_HB_AGE 0).wr0 Reg.PWR_HB_LOST 0).trayNote
    let flow := s.rd Reg.THM_FLOW
    let used := s.impliedFlow.elim flow (fun q => min flow q)
    let s := (s.wr0 Reg.THM_FLOW_USED used).wr0 Reg.THM_DERATE_CAP (derateAt s.derateTable used)
    let out := s.rd Reg.THM_T_OUT
    let before := s.hearth.outHist[9]?
    let rose := before.any (fun b => decide (8 < toSigned 10 out - toSigned 10 b))
    let s : State := { s with hearth := { s.hearth with outHist := (out :: s.hearth.outHist).take 100 } }
    let leak := s.rd Reg.THM_LEAK == 1
    let stop := decide (5 * used < s.rd Reg.THM_NOM_FLOW) || rose
    let s := if stop && !s.hearth.stopOn then s.sudden false else s
    let s := if leak && !leaked then s.sudden true else s
    ({ s with hearth := { s.hearth with stopOn := stop } } : State).settleHearth

/-- FLOW_IMPLAUS: reported flow above implied flow by more than 30 % for 2 s, or by 30 % or less for 2 s, R318. -/
def State.flowImplaus (s : State) : State :=
  match s.impliedFlow with
  | none => s
  | some q =>
    if 13 * q < 10 * s.rd Reg.THM_FLOW then
      if s.rd Reg.THM_IMPLAUS = 1 then s else (s.wr0 Reg.THM_IMPLAUS 1).occur 0x006 6 none 0
    else s.wr0 Reg.THM_IMPLAUS 0

/-- The outlet has risen by no more than 1.0 °C in any second of the last 100 reading sets, R319. -/
def stableOutlet (l : List Nat) : Bool :=
  (List.range l.length).all (fun i => match l[i]?, l[i + 10]? with
    | some a, some b => decide (toSigned 10 a - toSigned 10 b ≤ 4)
    | _, _ => true)

/-- SUDDEN_RELEASE: after 10 s of adequate flow, a stable outlet and no leak SUDDEN returns to 0, R319. -/
def State.suddenRelease (s : State) : State :=
  if s.rd Reg.THM_SUDDEN = 1 ∧ 40 * s.rd Reg.THM_NOM_FLOW ≤ 100 * s.rd Reg.THM_FLOW_USED ∧ s.rd Reg.THM_LEAK = 0
      ∧ stableOutlet s.hearth.outHist then
    ((s.wr0 Reg.THM_SUDDEN 0).protect 3).settleHearth
  else s

/-- HB_LOST: the coolant data are 2 s old, R316. -/
def State.hbLost (s : State) : State :=
  if s.rd Reg.PWR_HB_LOST = 1 then s
  else
    let s : State := { s with hearth := { s.hearth with safeCap := s.rd Reg.PWR_EFF_CAP * s.hearth.lim.safePct / 100 } }
    let s := (s.wr0 Reg.PWR_HB_LOST 1).wr0 Reg.PWR_HB_AGE (max 2000 (s.rd Reg.PWR_HB_AGE))
    ((s.occur 0x004 4 none 0).trayNote).settleHearth

/-- The condition of R306 on a COMMIT that carries operating limits, for transaction `t`. -/
def State.limitsOk (s : State) (t : Nat) : Bool :=
  let cap := s.after t Reg.PWR_CAP 0 0
  let win := s.after t Reg.PWR_WINDOW 0 0
  let safe := s.after t Reg.PWR_SAFE_PCT 0 0
  let peak := s.after t Reg.PWR_PEAK 0 0
  decide (120 ≤ cap) && decide (cap ≤ 360) && decide (1 ≤ win) && decide (win ≤ 16) && decide (30 ≤ safe)
    && decide (safe ≤ 100) && decide (150 ≤ peak) && decide (peak ≤ 396) && decide (s.after t Reg.PWR_SSD_PCT 0 0 ≤ 50)

end Sys2Proof.Machine
end

