-- ==== Sys2Proof/Machine/Security.lean ====
section
/-! DEFINITION. Lifecycle, attestation, sealing and unsealing (R351 to R360). The results of the asymmetric ciphers, which the
spec names and does not give (SLH-DSA verdicts and signatures, the ML-KEM shared key), come with the commands; digests, HMAC
and AES-GCM are computed. -/

namespace Sys2Proof.Machine

open Sys2Proof

/-! ### Unsealing, R359 -/

/-- Contexts of a partition not FREE, NOPEN. -/
def State.nOpen (s : State) (p : Nat) : Nat := ((ctxsOf p).filter (fun c => s.cstate c != 0)).length

/-- The end of an unsealing: memories zeroed, MK and shard list erased, SEALED cleared and UNSEALED logged. -/
def State.unsealNow (s : State) (p : Nat) : State :=
  let s := (s.stacksOf p).foldl (fun s n => (s.zeroStack n).wr Reg.MEM_ZEROING n 0 0) s
  let s := (s.tilesOf p).foldl (fun s t => s.zeroPantry t) s
  let s : State := { s with sec := { s.sec with sealed := SMap.del s.sec.sealed p, unsealing := s.sec.unsealing.filter (fun q => q != p) } }
  (s.wr Reg.CFG_PART_SEALED 0 p 0).event 0x0021 4 0x007 p

/-- A seal or unseal request is refused with a code, R355. -/
def State.sealRefuse (s : State) (p code : Nat) : State :=
  let s : State := { s with sec := { s.sec with sealing := none } }
  let s := (((s.wr0 Reg.SEC_SEAL_STATE 3).wr0 Reg.SEC_SEAL_CODE code).wr0 Reg.SEC_PART_WAIT 0).wr0 Reg.SEC_NPART 0
  (s.event 0x0022 1 0x007 (p + 2 ^ 32 * code)).occur 0x007 0 none 0

/-- Parts of a manifest have been taken and more are awaited, R356. -/
def State.partsOpen (s : State) : Bool :=
  match s.sec.sealing with
  | some x => !x.last
  | none => false

/-- The parts taken are discarded with CODE PARTS, R356. -/
def State.partsAbandon (s : State) : State :=
  match s.sec.sealing with
  | some x => if x.last then s else s.sealRefuse x.part 8
  | none => s

/-- SEAL_PART_TIMEOUT: 10 s without a further part, R356. -/
def State.sealPartTimeout (s : State) : State := if s.partsOpen then s.partsAbandon else s

/-- UNSEAL_GO: refused with LIVE while a context of the partition is not FREE; else zeroing starts, R359. -/
def State.unsealGo (s : State) : State :=
  let s := s.partsAbandon
  let p := s.rd Reg.SEC_SEAL_PART
  if s.nOpen p ≠ 0 then s.sealRefuse p 5
  else
    let s := (s.stacksOf p).foldl (fun s n => s.wr Reg.MEM_ZEROING n 0 1) s
    if s.sec.unsealing.contains p then s else { s with sec := { s.sec with unsealing := s.sec.unsealing ++ [p] } }

/-- UNSEAL_DONE: the oldest unsealing in progress ends. -/
def State.unsealDone (s : State) : State :=
  match s.sec.unsealing with
  | [] => s
  | p :: _ => s.unsealNow p

/-! ### Sealing, R355 and R356 -/

/-- A map change that is shadowed in an open package transaction changes the dies of partition `p`, R360. -/
def State.shadowMapTouches (s : State) (p : Nat) : Bool :=
  match SMap.find s.shadow (0x001 * 1024 + 0x180 / 4) with
  | none => false
  | some (_, v) => diesOfMap (v % 8) p != s.diesOf p

/-- SEAL_GO with SEAL_MORE: takes the manifest or a part of it from staging, R355, R356, R360. -/
def State.sealGo (s : State) (more : Bool) : State :=
  let p := s.rd Reg.SEC_SEAL_PART
  let len := s.rd Reg.SEC_SEAL_LEN
  let old := s.sec.sealing
  if old.any (fun x => !x.last && x.part != p) then s.partsAbandon
  else if old.any (fun x => x.last) then s
  else if s.shadowMapTouches p then s.sealRefuse p 5
  else if len = 0 ∨ 2097152 < len then s.sealRefuse p 1
  else
    let b := s.staging.readBytes (64 * s.rd Reg.SEC_SEAL_SRC) len
    let all := old.elim b (fun x => x.bytes ++ b)
    let s : State := { s with sec := { s.sec with sealing := some ⟨p, all, !more⟩ } }
    let s := (s.wr0 Reg.SEC_SEAL_STATE 1).wr0 Reg.SEC_SEAL_CODE 0
    if more then (s.wr0 Reg.SEC_NPART (s.rd Reg.SEC_NPART + 1)).wr0 Reg.SEC_PART_WAIT 1
    else s.wr0 Reg.SEC_PART_WAIT 0

/-- The layout of a manifest, Table 12-12: TAG, LAYOUT, the counts and the length. -/
def manifestOk (m : List Byte) : Bool :=
  let w := fun i => leNat ((m.drop (4 * i)).take 4)
  decide (128 ≤ m.length) && w 0 == 0x4E414D53 && w 1 == 1 && decide (1 ≤ w 3) && decide (w 3 ≤ 1024)
    && decide (1 ≤ w 4) && decide (w 4 ≤ 65535) && decide (m.length = 128 + 1632 * w 3 + 48 * w 4 + 17088)

/-- The device entry of a manifest that names `dev`, by its number. -/
def manifestEntry (m : List Byte) (ndev dev : Nat) : Option Nat :=
  (List.range ndev).find? (fun i => leNat ((m.drop (128 + 1632 * i)).take 16) == dev)

/-- SEAL_DONE: steps 3 and 4 of R355. `sig` is the verdict on the owner's signature and `k` the ML-KEM shared key that the
device's key gives for its own entry's ciphertext. -/
def State.sealDone (s : State) (sig : Bool) (k : List Byte) : State :=
  match s.sec.sealing with
  | none => s
  | some x =>
    if !x.last then s
    else
      let p := x.part
      let m := x.bytes
      let w := fun i => leNat ((m.drop (4 * i)).take 4)
      if !manifestOk m then s.sealRefuse p 1
      else if !sig then s.sealRefuse p 2
      else
        match manifestEntry m (w 3) s.flash.deviceId with
        | none => s.sealRefuse p 3
        | some i =>
          let e := (m.drop (128 + 1632 * i)).take 1632
          let wmk := (e.drop 1584).take 32
          let modelId := (m.drop 20).take 16
          let iv := modelId.take 12
          if gcmTag k iv (modelId ++ leBytes 16 s.flash.deviceId) wmk ≠ (e.drop 1616).take 16 then s.sealRefuse p 4
          else if s.nOpen p ≠ 0 then s.sealRefuse p 5
          else if s.flash.lifecycle ≠ 1 then s.sealRefuse p 6
          else if s.isSealed p then s.sealRefuse p 7
          else
            let base := 128 + 1632 * w 3
            let shards := (List.range (w 4)).map (fun j =>
              let q := (m.drop (base + 48 * j)).take 48
              (⟨leNat (q.take 4), leNat ((q.drop 4).take 4), leNat (q.drop 16)⟩ : Shard))
            let mdig := sha256 m
            let info : SealInfo := ⟨gcmCrypt k iv wmk, digNat mdig, w 2, modelId, (m.drop 36).take 32, shards⟩
            let s : State := { s with sec := { s.sec with sealing := none, sealed := SMap.put s.sec.sealed p info } }
            let s := (s.wr0 Reg.SEC_SEAL_STATE 2).wr0 Reg.SEC_NPART 0
            let s := (s.wr Reg.CFG_PART_SEALED 0 p 1).count 0x007 1 1
            s.event 0x0020 4 0x007 (p + 2 ^ 32 * leNat (mdig.take 4))

/-! ### Lifecycle, R352 -/

/-- LC_RETURN: the staged token names a DEVICE_ID and an ATT_COUNT, and `sig` is the verdict on its signature. A valid token
unseals every partition and moves PRODUCTION to RETURNED; any other is refused. A partition with open contexts is unsealed too, since
R352 names no condition beside the token (DEDUCED, log entry 23). -/
def State.lcReturn (s : State) (dev cnt : Nat) (sig : Bool) : State :=
  if s.flash.lifecycle = 1 ∧ dev = s.flash.deviceId ∧ cnt = s.flash.attCount ∧ sig then
    let s := (List.range 4).foldl (fun s p => if s.isSealed p then s.unsealNow p else s) s
    ({ s with flash := { s.flash with lifecycle := 2 } } : State).event 0x0051 2 0x007 2
  else s.occur 0x007 3 none 0

/-! ### Attestation, R353 and R354 -/

/-- ATT_CERT: copies the vendor certificate to ATT_DST, R353. -/
def State.attCert (s : State) : State :=
  { s with staging := s.staging.writeBytes (64 * s.rd Reg.SEC_ATT_DST) s.flash.cert }

/-- A section of a report, Table 12-11: the word of KIND and length, then the entries. -/
def attSection (kind : Nat) (entries : List Byte) : List Byte := leBytes 4 (kind + 2 ^ 8 * entries.length) ++ entries

/-- The partitions that a report's scope covers. -/
def State.scopeParts (s : State) (scope : Nat) : List Nat :=
  (List.range 4).filter (fun p => s.partPresent p && (scopeAll scope || scope % 4 == p))

/-- Section FIRMWARE: one entry a component, digests of the active and the pending copy. -/
def State.attFirmware (s : State) : List Byte :=
  [1, 2, 3, 4, 5].flatMap (fun c =>
    let a := SMap.find s.flash.active c
    let p := SMap.find s.flash.pend c
    leBytes 4 c ++ leBytes 4 (a.elim 0 (fun x => x.version)) ++ leBytes 4 (a.elim 0 (fun x => x.svn))
      ++ leBytes 4 (if c = 1 then s.flash.slot else 0)
      ++ leBytes 32 (a.elim 0 (fun x => x.digest)) ++ leBytes 32 (p.elim 0 (fun x => x.digest)))

/-- Section PROGRAMS: contexts in scope whose program is active. `names` gives the digests of the curves and user rules that a
context names. -/
def State.attPrograms (s : State) (names : Nat → List Nat) (ps : List Nat) : List Byte :=
  (ps.flatMap ctxsOf).flatMap (fun c =>
    if s.rd Reg.CTX_LOAD_STATE c = 2 then
      leBytes 4 c ++ leBytes 4 (s.rd Reg.CTX_STEP_NUM c) ++ leBytes 32 (s.ctx c).loadDig
        ++ leBytes 4 (names c).length ++ (names c).flatMap (fun d => leBytes 32 d)
    else [])

/-- Section SEALS: sealed partitions in scope. -/
def State.attSeals (s : State) (ps : List Nat) : List Byte :=
  ps.flatMap (fun p =>
    match SMap.find s.sec.sealed p with
    | none => []
    | some i => leBytes 4 p ++ leBytes 32 i.mdig ++ i.modelId ++ leBytes 4 i.kepoch ++ sha256 i.ownerPk)

/-- Section SHARDS: regions in scope that are LANDED with HASH = 1. `dig` gives a region's shard digest. -/
def State.attShards (s : State) (dig : Nat → Nat → Nat) (ps : List Nat) : List Byte :=
  (ps.flatMap s.stacksOf).flatMap (fun n => (List.range 64).flatMap (fun r =>
    if s.rdB Reg.LR_VALID n r && s.rdB Reg.LR_HASH n r && s.rd Reg.LR_STATE n r == 2 then
      leBytes 4 n ++ leBytes 4 r ++ leBytes 4 (s.rd Reg.LR_CTX n r) ++ leBytes 4 (s.rd Reg.LR_TAG n r)
        ++ leBytes 4 (s.rd Reg.LR_LLEN n r) ++ leBytes 32 (dig n r)
    else []))

/-- Section COUNTS: CE, UC and FT totals and REPLACE_REQ. -/
def State.attCounts (s : State) : List Byte :=
  [0, 1, 2].flatMap (fun n => leBytes 8 (s.rd Reg.CNT_N 0x002 n)) ++ leBytes 4 (s.rd Reg.FLT_REPLACE_REQ)

/-- The report before its signature, Tables 12-10 and 12-11. -/
def State.attReport (s : State) (names : Nat → List Nat) (dig : Nat → Nat → Nat) (scope : Nat) : List Byte :=
  let ps := s.scopeParts scope
  let secs := attSection 1 s.attFirmware ++ attSection 2 (s.attPrograms names ps) ++ attSection 3 (s.attSeals ps)
    ++ attSection 4 (s.attShards dig ps) ++ attSection 5 s.attCounts
  let sealMask := ((List.range 4).map (fun p => 2 ^ p * s.rd Reg.CFG_PART_SEALED 0 p)).sum
  let strap := s.rd Reg.GLB_STRAP_LOC_X + 4 * s.rd Reg.GLB_STRAP_LOC_Y + 16 * s.rd Reg.GLB_STRAP_LOC_Z
    + 64 * s.rd Reg.GLB_STRAP_BLOCK + 2 ^ 16 * s.rd Reg.GLB_STRAP_VAR + 2 ^ 18 * s.rd Reg.GLB_STRAP_STRAP_BAD
  leBytes 4 0x54505241 ++ leBytes 4 (1 + 2 ^ 16 * 5) ++ leBytes 4 (128 + secs.length)
    ++ leBytes 4 (s.flash.lifecycle + 4 * scope + 2 ^ 5 * sealMask + 2 ^ 9 * s.pmap)
    ++ leBytes 4 s.flash.bootGen ++ leBytes 4 s.flash.attCount ++ leBytes 16 s.flash.deviceId
    ++ leBytes 32 (s.rd Reg.SEC_ATT_NONCE) ++ leBytes 4 0xB0814200 ++ leBytes 4 strap ++ leBytes 4 s.flash.minSvn
    ++ List.replicate 44 0 ++ secs

/-- The staging area in which a report of a scope may lie, R354, Table 12-2: start and length. -/
def attArea (scope : Nat) : Nat × Nat :=
  if scopeAll scope then (0x3000000, 0x800000) else (0x3800000 + 0x200000 * (scope % 4), 0x200000)

/-- ATT_GO by an agent whose session has scope `asker` (4 for an agent of the whole package): snapshots the package and starts
a report, or refuses it, R354. -/
def State.attGo (s : State) (names : Nat → List Nat) (dig : Nat → Nat → Nat) (asker : Nat) : State :=
  let scope := s.rd Reg.SEC_ATT_SCOPE
  let dst := 64 * s.rd Reg.SEC_ATT_DST
  let ar := attArea scope
  if s.flash.lifecycle = 3 ∨ dst < ar.1 ∨ ar.1 + ar.2 ≤ dst ∨ (asker < 4 ∧ scope ≠ asker) ∨ s.sec.report.isSome then
    (s.wr0 Reg.SEC_ATT_STATE 3).occur 0x007 2 none 0
  else
    let s := s.flashWrite (fun s => { s with flash := { s.flash with attCount := (s.flash.attCount + 1) % 2 ^ 32 } })
    let b := s.attReport names dig scope
    ({ s with sec := { s.sec with report := some (b, dst) } } : State).wr0 Reg.SEC_ATT_STATE 1

/-- ATT_DONE: the report and its signature are written and ATT_STATE becomes DONE, R354. -/
def State.attDone (s : State) (sig : List Byte) : State :=
  match s.sec.report with
  | none => s
  | some (b, dst) =>
    let all := b ++ sig
    let s : State := { s with staging := s.staging.writeBytes dst all, sec := { s.sec with report := none } }
    ((s.wr0 Reg.SEC_ATT_LEN all.length).wr0 Reg.SEC_ATT_STATE 2).count 0x007 0 1

end Sys2Proof.Machine
end

