-- ==== Sys2Proof/Machine/Porch.lean ====
section
/-! DEFINITION. Porch: sessions and their messages (R277 to R281), bulk transfers (R287, R288), completion records (R289, R290), the
opening of contexts (R291), dispatch and the step (R32, R33, R37, R285, R286), and the Ethernet side of a host port. -/

namespace Sys2Proof.Machine

open Sys2Proof

/-- The page of a host port. -/
def hstPage (p : Nat) : Nat := 0x10 + p

/-- `a` is older than `b` by serial arithmetic. -/
def older (a b : Nat) : Bool := newer b a

/-! ### Transfers: their ends -/

/-- Transfer `xid` of a session. -/
def State.xfer (s : State) (p n xid : Nat) : Option Xfer := s.xfers.find? (fun x => x.port == p && x.sess == n && x.xid == xid)

/-- Puts a changed transfer back. -/
def State.putXfer (s : State) (x : Xfer) : State :=
  { s with xfers := s.xfers.map (fun y => if y.port == x.port && y.sess == x.sess && y.xid == x.xid then x else y) }

/-- The completion record of a transfer; a context in FREE keeps no ring. -/
def State.xferRecord (s : State) (x : Xfer) (status : Nat) : State :=
  if s.cstate x.ctx = 0 then s
  else s.report x.ctx ⟨⟨3, status, x.xid + 2 ^ 16 * x.sess, s.rd Reg.CTX_STEP_NUM x.ctx, x.moved, x.hbuf, 0, 0⟩, 0⟩

/-- A transfer ends with a status: its engine is free, its waiting landing writes are dropped. -/
def State.xferEnd (s : State) (x : Xfer) (status : Nat) : State :=
  let s : State := { s with
    xfers := s.xfers.filter (fun y => !(y.port == x.port && y.sess == x.sess && y.xid == x.xid))
    landQ := s.landQ.filter (fun w => w.writer != .bulk x.port x.sess x.xid) }
  s.xferRecord x status

/-- Every transfer that `q` selects ends with a status. -/
def State.xfersEnd (s : State) (q : Xfer → Bool) (status : Nat) : State :=
  (s.xfers.filter q).foldl (fun (s : State) (x : Xfer) => s.xferEnd x status) s

/-- Bytes that a transfer moves: its own count, the counters of its port and context, and the progress of its engine, which counts
every 256 B that the engine moves, whatever the transfer, R294. -/
def State.xferMoved (s : State) (x : Xfer) (n : Nat) : State × Xfer :=
  let k := 8 * x.port + x.engine.getD 0
  let step := (SMap.get 0 s.xeRest k + n) / 256
  let s : State := { s with xeRest := SMap.set 0 s.xeRest k ((SMap.get 0 s.xeRest k + n) % 256) }
  let s := (s.count (hstPage x.port) (if x.write then 4 else 5) n).count (0x300 + x.ctx) 7 n
  let s := x.engine.elim s (fun e => (s.addF Reg.HST_XE_PROG x.port e step).advanced (hstPage x.port) e)
  (s.progress (hstPage x.port) step, { x with moved := x.moved + n })

/-! ### Sessions -/

/-- A SESSION message on an open session: its kind and cause, with the package's first SEQ, Table 10-3. -/
def State.sendSession (s : State) (p n kind cause : Nat) : State :=
  match s.session p n with
  | none => s
  | some x => { s with hostOut := s.hostOut ++ [.session p n kind (s.rd Reg.HST_S_SCOPE p n) cause x.firstTx (s.addrOf p n x) (s.headOf p n)] }

/-- An OPEN is refused with a cause: the answer goes to where it came from. It names session 0 and SEQ 0, and acknowledges nothing
beyond the SEQ of the OPEN (DESIGN CHOICE, log entry 9: Table 10-3 gives these words no meaning in a REFUSED). -/
def State.refuseOpen (s : State) (m : Msg) (cause : Nat) : State :=
  { s with hostOut := s.hostOut ++ [.session m.port 0 4 (bits m.argA 6 4) cause 0
    ⟨m.sub, m.mac, m.vlan, m.v6, m.addr, m.udp⟩ ⟨m.seq, 0, s.rxWindow m.port⟩] }

/-- A session closes, R281, R414: its transfers end with TRUNCATED, its messages are dropped, CPL_BIND of every context that names
it is cleared, its open transaction rolls back. -/
def State.sessClose (s : State) (p n : Nat) : State :=
  let s := s.xfersEnd (fun x => x.port == p && x.sess == n) 5
  let s := allCtxs.foldl (fun s c =>
    if s.rd Reg.CTX_CPL_SESS c = n ∧ s.rd Reg.CTX_CPL_PORT c = p then s.wr Reg.CTX_CPL_BIND c 0 0 else s) s
  let s := s.rollBackIf (fun s t => s.owns (.session p n) t)
  let s : State := { s with
    sess := SMap.del s.sess (32 * p + n), latches := s.latches.filter (fun l => l.agent != .session p n) }
  ([Reg.HST_S_OPEN, Reg.HST_S_SUB, Reg.HST_S_SCOPE, Reg.HST_S_UDP, Reg.HST_S_ADDR, Reg.HST_S_TXSEQ, Reg.HST_S_RXACK] : List Field).foldl
    (fun s f => s.rst f p n) s

/-- A session that the package closes: SESSION CLOSE with a cause, R280. -/
def State.sessDrop (s : State) (p n cause : Nat) : State :=
  (s.sendSession p n 3 cause).sessClose p n

/-- The allow table lets an address open a session of a scope, R278. -/
def State.allows (s : State) (p : Nat) (v6 : Bool) (addr scope : Nat) : Bool :=
  s.rd Reg.HST_ALLOW_EN p == 0 || (List.range 16).any (fun a =>
    s.rdB Reg.HST_AL_VALID p a && s.rdB Reg.HST_AL_V6 p a == v6
      && (if v6 then s.rd Reg.HST_AL_ADDR p a == addr else s.rd Reg.HST_AL_ADDR p a % 2 ^ 32 == addr % 2 ^ 32)
      && (scopeAll (s.rd Reg.HST_AL_SCOPE p a) || (!scopeAll scope && s.rd Reg.HST_AL_SCOPE p a == scope)))

/-- The link of a sub-port is up: of the whole port, sub-port 0. -/
def State.hstUp (s : State) (p sub : Nat) : Bool :=
  s.domainOn (74 + p) && (if sub = 0 then s.rdB Reg.HST_UP_A p else s.rdB Reg.HST_UP_B p && s.rdB Reg.HST_SPLIT p)

/-- Phase HUB has failed with NO_IMAGE: the boot ROM answers, R401. -/
def State.noImage (s : State) : Bool := s.rd Reg.GLB_FAIL == 1

/-- The open session of an endpoint on a port. -/
def State.sessOf (s : State) (m : Msg) : Option Nat :=
  (List.range 32).find? (fun n => s.sessOpen m.port n && s.rd Reg.HST_S_SUB m.port n == m.sub
    && s.rd Reg.HST_S_UDP m.port n == m.udp && s.rd Reg.HST_S_ADDR m.port n == m.addr
    && (s.session m.port n).any (fun x => x.v6 == m.v6))

/-- SESSION_OPEN, R278. The package's own first SEQ is an open value. -/
def State.sessionOpen (s : State) (m : Msg) : State :=
  let p := m.port
  let scope := bits m.argA 6 4
  let old := s.sessOf m
  let same := old.filter (fun n => (s.session p n).any (fun x => x.firstRx == m.seq))
  match same with
  | some n => s.sendSession p n 2 0
  | none =>
    let s := old.elim s (s.sessClose p)
    if s.noImage && !scopeAll scope then s.refuseOpen m 1
    else if !s.allows p m.v6 m.addr scope then s.refuseOpen m 1
    else match (List.range 32).find? (fun n => !s.sessOpen p n) with
      | none => s.refuseOpen m 2
      | some n =>
        let tx := (Config.freeWord s.free).toNat
        let s := s.tick
        let x : Session := { firstRx := m.seq, firstTx := tx, peerAck := tx, window := m.window, outq := [], v6 := m.v6, mac := m.mac
                             vlan := m.vlan, ip := m.addr, unacked := [], inbox := [], ackDue := false }
        let s : State := { s with sess := SMap.put s.sess (32 * p + n) x }
        let s := [(Reg.HST_S_OPEN, 1), (Reg.HST_S_SUB, m.sub), (Reg.HST_S_SCOPE, scope), (Reg.HST_S_UDP, m.udp), (Reg.HST_S_ADDR, m.addr),
          (Reg.HST_S_TXSEQ, tx), (Reg.HST_S_RXACK, m.seq)].foldl (fun s f => s.wr f.1 p n f.2) s
        s.sendSession p n 2 0

/-! ### Validity of a message, R277 -/

/-- The words 0 to 6 of a header, Table 10-2. -/
def Msg.header (m : Msg) : List Nat :=
  [m.ver + 2 ^ 4 * m.typ + 2 ^ 8 * m.session + 2 ^ 16 * m.len, m.seq, m.ack, m.sack, m.window + 2 ^ 16 * m.resv, m.argA, m.argB]

/-- BCRC over words 0 to 6, BCRC as 0, and the payload. -/
def Msg.crc (m : Msg) : Nat := crc32c (m.header.flatMap (leBytes 4) ++ List.replicate 4 0 ++ m.payload)

/-- The session kind of a SESSION message, and BKIND of a BULK message. -/
def Msg.skind (m : Msg) : Nat := bits m.argA 3 0
def Msg.bkind (m : Msg) : Nat := bits m.argA 19 16

/-- TYPE, reserved fields and LEN are valid in a message from a host, Tables 10-2 and 10-3. -/
def Msg.formOk (m : Msg) : Bool :=
  let l := m.payload.length
  m.resv == 0 && m.len == l && decide (l ≤ 8192) && decide (m.session < 32) &&
    match m.typ with
    | 1 => (m.skind == 1 || m.skind == 3) && bit m.argA 7 == 0 && m.argA / 2 ^ 16 == 0 && m.argB == 0 && l == 0
    | 2 => m.argA / 64 == 0 && l % 128 == 0 && decide (1 ≤ l)
    | 3 => m.argA == 0 && m.argB == 0 && l % 16 == 0 && decide (1 ≤ l)
    | 4 => m.argA / 2 ^ 20 == 0 && (match m.bkind with
      | 1 => l == 64 && m.argB == 0
      | 2 => decide (1 ≤ l)
      | 3 => l == 64 && m.argB == 0
      | _ => false)
    | 7 => m.argA == 0 && m.argB == 0 && l == 0 && m.seq == 0
    | _ => false

/-- A message is discarded and counted. -/
def State.msgDrop (s : State) (m : Msg) : State := s.count (hstPage m.port) 3 1

/-- MAC_A of a port. -/
def State.macOf (s : State) (p : Nat) : Nat := s.rd Reg.HST_MAC_LO p + 2 ^ 32 * s.rd Reg.HST_MAC_HI p

/-- The link-local address formed from a MAC address by modified EUI-64, as fe80::/64, first word in bits [31:0]. -/
def linkLocal (mac : Nat) : Nat :=
  0xFE800000 + 2 ^ 64 * (Nat.xor (mac / 2 ^ 24) 0x20000 * 256 + 0xFF) + 2 ^ 96 * (0xFE * 2 ^ 24 + mac % 2 ^ 24)

/-- A port answers at an address, R275: IPv6 at its link-local address and at IP6_ADDR if that is nonzero, IPv4 at IP4_ADDR while
V4_EN = 1. Both sub-ports answer at the same addresses. -/
def State.answersAt (s : State) (p : Nat) (v6 : Bool) (a : Nat) : Bool :=
  if v6 then a == linkLocal (s.macOf p) || (s.rd Reg.HST_IP6_ADDR p != 0 && a == s.rd Reg.HST_IP6_ADDR p)
  else s.rdB Reg.HST_V4_EN p && a == s.rd Reg.HST_IP4_ADDR p

/-- A message reaches a port: its link is up, and the message is sent to the sub-port's MAC address, an address of the port and its
UDP_PORT. -/
def State.msgHeard (s : State) (m : Msg) : Bool :=
  decide (m.port < 2) && decide (m.sub < 2) && s.hstUp m.port m.sub && m.dmac == s.macOf m.port + m.sub
    && s.answersAt m.port m.v6 m.dip && m.dport == s.rd Reg.HST_UDP_PORT m.port

/-! ### Reliability, R279 and R280 -/

/-- ACK_SEND: a receiver with nothing to send acknowledges, R279. -/
def State.ackSend (s : State) (p n : Nat) : State :=
  match s.session p n with
  | none => s
  | some x =>
    if !x.ackDue then s
    else { s with
      sess := SMap.put s.sess (32 * p + n) { x with ackDue := false }
      hostOut := s.hostOut ++ [.ack p n (s.addrOf p n x) (s.headOf p n)] }

/-- CPL_ACKED advances to a serial, R290. -/
def State.cplAck (s : State) (c v : Nat) : State :=
  if newer v (s.rd Reg.CTX_CPL_ACKED c) && !newer v (s.rd Reg.CTX_RSER_NEXT c) then s.wr Reg.CTX_CPL_ACKED c 0 v else s

/-- A numbered message of the package is sent again, R280. -/
def State.resend (s : State) (p n seq : Nat) : State :=
  match s.session p n with
  | none => s
  | some x => match x.unacked.find? (fun u => u.seq == seq) with
    | none => s
    | some u =>
      let s : State := { s with
        sess := SMap.put s.sess (32 * p + n)
          { x with unacked := x.unacked.map (fun v => if v.seq == seq then { v with sends := v.sends + 1, time := s.timeUs } else v), ackDue := false }
        hostOut := s.hostOut ++ [.numbered p n seq u.body (s.addrOf p n x) (s.headOf p n)] }
      s.count (hstPage p) 2 1

/-- RTO: a message not acknowledged in RTO_US is sent again; after 16 sends the session closes LOST, R280. -/
def State.rto (s : State) (p n seq : Nat) : State :=
  match (s.session p n).bind (fun x => x.unacked.find? (fun u => u.seq == seq)) with
  | none => s
  | some u => if 16 ≤ u.sends then (s.raise (hstPage p) 1 none n).sessDrop p n 4 else s.resend p n seq

/-- ACK, SACK and WINDOW of a header are taken: messages acknowledged leave, CPL messages among them advance CPL_ACKED, a message
passed by a later one is sent again, unless it has been within RTO_US, and the window may open, R279, R280, R290. -/
def State.ackIn (s : State) (p n : Nat) (m : Msg) : State :=
  match s.session p n with
  | none => s
  | some x =>
    let next := s.rd Reg.HST_S_TXSEQ p n
    let ack := if older x.peerAck m.ack && !newer m.ack next then m.ack else x.peerAck
    let sacked := fun (q : Nat) => let d := (q + 2 ^ 32 - (m.ack + 1) % 2 ^ 32) % 2 ^ 32; decide (d < 32) && bit m.sack d == 1
    let gone := x.unacked.filter (fun u => older u.seq ack || sacked u.seq)
    let left := x.unacked.filter (fun u => !(older u.seq ack || sacked u.seq))
    let passed := fun (q : Nat) => (List.range 32).any (fun k => bit m.sack k == 1 && newer (m.ack + 1 + k) q && older (m.ack + 1 + k) next)
    let late := left.filter (fun u => passed u.seq && (u.sends == 1 || decide (u.time + s.rd Reg.HST_RTO_US p ≤ s.timeUs)))
    let s : State := { s with sess := SMap.put s.sess (32 * p + n) { x with peerAck := ack, window := m.window, unacked := left } }
    let s := gone.foldl (fun (s : State) (u : Unacked) => match u.body with
      | .cpl c _ last => s.cplAck c ((last + 1) % 2 ^ 32)
      | _ => s) s
    let s := late.foldl (fun (s : State) (u : Unacked) => s.rto p n u.seq) s
    s.flushOut p n x.outq.length

/-- SESS_TMO: no valid message has come for SESS_TMO, R280. -/
def State.sessTmo (s : State) (p n : Nat) : State := if s.sessOpen p n then s.sessDrop p n 3 else s

/-! ### Scope, R282 -/

/-- A session may act for a context. -/
def State.sessMayCtx (s : State) (p n c : Nat) : Bool :=
  scopeAll (s.rd Reg.HST_S_SCOPE p n) || partOfCtx c == s.rd Reg.HST_S_SCOPE p n

/-- SCOPE_DENIED is raised on a session. -/
def State.deny (s : State) (p n : Nat) : State := s.raise (hstPage p) 5 none n

/-! ### Commands, R284 -/

/-- CMD: the commands of a message are placed in the queue of their context. -/
def State.cmdIn (s : State) (p n seq c first : Nat) (payload : List Byte) : State :=
  if !s.sessMayCtx p n c then s.deny p n
  else if s.cstate c ≠ 1 then (s.raise (hstPage p) 4 (some c) n).count (hstPage p) 3 1
  else if newer first (s.rd Reg.CTX_CSER_NEXT c) then (s.raise (hstPage p) 3 (some c) n).count (hstPage p) 3 1
  else
    let k := payload.length / 128
    let ws := toWords (32 * k) payload
    let cmds := (List.range k).map (fun i => ((ws.drop (32 * i)).take 32, (first + i) % 2 ^ 32))
    let step := fun (a : State × Bool) (e : List Nat × Nat) =>
      if a.2 || e.2 ≠ a.1.rd Reg.CTX_CSER_NEXT c then a
      else if a.1.qfree c = 0 then (a.1.raise (hstPage p) 2 (some c) n, true)
      else
        let x := a.1.ctx c
        ((a.1.setCtx c { x with queue := x.queue ++ [⟨e.1, e.2, p, n, seq⟩] }).wr Reg.CTX_CSER_NEXT c 0 (e.2 + 1), false)
    (cmds.foldl step (s, false)).1

/-! ### Bulk transfers, R287 and R288 -/

/-- The area of the staging buffer that `n` bytes from `a` lie in: 0 update image, 1 exports, 2 + p a partition's. -/
def stageArea (a n : Nat) : Option Nat :=
  if a + n ≤ 0x3000000 then some 0
  else if 0x3000000 ≤ a ∧ a + n ≤ 0x3800000 then some 1
  else ((List.range 4).find? (fun p => inStagePart p a n)).map (· + 2)

/-- A session may move the bytes of a staging area, R334. -/
def State.stagingOk (s : State) (p n : Nat) (write : Bool) (a len : Nat) : Bool :=
  let scope := s.rd Reg.HST_S_SCOPE p n
  match stageArea a len with
  | none => false
  | some 0 => scopeAll scope && !(write && s.rd Reg.UPD_STATE == 2)
  | some 1 => scopeAll scope && !write && !s.noImage
  | some k => (scopeAll scope || scope == k - 2) && !s.noImage

/-- The transfer that a descriptor asks for, Table 10-6. -/
def toXfer (m : Msg) (n : Nat) : Xfer :=
  let w := toWords 16 m.payload
  let tgt := wfield w 0 1 0
  { port := m.port, sess := n, xid := bits m.argA 15 0, write := m.bkind == 1, tgt := tgt, tagged := wfield w 0 2 2 == 1
    isSealed := wfield w 0 3 3 == 1, ctx := wfield w 0 9 4
    addr := w.getD 1 0 + (if tgt = 0 then 2 ^ 32 * wfield w 2 7 0 else 0)
    len := w.getD 3 0, tag := w.getD 4 0, ptile := wfield w 5 7 0, peg := wfield w 5 13 8, amount := wfield w 5 21 14
    hbuf := w.getD 6 0, hofs := w.getD 7 0 + 2 ^ 32 * w.getD 8 0, seq := m.seq, engine := none, held := [], placed := [], served := []
    moved := 0, sentAll := false, stream := [], chunks := [] }

/-- The descriptor keeps Table 10-6, and R357 where it is sealed. -/
def State.descOk (s : State) (m : Msg) (x : Xfer) : Bool :=
  let w := toWords 16 m.payload
  wfield w 0 31 10 == 0 && wfield w 2 31 8 == 0 && wfield w 5 31 22 == 0 && (w.drop 9).all (· == 0) && x.tgt != 3
    && decide (1 ≤ x.len) && (!x.tagged || (x.tgt == 0 && x.write))
    && (!x.isSealed || (x.write && x.tgt == 0 && x.tagged && s.isSealed (partOfCtx x.ctx)
      && (s.regionAt x.addr).any (fun r => s.rdB Reg.LR_HASH (stackOf x.addr) r && s.regionBase (stackOf x.addr) r == x.addr
        && x.len == s.rd Reg.LR_LLEN (stackOf x.addr) r * 65536)))

/-- Every byte of a transfer lies where R287 asks. -/
def State.xferInRange (s : State) (x : Xfer) : Bool :=
  match x.tgt with
  | 0 => s.inRegions x.ctx false 80 x.addr x.len
      && (!x.tagged || ((s.regionAt x.addr).any (fun r =>
        let st := stackOf x.addr
        s.rdB Reg.LR_TAGGED st r && (x.addr - s.regionBase st r) % 65536 == 0 && x.len % 65536 == 0
          && decide (x.addr + x.len ≤ s.regionBase st r + 65536 * s.rd Reg.LR_LLEN st r))))
  | 1 => s.present x.ptile && (s.slotOf (s.phys x.ptile) x.ctx).any (fun n => s.inAlloc (s.phys x.ptile) n x.addr x.len)
  | _ => s.stagingOk x.port x.sess x.write x.addr x.len

/-- WDESC and RREQ: a transfer is accepted, and waits for an engine, or is refused, R287, R292. After NO_IMAGE only writes into the
update image area are accepted, R401. -/
def State.descIn (s : State) (n : Nat) (m : Msg) : State :=
  let x := toXfer m n
  if s.noImage then
    (if x.write && x.tgt == 2 && s.descOk m x && (s.xfer m.port n x.xid).isNone && s.xferInRange x then
      { s with xfers := s.xfers ++ [x] } else s)
  else if !s.sessMayCtx m.port n x.ctx then s.deny m.port n
  else if s.cstate x.ctx = 2 then s.xferRecord x 7
  else if !s.descOk m x || (s.xfer m.port n x.xid).isSome || s.cstate x.ctx != 1 then s.xferRecord x 1
  else if !x.write && decide (x.tgt < 2) && s.isSealed (partOfCtx x.ctx) then s.xferRecord x 3
  else if !s.xferInRange x then s.xferRecord x 2
  else { s with xfers := s.xfers ++ [x] }

/-- What became of a landing write of a transfer: served, held, or the transfer ends. -/
def State.xferLanded (s : State) (p n xid off : Nat) (r : Landed) (w : LandWrite) : State :=
  match s.xfer p n xid with
  | none => s
  | some x => match r with
    | .waits => { s with landQ := s.landQ ++ [w] }
    | .refused b => ((if badAddr w.addr then s else s.occur (0x40 + stackOf w.addr) b (some w.ctx) 0)).xferEnd x (if b = 8 then 4 else 2)
    | .done =>
      let q := s.xferMoved { x with served := x.served ++ [(off, 65536)] } 65536
      q.1.putXfer q.2

/-- A chunk of a transfer goes to its landing, R149; for a sealed shard the landing knows which entry it is to match, R357. -/
def State.xferLand (s : State) (x : Xfer) (i : Nat) (data : List Byte) (shard : Option Nat) : State :=
  let a := x.addr + 65536 * i
  let w : LandWrite := ⟨x.ctx, a, x.tag, data, .bulk x.port x.sess x.xid⟩
  let r := s.landWrite w
  let s := match r.2, shard, r.1.regionAt a with
    | .done, some no, some rg =>
      let k := 64 * stackOf a + rg
      if (r.1.landing k).held then r.1.setLanding k { r.1.landing k with shard := some no } else r.1
    | _, _, _ => r.1
  s.xferLanded x.port x.sess x.xid (65536 * i) r.2 w

/-- The intervals of a transfer's data that have come. -/
def Xfer.came (x : Xfer) : List (Nat × Nat) := x.placed.map (fun w => (w.2.1, w.2.2))

/-- The bytes from `a` up to `b` have all come. -/
def Xfer.has (x : Xfer) (a b : Nat) : Bool := covers x.came a b (x.placed.length + 1)

/-- A sealed chunk: authenticated, decrypted and landed, or the transfer ends with SEALED, R357. -/
def State.sealedChunk (s : State) (x : Xfer) (i : Nat) : State :=
  match SMap.find s.sec.sealed (partOfCtx x.ctx) with
  | none => s
  | some info =>
    let hd := x.stream.readBytes 0 16
    let at_ := 16 + 65552 * i
    let ct := x.stream.readBytes at_ 65536
    let key := hmac256 info.key (ascii "BVQ-SHARD" ++ info.modelId)
    let iv := hd.take 4 ++ beBytes 4 i ++ List.replicate 4 0
    if gcmTag key iv hd ct = x.stream.readBytes (at_ + 65536) 16 then
      s.xferLand x i (gcmCrypt key iv ct) (some (beNat (hd.take 4)))
    else (s.raise 0x007 1 (some x.ctx) 0).xferEnd x 3

/-- The header of a sealed shard stream names an entry of the manifest with its length. -/
def State.shardOk (s : State) (x : Xfer) : Bool :=
  let hd := x.stream.readBytes 0 16
  (SMap.find s.sec.sealed (partOfCtx x.ctx)).any (fun i => i.shards.any (fun sh =>
    sh.no == beNat (hd.take 4) && sh.llen == beNat ((hd.drop 4).take 4))) && beNat ((hd.drop 4).take 4) * 65536 == x.len

/-- A landing write of a transfer waits, and holds the transfer, R149: it places nothing more until the write has been served. -/
def State.xferHeld (s : State) (x : Xfer) : Bool := s.landQ.any (fun w => w.writer == .bulk x.port x.sess x.xid)

/-- The chunks of a landing or sealed transfer whose bytes have all come go on, in ascending order. -/
def State.xferChunks (s : State) (p n xid : Nat) (cand : List Nat) : State :=
  cand.foldl (fun s i =>
    match s.xfer p n xid with
    | none => s
    | some x =>
      if s.xferHeld x then s else
      let size := if x.isSealed then 65552 else 65536
      let at_ := if x.isSealed then 16 + size * i else size * i
      if x.chunks.contains i || !x.has at_ (at_ + size) || (x.isSealed && !x.has 0 16) then s
      else
        let x := { x with chunks := x.chunks ++ [i] }
        let s := s.putXfer x
        if x.isSealed then (if s.shardOk x then s.sealedChunk x i else s.xferEnd x 1)
        else s.xferLand x i (x.stream.readBytes at_ size) none) s

/-- WDATA of a running transfer is placed at its offset, R288. -/
def State.placeData (s : State) (x : Xfer) (seq ofs : Nat) (data : List Byte) : State :=
  let n := data.length
  let total := if x.isSealed then 16 + x.len / 65536 * 65552 else x.len
  let put := fun (s : State) =>
    let q := s.xferMoved { x with placed := x.placed ++ [(seq, ofs, n)], served := x.served ++ [(ofs, n)] } n
    q.1.putXfer q.2
  if total < ofs + n then s.xferEnd x 2
  else if x.tagged then
    let y := { x with placed := x.placed ++ [(seq, ofs, n)], stream := x.stream.writeBytes ofs data }
    let size := if x.isSealed then 65552 else 65536
    let cand := if x.isSealed && decide (ofs < 16) then List.range (x.len / 65536)
      else (List.range ((ofs + n) / size + 1)).drop (ofs / size - 1)
    let s := s.putXfer y
    if x.isSealed && y.has 0 16 && !s.shardOk y then s.xferEnd y 1
    else s.xferChunks x.port x.sess x.xid (cand.filter (fun i => decide (i < x.len / 65536)))
  else match x.tgt with
    | 0 =>
      let a := x.addr + ofs
      if s.bridgeDown (dieOfStack (stackOf a)) 4 then s.raise (0x60 + dieOfStack (stackOf a)) 3 (some x.ctx) 4
      else match s.larderCheck x.ctx 1 80 a n with
        | some b => (if badAddr a then s else s.occur (0x40 + stackOf a) b (some x.ctx) (chanOf a)).xferEnd x 2
        | none => put (s.larderPutFor x.ctx a data)
    | 1 =>
      let t := s.phys x.ptile
      if !s.present x.ptile || !(s.slotOf t x.ctx).any (fun k => s.inAlloc t k (x.addr + ofs) n) then s.xferEnd x 2
      else if s.bridgeDown (dieOfTile t) 4 then s.raise (0x60 + dieOfTile t) 3 (some x.ctx) 4
      else put (s.pantryPut t (x.addr + ofs) data)
    | _ =>
      if s.stagingOk x.port x.sess true (x.addr + ofs) n then
        put { s with staging := s.staging.writeBytes (x.addr + ofs) data }
      else s.xferEnd x 2

/-- WDATA of a transfer: placed, or held while the transfer waits for an engine or for a landing write of its own, R288, R149. -/
def State.placeOrHold (s : State) (p n xid : Nat) (d : Nat × Nat × List Byte) : State :=
  match (s.xfer p n xid).filter (fun x => x.write) with
  | none => s
  | some x =>
    if x.engine.isSome && !s.xferHeld x && x.held.isEmpty then s.placeData x d.1 d.2.1 d.2.2
    else s.putXfer { x with held := x.held ++ [d] }

/-- WDATA of a session. Data of no transfer is dropped. -/
def State.wdataIn (s : State) (n : Nat) (m : Msg) : State := s.placeOrHold m.port n (bits m.argA 15 0) (m.seq, m.argB, m.payload)

/-- A transfer that has been given its engine, or whose landing write has been served, goes on: chunks that are whole, then data held. -/
def State.xferGo (s : State) (p n xid : Nat) : State :=
  match s.xfer p n xid with
  | none => s
  | some x =>
    if !x.write then s
    else
      let s := if x.tagged && !x.placed.isEmpty then s.xferChunks p n xid (List.range (x.len / 65536)) else s
      match s.xfer p n xid with
      | none => s
      | some y => if s.xferHeld y then s else y.held.foldl (fun (s : State) d => s.placeOrHold p n xid d) (s.putXfer { y with held := [] })

/-- The transfer engine of a port is fenced. -/
def State.xeFenced (s : State) (p e : Nat) : Bool := s.isFenced (hstPage p) e

/-- The source of a read transfer: its bytes, or the status that ends it. -/
def State.xferSource (s : State) (x : Xfer) : State × Except Nat (List Byte) :=
  match x.tgt with
  | 0 =>
    let d := dieOfStack (stackOf x.addr)
    if s.bridgeDown d 4 then (s.raise (0x60 + d) 3 (some x.ctx) 4, .error 7)
    else match s.larderCheck x.ctx 0 80 x.addr x.len with
      | some b => (if badAddr x.addr then s else s.occur (0x40 + stackOf x.addr) b (some x.ctx) (chanOf x.addr), .error 2)
      | none => match s.larderGet (some x.ctx) x.addr x.len with
        | (s, some l) => (s, .ok l)
        | (s, none) => (s, .error 6)
  | 1 =>
    let t := s.phys x.ptile
    if !s.present x.ptile || !(s.slotOf t x.ctx).any (fun k => s.inAlloc t k x.addr x.len) then (s, .error 2)
    else if s.bridgeDown (dieOfTile t) 4 then (s.raise (0x60 + dieOfTile t) 3 (some x.ctx) 4, .error 7)
    else match s.pantryGet t x.addr x.len with
      | (s, some l) => (s, .ok l)
      | (s, none) => (s, .error 6)
  | _ => (s, .ok (s.staging.readBytes x.addr x.len))

/-- A read transfer reads its source and sends RDATA, 8,192 B a message. -/
def State.readRun (s : State) (x : Xfer) : State :=
  match s.xferSource x with
  | (s, .error st) => s.xferEnd x st
  | (s, .ok l) =>
    let q := s.xferMoved { x with sentAll := true } l.length
    let s := q.1.putXfer q.2
    (List.range ((l.length + 8191) / 8192)).foldl (fun s i =>
      s.sendNum x.port x.sess (.rdata x.xid (8192 * i) ((l.drop (8192 * i)).take 8192))) s

/-- TRANSFER_START: the oldest waiting transfer of a port takes its lowest free engine, R288, R419. -/
def State.transferStart (s : State) (p : Nat) : State :=
  if 2 ≤ p ∨ s.rdB Reg.PAGE_DRAIN (hstPage p) ∨ !s.powered (hstPage p) then s
  else
    let busy := fun e => s.xfers.any (fun x => x.port == p && x.engine == some e)
    match s.xfers.find? (fun x => x.port == p && x.engine.isNone), (List.range 8).find? (fun e => !busy e && !s.xeFenced p e && (s.recLane (hstPage p) e).isNone) with
    | some x, some e =>
      let y := { x with engine := some e }
      let s := s.putXfer y
      if x.write then s.xferGo p x.sess x.xid else s.readRun y
    | _, _ => s

/-- Some RDATA of a transfer is not yet acknowledged. -/
def State.rdataOpen (s : State) (x : Xfer) : Bool :=
  let mine := fun (b : NBody) => match b with
    | .rdata xid _ _ => xid == x.xid
    | _ => false
  (s.session x.port x.sess).any (fun y => y.unacked.any (fun u => mine u.body) || y.outq.any mine)

/-- TRANSFER_COMPLETE: every byte has been served at its destination, or every RDATA acknowledged; the peg post comes first, then
the record, R288. -/
def State.transferComplete (s : State) (p n xid : Nat) : State :=
  match s.xfer p n xid with
  | none => s
  | some x =>
    if x.write then
      if !covers x.served 0 x.len (x.served.length + 1) then s
      else
        let s := if x.tgt = 1 ∧ x.amount ≠ 0 ∧ s.present x.ptile then s.postPeg (s.phys x.ptile) x.ctx x.peg x.amount else s
        let s := if x.tgt = 2 then s.updCovered x.addr x.len else s
        s.xferEnd { x with moved := x.len } 0
    else if x.sentAll && !s.rdataOpen x then s.xferEnd x 0 else s

/-- LANDING_WRITE: a landing write reaches its arrival point, Table 6-5. A transfer ends where its write is refused. -/
def State.landingWrite (s : State) (w : LandWrite) : State :=
  match w.writer with
  | .bulk p n xid =>
    match s.xfer p n xid with
    | none => s
    | some x =>
      let r := s.landWrite w
      r.1.xferLanded p n xid (w.addr - x.addr) r.2 w
  | _ => s.landIn w

/-- LANDING_RESUME: the `k`-th waiting landing write proceeds once Table 6-5 lets it. -/
def State.landingResume (s : State) (k : Nat) : State :=
  match s.landQ[k]? with
  | none => s
  | some w => match w.writer with
    | .bulk p n xid =>
      match s.landWrite w with
      | (s, .waits) => s
      | (s, r) =>
        let s : State := { s with landQ := s.landQ.eraseIdx k }
        let s := s.landQuiet w
        match s.xfer p n xid with
        | none => s
        | some x => (s.xferLanded p n xid (w.addr - x.addr) r w).xferGo p n xid
    | _ => s.landResume k

/-! ### Dispatch and the step -/

/-- WDATA of the delivering session older than a command has not been placed, or its writes not yet served, R285. -/
def State.bulkBefore (s : State) (c : Cmd) : Bool :=
  s.xfers.any (fun x => x.port == c.port && x.sess == c.sess && x.write &&
    (x.held.any (fun h => older h.1 c.seq) || x.placed.any (fun w => older w.1 c.seq &&
      !(if x.isSealed then (List.range (x.len / 65536)).all (fun i =>
          decide (16 + 65552 * (i + 1) ≤ w.2.1) || decide (w.2.1 + w.2.2 ≤ 16 + 65552 * i)
            || covers x.served (65536 * i) (65536 * (i + 1)) (x.served.length + 1))
        else covers x.served w.2.1 (w.2.1 + w.2.2) (x.served.length + 1)))))

/-- Why the head command of a context waits, WHY of Table 10-10; 0 where it may be dispatched. -/
def State.headWhy (s : State) (c : Nat) : Nat :=
  let x := s.ctx c
  match x.queue with
  | [] => 0
  | h :: _ =>
    let prev := wfield h.words 0 8 8 == 1 && !x.pendCser.isEmpty
    let step := wfield h.words 0 7 0 == 1 && s.rdB Reg.CTX_EXEC_STEP_BUSY c
    if (prev || step) && !x.waiting.isEmpty then 5
    else if s.rdB Reg.CTX_QSTOP c then 4
    else if s.bulkBefore h then 3
    else if prev then 2
    else if step then 1
    else 0

/-- A transaction that is CHECKING or PREPARING changes a field or unit of a context, R413. -/
def State.txnHolds (s : State) (c : Nat) : Bool :=
  let p := partOfCtx c
  (List.range 5).any (fun t => decide (2 ≤ s.rd Reg.CFG_TXN_STATE 0 t) &&
    s.shadow.any (fun e => e.2.1 == t && (
      let page := shadowPage e.1
      match Block.ofPage page with
      | some .tile => (s.tilesOfCtx c).contains (page - 0x100) || (s.slotOf (page - 0x100) c).isSome
      | some .mem => s.partOfStack (page - 0x40) == p
      | some .stc => s.partOfStack (page - 0x50) == p
      | some .cir => true
      | some .cfg =>
        let off := e.1 % 1024 * 4
        if off < 0x120 then bit (s.rd Reg.CTX_SG_MASK c) ((off - 0x100) / 4) == 1
        else if 0x200 ≤ off then (off - 0x200) / 0x80 == p
        else true
      | some .upd => true
      | _ => false)))

/-- A command waits at the head of the queue, HEADWAIT. -/
def State.headWait (s : State) (c : Nat) : Bool :=
  match (s.ctx c).queue with
  | [] => false
  | h :: _ => s.headWhy c != 0 || s.cstate c != 1 || (wfield h.words 0 7 0 == 1 && s.txnHolds c)

/-- The reason to refuse a STEP, R33, R286, Table 10-8; 0 to accept it. Where several reasons hold, the first in the order of the DETAIL
codes is reported (DESIGN CHOICE, log entry 24: the spec gives no priority). The command says whether the batch of a PACKED context
holds a sequence longer than one token block. -/
def State.stepRefusal (s : State) (c : Nat) (w : List Nat) (long : Bool) : Nat :=
  let gs := s.groupsOf c
  let sizes := gs.map (fun g => s.rd Reg.CFG_SG_SIZE 0 g)
  let place := s.rd Reg.CTX_EXEC_PLACE c
  if gs.isEmpty || gs.any (fun g => s.rd Reg.CFG_SG_SIZE 0 g == 0 || !(s.groupTiles g).all s.present
      || !(s.groupTiles g).all (fun l => partOfDie s.pmap (dieOfLogical l) == partOfCtx c)) then 1
  else if place < 2 ∧ sizes.any (fun n => n != sizes.headD 0) then 2
  else if place = 1 ∧ sizes.headD 0 < 2 ^ s.rd Reg.CTX_EXEC_SPLIT_LOG c then 2
  else if place = 2 ∧ long then 3
  else if s.rd Reg.CTX_EXEC_NSEQ c = 0 then 4
  else if wfield w 0 9 9 = 1 ∧ w.getD 2 0 ≠ s.rd Reg.CTX_STEP_NUM c then 5
  else if s.rd Reg.CTX_LOAD_STATE c ≠ 2 then 6
  else 0

/-- The record of a command refused or done at dispatch. -/
def State.cmdRecord (s : State) (c kind status cser detail : Nat) : State :=
  s.report c ⟨⟨kind, status, cser, s.rd Reg.CTX_STEP_NUM c, 0, detail, 0, if kind = 1 then rateOf s.hearth.place else 0⟩, 0⟩

/-- Acceptance of a STEP, R32: STEP_BUSY, the start of the step, and the tiles of its groups. -/
def State.stepAccept (s : State) (c cser : Nat) : State :=
  let s := s.wr Reg.CTX_EXEC_STEP_BUSY c 0 1
  let s := s.setCtx c { s.ctx c with stepCser := cser, stepTime := s.timeUs, minRate := rateOf s.hearth.place, collFail := none }
  s.tilesStep c

/-- Reserved bits of a command, Table 10-5. -/
def cmdReserved (w : List Nat) : Bool :=
  wfield w 0 31 12 != 0 || !((w.drop 3).take 13).all (· == 0) || (wfield w 0 7 0 != 2 && !(w.drop 16).all (· == 0))

/-- The head command is dispatched once its conditions hold, R285, R286. `op` is the opcode that the command must have; none takes
any. -/
def State.dispatchHead (s : State) (c : Nat) (op : Option Nat) (long : Bool) : State :=
  let x := s.ctx c
  match x.queue with
  | [] => s
  | h :: r =>
    let o := wfield h.words 0 7 0
    if 64 ≤ c ∨ s.headWait c ∨ op.any (· != o) then s
    else
      let s := s.setCtx c { x with queue := r, pendCser := x.pendCser ++ [h.cser] }
      let s := s.count (hstPage h.port) 6 1
      let bad := cmdReserved h.words
      match o with
      | 1 =>
        let why := if bad then 7 else s.stepRefusal c h.words long
        if why = 0 then s.stepAccept c h.cser else s.cmdRecord c 1 1 h.cser why
      | 2 => if bad then s.collRecord c h.cser (h.words.drop 16) 11 0 else s.collQueue (wfield h.words 0 11 10) c h.cser (h.words.drop 16)
      | 3 => s.cmdRecord c 4 (if bad then 1 else 0) h.cser 0
      | _ => s.cmdRecord c 4 1 h.cser 0

/-- The end of a STEP waits for a ring slot. -/
def State.stepEnding (s : State) (c : Nat) : Bool := (s.ctx c).waiting.any (fun e => e.stepEnd != 0)

/-- A STEP ends with a status: its record, and with it STEP_BUSY and STEP_NUM, R37, R289. -/
def State.stepEnd (s : State) (c status detail cstat : Nat) : State :=
  let x := s.ctx c
  if s.rd Reg.CTX_EXEC_STEP_BUSY c = 0 ∨ s.stepEnding c then s
  else s.report c ⟨⟨1, status, x.stepCser, s.rd Reg.CTX_STEP_NUM c, (s.timeUs - x.stepTime) % 2 ^ 32, detail, cstat, x.minRate⟩,
    if status = 0 then 2 else 1⟩

/-- STEP_COMPLETE: every stage of the step has passed its last boundary, every collective bound to it has completed, and in TRAIN
mode every Starch update has written its copy, R37. -/
def State.stepComplete (s : State) (c : Nat) : State :=
  if 64 ≤ c ∨ !(s.tilesOfCtx c).all (fun t => s.tileReported t c) ∨ !(s.ctx c).collOpen.isEmpty ∨ (s.ctx c).collFail.isSome
      ∨ (s.rd Reg.CTX_EXEC_MODE c = 0 ∧ !s.starchDone c) then s
  else s.stepEnd c 0 0 0

/-- CPL_BIND written as 1: every record not consumed is sent, R290. -/
def State.cplBind (s : State) (c : Nat) : State :=
  let s := s.wr Reg.CTX_CPL_BIND c 0 1
  let a := s.rd Reg.CTX_CPL_ACKED c
  let n := (s.rd Reg.CTX_RSER_NEXT c + 2 ^ 32 - a) % 2 ^ 32
  if n = 0 then s
  else s.sendNum (s.rd Reg.CTX_CPL_PORT c) (s.rd Reg.CTX_CPL_SESS c)
    (.cpl c ((List.range n).map (fun i => s.rd Reg.CTX_REC c ((a + i) % 64))) ((a + n - 1) % 2 ^ 32))

/-! ### Opening a context -/

/-- Queue, serials, ring and counters of a context at their reset values, R291, R292, R429. -/
def State.ctxClear (s : State) (c : Nat) : State :=
  let s := s.setCtx c Ctx.empty
  let s := ([Reg.CTX_CSER_NEXT, Reg.CTX_RSER_NEXT, Reg.CTX_CPL_ACKED] : List Field).foldl (fun s f => s.rst f c 0) s
  let s := (List.range 64).foldl (fun s i => s.rst Reg.CTX_REC c i) s
  (List.range 8).foldl (fun s n => s.rst Reg.CNT_N (0x300 + c) n) s

/-- CTX_OPEN, R291: a FREE context of a present partition opens, unless its partition is being sealed, R355. -/
def State.ctxOpen (s : State) (c : Nat) : State :=
  if !s.ctxAssigned c || s.cstate c != 0 || s.sec.sealing.any (fun x => x.part == partOfCtx c) then s
  else ((s.ctxClear c).wr Reg.CTX_CSTATE c 0 1).eventCtx c 1

/-! ### The Ethernet side, R274 to R276 -/

/-- A sub-port's link goes down; LINK_DOWN where it was up, R295. -/
def State.hstDown (s : State) (p sub : Nat) : State :=
  let f := if sub = 0 then Reg.HST_UP_A else Reg.HST_UP_B
  if s.rdB f p then (s.wr f p 0 0).raise (hstPage p) 6 none 0 else s

/-- HST_LINK_DOWN. -/
def State.hstLinkDown (s : State) (p sub : Nat) : State := if p < 2 ∧ sub < 2 then s.hstDown p sub else s

/-- HST_LINK_UP: link training ends on an enabled port whose laser light and reference clock are there. -/
def State.hstLinkUp (s : State) (p sub : Nat) : State :=
  if 2 ≤ p ∨ 2 ≤ sub ∨ !s.rdB Reg.HST_EN p ∨ !s.domainOn (74 + p) ∨ (sub = 1 ∧ !s.rdB Reg.HST_SPLIT p) ∨ (SMap.find s.hdark p).isSome
      ∨ !s.boot.refHeld then s
  else s.wr (if sub = 0 then Reg.HST_UP_A else Reg.HST_UP_B) p 0 1

/-- A port that is dark for want of laser light comes back through link training, not as it was, once EN or SPLIT has changed. -/
def State.hstDarkDrop (s : State) (p : Nat) : State :=
  if (SMap.find s.hdark p).isSome then { s with hdark := SMap.put s.hdark p 0 } else s

/-- A write of EN: enabling starts link training, disabling takes the link down. -/
def State.hstEn (s : State) (p v : Nat) : State :=
  let s := s.wr Reg.HST_EN p 0 v
  if v = 0 then ((s.hstDown p 0).hstDown p 1).hstDarkDrop p else s

/-- A write of SPLIT: a change retrains the port and closes its sessions. -/
def State.hstSplit (s : State) (p v : Nat) : State :=
  if s.rd Reg.HST_SPLIT p = v then s
  else
    let s := (List.range 32).foldl (fun s n => if s.sessOpen p n then s.sessClose p n else s) s
    (((s.hstDown p 0).hstDown p 1).hstDarkDrop p).wr Reg.HST_SPLIT p 0 v

/-- HOST_LASER_LOW: a reading, in 0.1 dBm; below +16.0 dBm the port goes down, R276. -/
def State.hostLaserLow (s : State) (p lp : Nat) : State :=
  if 2 ≤ p ∨ !s.powered (hstPage p) then s
  else
    let s := (s.wr Reg.HST_LP p 0 lp).laserNote (4 * p)
    if decide (160 ≤ toSigned 10 lp) || (SMap.find s.hdark p).isSome then s
    else
      let s : State := { s with hdark := SMap.put s.hdark p (2 * s.rd Reg.HST_UP_A p + 4 * s.rd Reg.HST_UP_B p) }
      ((s.raise (hstPage p) 7 none 0).hstDown p 0).hstDown p 1

/-- HOST_LASER_RESTORE: a reading that has stayed at or above +17.5 dBm brings the port back up, R276. -/
def State.hostLaserRestore (s : State) (p lp : Nat) : State :=
  if 2 ≤ p ∨ !s.powered (hstPage p) then s
  else
    let s := (s.wr Reg.HST_LP p 0 lp).laserNote (4 * p)
    match SMap.find s.hdark p with
    | none => s
    | some up =>
      if decide (toSigned 10 lp < 175) then s
      else
        let s : State := { s with hdark := SMap.del s.hdark p }
        if s.rdB Reg.HST_EN p then (s.wr Reg.HST_UP_A p 0 (bit up 1)).wr Reg.HST_UP_B p 0 (bit up 2) else s

/-- ARP_ND_ECHO: 0 ARP, 1 IPv6 neighbour discovery, 2 ICMP echo, 3 ICMPv6 echo, asking an address, from an Ethernet address, VLAN tag
and IP address, to which the answer goes. Only the port's own addresses are answered for, R275. -/
def State.arpNdEcho (s : State) (p sub : Nat) (a : Ask) : State :=
  if 2 ≤ p ∨ 4 ≤ a.kind ∨ !s.hstUp p sub ∨ !s.answersAt p (a.kind % 2 == 1) a.asked then s
  else { s with hostOut := s.hostOut ++ [.answer p a.kind ⟨sub, a.mac, a.vlan, a.kind % 2 == 1, a.ip, 0⟩] }

end Sys2Proof.Machine
end

