-- ==== Sys2Proof/Machine/Views.lean ====
section
/-! DEFINITION. What a register word reads as (R5 to R9, R417, R418, R422): the fields held in the register file, the fields that
show other state, the windows, and the status window page (R430, Table 15-6). Reading has no side effect; the pop register and the
latch of R427 are in Bus.lean. -/

namespace Sys2Proof.Machine

open Sys2Proof

/-! ### The common header, Tables 15-2 to 15-4 -/

/-- ENGINE of PAGE_CAP. -/
def Block.isEngine : Block → Bool
  | .tile | .ce | .stc | .hst => true
  | _ => false

/-- FENCE of PAGE_CAP. -/
def Block.canFence : Block → Bool
  | .tile | .mem | .lnk | .sfb | .ce | .stc | .hst => true
  | _ => false

/-- CNT of PAGE_CAP: the owning chapter defines CNT_n. -/
def Block.hasCounters : Block → Bool
  | .glb | .cfg | .stw => false
  | _ => true

/-- TXN of PAGE_CAP: the page holds RWT fields, Table 14-7. -/
def Block.hasTxn : Block → Bool
  | .cfg | .tile | .mem | .stc | .cir | .lnk | .pwr | .soh | .upd => true
  | _ => false

/-- The block belongs to the hub. -/
def Block.onHub : Block → Bool
  | .ce | .lnk | .mem | .stc | .sfb | .tile => false
  | _ => true

/-- The engine of a page holds work for some context, BUSY of Table 15-4. -/
def State.pageBusy (s : State) (page : Nat) : Bool :=
  match Block.ofPage page with
  | some .tile =>
    let t := page - 0x100
    (s.tile t).stage.isSome || !(s.tile t).press.isEmpty || s.moves.any (fun m => m.tile == t)
  | some .ce => (List.range 16).any (fun n => s.rd Reg.SL_STATE (page - 0x20) n != 0)
  | some .stc => let x := s.starchAt (page - 0x50); x.run.isSome || !x.queue.isEmpty
  | some .hst => s.xfers.any (fun x => x.port == page - 0x10 && x.engine.isSome)
  | _ => false

/-- Some unit of the page is fenced. -/
def State.pageFenced (s : State) (page : Nat) : Bool := (List.range 8).any (fun u => s.isFenced page u)

/-- STATE of PAGE_STAT: 0 OFF, 1 INIT, 2 SERVICE, 3 HALTED, Table 15-4. -/
def State.pageState (s : State) (page : Nat) : Nat :=
  match Block.ofPage page with
  | none => 0
  | some b =>
    let phase := s.rd Reg.GLB_PHASE
    let testing := (List.range 5).any (fun l => s.rd Reg.HNG_RUNG 0 l == 2 && s.rd Reg.HNG_ENGINE 0 l == page)
    if !s.powered page then 0
    else if b.onHub then (if 1 ≤ phase then 2 else 1)
    else if s.rd Reg.FLT_HALTED = 1 ∧ (b = .tile ∨ b = .sfb) then 3
    else if testing then 1
    else match b with
      | .mem => if 3 ≤ phase then 2 else 1
      | .lnk => if s.rd Reg.LNK_STATE (page - 0x30) = 2 ∨ s.rd Reg.LNK_STATE (page - 0x30) = 5 then 1 else 2
      | _ => if 4 ≤ phase then 2 else 1

/-- The shadowed words of a page and the transaction that holds them, Table 14-9. -/
def State.pageShadow (s : State) (page : Nat) : List (Nat × (Nat × Nat)) := s.shadow.filter (fun e => shadowPage e.1 == page)

/-- What a field of the common header shows. -/
def State.viewCommon (s : State) (f : Field) (page i : Nat) : Nat :=
  match Block.ofPage page with
  | none => 0
  | some b =>
    let one := fun (x : Bool) => if x then 1 else 0
    if f = Reg.PAGE_TYPE then b.typeCode
    else if f = Reg.PAGE_INST then page - b.base
    else if f = Reg.PAGE_HASFLT then one !(catalogue b).isEmpty
    else if f = Reg.PAGE_ISENGINE then one b.isEngine
    else if f = Reg.PAGE_HASCNT then one b.hasCounters
    else if f = Reg.PAGE_HASTXN then one b.hasTxn
    else if f = Reg.PAGE_CANFENCE then one b.canFence
    else if f = Reg.PAGE_STATE then s.pageState page
    else if f = Reg.PAGE_BUSY then one (s.pageBusy page)
    else if f = Reg.PAGE_FENCED then one (s.pageFenced page)
    else if f = Reg.PAGE_DRAINED then one (s.rd Reg.PAGE_DRAIN page == 1 && !s.pageBusy page)
    else if (f = Reg.PROG_CNT ∨ f = Reg.PROG_WIN) ∧ !b.isEngine then 0
    else if f = Reg.SHADOW_HELD then one !(s.pageShadow page).isEmpty
    else if f = Reg.SHADOW_TXN then ((s.pageShadow page).headD (0, (0, 0))).2.1
    else if f = Reg.SHADOW_PWORDS then min 0xFFFF (s.pageShadow page).length
    else s.rd f page i

/-! ### Fields of the blocks -/

/-- LIVE of a group, Table 2-3: a context that names it has a step in progress or is bound to a tile of the group. -/
def State.groupLive (s : State) (g : Nat) : Bool :=
  allCtxs.any (fun c => bit (s.rd Reg.CTX_SG_MASK c) g == 1 && (s.rdB Reg.CTX_EXEC_STEP_BUSY c ||
    (s.groupTiles g).any (fun l => s.present l && (s.slotOf (s.phys l) c).isSome)))

/-- A field of a format entry, Tables 3-5 to 3-7: the fixed entries show their values, and LANE is that of a usable entry, R50. -/
def State.viewFmt (s : State) (f : Field) (i : Nat) : Nat :=
  let one := fun (x : Bool) => if x then 1 else 0
  let m := s.fmt (i / 16) (i % 16)
  if f = Reg.FMT_A_LANE then (if m.valid then m.lane.getD 0 else 0)
  else if 8 ≤ i % 16 then s.rd f 0 i
  else if f = Reg.FMT_A_VALID then one m.valid
  else if f = Reg.FMT_A_KIND then one m.int
  else if f = Reg.FMT_A_SIGN then one m.sign
  else if f = Reg.FMT_A_SUB then one m.sub
  else if f = Reg.FMT_A_WIDTH then m.width
  else if f = Reg.FMT_A_EXP_BITS then m.exp
  else if f = Reg.FMT_A_SIG_BITS then m.sig
  else if f = Reg.FMT_A_BIAS then m.bias
  else if f = Reg.FMT_A_SPECIAL then m.special
  else if f = Reg.FMT_B_BLOCK then m.block
  else if f = Reg.FMT_B_SCALE then m.scale
  else if f = Reg.FMT_B_SAT then one m.sat
  else s.rd f 0 i

/-- CFG page. -/
def State.viewCfg (s : State) (f : Field) (i : Nat) : Nat :=
  let one := fun (x : Bool) => if x then 1 else 0
  if f = Reg.CFG_SG_LIVE then one (s.groupLive i)
  else if f = Reg.CFG_SG_PART then partOfDie s.pmap (dieOfLogical (s.rd Reg.CFG_SG_FIRST 0 i))
  else if f = Reg.CFG_PART_PRESENT then one (s.partPresent i)
  else if f = Reg.CFG_PART_DIES then (s.diesOf i).foldl (fun m d => m + 2 ^ d) 0
  else if f = Reg.CFG_PART_NOPEN then s.nOpen i
  else if f = Reg.CFG_TXN_WORDS then (s.shadowOf i).length
  else if f.off = 0x200 ∨ f.off = 0x204 then s.viewFmt f i
  else s.rd f 0 i

/-- CTX page of context `c`. -/
def State.viewCtx (s : State) (f : Field) (c i : Nat) : Nat :=
  let one := fun (x : Bool) => if x then 1 else 0
  if f = Reg.CTX_SEALED then one (s.isSealed (partOfCtx c))
  else if f = Reg.CTX_QFREE then s.qfree c
  else if f = Reg.CTX_HEADWAIT then one (s.headWait c)
  else if f = Reg.CTX_WHY then s.headWhy c
  else s.rd f c i

/-- The pages that hold a set bit of an effective class, Table 13-18. -/
def State.pagesOfClass (s : State) (cls : Nat) : Nat :=
  ((List.range 0x340).filter (fun p => match Block.ofPage p with
    | none => false
    | some b => (catalogue b).any (fun x => bit (s.rd Reg.FLT_STAT p) x.1 == 1 && s.effClass p x.1 == cls))).length

/-- FSCAN: the lowest page at or above FSCAN_FROM with a set fault bit. -/
def State.fscan (s : State) : Option Nat :=
  (List.range 0x340).find? (fun p => decide (s.rd Reg.FLT_FSCAN_FROM ≤ p) && (Block.ofPage p).isSome && s.rd Reg.FLT_STAT p != 0)

/-- FLT page. -/
def State.viewFlt (s : State) (f : Field) : Nat :=
  if f = Reg.FLT_N_CE then s.pagesOfClass 0
  else if f = Reg.FLT_N_UC then s.pagesOfClass 1
  else if f = Reg.FLT_N_FT then s.pagesOfClass 2
  else if f = Reg.FLT_FSCAN_PAGE then s.fscan.getD 0
  else if f = Reg.FLT_FSCAN_HIT then (if s.fscan.isSome then 1 else 0)
  else s.rd f

/-- The pace word of lowest RATE received in the last 10 ms, with its sender, R266. -/
def State.paceMin (s : State) (d : Nat) : Option (Nat × Nat) :=
  ((List.range 32).flatMap (s.freshPaces d)).foldl
    (fun (b : Option (Nat × Nat)) x => match b with
      | none => some x
      | some m => if bits x.1 11 0 < bits m.1 11 0 then some x else some m) none

/-- CE page of die `d`. -/
def State.viewCe (s : State) (f : Field) (d i : Nat) : Nat :=
  let one := fun (x : Bool) => if x then 1 else 0
  let hold := SMap.find s.rooms (64 * d + s.rd Reg.CE_HOLD_SEL d)
  let heldOf := fun (g : Hold → Nat) => hold.elim 0 g
  if f = Reg.CE_BUSY then (List.range 16).foldl (fun m n => if s.rd Reg.SL_STATE d n = 0 then m else m + 2 ^ n) 0
  else if f = Reg.CE_HELD then (s.rooms.filter (fun h => h.1 / 64 == d)).length
  else if f = Reg.CE_PENDING then one ((List.range 16).any (fun n => decide (2 ≤ s.rd Reg.SL_STATE d n)))
  else if f = Reg.CE_PACE_MIN then (s.paceMin d).elim 0 Prod.fst
  else if f = Reg.CE_PACE_MIN_PKG then (s.paceMin d).elim 0 Prod.snd
  else if f = Reg.CE_PACE_MIN_VALID then one (s.paceMin d).isSome
  else if f = Reg.CE_HOLD_KEY then heldOf Hold.key
  else if f = Reg.CE_HOLD_FROM_PKG then heldOf Hold.pkg
  else if f = Reg.CE_HOLD_CTX then heldOf Hold.ctx
  else if f = Reg.CE_HOLD_ABORTED then heldOf (fun h => one h.aborted)
  else if f = Reg.CE_HOLD_VALID then one hold.isSome
  else if f = Reg.CE_HOLD_AGE_MS then heldOf (fun h => min 255 ((s.timeUs - h.time) / 1000))
  else if f = Reg.CE_HOLD_ASTATUS then heldOf Hold.status
  else if f = Reg.CE_HOLD_AOTHER then heldOf Hold.other
  else s.rd f d i

/-- HST page of a port. -/
def State.viewHst (s : State) (f : Field) (p i : Nat) : Nat :=
  if f = Reg.HST_NSESS then ((List.range 32).filter (fun n => s.sessOpen p n)).length
  else if f = Reg.HST_XBUSY then
    (List.range 8).foldl (fun m e => if s.xfers.any (fun x => x.port == p && x.engine == some e) then m + 2 ^ e else m) 0
  else s.rd f p i

/-- SOH page. -/
def State.viewSoh (s : State) (f : Field) : Nat :=
  let one := fun (x : Bool) => if x then 1 else 0
  let d := s.flash.dumps.getD (s.rd Reg.SOH_DUMP_SEL) Dump.empty
  let r := s.logRecord (s.rd Reg.SOH_LOG_SEL)
  if f = Reg.SOH_SLOT then s.flash.slot
  else if f = Reg.SOH_BOOT_GEN then s.flash.bootGen
  else if f = Reg.SOH_TRAY_HB then one (decide (s.rd Reg.PWR_HB_AGE < 2000))
  else if f = Reg.SOH_REQ then bits s.trayStatus 5 1
  else if f = Reg.SOH_LOG_NEXT then s.flash.logNext
  else if f = Reg.SOH_LOG_OLDEST then (s.flash.log.head?).elim s.flash.logNext EventRec.serial
  else if f = Reg.SOH_LOG_PRESENT then one r.isSome
  else if f = Reg.SOH_LOG_W then r.elim 0 EventRec.pack
  else if f = Reg.SOH_DUMP_PIN then one d.pinned
  else if f = Reg.SOH_DUMP_VALID then one d.valid
  else if f = Reg.SOH_DUMP_REDACTED then one d.redacted
  else if f = Reg.SOH_DUMP_SERIAL then d.serial
  else if f = Reg.SOH_CAL_ORIGIN then one s.flash.calUser
  else s.rd f

/-- UPD page: C_VER, C_SVN, PENDING and C_DIG of component `i + 1`. -/
def State.viewUpd (s : State) (f : Field) (i : Nat) : Nat :=
  let c := SMap.find s.flash.active (i + 1)
  let val := fun (g : Component → Nat) => c.elim 0 g
  if f = Reg.UPD_MIN_SVN then s.flash.minSvn
  else if f = Reg.UPD_C_VER then val Component.version
  else if f = Reg.UPD_C_SVN then val Component.svn
  else if f = Reg.UPD_PENDING then (if (SMap.find s.flash.pend (i + 1)).isSome then 1 else 0)
  else if f = Reg.UPD_C_DIG then val Component.digest
  else s.rd f 0 i

/-- SEC page. -/
def State.viewSec (s : State) (f : Field) : Nat :=
  if f = Reg.SEC_LIFECYCLE then s.flash.lifecycle
  else if f = Reg.SEC_DEVICE_ID then s.flash.deviceId
  else if f = Reg.SEC_ATT_COUNT then s.flash.attCount
  else if f = Reg.SEC_SEAL_MDIG then (SMap.find s.sec.sealed (s.rd Reg.SEC_SEAL_PART)).elim 0 SealInfo.mdig
  else s.rd f

/-- MEM page of a stack: the shard digest of the selected region while it is LANDED, R152. -/
def State.viewMem (s : State) (f : Field) (n i : Nat) : Nat :=
  let r := s.rd Reg.MEM_DIG_SEL n
  let valid := s.rd Reg.LR_STATE n r == 2 && s.rdB Reg.LR_HASH n r
  if f = Reg.MEM_DIG_VALID then (if valid then 1 else 0)
  else if f = Reg.MEM_DIG then (if valid then (s.landing (64 * n + r)).digest else 0)
  else s.rd f n i

/-- STC page of a stack: the digest of a user rule. -/
def State.viewStc (s : State) (f : Field) (n i : Nat) : Nat :=
  if f = Reg.STC_RDIG then (SMap.find (s.starchAt n).rules (s.rd Reg.STC_RDIG_SEL n)).elim 0 (fun b => digNat (sha256 b))
  else s.rd f n i

/-- A tile is bad, R405: by its fuse, by self-test or fence since the last cold bring-up. -/
def State.tileBad (s : State) (t : Nat) : Bool :=
  let d := dieOfTile t
  let k := t % 44
  bit (s.rd Reg.DARN_FUSE_LO 0 d + 2 ^ 32 * s.rd Reg.DARN_FUSE_HI 0 d) k == 1
    || bit (s.rd Reg.DARN_GROWN_LO 0 d + 2 ^ 32 * s.rd Reg.DARN_GROWN_HI 0 d) k == 1 || s.isFenced (0x100 + t) 0

/-- The good physical tiles of a die that serve no logical tile, SPARES_FREE. -/
def State.spares (s : State) (d : Nat) : List Nat :=
  ((List.range 44).map (fun k => 44 * d + k)).filter (fun t => !s.tileBad t && (s.logicalOf t).isNone)

/-- The absent logical tiles of a die, ABSENT; a tile that waits for its replacement is not counted before R406 has handled it. -/
def State.absent (s : State) (d : Nat) : Nat :=
  ((List.range 40).filter (fun l => !s.present (40 * d + l) && !s.rdB Reg.DARN_PENDING 0 (40 * d + l))).length

/-- DARN page. -/
def State.viewDarn (s : State) (f : Field) (i : Nat) : Nat :=
  if f = Reg.DARN_BAD then ((List.range 44).filter (fun k => s.tileBad (44 * i + k))).length
  else if f = Reg.DARN_SPARES_FREE then (s.spares i).length
  else if f = Reg.DARN_ABSENT then s.absent i
  else s.rd f 0 i

/-- TILE page as the host, Soholt and debug see it: PX_LAST, PX_COUNTS and PX_FLAGS of a sealed partition read 0, R69. -/
def State.viewTile (s : State) (f : Field) (t i : Nat) : Nat :=
  if s.isSealed (s.partOfTile t) ∧ 0x104 ≤ f.off ∧ f.off ≤ 0x10C then 0
  else s.rd f t i

/-- SFB page. -/
def State.viewSfb (s : State) (f : Field) (d i : Nat) : Nat :=
  if f = Reg.MCH_INUSE then (if (s.chanGroup d i).isSome then 1 else 0)
  else if f = Reg.MCH_GROUP then (s.chanGroup d i).elim 0 Prod.fst
  else if f = Reg.MCH_REPEAT then (s.chanGroup d i).elim 0 (fun x => if x.2 then 1 else 0)
  -- the end of a die to itself, Table 5-13
  else if 0x300 ≤ f.off ∧ f.off < 0x340 ∧ i = d then 0
  else s.rd f d i

/-- What a field shows. -/
def State.viewField (s : State) (f : Field) (inst i : Nat) : Nat :=
  match f.block with
  | .common => s.viewCommon f inst i
  | .cfg => s.viewCfg f i
  | .ctx => s.viewCtx f inst i
  | .flt => s.viewFlt f
  | .ce => s.viewCe f inst i
  | .hst => s.viewHst f inst i
  | .soh => s.viewSoh f
  | .upd => s.viewUpd f i
  | .sec => s.viewSec f
  | .mem => s.viewMem f inst i
  | .stc => s.viewStc f inst i
  | .darn => s.viewDarn f i
  | .tile => s.viewTile f inst i
  | .sfb => s.viewSfb f inst i
  | .thm => if f = Reg.THM_SINGLE then (if s.onOneSensor then 1 else 0) else s.rd f inst i
  | .cnt => if f = Reg.CNT_NSEL then ((List.range 64).filter (fun k => s.rdB Reg.CNT_SEL_VALID 0 k)).length else s.rd f inst i
  | .lnk => if f = Reg.LNK_OWN_ID_HI then s.ownIdHi else s.rd f inst i
  | .cir =>
    if f = Reg.CIR_NVALID then ((List.range 1024).filter (fun e => s.rdB Reg.CT_VALID 0 e)).length
    else if f = Reg.CIR_NOPEN then ((List.range 1024).filter (fun e => s.isEndpoint e
      && decide (1 ≤ s.cirState e) && decide (s.cirState e ≤ 4))).length
    else s.rd f inst i
  | .glb =>
    if f = Reg.GLB_VIN12_OK then (if s.pins.vin12Good then 1 else 0)
    else if f = Reg.GLB_VIO18_OK then (if s.pins.vio18Good then 1 else 0)
    else s.rd f inst i
  | _ => s.rd f inst i

/-- A word of a block from its fields; a WO field reads 0. -/
def State.blockWord (s : State) (b : Block) (inst off : Nat) : Nat :=
  ((wordFields b off).filter (fun x => x.1.acc ≠ .wo)).foldl
    (fun m x => m + fieldPart x.1 x.2.2 (s.viewField x.1 inst x.2.1)) 0

/-! ### The status window, Table 15-6 -/

/-- A word whose bit or field `i` of `w` bits is `f i`. -/
def packed (n w : Nat) (f : Nat → Nat) : Nat := (List.range n).foldl (fun m i => m + f i * 2 ^ (w * i)) 0

/-- Pages with a set fault bit, one bit a page, from page `32·w`. -/
def State.stwFpend (s : State) (w : Nat) : Nat :=
  packed 32 1 (fun b => if (Block.ofPage (32 * w + b)).isSome && s.rd Reg.FLT_STAT (32 * w + b) != 0 then 1 else 0)

/-- A word of the STW page. -/
def State.stwWord (s : State) (off : Nat) : Nat :=
  let w := off / 4
  if off = 0x100 then
    s.rd Reg.FLT_FT_LATCH + 2 * s.rd Reg.FLT_PAIR_FAULT + 4 * s.rd Reg.FLT_HALTED + 8 * s.rd Reg.FLT_REPLACE_REQ
      + 16 * s.rd Reg.THM_SD_REQ + 32 * s.rd Reg.PWR_CAP_UNREACHABLE + 64 * s.rd Reg.PWR_HB_LOST
      + 128 * s.rd Reg.THM_THROTTLE + 2 ^ 8 * s.rd Reg.GLB_PHASE + 2 ^ 11 * s.rd Reg.GLB_BUSY + 2 ^ 12 * s.rd Reg.PWR_OPT
      + 2 ^ 15 * s.rd Reg.PWR_DUTY + 2 ^ 17 * s.rd Reg.PWR_LIMITER + 2 ^ 21 * s.rd Reg.SOH_RESTARTING
  else if off = 0x104 then s.pagesOfClass 0 + 2 ^ 10 * s.pagesOfClass 1 + 2 ^ 20 * s.pagesOfClass 2
  else if off = 0x108 then packed 5 3 (fun l => s.rd Reg.HNG_RUNG 0 l)
  else if off = 0x110 ∨ off = 0x114 then packed 32 1 (fun b => s.rd Reg.CTX_EXEC_STEP_BUSY (32 * (w - 0x44) + b))
  else if off = 0x118 ∨ off = 0x11C then packed 32 1 (fun b => if s.cstate (32 * (w - 0x46) + b) = 0 then 0 else 1)
  else if off = 0x120 ∨ off = 0x124 then packed 8 4 (fun k => s.rd Reg.LNK_STATE (8 * (w - 0x48) + k))
  else if 0x200 ≤ off ∧ off < 0x268 then s.stwFpend (w - 0x80)
  else if 0x300 ≤ off ∧ off < 0x400 then s.rd Reg.CTX_STEP_NUM (w - 0xC0)
  else if 0x400 ≤ off ∧ off < 0x500 then s.rd Reg.CTX_RSER_NEXT (w - 0x100)
  else 0

/-! ### A word of the register space -/

/-- The word at byte offset `off` of a page, as a read by the host returns it; unmapped pages and reserved offsets read 0, R6,
R417. An unpowered block answers with PAGE_ID, PAGE_CAP and PAGE_STAT alone, R422. -/
def State.word (s : State) (page off : Nat) : Nat :=
  match Block.ofPage page with
  | none => 0
  | some b =>
    if off < 0x100 then
      (if s.powered page ∨ off = 0 ∨ off = 4 ∨ off = 0xC then s.blockWord .common page off else 0)
    else if !s.powered page then 0
    else match b with
      | .stw => s.stwWord off
      | .cir =>
        if 0x110 ≤ off ∧ off < 0x140 then
          (wordFields .cte (0x30 * s.rd Reg.CIR_CT_SEL + (off - 0x110))).foldl
            (fun m x => m + fieldPart x.1 x.2.2 (s.rd x.1 0 x.2.1)) 0
        else s.blockWord b 0 off
      | b => s.blockWord b (page - b.base) off

end Sys2Proof.Machine
end

