-- ==== Sys2Proof/Machine/Recovery.lean ====
section
/-! DEFINITION. What the fault controller does to the package: captures (R381), the context scrub (R385), the release of a context,
fences (R372, R373), the halt (R376) and the conditions of held faults (R450). The ladder and the settling of a command's faults are
in Ladder.lean. -/

namespace Sys2Proof.Machine

open Sys2Proof

/-! ### Capture, R381, Table 13-9 -/

/-- The words of a page from one offset up to another, with their addresses. -/
def State.pageWords (s : State) (page lo hi : Nat) : List (Nat × Nat) :=
  (List.range ((hi - lo) / 4)).map (fun i => (page * 4096 + lo + 4 * i, s.word page (lo + 4 * i)))

/-- The faults section. -/
def State.captureFaults (s : State) : List (Nat × Nat) :=
  ((List.range 0x340).filter (fun p => (Block.ofPage p).isSome && s.rd Reg.FLT_STAT p != 0)).flatMap (fun p =>
    s.pageWords p 0x10 0x14 ++ s.pageWords p 0x1C 0x24)
  ++ s.pageWords 0x002 0 0x140 ++ s.pageWords 0x003 0 0x200

/-- The section of one suspect. -/
def State.captureCtx (s : State) (c : Nat) : List (Nat × Nat) :=
  s.pageWords (0x300 + c) 0x100 0x300
  ++ (s.tilesOfCtx c).flatMap (fun t =>
    let p := tilePage t
    s.pageWords p 0x100 0x104 ++ s.pageWords p 0x110 0x114 ++ s.pageWords p 0x118 0x11C ++ s.pageWords p 0x180 0x200
      ++ (match s.slotOf t c with
          | none => []
          | some n => s.pageWords p (0x400 + 4 * s.rd Reg.CS_PEG_BASE t n)
              (0x400 + 4 * (s.rd Reg.CS_PEG_BASE t n + s.rd Reg.CS_PEG_N t n)))
      ++ s.pageWords p 0x500 0x680)
  ++ (List.range 4).flatMap (fun d => ((List.range 8).filter (fun i => (s.chanGroup d i).isSome && s.rd Reg.MCH_CTX d i == c)).flatMap
    (fun i => s.pageWords (0x60 + d) (0x100 + 4 * i) (0x104 + 4 * i)))
  ++ (List.range 4).flatMap (fun d => ((List.range 16).filter (fun n => (s.slot d n).any (fun x => x.ctx == c))).flatMap
    (fun n => s.pageWords (cePage d) (0x200 + 0x20 * n) (0x220 + 0x20 * n)))
  ++ (s.rooms.filter (fun h => h.2.ctx == c)).flatMap (fun h =>
    [(2 ^ 25 + 16 * h.1, h.2.key), (2 ^ 25 + 16 * h.1 + 4, h.2.pkg), (2 ^ 25 + 16 * h.1 + 8, h.2.status), (2 ^ 25 + 16 * h.1 + 12, h.2.other)])

/-- 4 KiB of a queue from the consumer's QTAIL slot, as words behind 2^26. -/
def State.captureQueue (s : State) (t q : Nat) : List (Nat × Nat) :=
  let a := s.rd Reg.RQ_BASE t q * 256 + s.rd Reg.RQ_QTAIL t q * (s.rd Reg.RQ_SLOT_SZ t q * 4096)
  (List.range 1024).map (fun i => (2 ^ 26 + pantryAddr t (a + 4 * i), s.pantry.readNat (pantryAddr t (a + 4 * i)) 4))

/-- The queue samples of a hung tile. -/
def State.captureQueues (s : State) (t : Nat) : List (Nat × Nat) :=
  ((List.range 16).filter (fun q => s.rdB Reg.RQ_VALID t q)).flatMap (fun q => s.captureQueue t q)
  ++ ((List.range 16).filter (fun q => s.rdB Reg.SQ_VALID t q && s.present (s.rd Reg.SQ_DEST t q))).flatMap (fun q =>
    s.captureQueue (s.phys (s.rd Reg.SQ_DEST t q)) (s.rd Reg.SQ_DEST_Q t q))

/-- The links and circuits section. -/
def State.captureLinks (s : State) (suspects : List Nat) : List (Nat × Nat) :=
  (List.range 16).flatMap (fun k => s.pageWords (lnkPage k) 0x104 0x108)
  ++ ((List.range 1024).filter (fun e => s.isEndpoint e && suspects.contains (s.cirCtx e))).flatMap (fun e =>
    [(2 ^ 24 + 64 * e, s.cirState e + 8 * s.rd Reg.CT_RUN_A_UP 0 e + 16 * s.rd Reg.CT_RUN_B_UP 0 e + 32 * s.rd Reg.CT_RUN_CAUSE 0 e),
     (2 ^ 24 + 64 * e + 4, s.rd Reg.CT_RUN_TX_SEQ 0 e), (2 ^ 24 + 64 * e + 8, s.rd Reg.CT_RUN_CLAST 0 e),
     (2 ^ 24 + 64 * e + 12, s.rd Reg.CT_RUN_DLAST 0 e)])

/-- The trigger section: the record logged last, which caused the capture, and for a hang its lane, engine page, XE, PROG_CNT, PROG_WIN, the
time of the last advance and SUSPECTS. Its places lie behind 2^27. -/
def State.captureTrigger (s : State) (hang : Option (Nat × Nat × Nat)) : List (Nat × Nat) :=
  let r := (s.logRecord ((s.flash.logNext + 2 ^ 32 - 1) % 2 ^ 32)).elim 0 EventRec.pack
  let h := hang.elim [] (fun x =>
    let last := SMap.get s.timeUs s.watch (8 * x.2.1 + x.2.2)
    let sus := s.rd Reg.HNG_SUSPECTS 0 x.1
    [x.1, x.2.1, x.2.2, (if Block.ofPage x.2.1 = some .hst then s.rd Reg.HST_XE_PROG (x.2.1 - 0x10) x.2.2 else s.rd Reg.PROG_CNT x.2.1),
      s.rd Reg.PROG_WIN x.2.1, last % 2 ^ 32, last / 2 ^ 32, sus % 2 ^ 32, sus / 2 ^ 32])
  ((List.range 8).map (fun i => (2 ^ 27 + 4 * i, r / 2 ^ (32 * i) % 2 ^ 32)))
    ++ (List.range h.length).map (fun i => (2 ^ 27 + 32 + 4 * i, h.getD i 0))

/-- Takes a capture: of the page of a hung, fenced or fatally failing unit, and of the suspects. The one buffer on the hub may be
full: the capture is dropped and LOG_LOST raised. In a sealed partition the queue samples are left out. -/
def State.captureNow (s : State) (page : Option Nat) (suspects : List Nat) (hang : Option (Nat × Nat × Nat) := none) : State :=
  if s.soh.capture.isSome then s.occur 0x008 2 none 0
  else
    let tile := page.bind (fun p => if Block.ofPage p = some .tile then some (p - 0x100) else none)
    let isSealed := tile.any (fun t => s.isSealed (s.partOfTile t))
    let mask := ((List.range 4).filter s.isSealed).foldl (fun m p => m + 2 ^ p) 0
    let body := s.captureTrigger hang ++ s.captureFaults ++ page.elim [] (fun p => s.pageWords p 0 4096) ++ suspects.flatMap s.captureCtx
      ++ tile.elim [] (fun t => if isSealed ∨ suspects.isEmpty then [] else s.captureQueues t) ++ s.captureLinks suspects
    let redacted := isSealed && !suspects.isEmpty && tile.isSome
    let s : State := { s with soh := { s.soh with capture := some ⟨(s.flash.logNext + 2 ^ 32 - 1) % 2 ^ 32, redacted, mask, body⟩ } }
    s.count 0x003 7 1

/-! ### Context scrub, R385 -/

/-- A context's pegs, queue places and Pantry allocation on one tile are zeroed: step 5. -/
def State.scrubTile (s : State) (c t : Nat) : State :=
  match s.slotOf t c with
  | none => s
  | some n =>
    let s := (List.range (s.rd Reg.CS_PEG_N t n)).foldl (fun s i =>
      let g := s.rd Reg.CS_PEG_BASE t n + i
      (s.wr Reg.PEG_COUNT t g 0).wr Reg.PEG_HELD t g 0) s
    let s := (List.range 16).foldl (fun s q =>
      let s := if s.rdB Reg.RQ_VALID t q && s.rd Reg.RQ_CTX t q == c then (s.wr Reg.RQ_QTAIL t q 0).wr Reg.RQ_HIWATER t q 0 else s
      if s.rdB Reg.SQ_VALID t q && s.rd Reg.SQ_CTX t q == c then s.wr Reg.SQ_QHEAD t q 0 else s) s
    let a := s.allocOf t n
    { s with
      pantry := s.pantry.zero (pantryAddr t a.1) (a.2 - a.1)
      perr := SMap.clear s.perr (pantryAddr t a.1 / 32) (pantryAddr t a.2 / 32) }

/-- Steps 2 and 3: the open stages are abandoned, collectives fail, fold slots and Starch triggers go. -/
def State.stopCtx (s : State) (c : Nat) : State :=
  let s := s.tiles.foldl (fun s x => if x.2.stage.any (fun st => st.ctx == c) then s.abandonTile x.1 else s) s
  (((s.dropFeeds c).collAbort c).foldsFree c).starchDrop c

/-- Step 4: transfers, released posts and landing writes of a context are dropped, and its BULK transfers end with ABORTED. -/
def State.dropTraffic (s : State) (c : Nat) : State :=
  let s := s.dropMoves (fun m => m.ctx == c)
  let s : State := { s with posts := s.posts.filter (fun p => p.ctx != c), foldMarks := s.foldMarks.filter (fun m => m.ctx != c) }
  let mine := s.landQ.filter (fun w => w.ctx == c)
  let s : State := { s with landQ := s.landQ.filter (fun w => w.ctx != c) }
  let s := mine.foldl (fun s w => s.landQuiet w) s
  s.xfersEnd (fun x => x.ctx == c) 7

/-- A context leaves every open recovery without a turn, R383; a lane in whose turn it stood goes on to the next. -/
def State.leaveLanes (s : State) (c : Nat) : State :=
  (List.range 5).foldl (fun s l =>
    let x := SMap.get Lane.empty s.lanes l
    let s : State := { s with lanes := SMap.set Lane.empty s.lanes l { x with
      todo := x.todo.filter (fun k => k != c), passed := x.passed.filter (fun k => k != c) } }
    if s.rdB Reg.HNG_TURN_VALID 0 l && s.rd Reg.HNG_TURN 0 l == c then s.wr Reg.HNG_TURN_VALID 0 l 0 else s) s

/-- The context scrub. A context in CLOSING or FREE is left alone, Table 13-16. A STEP ends with ABORTED, or with the KEY and the status
of a bound collective that failed, R242. -/
def State.contextScrub (s : State) (c : Nat) : State :=
  if s.cstate c ≠ 1 then s
  else
    let s := s.wr Reg.CTX_QSTOP c 0 1
    let s := (s.stopCtx c).dropTraffic c
    let s := (s.tilesOf (partOfCtx c)).foldl (fun s t => s.scrubTile c t) s
    let s := match (s.ctx c).collFail with
      | some (key, st) => s.stepEnd c 2 key st
      | none => s.stepEnd c 3 0 0
    let s := s.setCtx c { s.ctx c with collFail := none, collOpen := [] }
    (s.leaveLanes c).count 0x003 1 1

/-! ### Release of a context: step 6 of Table 13-15 -/

/-- A context's slot, allocation and queues of one tile are freed and zeroed. -/
def State.releaseTile (s : State) (c t : Nat) : State :=
  match s.slotOf t c with
  | none => s
  | some n =>
    let s := s.scrubTile c t
    let s := (List.range (s.rd Reg.CS_PEG_N t n)).foldl (fun s i => s.wr Reg.PEG_OWNER t (s.rd Reg.CS_PEG_BASE t n + i) 0) s
    let s := (List.range 16).foldl (fun s q =>
      let s := if s.rdB Reg.RQ_VALID t q && s.rd Reg.RQ_CTX t q == c then
          ([Reg.RQ_VALID, Reg.RQ_CTX, Reg.RQ_SLOT_SZ, Reg.RQ_PRODUCER, Reg.RQ_DATA_PEG, Reg.RQ_BASE, Reg.RQ_QSLOTS] : List Field).foldl
            (fun s f => s.rst f t q) s
        else s
      if s.rdB Reg.SQ_VALID t q && s.rd Reg.SQ_CTX t q == c then
          ([Reg.SQ_VALID, Reg.SQ_CTX, Reg.SQ_DEST, Reg.SQ_DEST_Q, Reg.SQ_SPACE_PEG, Reg.SQ_QSLOTS] : List Field).foldl
            (fun s f => s.rst f t q) s
        else s) s
    let s := ([Reg.CS_VALID, Reg.CS_CTX, Reg.CS_IMEM_BASE, Reg.CS_IMEM_SIZE, Reg.CS_SLIST, Reg.CS_PEG_BASE, Reg.CS_PEG_N,
      Reg.PN_BASE, Reg.PN_SIZE, Reg.PN_ACT, Reg.PN_RING, Reg.PN_QAREA] : List Field).foldl (fun s f => s.rst f t n) s
    (s.setTile t { s.tile t with slots := SMap.del (s.tile t).slots n }).showCurves t

/-- A region entry is removed: its units zeroed, its landing forgotten. -/
def State.releaseRegion (s : State) (st n : Nat) : State :=
  let a := s.regionBase st n
  let len := s.regionSize st n
  let s : State := { s with
    larder := s.larder.zero a len, lerr := SMap.clear s.lerr (a / 32) ((a + len) / 32), lands := SMap.del s.lands (64 * st + n) }
  ([Reg.LR_VALID, Reg.LR_CTX, Reg.LR_WRITE, Reg.LR_TAGGED, Reg.LR_HASH, Reg.LR_BASE, Reg.LR_SIZE, Reg.LR_LLEN, Reg.LR_DIGAREA,
    Reg.LR_STATE, Reg.LR_READERS, Reg.LR_LWAIT, Reg.LR_TAG, Reg.LR_CHUNKS] : List Field).foldl (fun s f => s.rst f st n) s

/-- Every slot, queue, region, update list and holding entry of a context is freed and zeroed, and the context becomes FREE. -/
def State.releaseCtx (s : State) (c : Nat) : State :=
  let p := partOfCtx c
  let s := (s.tilesOf p).foldl (fun s t => s.releaseTile c t) s
  let s := (s.stacksOf p).foldl (fun s st =>
    let s := (List.range 64).foldl (fun s n => if s.rdB Reg.LR_VALID st n && s.rd Reg.LR_CTX st n == c then s.releaseRegion st n else s) s
    (s.rst Reg.STC_LIST st (c % 16)).rst Reg.STC_NREC st (c % 16)) s
  let s : State := { s with rooms := s.rooms.filter (fun h => h.2.ctx != c), doneKeys := s.doneKeys.filter (fun k => k.2.1 != c) }
  let s := s.ctxClear c
  (((s.wr Reg.CTX_CSTATE c 0 0).wr Reg.CTX_EXEC_STEP_BUSY c 0 0).wr Reg.CTX_LOAD_STATE c 0 0).eventCtx c 0

/-! ### Fences, R372 and R373 -/

/-- The contexts bound to a tile. -/
def State.ctxsOnTile (s : State) (t : Nat) : List Nat :=
  ((List.range 16).filterMap (fun n => if s.rdB Reg.CS_VALID t n then some (s.rd Reg.CS_CTX t n) else none)).eraseDups

/-- The contexts with work on a collective engine: in its slots, or waiting for one. -/
def State.ctxsOnEngine (s : State) (d : Nat) : List Nat :=
  (((List.range 16).filterMap (fun n => (s.slot d n).map Slot.ctx)) ++ (s.collWait.filter (fun w => w.die == d)).map CollWait.ctx).eraseDups

/-- The contexts with a record running or queued on a Starch engine. -/
def State.ctxsOnStarch (s : State) (st : Nat) : List Nat :=
  let x := s.starchAt st
  ((x.run.map StarchRun.ctx).toList ++ x.queue.map (fun e => e.1)).eraseDups

/-- The unit that a fence may name: page and sub-unit, Table 13-6. -/
def fenceable (page sub : Nat) : Bool :=
  match Block.ofPage page with
  | some .sfb => decide (sub ≤ 4) && sub != page - 0x60
  | some b => b.canFence
  | none => false

/-- The sub-unit under which a fence is kept: a bridge end, a transfer engine; else 0. -/
def fenceSub (page sub : Nat) : Nat := match Block.ofPage page with | some .sfb => sub | some .hst => sub | _ => 0

/-- The forwarding entries across a fenced bridge between dies `d` and `e` lose a side. -/
def State.bridgeSides (s : State) (d e : Nat) : State :=
  (List.range 1024).foldl (fun s k =>
    if s.isForward k then
      let a := dieOfPort (s.rd Reg.CT_PORT_A 0 k)
      let b := dieOfPort (s.rd Reg.CT_PORT_B 0 k)
      if (a = d ∧ b = e) ∨ (a = e ∧ b = d) then s.sideDown k 1 2 else s
    else s) s

/-- Fences a unit; the answer also names the contexts to abort. `rp` and `rb` are the cause that REPLACE_REQ names, R373; `ctl` the
fence is made by the controller. -/
def State.fenceUnit (s : State) (page sub rp rb : Nat) (ctl : Bool) : State × List Nat :=
  let u := fenceSub page sub
  if !fenceable page sub || s.isFenced page u then (s, [])
  else
    let s : State := { s with fenced := SMap.put s.fenced (8 * page + u) 1 }
    let (s, cs) : State × List Nat := match Block.ofPage page with
      | some .tile =>
        let t := page - 0x100
        let cs := s.ctxsOnTile t
        let short := (s.spares (dieOfTile t)).isEmpty
        let s := match s.logicalOf t with
          | none => s
          | some l => ((s.wr Reg.DARN_PRESENT 0 l 0).wr Reg.DARN_PENDING 0 l 1).wr Reg.DARN_MOVED 0 l 0
        (if short then s.replaceReq rp rb else s, cs)
      | some .mem =>
        let n := page - 0x40
        let s := if (s.stack n).out then s else (s.setStack n { s.stack n with out := true }).occur page 5 none 0
        (s.replaceReq rp rb, s.ctxsOnStack n)
      | some .lnk =>
        let k := page - 0x30
        let s := s.linkFence k
        (if ctl then s.replaceReq rp rb else s, [])
      | some .sfb =>
        let d := page - 0x60
        let s := (s.wr Reg.BE_FENCED d u 1).wr Reg.BE_UP d u 0
        let s := if u < 4 then
            let s : State := { s with fenced := SMap.put s.fenced (8 * (0x60 + u) + d) 1 }
            ((s.wr Reg.BE_FENCED u d 1).wr Reg.BE_UP u d 0).bridgeSides d u
          else s
        (s.replaceReq rp rb, [])
      | some .ce =>
        let d := page - 0x20
        let cs := s.ctxsOnEngine d
        ((s.engineAbort d).replaceReq rp rb, cs)
      | some .stc =>
        let n := page - 0x50
        let x := s.starchAt n
        let cs := s.ctxsOnStarch n
        let s := (x.queue ++ (x.run.map (fun r => (r.ctx, r.ix, r.step))).toList).foldl
          (fun (s : State) (e : Nat × Nat × Nat) => s.raise page 1 (some e.1) e.2.1) s
        (s.replaceReq rp rb, cs)
      | some .hst =>
        let p := page - 0x10
        let cs := (s.xfers.filter (fun x => x.port == p && x.engine == some u)).map Xfer.ctx
        ((s.xfersEnd (fun x => x.port == p && x.engine == some u) 7).replaceReq rp rb, cs)
      | _ => (s, [])
    let s := (s.occur 0x002 4 none 0).count 0x002 5 1
    (s.captureNow (some page) [], cs)

/-! ### The halt, R376 -/

/-- Notes in a lane the end of a recovery, for REPEAT_WIN, R384, Table 13-11. -/
def State.laneNote (s : State) (l rung page xe : Nat) : State :=
  let x := SMap.get Lane.empty s.lanes l
  let h := x.hist.filter (fun e => decide (s.timeUs ≤ e.2.2.2 + 60000000))
  { s with lanes := SMap.set Lane.empty s.lanes l { x with hist := h ++ [(rung, page, xe, s.timeUs)] } }

/-- A lane's recovery ends; ENGINE, SUSPECTS and KILLED show the last one. -/
def State.laneIdle (s : State) (l : Nat) : State :=
  let x := SMap.get Lane.empty s.lanes l
  let s : State := { s with lanes := SMap.set Lane.empty s.lanes l { x with
    todo := [], passed := [], failed := [], passing := false, asked := false } }
  ((s.wr Reg.HNG_RUNG 0 l 0).wr Reg.HNG_PHASE 0 l 0).wr Reg.HNG_TURN_VALID 0 l 0

/-- Switches the optical domains off and every Trinal port to OFF; EN keeps its value. -/
def State.opticsOff (s : State) : State :=
  let s := (List.range 16).foldl (fun s k => s.setLnk k 0) s
  (List.range 8).foldl (fun s i => s.setDomain (64 + i) false) s

/-- The halt on FT_LATCH becoming 1, R376. The capture comes before the package acts, R381. -/
def State.halt (s : State) : State :=
  let s := s.captureNow (some (s.rd Reg.FLT_FT_PAGE)) []
  let s := (List.range 5).foldl State.laneIdle s
  let s := (List.range 1024).foldl (fun s e =>
    if s.isEndpoint e && decide (1 ≤ s.cirState e) && decide (s.cirState e ≤ 4) then s.breakCir e 4 else s) s
  let s := allCtxs.foldl (fun s c =>
    let s := (s.collAbort c).stepEnd c 3 0 0
    if s.cstate c = 1 then s.wr Reg.CTX_QSTOP c 0 1 else s) s
  let s := s.xfersEnd (fun _ => true) 7
  s.opticsOff.wr0 Reg.FLT_HALTED 1

/-! ### Clearing faults, R367 to R370, R375 -/

/-- The condition of a held fault lasts, Table 13-20. -/
def State.heldNow (s : State) (page b : Nat) : Bool :=
  match Block.ofPage page, b with
  | some .mem, 5 => (s.stack (page - 0x40)).out
  | some .lnk, 6 => s.lnk (page - 0x30) == 6
  | some .lnk, 7 => s.lnk (page - 0x30) == 7
  | some .lnk, 8 => decide (toSigned 10 (s.rd Reg.LNK_LP (page - 0x30)) < toSigned 10 (s.rd Reg.LNK_LP_WARN (page - 0x30)))
  | some .lnk, 9 => s.lnk (page - 0x30) == 10
  | some .lnk, 10 => decide (220 < toSigned 10 (s.rd Reg.LNK_LP (page - 0x30)))
  | some .pwr, 0 => s.rdB Reg.PWR_CAP_UNREACHABLE
  | some .pwr, 4 => s.rdB Reg.PWR_HB_LOST
  | some .pwr, 1 => s.rdB Reg.PWR_CLAMPED
  | some .thm, 0 => s.rdB Reg.THM_THROTTLE
  | some .thm, 6 => s.rdB Reg.THM_IMPLAUS
  | some .thm, 1 => s.rdB Reg.THM_SD_REQ
  | some .thm, 2 => !s.hearth.trips.isEmpty
  | some .thm, 3 => (List.range 32).any (fun n => s.rdB Reg.THM_DISAGREE 0 n)
  | some .thm, 4 => (List.range 106).any s.sensorFailed
  | some .thm, 5 => s.unmonitored
  | some .thm, 7 => s.rdB Reg.THM_SUDDEN
  | some .thm, 8 => s.rdB Reg.THM_SUDDEN
  | some .clk, 0 => !s.rdB Reg.CLK_ROOT_LOCK || !s.rdB Reg.CLK_REF_OK
  | some .flt, 2 => !s.pins.vin12In || !s.pins.vio18In
  | some .darn, 1 => (List.range 4).any (fun d => (s.spares d).isEmpty || decide (0 < s.absent d))
  | some .hng, 3 => (List.range 5).any (fun l => s.rd Reg.HNG_PHASE 0 l == 5)
  | _, _ => false

/-- A write of ones to FLT_STAT of a page: each clears its bit; a held fault whose condition lasts meets a new occurrence, which wins,
R369, R370. -/
def State.fltClear (s : State) (page v : Nat) : State :=
  (List.range 32).foldl (fun s b =>
    if bit v b = 0 ∨ bit (s.rd Reg.FLT_STAT page) b = 0 then s
    else if (catEntry page b).any (fun e => e.held) && s.heldNow page b then
      let cls := s.effClass page b
      let s := (s.wr Reg.FLT_COUNT page 0 (satInc 0xFFFF (s.rd Reg.FLT_COUNT page))).count 0x002 4 1
      let s := s.count 0x002 cls 1
      let s := if cls = 2 then s.latchFt page b else s
      if bit (s.rd Reg.FLT_MASK page) b = 1 then s
      else s.log ⟨0, page, b, cls, 0, false, 0, s.timeUs, s.flash.bootGen, 0, s.rd Reg.FLT_COUNT page, s.fltFirst page⟩
    else
      s.wr Reg.FLT_STAT page 0 (clrBit (s.rd Reg.FLT_STAT page) b)) s

/-- A write of 1 to FT_LATCH, discarded while a bit of effective class FT is set in any page, R375. The pair shows healthy again. -/
def State.ftClear (s : State) : State :=
  if s.rd Reg.FLT_FT_LATCH = 0 ∨ s.pagesOfClass 2 ≠ 0 then s
  else
    let s := (s.wr0 Reg.FLT_FT_LATCH 0).wr0 Reg.FLT_PAIR_FAULT 0
    if s.boot.fltUp then { s with pins := { s.pins with fltP := true, fltN := false } } else s

end Sys2Proof.Machine
end

