-- ==== Sys2Proof/Machine/BringUp.lean ====
section
/-! DEFINITION. Supplies, resets and bring-up (R393 to R404), the darn map (R405 to R408), power domains (R15, R326), partition reset
(R387) and warm reset (R403, R449). A row whose event ends a span of time acts on the state as it stands when the event comes. -/

namespace Sys2Proof.Machine

open Sys2Proof

/-! ### Power-on reset, R393, R397 -/

/-- What a power-on reset leaves: flash and fuses, the lands, what was sent, and the queue. Every register holds its reset value. -/
def State.cold (s : State) : State :=
  let low : Pins := { s.pins with fltP := false, fltN := false, alertLow := false }
  (State.blank low s.flash s.hostOut s.free s.pending).loadFlash

/-- A power-on reset while VAUX33 stays good: the detector of REF_OK runs on, R443. -/
def State.coldReset (s : State) : State :=
  let r := s.cold
  { r with boot := { r.boot with refHeld := s.boot.refHeld } }

/-- Every supply is good. -/
def Pins.allGood (p : Pins) : Bool := p.vin12Good && p.vaux33Good && p.vio18Good

/-- PG_OUT, R394: high while all three supplies are good, whatever PORST_N does. -/
def State.showPg (s : State) : State := { s with pins := { s.pins with pgOut := s.pins.allGood } }

/-- Phase HUB begins: after the power-on reset, once REF_OK has been 1 for 1 ms, R399, R443. -/
def State.hubStart (s : State) : State :=
  if s.boot.por || !s.boot.refHeld || s.boot.running != 0 || s.rd Reg.GLB_PHASE != 0 || s.rd Reg.GLB_FAIL != 0 then s
  else
    let s : State := { s with boot := { s.boot with running := 1 }, timeUs := 0 }
    (s.wr0 Reg.GLB_BUSY 1).wr0 Reg.CLK_REF_OK 1

/-- Latches the straps, R17, Table 1-7. -/
def State.latchStraps (s : State) : State :=
  let v := s.pins.straps
  let s := ((((s.wr0 Reg.GLB_STRAP_LOC_X (bits v 1 0)).wr0 Reg.GLB_STRAP_LOC_Y (bits v 3 2)).wr0 Reg.GLB_STRAP_LOC_Z (bits v 5 4)).wr0
    Reg.GLB_STRAP_BLOCK (bits v 15 6)).wr0 Reg.GLB_STRAP_VAR (bits v 17 16)
  (s.wrB Reg.GLB_STRAP_STRAP_BAD 0 0 (decide (511 < bits v 15 6) || decide (2 ≤ bits v 17 16))).strapPorts

/-- The power-on reset ends where PORST_N is high and the supplies that it waits for are good, R397: the straps are latched and cold
bring-up starts. -/
def State.porCheck (s : State) : State :=
  if s.boot.por && !s.pins.porstLow && s.pins.allGood then
    let s : State := { s with boot := { s.boot with por := false } }
    s.loadFlash.latchStraps.hubStart
  else s

/-- VERIFY_DONE: the checks of R347. Where the boot ROM has taken a Soholt image after NO_IMAGE, the image goes to slot A and the package
through a power-on reset into it, R401. -/
def State.verifyEnd (s : State) (seqOk : List Byte → Bool) (sig ucode : Bool) (readBack : Nat) : State :=
  let t := s.updVerifyDone seqOk sig ucode readBack
  if s.noImage && s.rd Reg.UPD_STATE == 2 && t.rd Reg.UPD_STATE == 3 && t.rd Reg.UPD_COMP == 1 then
    match SMap.find t.flash.pend 1 with
    | none => t
    | some k => ({ t with flash := { t.flash with
        active := SMap.put t.flash.active 1 k, pend := SMap.del t.flash.pend 1, slot := 0 } } : State).coldReset.porCheck
  else t

/-- POWER_ON_RESET: PORST_N has been low for 10 µs. -/
def State.porstFall (s : State) : State :=
  let s := s.coldReset
  { s with pins := { s.pins with porstLow := true } }

/-- POWER_ON_RESET_END: PORST_N rises, with the strap lands as they stand. -/
def State.porstRise (s : State) (straps : Nat) : State :=
  let s : State := { s with pins := { s.pins with porstLow := false, straps := straps % 2 ^ 18 } }
  s.porCheck

/-- SUPPLY_GOOD: supply 0 VIN12, 1 VAUX33, 2 VIO18 has been in its range for 10 ms. -/
def State.supplyGood (s : State) (i : Nat) : State :=
  let p := s.pins
  let p : Pins := match i with
    | 0 => { p with vin12In := true, vin12Good := true }
    | 1 => { p with vaux33In := true, vaux33Good := true }
    | 2 => { p with vio18In := true, vio18Good := true }
    | _ => p
  (({ s with pins := p } : State).porCheck).showPg

/-- VAUX33_LOSS: the safe state, and a power-on reset, R395. -/
def State.vaux33Loss (s : State) : State :=
  let s := s.cold
  ({ s with pins := { s.pins with vaux33In := false, vaux33Good := false } } : State).showPg

/-- SUPPLY_FAULT: VIN12 (0) or VIO18 (2) leaves its range. After the power-on reset the fault is raised, or kept until the fault
controller starts, R395; the loss of the domains follows the halt. -/
def State.supplyFault (s : State) (i : Nat) : State :=
  let p := s.pins
  let p : Pins := match i with
    | 0 => { p with vin12In := false, vin12Good := false, pgOut := false }
    | 2 => { p with vio18In := false, vio18Good := false, pgOut := false }
    | _ => p
  let s : State := { s with pins := p }
  if s.boot.por || (i != 0 && i != 2) then s
  else if s.boot.fltUp then ({ s with boot := { s.boot with supplyHalt := true } } : State).raise 0x002 2 none 0
  else { s with boot := { s.boot with supplyDue := true } }

/-- Every domain fed from VIN12, which is every domain but PD_72, loses its state, and the host ports go down, R395. -/
def State.supplyDrop (s : State) : State :=
  let s := [0, 1].foldl (fun s p => (List.range 32).foldl (fun s n => if s.sessOpen p n then s.sessClose p n else s) s) s
  let s : State := { s with regs := s.regs.filter (fun e =>
    match Block.ofPage (e.1 / 131072) with
    | some b => b.onHub && b != .hst && b != .cir && b != .clk && b != .sec
    | none => false) }
  let s : State := { s with
    larder := [], pantry := [], lerr := [], perr := [], imem := [], tiles := [], moves := [], posts := [], foldMarks := [], lostReqs := []
    feeds := [], bridges := [], lands := [], landQ := [], folds := [], starch := [], stk := [], ports := [], circs := [], evq := []
    evLost := false, slots := [], collWait := [], rooms := [], doneKeys := [], wires := [], xfers := [], xeRest := [], hdark := []
    sec := { sealed := [], sealing := none, unsealing := [], report := none } }
  let s := (List.range 4).foldl (fun s p => s.wr Reg.CFG_PART_SEALED 0 p 0) s
  (s.wr0 Reg.PWR_PD_ON (2 ^ 72)).requestPowerCycle 0

/-! ### Reference clock, R297, R443 -/

/-- REF_OK: REFCLK has been present and in tolerance for 1 ms. -/
def State.refOk (s : State) : State :=
  let s : State := { s with boot := { s.boot with refHeld := true } }
  let s := if s.boot.por || s.rd Reg.GLB_FAIL != 0 then s else s.wr0 Reg.CLK_REF_OK 1
  s.hubStart

/-- CLOCK_LOST: REFCLK stops or leaves its tolerance (`root` false), or the root PLL loses lock (`root` true). -/
def State.clockLost (s : State) (root : Bool) : State :=
  if root && s.rd Reg.CLK_ROOT_LOCK == 0 && s.boot.running != 1 then s
  else
    let locked := s.rd Reg.CLK_ROOT_LOCK == 1
    let s := if root then s.wr0 Reg.CLK_ROOT_LOCK 0
      else ({ s with boot := { s.boot with refHeld := false } } : State).wr0 Reg.CLK_REF_OK 0
    -- the lanes of the host ports lose lock with the reference and train again when it returns, R443
    let s := if root then s else [0, 1].foldl (fun s p => (s.hstDown p 0).hstDown p 1) s
    if s.boot.por then s
    else if locked then s.raise 0x005 0 none 0
    else if s.boot.running = 1 then
      (({ s with boot := { s.boot with running := 0 } } : State).wr0 Reg.GLB_FAIL 2).wr0 Reg.GLB_BUSY 0
    else s

/-! ### The darn map, R405 to R408 -/

/-- The fuse marks a tile bad. -/
def State.fuseBad (s : State) (t : Nat) : Bool :=
  bit (s.rd Reg.DARN_FUSE_LO 0 (dieOfTile t) + 2 ^ 32 * s.rd Reg.DARN_FUSE_HI 0 (dieOfTile t)) (t % 44) == 1

/-- The GROWN bit of a tile. -/
def State.grown (s : State) (t : Nat) : Bool :=
  bit (s.rd Reg.DARN_GROWN_LO 0 (dieOfTile t) + 2 ^ 32 * s.rd Reg.DARN_GROWN_HI 0 (dieOfTile t)) (t % 44) == 1

/-- Sets a tile's bit in a pair of words, one a die. -/
def State.markTile (s : State) (lo hi : Field) (t : Nat) : State :=
  let d := dieOfTile t
  let k := t % 44
  if k < 32 then s.wr lo 0 d (setBit (s.rd lo 0 d) k) else s.wr hi 0 d (setBit (s.rd hi 0 d) (k - 32))

/-- The physical tile that the fuse-time map gives logical tile `l`, R406 step 1. -/
def State.fuseMap (s : State) (l : Nat) : Option Nat :=
  (((List.range 44).map (fun k => 44 * dieOfLogical l + k)).filter (fun t => !s.fuseBad t))[l % 40]?

/-- Logical tile `l` is mapped to `t`, or absent. MOVED compares with the fuse-time map. -/
def State.mapTile (s : State) (l : Nat) (t : Option Nat) : State :=
  let s := ((s.wr Reg.DARN_PHYS 0 l (t.getD 0)).wrB Reg.DARN_PRESENT 0 l t.isSome).wr Reg.DARN_PENDING 0 l 0
  s.wrB Reg.DARN_MOVED 0 l (t != s.fuseMap l)

/-- The logical tile that a tile serves, or served until its fence, R406. -/
def State.servedBy (s : State) (t : Nat) : Option Nat :=
  ((List.range 40).map (fun i => 40 * (t / 44) + i)).find? (fun l =>
    (s.rdB Reg.DARN_PRESENT 0 l || s.rdB Reg.DARN_PENDING 0 l) && s.phys l == t)

/-- The replacement of one bad tile, R406 step 2, R408. A bad spare serves no logical tile and is replaced by nothing. -/
def State.replaceTile (s : State) (t : Nat) : State :=
  match s.servedBy t with
  | none => s
  | some l =>
    let d := t / 44
    let s := match s.spares d with
      | sp :: _ => s.mapTile l (some sp)
      | [] =>
        let high := (((List.range 40).map (fun i => 40 * d + i)).filter (fun m => s.present m)).getLast?
        match high with
        | none => s.mapTile l none
        | some h => if h ≤ l then s.mapTile l none else (s.mapTile l (some (s.phys h))).mapTile h none
    (s.count 0x200 0 1).occur 0x200 0 none 0

/-- The tiles of `ts` are marked GROWN, then replaced in ascending order; TILES_SHORT follows for each die left short. -/
def State.replaceTiles (s : State) (ts : List Nat) : State :=
  let short := fun (s : State) d => (s.spares d).isEmpty || decide (0 < s.absent d)
  let was := (List.range 4).filter (fun d => (s.spares d).isEmpty)
  let lack := (List.range 4).filter (fun d => decide (0 < s.absent d))
  let s := ts.foldl (fun s t => s.markTile Reg.DARN_GROWN_LO Reg.DARN_GROWN_HI t) s
  let s := ts.foldl State.replaceTile s
  (List.range 4).foldl (fun s d =>
    let newly := ((s.spares d).isEmpty && !was.contains d) || (decide (0 < s.absent d) && !lack.contains d)
    if short s d && (newly || bit (s.rd Reg.FLT_STAT 0x200) 1 == 0) then s.raise 0x200 1 none 0 else s) s

/-- Tiles fenced while the package ran whose replacement is still due, R407, on the dies of `ds`. -/
def State.fencedTiles (s : State) (ds : List Nat) : List Nat :=
  (List.range 176).filter (fun t => ds.contains (dieOfTile t) && s.isFenced (0x100 + t) 0 && !s.grown t && !s.fuseBad t)

/-- The fuse-time map of a cold bring-up. -/
def State.fuseTimeMap (s : State) : State := (List.range 160).foldl (fun s l => s.mapTile l (s.fuseMap l)) s

/-- A tile column whose four tiles serve no logical tile or are fenced is held off, R326. -/
def State.columnIdle (s : State) (col : Nat) : Bool :=
  (List.range 4).all (fun j =>
    let t := 44 * (col / 11) + col % 11 + 11 * j
    (s.logicalOf t).isNone || s.isFenced (0x100 + t) 0)

/-- A tile column that has become idle goes off, R326. -/
def State.columnOff (s : State) (col : Nat) : State :=
  if s.columnIdle col then
    (({ s with hearth := { s.hearth with moving := SMap.del s.hearth.moving col } } : State)).setDomain col false
  else s

/-- A tile column that a new mapping uses comes on where its request bit asks for it, R326. -/
def State.columnOn (s : State) (col : Nat) : State :=
  if !s.columnIdle col && !s.domainOn col && SMap.get 0 s.hearth.moving col == 0 && bit (s.rd Reg.PWR_PD_REQ) col == 1 then
    { s with hearth := { s.hearth with moving := SMap.put s.hearth.moving col 1 } }
  else s

/-! ### Power domains -/

/-- The phase that brings a domain on, Table 14-2. -/
def phaseOfDomain (d : Nat) : Nat := if d < 52 then 2 else if d < 64 then 3 else if d < 72 then 5 else 1

/-- The units of a domain go to service: bridges train, stacks are zeroed, ports with EN = 1 leave OFF, Table 11-6. -/
def State.domainUp (s : State) (d : Nat) : State :=
  let s := s.setDomain d true
  if 44 ≤ d ∧ d < 48 then
    (List.range 5).foldl (fun s e => if e = d - 44 then s else s.wrB Reg.BE_UP (d - 44) e (!s.isFenced (0x60 + (d - 44)) e)) s
  else if 52 ≤ d ∧ d < 64 then
    ((s.zeroStack (d - 52)).clearLandings (d - 52)).wr Reg.MEM_CH_UP (d - 52) 0 0xFF
  else if 64 ≤ d ∧ d < 72 then
    [d - 64, d - 56].foldl (fun s k =>
      if s.rdB Reg.LNK_EN k && s.lnk k == 0 then s.setLnk k (if s.lpLow k then 10 else 1) else s) s
  else s

/-- The units of a domain leave service. -/
def State.domainDown (s : State) (d : Nat) : State :=
  let s :=
    if 44 ≤ d ∧ d < 48 then (List.range 5).foldl (fun s e => s.wr Reg.BE_UP (d - 44) e 0) s
    else if 64 ≤ d ∧ d < 72 then (s.setLnk (d - 64) 0).setLnk (d - 56) 0
    else if d = 74 ∨ d = 75 then (s.hstDown (d - 74) 0).hstDown (d - 74) 1
    else s
  s.setDomain d false

/-- A context is live: not FREE, R416. -/
def State.ctxLive (s : State) (c : Nat) : Bool := s.cstate c != 0

/-- A circuit passes through a die: a port of it carries an open circuit. -/
def State.circuitOnDie (s : State) (d : Nat) : Bool := (List.range 16).any (fun k => dieOfPort k == d && s.portOpen k)

/-- Hearth refuses to switch a domain off, R15, R326. -/
def State.domainKept (s : State) (d : Nat) : Bool :=
  let liveTile := fun t => (s.ctxsOnTile t).any s.ctxLive
  if d < 44 then (List.range 4).any (fun j => liveTile (44 * (d / 11) + d % 11 + 11 * j))
  else if d < 48 then (List.range 44).any (fun k => liveTile (44 * (d - 44) + k))
  else if d < 52 then (s.ctxsOnEngine (d - 48)).any s.ctxLive || s.circuitOnDie (d - 48)
  else if d < 64 then (s.ctxsOnStack (d - 52)).any s.ctxLive || (s.ctxsOnStarch (d - 52)).any s.ctxLive
  else if d < 72 then s.portOpen (d - 64) || s.portOpen (d - 56)
  else if d = 74 ∨ d = 75 then s.xfers.any (fun x => x.port == d - 74 && s.ctxLive x.ctx)
  else d != 79

/-- One domain's request. -/
def State.pdAsk (s : State) (d : Nat) (on : Bool) : State :=
  let move := SMap.get 0 s.hearth.moving d
  let isOn := if move = 0 then s.domainOn d else move == 1
  let ok := s.wr0 Reg.PWR_PD_REF (clrBit (s.rd Reg.PWR_PD_REF) d)
  if s.rd Reg.GLB_PHASE < phaseOfDomain d ∨ s.boot.supplyHalt then s
  else if on = isOn then ok
  else if on then
    if d < 44 && s.columnIdle d then s
    else if 64 ≤ d && decide (d < 72) && s.rd Reg.FLT_HALTED == 1 then s
    else { ok with hearth := { s.hearth with moving := SMap.put s.hearth.moving d 1 } }
  else if s.domainKept d then
    (s.wr0 Reg.PWR_PD_REF (setBit (s.rd Reg.PWR_PD_REF) d)).raise 0x004 3 none 0
  else { ok with hearth := { s.hearth with moving := SMap.put s.hearth.moving d 2 } }

/-- PD_REQ: a write of word `w` of the requests, R326; the request for PD_79 is locked by the lifecycle state, R423. -/
def State.pdReq (s : State) (w v : Nat) : State :=
  if 3 ≤ w then s
  else
    let width := if w = 2 then 16 else 32
    let v := v % 2 ^ width
    let v := if w = 2 ∧ s.flash.lifecycle % 2 = 1 then clrBit v 15 else v
    let old := s.rd Reg.PWR_PD_REQ
    let s := s.wr0 Reg.PWR_PD_REQ (old - old / 2 ^ (32 * w) % 2 ^ 32 * 2 ^ (32 * w) + v * 2 ^ (32 * w))
    (List.range width).foldl (fun s i => s.pdAsk (32 * w + i) (bit v i == 1)) s

/-- PD_SWITCH_DONE: a domain that switches has reached its state, Table 11-6. -/
def State.pdSwitchDone (s : State) (d : Nat) : State :=
  let move := SMap.get 0 s.hearth.moving d
  let s : State := { s with hearth := { s.hearth with moving := SMap.del s.hearth.moving d } }
  match move with
  | 1 => if d < 44 && s.columnIdle d then s else s.domainUp d
  | 2 => s.domainDown d
  | _ => s

/-- A domain of a phase comes on where PD_REQ asks for it, R400, R326; after a loss of VIN12 nothing comes on. -/
def State.bringOn (s : State) (lo hi : Nat) : State :=
  if s.boot.supplyHalt then s
  else (List.range (hi - lo)).foldl (fun s i =>
    if bit (s.rd Reg.PWR_PD_REQ) (lo + i) = 1 then s.domainUp (lo + i) else s) s

/-! ### Thermal trip, R312 -/

/-- THERMAL_TRIP: the comparator of hot spot `n` trips. -/
def State.thermalTrip (s : State) (n : Nat) : State :=
  if 32 ≤ n then s
  else (({ s with hearth := { s.hearth with trips := SMap.put s.hearth.trips n 0 } } : State).raise 0x006 2 none 0)

/-! ### Phases of bring-up, R399 to R402 -/

/-- Phase LINKS writes EN = 1 to the ports of BR_PORTS; its domains come on first. While the package is halted they stay off. -/
def State.linksStart (s : State) : State :=
  let s := if s.rd Reg.FLT_HALTED = 1 then s else s.bringOn 64 72
  (List.range 16).foldl (fun s k => if bit (s.rd Reg.GLB_BR_PORTS) k = 1 then s.lnkEn k 1 else s) s

/-- The next phase begins while PHASE is below TARGET. -/
def State.phaseNext (s : State) : State :=
  let n := s.rd Reg.GLB_PHASE
  if s.boot.por ∨ s.boot.running ≠ 0 ∨ s.rd Reg.GLB_WARM = 1 ∨ n = 0 ∨ 5 ≤ n ∨ s.rd Reg.GLB_TARGET ≤ n ∨ s.rd Reg.GLB_FAIL ≠ 0 then s
  else
    let s : State := { s with boot := { s.boot with running := n + 1 } }
    let s := s.wr0 Reg.GLB_BUSY 1
    if n = 4 then s.linksStart else s

/-- A phase has ended. -/
def State.phaseDone (s : State) (n : Nat) : State :=
  let s : State := { s with boot := { s.boot with running := 0 } }
  ((s.wr0 Reg.GLB_PHASE n).wr0 Reg.GLB_BUSY 0).phaseNext

/-- Fences the failing units of a list whose blocks `q` selects, R401; FLT FENCED is the cause. -/
def State.fenceFailed (s : State) (bad : List (Nat × Nat)) (q : Block → Bool) : State :=
  bad.foldl (fun s u => if (Block.ofPage u.1).any q then (s.fenceUnit u.1 u.2 0x002 4 false).1 else s) s

/-- STRAP_BAD is logged, R19, once phase HUB has started the log. The spec gives the record's code, class and data nowhere: free values,
log entry 19. -/
def State.strapFault (s : State) : State :=
  let v := s.pins.straps
  if s.rdB Reg.GLB_STRAP_STRAP_BAD then
    s.event (Config.strapCode v) (Config.strapClass v % 8) 0x000 (Config.strapData v)
  else s

/-- The end of phase HUB: fault 0, or the FAIL code that stops it. -/
def State.hubEnd (s : State) (fail : Nat) : State :=
  if fail ≠ 0 then
    let s : State := { s with boot := { s.boot with running := 0 } }
    let s := (s.wr0 Reg.GLB_FAIL fail).wr0 Reg.GLB_BUSY 0
    if fail = 1 then (s.setDomain 74 true).wr Reg.HST_EN 0 0 1 else s
  else
    let s := (s.wr0 Reg.CLK_ROOT_LOCK 1).wr0 Reg.CLK_REF_OK 1
    let s : State := { s with boot := { s.boot with fltUp := true } }
    let s := s.flashWrite (fun s => { s with flash := { s.flash with bootGen := (s.flash.bootGen + 1) % 2 ^ 32 } })
    let s := s.cfgRestore.strapPorts
    let s : State := { s with pins := { s.pins with fltP := s.rd Reg.FLT_FT_LATCH == 0, fltN := s.rd Reg.FLT_FT_LATCH != 0 } }
    let s := s.bringOn 74 76
    let s := s.bringOn 79 80
    let s := [72, 73, 76, 77, 78].foldl (fun s d => s.setDomain d true) s
    let s := s.event 0x0001 4 0x008 (s.flash.slot + 2 ^ 32 * s.rd Reg.SOH_VER)
    let s := s.strapFault
    let s := if s.boot.supplyDue then
        ({ s with boot := { s.boot with supplyDue := false, supplyHalt := true } } : State).raise 0x002 2 none 0
      else s
    s.phaseDone 1

/-- The work of phase COMPUTE: bridges train; a tile that fails waits for the darn map. `bad` names failing units. -/
def State.computeWork (s : State) (bad : List (Nat × Nat)) : State :=
  let s := ([Reg.DARN_BIST_LO, Reg.DARN_BIST_HI] : List Field).foldl (fun s f => (List.range 4).foldl (fun s d => s.wr f 0 d 0) s) s
  let s := s.bringOn 0 52
  let s := bad.foldl (fun s u =>
    if Block.ofPage u.1 = some .tile ∧ !s.fuseBad (u.1 - 0x100) then s.markTile Reg.DARN_BIST_LO Reg.DARN_BIST_HI (u.1 - 0x100) else s) s
  s.fenceFailed bad (fun b => b == .sfb || b == .ce)

/-- The work of phase MEMORY: channels train, the repair log is applied, the Larder is zeroed, R144, R145. A stack that is not
fenced and trains every channel is in service. -/
def State.memoryWork (s : State) (bad : List (Nat × Nat)) : State :=
  let s := s.bringOn 52 64
  let s := (List.range 12).foldl (fun s n =>
    let l := SMap.get [] s.flash.repairs n
    let lanes := (l.filter (fun r => r.lane)).length
    let s := ((s.wr Reg.MEM_LANE_FREE n 0 (16 - lanes)).wr Reg.MEM_ROW_FREE n 0 (1024 - (l.length - lanes))).wr Reg.MEM_REPAIRS n 0 l.length
    let s := ((s.zeroStack n).clearLandings n).wr Reg.MEM_CH_UP n 0 0xFF
    let s := s.setStack n { s.stack n with out := s.isFenced (0x40 + n) 0 }
    if s.isFenced (0x40 + n) 0 then s.occur (0x40 + n) 5 none 0 else s) s
  bad.foldl (fun s u => if Block.ofPage u.1 = some .mem then s.channelDown (u.1 - 0x40) u.2 else s) s

/-- The work of phase TEST: self-test results, the darn map, and the fences of other units. A tile that the fuse marks bad is never
tested, R405. -/
def State.testWork (s : State) (bad : List (Nat × Nat)) (cold : Bool) : State :=
  let s := if cold then s.fuseTimeMap else s
  let s := bad.foldl (fun s u =>
    if Block.ofPage u.1 = some .tile ∧ !s.fuseBad (u.1 - 0x100) ∧ !s.grown (u.1 - 0x100) then
      s.markTile Reg.DARN_BIST_LO Reg.DARN_BIST_HI (u.1 - 0x100)
    else s) s
  let failed := (List.range 176).filter (fun t => !s.grown t
    && bit (s.rd Reg.DARN_BIST_LO 0 (dieOfTile t) + 2 ^ 32 * s.rd Reg.DARN_BIST_HI 0 (dieOfTile t)) (t % 44) == 1)
  let s := s.fenceFailed bad (fun b => b == .sfb || b == .ce || b == .stc)
  let fenced := s.fencedTiles [0, 1, 2, 3]
  let s := s.replaceTiles ((List.range 176).filter (fun t => failed.contains t || fenced.contains t))
  (List.range 44).foldl State.columnOff s

/-- PHASE_END: the phase in progress ends. `fail` is the outcome of phase HUB, 0 or a FAIL code; `bad` names the units that fail in
phases COMPUTE to TEST: page and sub-unit, for a MEM page its channel. -/
def State.phaseEnd (s : State) (fail : Nat) (bad : List (Nat × Nat)) : State :=
  match s.boot.running with
  | 1 => s.hubEnd (if fail = 1 ∨ fail = 2 ∨ fail = 3 then fail else 0)
  | 2 => (s.computeWork bad).phaseDone 2
  | 3 => (s.memoryWork bad).phaseDone 3
  | 4 =>
    let s := s.testWork bad true
    (({ s with hearth := { s.hearth with bringUp := false } } : State).settleHearth).phaseDone 4
  | _ => s

/-- LINKS_END: no port of BR_PORTS is in TRAIN after 50 ms, or, where one still is, 1.1 s have passed, R402. -/
def State.linksEnd (s : State) : State := if s.boot.running ≠ 5 ∨ s.rd Reg.GLB_WARM = 1 then s else s.phaseDone 5

/-- TARGET: a write of the phase to reach, R399, Table 14-3. -/
def State.target (s : State) (v : Nat) : State :=
  if v = 0 ∨ 5 < v ∨ v < s.rd Reg.GLB_PHASE then s else (s.wr0 Reg.GLB_TARGET v).phaseNext

/-! ### Resets of engines and memories -/

/-- The register fields that a warm reset returns to their reset values, by place: FLT_STAT, FLT_COUNT, FLT_FIRST of pages above 0x00C
(R371), counters and PROG_CNT of those pages but the ports' (R429), the working state of tiles, stage fabric, stacks, Starch and
collective engines, and DRAIN of every page (R419). Settings are kept. -/
def warmDrops (k : Nat) : Bool :=
  let page := k / 131072
  let off := k / 32 % 4096
  let lo := k % 32
  if 0x340 ≤ page then false
  else if off = 8 ∧ lo = 1 then true
  else if page ≤ 0x00C then false
  else if off = 0x10 ∨ off = 0x1C ∨ off = 0x20 then true
  else match Block.ofPage page with
    | none => false
    | some .lnk => false
    | some b =>
      if off = 0x24 ∨ (0x40 ≤ off ∧ off < 0x80) then true
      else match b with
        | .tile => decide (0x100 ≤ off)
        | .sfb => decide (0x100 ≤ off) && (decide (off < 0x300) || (off % 64 == 0 && lo != 2) || decide (0x10 ≤ off % 64))
        | .mem => (off == 0x104 && decide (lo < 10)) || (decide (0x180 ≤ off) && decide (off < 0x300)) || decide (0x800 ≤ off)
        | .stc => (decide (0x100 ≤ off) && decide (off < 0x110)) || (decide (0x120 ≤ off) && decide (off < 0x160)) || decide (0x200 ≤ off)
        | .ce => (decide (0x200 ≤ off) && decide (off < 0x400)) || (decide (0x500 ≤ off) && off % 16 == 8)
        | .hst => decide (0x180 ≤ off) && decide (off < 0x1A0)
        | _ => false

/-- The seals of a partition are erased, R359, without the event of an unsealing that was asked for. -/
def State.eraseSeal (s : State) (p : Nat) : State :=
  ({ s with sec := { s.sec with sealed := SMap.del s.sec.sealed p } } : State).wr Reg.CFG_PART_SEALED 0 p 0

/-! ### Warm reset, R398, R403, R404, R449 -/

/-- A warm reset may start: phase HUB has ended and none is in progress. -/
def State.mayWarm (s : State) : Bool := !s.boot.por && decide (1 ≤ s.rd Reg.GLB_PHASE) && s.rd Reg.GLB_WARM == 0

/-- The start of a warm reset: transactions and circuits end, sessions are told, contexts become FREE, memories are zeroed and engines
stop. -/
def State.warmStart (s : State) : State :=
  if !s.mayWarm then s
  else
    let links := s.rd Reg.GLB_PHASE < 5 ∧ s.boot.running ≠ 5
    let s : State := { s with
      boot := { s.boot with running := 0, linksDue := decide links }, hearth := { s.hearth with resetFloor := true } }
    let s := (((s.wr0 Reg.GLB_PHASE 1).wr0 Reg.GLB_WARM 1).wr0 Reg.GLB_BUSY 1).wr0 Reg.GLB_ELAPSED 0
    let s := s.settleHearth
    let s := (List.range 5).foldl (fun s t =>
      if s.rd Reg.CFG_TXN_STATE 0 t = 1 then s.closeTxn t 3 0 0
      else if 2 ≤ s.rd Reg.CFG_TXN_STATE 0 t then s.closeTxn t 2 4 0 else s) s
    let s := s.circuitsReset
    let s := s.openSessions.foldl (fun s x =>
      (s.sendSession x.1 x.2 5 5).sessClose x.1 x.2) s
    -- a seal in progress ends, with or without its last part: R356 gives CODE PARTS (DEDUCED for the last, log entry 23)
    let s := s.sec.sealing.elim s (fun x => s.sealRefuse x.part 8)
    let s := (List.range 5).foldl State.laneIdle s
    let s := allCtxs.foldl (fun s c => if s.cstate c = 0 then s else ((s.stopCtx c).dropTraffic c).releaseCtx c) s
    let held := (List.range 16).flatMap (fun k => ([6, 7, 8, 9, 10] : List Nat).filterMap (fun b =>
      if bit (s.rd Reg.FLT_STAT (lnkPage k)) b = 1 then some (lnkPage k, b) else none))
    let s : State := { s with
      regs := s.regs.filter (fun e => !warmDrops e.1)
      larder := [], pantry := [], lerr := [], perr := [], imem := [], tiles := [], moves := [], posts := [], foldMarks := [], lostReqs := []
      feeds := [], bridges := [], lands := [], landQ := [], folds := [], starch := [], slots := [], collWait := [], rooms := []
      doneKeys := [], wires := [], xfers := [], xeRest := [], watch := [], due := [], staging := []
      sec := { s.sec with sealed := [], sealing := none, unsealing := [] } }
    let s := (List.range 4).foldl (fun s p => s.wr Reg.CFG_PART_SEALED 0 p 0) s
    let s := ((s.wr0 Reg.CNT_RUN 0).wr0 Reg.SEC_PART_WAIT 0).wr0 Reg.SEC_NPART 0
    let s := held.foldl (fun s u => if s.heldNow u.1 u.2 then s.occur u.1 u.2 none 0 else s) s
    -- a reset begun with FT_LATCH = 0 ends the halt, R377; one that SUPPLY_FAULT caused stays, R395
    if s.rd Reg.FLT_HALTED = 1 ∧ s.rd Reg.FLT_FT_LATCH = 0 ∧ !s.boot.supplyHalt then (s.wr0 Reg.FLT_HALTED 0).bringOn 64 72 else s

/-- The end of a warm reset: READY, or PHASE 4 with phase LINKS still to run, R449. -/
def State.warmEnd (s : State) : State :=
  let links := s.boot.linksDue
  let s : State := { s with
    boot := { s.boot with wrstHold := false, linksDue := false, running := 0 }
    hearth := { s.hearth with resetFloor := false, bringUp := false } }
  let s := (List.range 5).foldl (fun s l => s.laneNote l 4 0 0) s
  let s := ((s.wr0 Reg.GLB_PHASE (if links then 4 else 5)).wr0 Reg.GLB_WARM 0).wr0 Reg.GLB_BUSY 0
  s.settleHearth.phaseNext

/-- WARM_RESET: the phases COMPUTE, MEMORY and TEST of the warm reset have run; `bad` names the units that failed. With WRST_N still
low the package stays at PHASE 4 until it rises, R404. -/
def State.warmReset (s : State) (bad : List (Nat × Nat)) : State :=
  if s.boot.por ∨ s.rd Reg.GLB_WARM = 0 ∨ s.boot.wrstHold then s
  else
    let s := ((s.computeWork bad).memoryWork bad).testWork bad s.hearth.bringUp
    let s := s.wr0 Reg.GLB_PHASE 4
    if s.pins.wrstLow then { s with boot := { s.boot with wrstHold := true } } else s.warmEnd

/-- WRST_N: falls and stays low for 1 µs, R398. -/
def State.wrstFall (s : State) : State :=
  let s : State := { s with pins := { s.pins with wrstLow := true } }
  s.warmStart

/-- WRST_N_RISE. -/
def State.wrstRise (s : State) : State :=
  let s : State := { s with pins := { s.pins with wrstLow := false } }
  if s.boot.wrstHold then s.warmEnd else s

/-! ### Partition reset, R387 -/

/-- The register places of a partition's tiles, stage fabric, stacks, Starch and collective engines that steps 3 and 4 reset: the
working state that a warm reset resets too, without the fault state. -/
def State.partDrops (s : State) (p k : Nat) : Bool :=
  let page := k / 131072
  let off := k / 32 % 4096
  (decide (0x100 ≤ off) || (off == 8 && k % 32 == 1)) && warmDrops k &&
    match Block.ofPage page with
    | some .tile => s.partOfTile (page - 0x100) == p
    | some .sfb => partOfDie s.pmap (page - 0x60) == p
    | some .mem => s.partOfStack (page - 0x40) == p
    | some .stc => s.partOfStack (page - 0x50) == p
    | some .ce => partOfDie s.pmap (page - 0x20) == p
    | _ => false

/-- The start of a partition reset, steps 1 and 2: the lane shows it, circuits break, contexts stop. -/
def State.partStart (s : State) (p : Nat) : State :=
  let s := (s.laneIdle p)
  let s := (((s.wr Reg.HNG_RUNG 0 p 3).wr Reg.HNG_PHASE 0 p 4).count 0x003 3 1)
  let own := s.rd Reg.GLB_STRAP_LOC_X + 4 * s.rd Reg.GLB_STRAP_LOC_Y + 16 * s.rd Reg.GLB_STRAP_LOC_Z + 64 * s.rd Reg.GLB_STRAP_BLOCK
  let s := (List.range 1024).foldl (fun s e =>
    if s.isEndpoint e && partOfCtx (s.cirCtx e) == p && decide (1 ≤ s.cirState e) && decide (s.cirState e ≤ 4) then
      (s.sendMgmtAll e 4 own).breakCir e 4
    else s) s
  (ctxsOf p).foldl (fun s c =>
    let was := s.cstate c
    let s := s.wr Reg.CTX_CSTATE c 0 2
    let s := if was = 1 then s.eventCtx c 2 else s
    let s := s.setCtx c { s.ctx c with queue := [], teardown := 0 }
    (s.stopCtx c).dropTraffic c) s

/-- PARTITION_RESET: the reset of partition `p` ends, steps 3 to 6; `bad` names Larder channels that fail to train. -/
def State.partReset (s : State) (p : Nat) (bad : List (Nat × Nat)) : State :=
  if 4 ≤ p ∨ s.rd Reg.HNG_RUNG 0 p ≠ 3 ∨ s.rd Reg.HNG_PHASE 0 p ≠ 4 then s
  else
    let ds := s.diesOf p
    let ts := s.tilesOf p
    let ns := s.stacksOf p
    let ups := ns.map (fun n => (n, s.rd Reg.MEM_CH_UP n))
    let s := (ctxsOf p).foldl (fun s c =>
      if s.cstate c = 0 then s else s.releaseCtx c) s
    let s : State := { s with regs := s.regs.filter (fun e => !s.partDrops p e.1) }
    let s := ts.foldl (fun s t =>
      let s := s.zeroPantry t
      { s with tiles := SMap.del s.tiles t, imem := SMap.clear s.imem (t * 2 ^ 18) ((t + 1) * 2 ^ 18) }) s
    let s := ns.foldl (fun s n =>
      let s : State := { s with
        starch := SMap.del s.starch n, folds := SMap.clear s.folds (64 * n) (64 * n + 64)
        lands := SMap.clear s.lands (64 * n) (64 * n + 64) }
      let s := ((s.zeroStack n).clearLandings n).wr Reg.MEM_CH_UP n 0 0xFF
      if (s.stack n).out then s.wr Reg.MEM_CH_UP n 0 (SMap.get 0 ups n) else s) s
    let s := ds.foldl (fun s d =>
      let s : State := { s with
        slots := SMap.clear s.slots (16 * d) (16 * d + 16), collWait := s.collWait.filter (fun w => w.die != d)
        rooms := SMap.clear s.rooms (64 * d) (64 * d + 64), doneKeys := s.doneKeys.filter (fun k => k.1 != d)
        bridges := SMap.clear s.bridges (8 * d) (8 * d + 8) }
      (List.range 5).foldl (fun s e => if e = d then s else s.wrB Reg.BE_UP d e (!s.isFenced (0x60 + d) e)) s) s
    let s := bad.foldl (fun s u => if Block.ofPage u.1 = some .mem ∧ ns.contains (u.1 - 0x40) then s.channelDown (u.1 - 0x40) u.2 else s) s
    let s := s.replaceTiles (s.fencedTiles ds)
    let s := (List.range 44).foldl (fun s col => if ds.contains (col / 11) then (s.columnOff col).columnOn col else s) s
    let s := (s.eraseSeal p).laneIdle p
    s.laneNote p 3 (s.rd Reg.HNG_ENGINE 0 p) 0

end Sys2Proof.Machine
end

