-- ==== Sys2Proof/Machine/Ladder.lean ====
section
/-! DEFINITION. Recovery: hang detection (R378 to R380), suspect replay (R382, R383), the ladder (R384, R386), REC_REQ and SCRUB,
context teardown (R389), fault reactions (Tables 13-3 to 13-5) and the settling that follows every command. -/

namespace Sys2Proof.Machine

open Sys2Proof

/-! ### Pending engines, R378, Table 13-8 -/

/-- A transfer engine waits on neither WDATA nor an acknowledgement of the host. -/
def State.xferMoves (s : State) (x : Xfer) : Bool :=
  if x.write then x.has 0 x.len || s.landQ.any (fun w => w.writer == .bulk x.port x.sess x.xid)
  else !s.rdataOpen x

/-- A TRAIN context whose tile reports and bound collectives are complete waits for a record of a stack, Table 13-8. -/
def State.recordOwed (s : State) (st c : Nat) : Bool :=
  s.cstate c == 1 && s.rdB Reg.CTX_EXEC_STEP_BUSY c && s.rd Reg.CTX_EXEC_MODE c == 0 && (s.ctx c).collOpen.isEmpty
    && (s.tilesOfCtx c).all (fun t => s.tileReported t c)
    && (List.range (s.rd Reg.STC_NREC st (c % 16))).any (fun k =>
      let w := s.recWords st c k
      recEn w && w.getD 13 0 != s.rd Reg.CTX_STEP_NUM c)

/-- The contexts for which an engine is pending; those in CLOSING never count. -/
def State.pendingFor (s : State) (page xe : Nat) : List Nat :=
  let l := match Block.ofPage page with
    | some .tile =>
      let t := page - 0x100
      ((s.tile t).stage.map Stage.ctx).toList ++ (s.ctxsOnTile t).filter (fun c =>
        s.rdB Reg.CTX_EXEC_STEP_BUSY c && (s.tilesOfCtx c).contains t && !s.tileReported t c)
    | some .ce => (List.range 16).filterMap (fun n =>
        if 2 ≤ s.rd Reg.SL_STATE (page - 0x20) n then (s.slot (page - 0x20) n).map Slot.ctx else none)
    | some .stc => s.ctxsOnStarch (page - 0x50) ++ (ctxsOf (s.partOfStack (page - 0x50))).filter (s.recordOwed (page - 0x50))
    | some .hst => (s.xfers.filter (fun (x : Xfer) => x.port == page - 0x10 && x.engine == some xe && s.xferMoves x)).map (fun (x : Xfer) => x.ctx)
    | _ => []
  (l.filter (fun c => s.cstate c != 2)).eraseDups.mergeSort

/-- The engines of a lane, R380: page and XE. -/
def State.laneEngines (s : State) (l : Nat) : List (Nat × Nat) :=
  if l = 4 then (List.range 16).map (fun i => (0x10 + i / 8, i % 8))
  else
    (s.diesOf l).map (fun d => (cePage d, 0)) ++ (s.stacksOf l).map (fun n => (0x50 + n, 0))
      ++ (s.tilesOf l).map (fun t => (tilePage t, 0))

/-- The progress count of an engine. -/
def State.progCount (s : State) (page xe : Nat) : Nat :=
  if Block.ofPage page = some .hst then s.rd Reg.HST_XE_PROG (page - 0x10) xe else s.rd Reg.PROG_CNT page

/-- A lane has a recovery open. -/
def State.laneOpen (s : State) (l : Nat) : Bool := s.rd Reg.HNG_RUNG 0 l != 0 || s.rd Reg.HNG_PHASE 0 l != 0

/-- Some engine of a lane has DRAIN = 1, R419. -/
def State.laneDrains (s : State) (l : Nat) : Bool := (s.laneEngines l).any (fun e => s.rdB Reg.PAGE_DRAIN e.1)

/-! ### Fences with their aborts, R372, R390 -/

/-- A fence whose contexts are aborted; a recovery open on the unit ends. -/
def State.fenceDo (s : State) (page sub rp rb : Nat) (ctl : Bool) : State × List Nat :=
  let r := s.fenceUnit page sub rp rb ctl
  let s := (List.range 5).foldl (fun (s : State) l =>
    if s.rd Reg.HNG_RUNG 0 l = 1 && s.rd Reg.HNG_ENGINE 0 l == page && s.rd Reg.HNG_REC_XE 0 l == fenceSub page sub && !r.2.isEmpty then
      s.laneIdle l
    else s) r.1
  (if 0x100 ≤ page ∧ page < 0x1B0 then s.columnOff (domainOfPage page) else s, r.2)

/-- FENCE_GO: the unit that FENCE_PAGE and FENCE_SUB name, R372. -/
def State.fenceGo (s : State) : State :=
  let r := s.fenceDo (s.rd Reg.FLT_FENCE_PAGE) (s.rd Reg.FLT_FENCE_SUB) 0x002 4 false
  r.2.foldl State.contextScrub r.1

/-! ### Engine scrub, R386 -/

/-- The engine stops and its work in flight goes. -/
def State.engineStop (s : State) (page xe : Nat) : State :=
  match Block.ofPage page with
  | some .tile =>
    let t := page - 0x100
    let s := s.abandon t
    (s.setTile t { s.tile t with press := [], bankX := [], bankY := [], inex := 0, mbuf := [] }).pxShow t
  | some .ce =>
    let d := page - 0x20
    let s := s.engineAbort d
    { s with rooms := SMap.clear s.rooms (64 * d) (64 * d + 64) }
  | some .stc => (s.ctxsOnStarch (page - 0x50)).foldl State.contextScrub s
  | some .hst => s.xfersEnd (fun x => x.port == page - 0x10 && x.engine == some xe) 7
  | _ => s

/-- Work that a recovery held goes on: queued Starch records and chunks that came early. -/
def State.engineGo (s : State) (page : Nat) : State :=
  match Block.ofPage page with
  | some .stc => if (s.starchAt (page - 0x50)).run.isSome then s else s.starchNext (page - 0x50)
  | some .ce => (List.range 16).foldl (fun s n =>
      match s.slot (page - 0x20) n with
      | none => s
      | some x => s.drainEarly (page - 0x20) n (x.early.length + 1)) s
  | _ => s

/-- A recovery ends at a rung and its engine is released; the engine's hang window begins anew (DEDUCED from R378, log entry 18). -/
def State.laneEnd (s : State) (l rung : Nat) : State :=
  let page := s.rd Reg.HNG_ENGINE 0 l
  let xe := s.rd Reg.HNG_REC_XE 0 l
  (((s.laneIdle l).laneNote l rung page xe).advanced page xe).engineGo page

/-! ### The rungs, R384, Table 13-11 -/

/-- A lane shows an open recovery on an engine. -/
def State.laneShow (s : State) (l rung phase page xe : Nat) : State :=
  ((((s.wr Reg.HNG_RUNG 0 l rung).wr Reg.HNG_PHASE 0 l phase).wr Reg.HNG_ENGINE 0 l page).wr Reg.HNG_REC_XE 0 l xe).wr
    Reg.HNG_TURN_VALID 0 l 0

/-- A rung begins on a lane. `asked`: through REC_REQ or SCRUB, which LADDER_MAX does not bind. -/
def State.takeRung (s : State) (l r : Nat) (asked : Bool) : State :=
  let page := s.rd Reg.HNG_ENGINE 0 l
  let xe := s.rd Reg.HNG_REC_XE 0 l
  if s.rd Reg.HNG_LADDER_MAX < r && !asked then
    (s.wr Reg.HNG_PHASE 0 l 5).raise 0x003 3 none 0
  else
    let s : State := { s with lanes := SMap.set Lane.empty s.lanes l { SMap.get Lane.empty s.lanes l with asked := asked } }
    match r with
    | 2 => ((s.laneShow l 2 3 page xe).engineStop page xe).count 0x003 2 1
    | 3 =>
      let s := if asked then s else
        let r := s.fenceDo page xe 0x003 4 true
        (r.2.foldl State.contextScrub r.1).raise 0x003 4 none 0
      let s := s.partStart l
      { s with lanes := SMap.set Lane.empty s.lanes l { SMap.get Lane.empty s.lanes l with asked := asked } }
    | 4 => (if asked then s else s.count 0x003 4 1).warmStart
    | _ => ((if asked then s else s.count 0x003 4 1).laneShow l 5 4 page xe).requestPowerCycle 1

/-- ENGINE_SCRUB: the scrub of a lane's engine ends with the self-test's result; an engine that fails it is fenced, R386, R373. -/
def State.engineScrub (s : State) (l : Nat) (ok : Bool) : State :=
  if 5 ≤ l ∨ s.rd Reg.HNG_RUNG 0 l ≠ 2 ∨ s.rd Reg.HNG_PHASE 0 l ≠ 3 then s
  else
    let page := s.rd Reg.HNG_ENGINE 0 l
    let xe := s.rd Reg.HNG_REC_XE 0 l
    let asked := (SMap.get Lane.empty s.lanes l).asked
    let s := if ok then s
      else
        let r := s.fenceDo page xe (if asked then 0x002 else 0x003) 4 (!asked)
        let s := r.2.foldl State.contextScrub r.1
        if asked then s else s.raise 0x003 4 none 0
    s.laneEnd l 2

/-- RUNG_FAILED: the rung of a lane has not finished within its maximum time; the next one begins, R384. -/
def State.rungFailed (s : State) (l : Nat) : State :=
  let r := s.rd Reg.HNG_RUNG 0 l
  if 5 ≤ l ∨ r = 0 ∨ 5 ≤ r ∨ s.rd Reg.HNG_PHASE 0 l = 5 then s
  else (s.raise 0x003 2 none 0).takeRung l (if l = 4 ∧ r = 2 then 4 else r + 1) false

/-! ### Suspect replay, R382, R383 -/

/-- The outcome of the turns. -/
def State.turnsDone (s : State) (l : Nat) : State :=
  let x := SMap.get Lane.empty s.lanes l
  if 2 ≤ x.failed.length && x.passed.isEmpty then s.takeRung l 2 false else s.laneEnd l 1

/-- The next suspect's turn, or the outcome after the last. -/
def State.nextTurn (s : State) (l : Nat) : State :=
  let x := SMap.get Lane.empty s.lanes l
  let page := s.rd Reg.HNG_ENGINE 0 l
  let xe := s.rd Reg.HNG_REC_XE 0 l
  match x.todo with
  | [] => (s.wr Reg.HNG_TURN_VALID 0 l 0).turnsDone l
  | c :: r =>
    let s : State := { s with lanes := SMap.set Lane.empty s.lanes l { x with todo := r, prog := s.progCount page xe, passing := false } }
    ((((s.wr Reg.HNG_PHASE 0 l 2).wr Reg.HNG_TURN 0 l c).wr Reg.HNG_TURN_VALID 0 l 1).count 0x003 5 1).engineGo page

/-- Every suspect goes back to its replay point, Table 13-10. -/
def State.replayPoints (s : State) (page : Nat) : State :=
  match Block.ofPage page with
  | some .tile => s.abandon (page - 0x100)
  | some .stc =>
    let x := s.starchAt (page - 0x50)
    match x.run with
    | none => s
    | some r => (s.setStarch (page - 0x50) { x with run := none, queue := (r.ctx, r.ix, r.step) :: x.queue }).wr Reg.STC_BUSY (page - 0x50) 0 0
  | _ => s

/-- The first rung of a hang of an engine, by the recoveries that ended within REPEAT_WIN, Table 13-11. -/
def State.firstRung (s : State) (l page xe : Nat) : Nat :=
  let h := (SMap.get Lane.empty s.lanes l).hist.filter (fun e => decide (s.timeUs ≤ e.2.2.2 + 1000 * s.rd Reg.HNG_REPEAT_WIN))
  let same := fun r => h.any (fun e => e.1 == r && e.2.1 == page && e.2.2.1 == xe)
  if h.any (fun e => e.1 == 4) then 5
  else if l ≠ 4 && h.any (fun e => e.1 == 3) then 4
  else if same 2 then (if l = 4 then 4 else 3)
  else if same 1 then 2
  else 1

/-- A hang is declared on an engine: HANG, capture, and the first rung, R380 to R383. -/
def State.hangDeclare (s : State) (l page xe : Nat) : State :=
  let sus := s.pendingFor page xe
  let s := (s.count 0x003 0 1).occur 0x003 0 none 0
  let r := s.firstRung l page xe
  let s := (s.laneShow l r 1 page xe).wr Reg.HNG_SUSPECTS 0 l (sus.foldl (fun m c => setBit m c) 0)
  let s := s.wr Reg.HNG_KILLED 0 l 0
  let s : State := { s with lanes := SMap.set Lane.empty s.lanes l { SMap.get Lane.empty s.lanes l with
    todo := sus, passed := [], failed := [], passing := false, asked := false } }
  let s := s.captureNow (some page) sus (some (l, page, xe))
  if r = 1 ∧ 1 ≤ s.rd Reg.HNG_LADDER_MAX then (s.replayPoints page).nextTurn l else s.takeRung l r false

/-- HANG_CHECK: the check that comes every 1 ms, R378 to R380. While the package is halted nothing is declared. -/
def State.hangCheck (s : State) : State :=
  let all := (List.range 5).flatMap (fun l => (s.laneEngines l).map (fun e => (l, e)))
  let pend := all.filter (fun e => !(s.pendingFor e.2.1 e.2.2).isEmpty && !s.isFenced e.2.1 e.2.2)
  let w : SMap Nat := pend.foldl (fun m e => SMap.put m (8 * e.2.1 + e.2.2) (SMap.get s.timeUs s.watch (8 * e.2.1 + e.2.2))) []
  let s : State := { s with watch := w }
  if s.rd Reg.HNG_HANG_EN = 0 ∨ s.rd Reg.FLT_HALTED = 1 then s
  else (List.range 5).foldl (fun s l =>
    if s.laneOpen l || s.laneDrains l then s
    else
      let late := (pend.filter (fun e => e.1 == l && decide (SMap.get s.timeUs w (8 * e.2.1 + e.2.2) + 1000 * s.rd Reg.PROG_WIN e.2.1 ≤ s.timeUs))).map
        (fun e => e.2)
      let first := late.foldl (fun (b : Option (Nat × Nat)) e => match b with
        | none => some e
        | some f =>
          let te := SMap.get 0 w (8 * e.1 + e.2)
          let tf := SMap.get 0 w (8 * f.1 + f.2)
          if te < tf ∨ (te = tf ∧ (e.1 < f.1 ∨ (e.1 = f.1 ∧ e.2 < f.2))) then some e else some f) none
      match first with
      | none => s
      | some e => s.hangDeclare l e.1 e.2) s

/-- REPLAY_TURN_END: REPLAY_WIN ends on a lane with no advance in the turn, so its suspect fails, R382. -/
def State.replayTurnEnd (s : State) (l : Nat) : State :=
  let x := SMap.get Lane.empty s.lanes l
  let page := s.rd Reg.HNG_ENGINE 0 l
  if 5 ≤ l ∨ s.rd Reg.HNG_RUNG 0 l ≠ 1 ∨ s.rd Reg.HNG_TURN_VALID 0 l = 0 ∨ x.passing ∨ s.progCount page (s.rd Reg.HNG_REC_XE 0 l) ≠ x.prog then s
  else
    let c := s.rd Reg.HNG_TURN 0 l
    let s := (s.wr Reg.HNG_KILLED 0 l (setBit (s.rd Reg.HNG_KILLED 0 l) c)).count 0x003 6 1
    let s := (s.occur 0x003 1 (some c) 0).contextScrub c
    let y := SMap.get Lane.empty s.lanes l
    ({ s with lanes := SMap.set Lane.empty s.lanes l { y with failed := y.failed ++ [c] } } : State).nextTurn l

/-- A turn whose suspect has made progress, or has left: the next one follows, R382. -/
def State.turnCheck (s : State) (l : Nat) : State :=
  if s.rd Reg.HNG_RUNG 0 l ≠ 1 ∨ s.rd Reg.HNG_PHASE 0 l ≠ 2 then s
  else if s.rd Reg.HNG_TURN_VALID 0 l = 0 then s.nextTurn l
  else
    let x := SMap.get Lane.empty s.lanes l
    let page := s.rd Reg.HNG_ENGINE 0 l
    let c := s.rd Reg.HNG_TURN 0 l
    if x.passing || s.progCount page (s.rd Reg.HNG_REC_XE 0 l) != x.prog then
      let inStage := Block.ofPage page == some .tile && (s.tile (page - 0x100)).stage.any (fun st => st.ctx == c)
      if inStage then { s with lanes := SMap.set Lane.empty s.lanes l { x with passing := true } }
      else
        ({ s with lanes := SMap.set Lane.empty s.lanes l { x with passed := x.passed ++ [c], passing := false } } : State).nextTurn l
    else s

/-! ### REC_REQ and SCRUB, Table 13-19, R390, R420 -/

/-- The lane that a recovery action meets: of its context, engine or partition. None for an action of the whole package. -/
def State.laneOf (s : State) (act target : Nat) : Option Nat :=
  match act with
  | 1 => some (partOfCtx (target - 0x300))
  | 2 => match Block.ofPage target with
    | some .tile => some (s.partOfTile (target - 0x100))
    | some .ce => some (partOfDie s.pmap (target - 0x20))
    | some .stc => some (s.partOfStack (target - 0x50))
    | _ => some 4
  | 3 => some (target % 4)
  | _ => none

/-- The target matches the action. -/
def State.recTarget (s : State) (act target : Nat) : Bool :=
  match act with
  | 1 => (Block.ofPage target == some .ctx) && s.ctxAssigned (target - 0x300) && s.cstate (target - 0x300) != 2
  | 2 => (Block.ofPage target).any Block.isEngine
  | 3 => s.partPresent (target % 4)
  | 4 | 5 | 6 => true
  | _ => false

/-- A recovery action is asked for by an agent that may reach partition `scope` alone, or by any other (none). -/
def State.recReq (s : State) (scope : Option Nat) (act xe target : Nat) : State :=
  let lane := s.laneOf act target
  let ok := s.recTarget act target && scope.all (fun p => lane == some p)
    && lane.all (fun l => !s.laneOpen l || s.rd Reg.HNG_PHASE 0 l == 5)
  let s := s.wrB Reg.HNG_REFUSED 0 0 (!ok)
  if !ok then s
  else
    let s := lane.elim s (fun l => if s.rd Reg.HNG_PHASE 0 l = 5 then s.laneIdle l else s)
    match act with
    | 1 => s.contextScrub (target - 0x300)
    | 2 =>
      let l := lane.getD 4
      (s.laneShow l 2 3 target (if l = 4 then xe else 0)).takeRung l 2 true
    | 3 => (s.laneShow (target % 4) 3 4 0 0).takeRung (target % 4) 3 true
    | 4 => s.warmStart
    | 5 => s.requestPowerCycle 1
    | _ => s.captureNow none []

/-! ### Context teardown, R389 -/

/-- The endpoint entries bound to a context. -/
def State.endpointsOf (s : State) (c : Nat) : List Nat := (List.range 1024).filter (fun e => s.isEndpoint e && s.cirCtx e == c)

/-- TEARDOWN: steps 1 to 4 of Table 13-15; step 5 waits for the endpoints. A STEP in progress ends with ABORTED, since every command
ends in one record, R286. -/
def State.teardown (s : State) (c : Nat) : State :=
  if s.cstate c ≠ 1 then s
  else
    let s := (s.wr Reg.CTX_CSTATE c 0 2).eventCtx c 2
    let x := s.ctx c
    let s := s.setCtx c { x with queue := [], pendCser := x.pendCser.filter (fun n => !(x.queue.any (fun q => q.cser == n))) }
    let s := ((s.stopCtx c).leaveLanes c)
    let s := (s.endpointsOf c).foldl (fun s e => if s.cirState e = 1 then s.closedCir e else s.closeGo e) s
    let s := (s.dropTraffic c).stepEnd c 3 0 0
    s.setCtx c { s.ctx c with teardown := 5, collFail := none }

/-- Steps 5 and 6: once every endpoint is closed, the context is released. -/
def State.teardownCheck (s : State) (c : Nat) : State :=
  if (s.ctx c).teardown = 5 ∧ (s.endpointsOf c).all (fun e => s.cirState e == 0 || decide (5 ≤ s.cirState e)) then s.releaseCtx c else s

/-! ### Reactions of the catalogue, Tables 13-3 to 13-5 -/

/-- The reaction to an occurrence, beyond its class: the state and the contexts to abort. `esc`: it escalated, so that the reaction of
column Esc replaces its own. -/
def State.react (s : State) (d : Due) (esc : Bool) : State × List Nat :=
  let own := (s, d.ctx.toList)
  match Block.ofPage d.page with
  | some .tile =>
    if d.bit = 0 then (if esc then s.fenceDo d.page 0 d.page 0 true else (s, []))
    else if esc ∨ d.bit = 18 then (s, [])
    else own
  | some .sfb =>
    if d.bit = 4 then (if esc then s.fenceDo d.page d.detail d.page 4 true else (s, []))
    else if esc ∨ d.bit = 2 then (s, [])
    else own
  | some .mem =>
    if esc then (s, [])
    else if d.bit = 4 then (s.replaceReq d.page 4, [])
    else if d.bit = 5 then (s.replaceReq d.page 5, s.ctxsOnStack (d.page - 0x40))
    else if d.bit = 1 ∨ d.bit = 6 ∨ d.bit = 7 ∨ (9 ≤ d.bit ∧ d.bit ≤ 13) then own
    else (s, [])
  | some .stc => if d.bit = 1 ∨ d.bit = 2 then own else (s, [])
  | some .lnk => if d.bit = 10 then s.fenceDo d.page 0 d.page 10 true else (s, [])
  | some .ce =>
    if (d.bit = 2 ∧ esc) ∨ d.bit = 3 then s.fenceDo d.page 0 d.page d.bit true else (s, [])
  | some .thm => if d.bit = 5 then (s.replaceReq d.page 5, []) else (s, [])
  | some .darn => if d.bit = 1 then (s.replaceReq d.page 1, []) else (s, [])
  | _ => (s, [])

/-- Takes the faults raised by the command in hand, in order: occurrence and reaction. Each context is aborted once, R390. `f` bounds
their number. -/
def State.takeFaults (s : State) (done : List Nat) : Nat → State
  | 0 => s
  | f + 1 => match s.due with
    | [] => s
    | d :: r =>
      let s : State := { s with due := r }
      let esc := s.escalates d.page d.bit
      let x := (s.occur d.page d.bit d.ctx d.detail).react d esc
      let cs := (x.2.filter (fun c => !done.contains c)).eraseDups
      (cs.foldl State.contextScrub x.1).takeFaults (done ++ cs) f

/-- A bound collective of a step has failed, so the step fails, R242. -/
def State.failSteps (s : State) : State :=
  s.ctxs.foldl (fun s x => if x.2.collFail.isSome && s.rd Reg.CTX_EXEC_STEP_BUSY x.1 == 1 then s.contextScrub x.1 else s) s

/-- Teardowns that wait for their endpoints go on. -/
def State.teardowns (s : State) : State := s.ctxs.foldl (fun s x => if x.2.teardown = 5 then s.teardownCheck x.1 else s) s

/-- A bit of class FT is latched and the package still runs, so it halts, R375. -/
def State.haltCheck (s : State) : State := if s.rd Reg.FLT_FT_LATCH = 1 ∧ s.rd Reg.FLT_HALTED = 0 then s.halt else s

/-- What follows a command in the same moment: faults with their reactions, failed steps, turns of a replay, teardowns, and the halt.
No command ends with the latch set and the package running. -/
def State.settle (s : State) : State :=
  let s := (s.takeFaults [] 4096).failSteps
  let s := ((List.range 5).foldl State.turnCheck s).teardowns
  let s := ((s.takeFaults [] 4096).haltCheck).takeFaults [] 4096
  let s := if s.boot.supplyHalt && s.rd Reg.PWR_PD_ON != 2 ^ 72 then s.supplyDrop else s
  { s.haltCheck with due := [] }

end Sys2Proof.Machine
end

