-- ==== Sys2Proof/Machine/Commit.lean ====
section
/-! DEFINITION. COMMIT and APPLY of a configuration transaction (R411 to R416): the conditions that the chapters set on a COMMIT, the
zeroing of units that change owner, and the apply cycle. -/

namespace Sys2Proof.Machine

open Sys2Proof

/-! ### What the transaction would leave -/

/-- The partition map as transaction `t` would leave it. -/
def State.newMap (s : State) (t : Nat) : Nat := s.after t Reg.CFG_PMAP 0 0

/-- Die `d` would change partition. -/
def State.dieMoves (s : State) (t d : Nat) : Bool := partOfDie (s.newMap t) d != partOfDie s.pmap d

/-- The partition number is new under the map that the transaction would leave. -/
def State.newPart (s : State) (t p : Nat) : Bool := !(diesOfMap (s.newMap t) p).isEmpty && (s.diesOf p).isEmpty

/-- A field's value after the transaction: the shadow's; else its reset value where R416 empties it; else the applied one. -/
def State.will (s : State) (t : Nat) (f : Field) (inst i : Nat) : Nat :=
  let gone := match f.block with
    | .tile => s.dieMoves t (dieOfTile inst)
    | .mem | .stc => s.dieMoves t (dieOfStack inst)
    | .cfg => decide (0x200 ≤ f.off) && s.newPart t (i / 16)
    | _ => false
  match SMap.find s.shadow ((f.block.base + inst) * 1024 + (f.off + f.stride * i) / 4) with
  | some (u, v) => if u = t then v / 2 ^ f.lo % 2 ^ f.width else if gone then f.resetAt inst i else s.rd f inst i
  | none => if gone then f.resetAt inst i else s.rd f inst i

/-- The transaction shadows a word of a page with byte offset from `lo` up to `hi`. -/
def State.writes (s : State) (t page lo hi : Nat) : Bool :=
  s.shadow.any (fun e => e.2.1 == t && decide (page * 1024 + lo / 4 ≤ e.1) && decide (e.1 < page * 1024 + hi / 4))

/-- Some field of a list changes. -/
def State.changes (s : State) (t : Nat) (fs : List Field) (inst i : Nat) : Bool :=
  fs.any (fun f => s.will t f inst i != s.rd f inst i)

/-- Two ranges, first and length, share something. -/
def sharesRange (a n b m : Nat) : Bool := decide (0 < n) && decide (0 < m) && decide (a < b + m) && decide (b < a + n)

/-- Some pair of a list, the first before the second, is related. -/
def anyPair {α : Type} (q : α → α → Bool) : List α → Bool
  | [] => false
  | a :: r => r.any (q a) || anyPair q r

/-- The context has a STEP in progress. -/
def State.stepBusy (s : State) (c : Nat) : Bool := s.rdB Reg.CTX_EXEC_STEP_BUSY c

/-! ### Conditions on the CFG page: R21, R31, R51, R115, R360 -/

/-- The partition map may change: a map of Table 1-8, no die of a partition with a live context, sealed or being sealed moves, and
no group would lie in two partitions. -/
def State.mapOk (s : State) (t : Nat) : Bool :=
  let m := s.newMap t
  decide (m < 5)
    && (List.range 4).all (fun d => !s.dieMoves t d ||
        (let p := partOfDie s.pmap d
         s.nOpen p == 0 && !s.isSealed p && s.sec.sealing.all (fun x => x.part != p)))
    && (List.range 8).all (fun g =>
        let f := s.will t Reg.CFG_SG_FIRST 0 g
        let n := s.will t Reg.CFG_SG_SIZE 0 g
        n == 0 || (List.range n).all (fun k => partOfDie m (dieOfLogical (f + k)) == partOfDie m (dieOfLogical f)))

/-- The channels that a defined group names, as die and channel, R115. -/
def State.groupChans (s : State) (t g : Nat) : List (Nat × Nat) :=
  let f := s.will t Reg.CFG_SG_FIRST 0 g
  let n := s.will t Reg.CFG_SG_SIZE 0 g
  if n = 0 ∨ s.will t Reg.CFG_SGM_MEN 0 g = 0 then []
  else
    let a := dieOfLogical f
    let b := dieOfLogical (f + n - 1)
    (a, s.will t Reg.CFG_SGM_CH 0 g) :: (if a = b then [] else [(b, s.will t Reg.CFG_SGM_RCH 0 g)])

/-- A group keeps R13, R31 and R115 as the transaction leaves it. -/
def State.groupOk (s : State) (t g : Nat) : Bool :=
  let m := s.newMap t
  let f := s.will t Reg.CFG_SG_FIRST 0 g
  let n := s.will t Reg.CFG_SG_SIZE 0 g
  let others := (List.range 8).filter (fun h => h != g)
  !(s.groupLive g && s.changes t [Reg.CFG_SG_FIRST, Reg.CFG_SG_SIZE, Reg.CFG_SGM_CH, Reg.CFG_SGM_RCH, Reg.CFG_SGM_MEN] 0 g)
    && (n == 0 || (decide (n ≤ 32)
      && (List.range n).all (fun k => s.present (f + k) && partOfDie m (dieOfLogical (f + k)) == partOfDie m (dieOfLogical f))
      && others.all (fun h => !sharesRange f n (s.will t Reg.CFG_SG_FIRST 0 h) (s.will t Reg.CFG_SG_SIZE 0 h)
        && (s.groupChans t g).all (fun c => !(s.groupChans t h).contains c))))

/-- A user format entry as the transaction leaves it. -/
def State.willFmt (s : State) (t i : Nat) : Fmt :=
  let v := fun f => s.will t f 0 i
  let b := fun f => v f == 1
  ⟨b Reg.FMT_A_VALID, b Reg.FMT_A_KIND, b Reg.FMT_A_SIGN, b Reg.FMT_A_SUB, v Reg.FMT_A_WIDTH, v Reg.FMT_A_EXP_BITS, v Reg.FMT_A_SIG_BITS,
   v Reg.FMT_A_BIAS, v Reg.FMT_A_SPECIAL, v Reg.FMT_B_BLOCK, v Reg.FMT_B_SCALE, b Reg.FMT_B_SAT⟩

/-- A written user entry keeps R51. -/
def State.fmtOk (s : State) (t i : Nat) : Bool :=
  let f := s.willFmt t i
  !f.valid || (f.legal && (ctxsOf (i / 16)).all (fun c => !s.stepBusy c))

/-- Every condition on the CFG page. -/
def State.cfgOk (s : State) (t : Nat) : Bool :=
  (!s.writes t 0x001 0x180 0x184 || s.mapOk t)
    && (List.range 8).all (fun g =>
      !(s.writes t 0x001 (0x100 + 4 * g) (0x104 + 4 * g) || s.writes t 0x001 (0x120 + 4 * g) (0x124 + 4 * g)) || s.groupOk t g)
    && (List.range 64).all (fun i => !s.writes t 0x001 (0x200 + 8 * i) (0x208 + 8 * i) || s.fmtOk t i)

/-! ### Conditions on the TILE pages: R99, R105, R110 -/

/-- The registers of a context slot, of an allocation, of a receive queue and of a send queue. -/
def slotFields : List Field := [Reg.CS_VALID, Reg.CS_CTX, Reg.CS_IMEM_BASE, Reg.CS_IMEM_SIZE, Reg.CS_SLIST, Reg.CS_PEG_BASE, Reg.CS_PEG_N]
def allocFields : List Field := [Reg.PN_BASE, Reg.PN_SIZE, Reg.PN_ACT, Reg.PN_RING]
def rqFields : List Field :=
  [Reg.RQ_VALID, Reg.RQ_CTX, Reg.RQ_SLOT_SZ, Reg.RQ_PRODUCER, Reg.RQ_DATA_PEG, Reg.RQ_BASE, Reg.RQ_QSLOTS]
def sqFields : List Field := [Reg.SQ_VALID, Reg.SQ_CTX, Reg.SQ_DEST, Reg.SQ_DEST_Q, Reg.SQ_SPACE_PEG, Reg.SQ_QSLOTS]

/-- A changed unit's context, before or after, has a STEP in progress, or the unit would name a FREE context, R291. -/
def State.unitHeld (s : State) (t : Nat) (fs : List Field) (valid ctx : Field) (inst i : Nat) : Bool :=
  s.changes t fs inst i &&
    ((s.rdB valid inst i && s.stepBusy (s.rd ctx inst i))
      || (s.will t valid inst i == 1 && (s.stepBusy (s.will t ctx inst i) || s.cstate (s.will t ctx inst i) == 0)))

/-- The slots that are valid after the transaction. -/
def State.willSlots (s : State) (t tile : Nat) : List Nat := (List.range 16).filter (fun n => s.will t Reg.CS_VALID tile n == 1)

/-- First and one-past-last 256 B unit of the queue area of a context on a tile after the transaction. -/
def State.willQArea (s : State) (t tile c : Nat) : Option (Nat × Nat) :=
  ((s.willSlots t tile).find? (fun n => s.will t Reg.CS_CTX tile n == c)).map (fun n =>
    let b := s.will t Reg.PN_BASE tile n
    ((b + s.will t Reg.PN_ACT tile n + s.will t Reg.PN_RING tile n) * 1024, (b + s.will t Reg.PN_SIZE tile n) * 1024))

/-- The first unit and the length of a receive queue's slots. -/
def State.willRq (s : State) (t tile q : Nat) : Nat × Nat :=
  (s.will t Reg.RQ_BASE tile q, s.will t Reg.RQ_QSLOTS tile q * s.will t Reg.RQ_SLOT_SZ tile q * 16)

/-- The receive queues that are valid after the transaction. -/
def State.willRqs (s : State) (t tile : Nat) : List Nat := (List.range 16).filter (fun q => s.will t Reg.RQ_VALID tile q == 1)

/-- A receive queue lies within the queue area of its context. -/
def State.rqInArea (s : State) (t tile q : Nat) : Bool :=
  let r := s.willRq t tile q
  (s.willQArea t tile (s.will t Reg.RQ_CTX tile q)).any (fun a => decide (a.1 ≤ r.1) && decide (r.1 + r.2 ≤ a.2))

/-- The slots and allocations of a tile keep R99 and R105. -/
def State.slotsOk (s : State) (t tile : Nat) : Bool :=
  let w := fun f n => s.will t f tile n
  let ns := s.willSlots t tile
  let part := partOfDie (s.newMap t) (dieOfTile tile)
  ns.all (fun n => decide (1 ≤ w Reg.CS_IMEM_SIZE n) && decide (w Reg.CS_IMEM_BASE n + w Reg.CS_IMEM_SIZE n ≤ 64)
      && decide (w Reg.CS_PEG_BASE n + w Reg.CS_PEG_N n ≤ 64) && partOfCtx (w Reg.CS_CTX n) == part && w Reg.PN_SIZE n != 0)
    && !anyPair (fun a b => w Reg.CS_CTX a == w Reg.CS_CTX b
        || sharesRange (w Reg.CS_IMEM_BASE a) (w Reg.CS_IMEM_SIZE a) (w Reg.CS_IMEM_BASE b) (w Reg.CS_IMEM_SIZE b)
        || sharesRange (w Reg.CS_PEG_BASE a) (w Reg.CS_PEG_N a) (w Reg.CS_PEG_BASE b) (w Reg.CS_PEG_N b)
        || sharesRange (w Reg.PN_BASE a) (w Reg.PN_SIZE a) (w Reg.PN_BASE b) (w Reg.PN_SIZE b)) ns
    && (List.range 16).all (fun n => decide (w Reg.PN_ACT n + w Reg.PN_RING n ≤ w Reg.PN_SIZE n)
      && decide (w Reg.PN_BASE n + w Reg.PN_SIZE n ≤ 48)
      && !s.unitHeld t (slotFields ++ allocFields) Reg.CS_VALID Reg.CS_CTX tile n)
    && (s.willRqs t tile).all (s.rqInArea t tile)

/-- The receive queues of a tile keep R110. -/
def State.rqsOk (s : State) (t tile : Nat) : Bool :=
  let qs := s.willRqs t tile
  qs.all (fun q => s.rqInArea t tile q && decide (1 ≤ s.will t Reg.RQ_SLOT_SZ tile q) && decide (s.will t Reg.RQ_SLOT_SZ tile q ≤ 32)
      && decide (1 ≤ s.will t Reg.RQ_QSLOTS tile q) && decide (s.will t Reg.RQ_QSLOTS tile q ≤ 1024))
    && !anyPair (fun a b =>
        let x := s.willRq t tile a
        let y := s.willRq t tile b
        sharesRange x.1 x.2 y.1 y.2) qs
    && (List.range 16).all (fun q => !s.unitHeld t rqFields Reg.RQ_VALID Reg.RQ_CTX tile q)

/-- The send queues of a tile name a matching receive side, R110. -/
def State.sqsOk (s : State) (t tile : Nat) : Bool :=
  (List.range 16).all (fun q =>
    !s.unitHeld t sqFields Reg.SQ_VALID Reg.SQ_CTX tile q &&
      (s.will t Reg.SQ_VALID tile q == 0 ||
        (let l := s.will t Reg.SQ_DEST tile q
         let d := s.phys l
         let k := s.will t Reg.SQ_DEST_Q tile q
         s.present l && partOfDie (s.newMap t) (dieOfTile d) == partOfDie (s.newMap t) (dieOfTile tile)
           && s.will t Reg.RQ_VALID d k == 1 && s.will t Reg.RQ_CTX d k == s.will t Reg.SQ_CTX tile q
           && s.will t Reg.RQ_QSLOTS d k == s.will t Reg.SQ_QSLOTS tile q
           && s.logicalOf tile == some (s.will t Reg.RQ_PRODUCER d k))))

/-- A page is written in the ranges of context slots and allocations, or of queues. -/
def State.writesSlots (s : State) (t tile : Nat) : Bool :=
  s.writes t (tilePage tile) 0x180 0x200 || s.writes t (tilePage tile) 0x300 0x380
def State.writesQueues (s : State) (t tile : Nat) : Bool := s.writes t (tilePage tile) 0x500 0x680

/-- The tiles that break a condition. -/
def State.tilesBad (s : State) (t : Nat) : List Nat :=
  let queues := (List.range 176).any (s.writesQueues t)
  (List.range 176).filter (fun k =>
    (s.writesSlots t k && !s.slotsOk t k) || (queues && ((s.writesQueues t k && !s.rqsOk t k) || !s.sqsOk t k)))

/-! ### Conditions on the MEM and STC pages: R146, R170 -/

/-- The registers of a region. -/
def regionFields : List Field :=
  [Reg.LR_VALID, Reg.LR_CTX, Reg.LR_WRITE, Reg.LR_TAGGED, Reg.LR_HASH, Reg.LR_BASE, Reg.LR_SIZE, Reg.LR_LLEN, Reg.LR_DIGAREA]

/-- The regions of a stack that are valid after the transaction. -/
def State.willRegions (s : State) (t st : Nat) : List Nat := (List.range 64).filter (fun n => s.will t Reg.LR_VALID st n == 1)

/-- The region table of a stack keeps R146. -/
def State.regionsOk (s : State) (t st : Nat) : Bool :=
  let w := fun f n => s.will t f st n
  let ns := s.willRegions t st
  let part := partOfDie (s.newMap t) (dieOfStack st)
  !(s.stack st).out
    && ns.all (fun n =>
      let dig := w Reg.LR_DIGAREA n * 256
      let digLen := 32 * w Reg.LR_LLEN n
      decide (1 ≤ w Reg.LR_SIZE n) && decide (w Reg.LR_BASE n + w Reg.LR_SIZE n ≤ 49152) && partOfCtx (w Reg.LR_CTX n) == part
        && (w Reg.LR_TAGGED n == 0 || (decide (1 ≤ w Reg.LR_LLEN n) && decide (w Reg.LR_LLEN n ≤ 16 * w Reg.LR_SIZE n)))
        && (w Reg.LR_HASH n == 0 || (w Reg.LR_TAGGED n == 1 && dig / 2 ^ 36 == st
          && covers ((ns.filter (fun k => k != n && w Reg.LR_CTX k == w Reg.LR_CTX n)).map (fun k => (w Reg.LR_BASE k * 2 ^ 20, w Reg.LR_SIZE k * 2 ^ 20)))
            (dig % 2 ^ 36) (dig % 2 ^ 36 + digLen) (ns.length + 1))))
    && !anyPair (fun a b => sharesRange (w Reg.LR_BASE a) (w Reg.LR_SIZE a) (w Reg.LR_BASE b) (w Reg.LR_SIZE b)) ns
    && (List.range 64).all (fun n => !s.unitHeld t regionFields Reg.LR_VALID Reg.LR_CTX st n
      && !(s.changes t regionFields st n && (s.rd Reg.LR_READERS st n != 0 || s.rdB Reg.LR_LWAIT st n)))

/-- The update lists of a stack keep R170. -/
def State.listsOk (s : State) (t st : Nat) : Bool :=
  (ctxsOf (s.partOfStack st)).all (fun c => !(s.changes t [Reg.STC_LIST, Reg.STC_NREC] st (c % 16) && s.stepBusy c))

/-! ### Conditions on the CIR and LNK pages: R194, R212 -/

/-- The circuit entries that the transaction writes. -/
def State.entriesOf (s : State) (t : Nat) : List Nat :=
  ((s.shadow.filter (fun e => e.2.1 == t && decide (ctePage * 1024 ≤ e.1))).map (fun e => (e.1 - ctePage * 1024) / 12)).eraseDups

/-- The words of an entry after the transaction. -/
def State.willEntry (s : State) (t e : Nat) : List Nat :=
  (List.range 8).map (fun i => match SMap.find s.shadow (ctePage * 1024 + 12 * e + i) with
    | some (u, v) => if u = t then v else s.entryWord e i
    | none => s.entryWord e i)

/-- The first refused entry with its code, Table 8-3. An endpoint of a FREE context is refused as CTX, R291. -/
def State.entriesBad (s : State) (t : Nat) : Option (Nat × Nat) :=
  let n := s.wr0 Reg.CFG_PMAP (s.newMap t)
  (s.entriesOf t).findSome? (fun e =>
    let w := s.willEntry t e
    let free := wfield w 0 0 0 == 1 && wfield w 0 1 1 == 1 && s.cstate (wfield w 0 13 8) == 0
    let code := n.entryCode e w
    if (code = 0 ∨ 6 < code) ∧ free then some (e, 6) else if code = 0 then none else some (e, code))

/-- The expectation of a Hall port may change, R194. -/
def State.expOk (s : State) (t k : Nat) : Bool :=
  !(s.changes t [Reg.LNK_EXP_PKG, Reg.LNK_EXP_PORT, Reg.LNK_EXP_VALID] k 0 && s.portOpen k)

/-! ### The check cycle, R412, R415 -/

/-- The transaction asks for an import of a calibration image. -/
def State.wantsCal (s : State) (t : Nat) : Bool := s.after t Reg.SOH_CAL_IMPORT 0 0 == 1 && s.writes t 0x008 0x184 0x188

/-- The staged calibration image may be imported, R345. -/
def State.calOk (s : State) : Bool := s.calImageOk s.calStaged && !s.rdB Reg.SOH_CAL_LOCK

/-- The components that the transaction activates, by bit. -/
def State.wantsUpd (s : State) (t : Nat) : Nat := if s.writes t 0x009 0x120 0x124 then 2 * s.after t Reg.UPD_ACT 0 0 else 0

/-- The pages on which a rule fails, in ascending order. -/
def State.failPages (s : State) (t : Nat) : List Nat :=
  (if s.cfgOk t then [] else [0x001])
    ++ (if s.writes t 0x004 0x100 0x108 && !s.limitsOk t then [0x004] else [])
    ++ (if s.wantsCal t && !s.calOk then [0x008] else [])
    ++ (if s.updActOk (s.wantsUpd t) then [] else [0x009])
    ++ (if (s.entriesBad t).isSome then [0x00C] else [])
    ++ ((List.range 16).filter (fun k => !s.expOk t k)).map lnkPage
    ++ ((List.range 12).filter (fun n => s.writes t (0x40 + n) 0x800 0x1000 && !s.regionsOk t n)).map (fun n => 0x40 + n)
    ++ ((List.range 12).filter (fun n => s.writes t (0x50 + n) 0x200 0x280 && !s.listsOk t n)).map (fun n => 0x50 + n)
    ++ (s.tilesBad t).map tilePage

/-- The pages that a partition transaction reached outside its partition, as only COMMIT can tell: groups and circuit entries, R411. -/
def State.outOfScope (s : State) (t : Nat) : List Nat :=
  if 4 ≤ t then []
  else
    let inPart := fun (first n : Nat) => n == 0 || (List.range n).all (fun k => partOfDie s.pmap (dieOfLogical (first + k)) == t)
    let groups := (List.range 8).all (fun g =>
      !(s.writes t 0x001 (0x100 + 4 * g) (0x104 + 4 * g) || s.writes t 0x001 (0x120 + 4 * g) (0x124 + 4 * g)) ||
        (inPart (s.rd Reg.CFG_SG_FIRST 0 g) (s.rd Reg.CFG_SG_SIZE 0 g)
          && inPart (s.will t Reg.CFG_SG_FIRST 0 g) (s.will t Reg.CFG_SG_SIZE 0 g)))
    let entry := fun (w : List Nat) => wfield w 0 0 0 == 0 ||
      (if wfield w 0 1 1 = 1 then partOfCtx (wfield w 0 13 8) == t
        else partOfDie s.pmap (dieOfPort (wfield w 2 3 0)) == t && partOfDie s.pmap (dieOfPort (wfield w 3 3 0)) == t)
    (if groups then [] else [0x001])
      ++ (if (s.entriesOf t).all (fun e => entry ((List.range 8).map (s.entryWord e)) && entry (s.willEntry t e)) then [] else [0x00C])

/-- The mark that a COMMIT reports first, with its lowest page, R415. -/
def firstMark (ms : List (Nat × Nat)) : Option (Nat × Nat) :=
  ([2, 3, 5] : List Nat).findSome? (fun code =>
    match (ms.filter (fun m => m.1 == code)).map Prod.snd with
    | [] => none
    | p :: r => some (code, r.foldl min p))

/-! ### Preparation, R106, R147, R416 -/

/-- The owner of a unit among ranges of units. -/
def ownerOf (l : List (Nat × Nat × Nat)) (u : Nat) : Option Nat :=
  (l.find? (fun x => decide (x.1 ≤ u) && decide (u < x.2.1))).map (fun x => x.2.2)

/-- The ranges of units whose owner differs between two lists of ranges (first, one past the last, owner). -/
def ownerDiff (a b : List (Nat × Nat × Nat)) : List (Nat × Nat) :=
  let cuts := ((a ++ b).flatMap (fun x => [x.1, x.2.1])).eraseDups.mergeSort
  ((cuts.zip (cuts.drop 1)).filter (fun x => ownerOf a x.1 != ownerOf b x.1))

/-- The allocations of a tile's slots, before and after: the owner is the slot with its context. -/
def State.slotOwners (s : State) (tile : Nat) : List (Nat × Nat × Nat) :=
  ((List.range 16).filter (fun n => s.rdB Reg.CS_VALID tile n)).map (fun n =>
    (s.rd Reg.PN_BASE tile n, s.rd Reg.PN_BASE tile n + s.rd Reg.PN_SIZE tile n, 64 * n + s.rd Reg.CS_CTX tile n))
def State.willOwners (s : State) (t tile : Nat) : List (Nat × Nat × Nat) :=
  (s.willSlots t tile).map (fun n =>
    (s.will t Reg.PN_BASE tile n, s.will t Reg.PN_BASE tile n + s.will t Reg.PN_SIZE tile n, 64 * n + s.will t Reg.CS_CTX tile n))

/-- The regions of a stack with their contexts, before and after. -/
def State.regionOwners (s : State) (st : Nat) : List (Nat × Nat × Nat) :=
  ((List.range 64).filter (fun n => s.rdB Reg.LR_VALID st n)).map (fun n =>
    (s.rd Reg.LR_BASE st n, s.rd Reg.LR_BASE st n + s.rd Reg.LR_SIZE st n, s.rd Reg.LR_CTX st n))
def State.willRegionOwners (s : State) (t st : Nat) : List (Nat × Nat × Nat) :=
  (s.willRegions t st).map (fun n =>
    (s.will t Reg.LR_BASE st n, s.will t Reg.LR_BASE st n + s.will t Reg.LR_SIZE st n, s.will t Reg.LR_CTX st n))

/-- The Pantry units of a tile, and the Larder units of a stack, that change owner. -/
def State.pantryZero (s : State) (t tile : Nat) : List (Nat × Nat) :=
  if s.dieMoves t (dieOfTile tile) then [(0, 64)]
  else if s.writesSlots t tile then ownerDiff (s.slotOwners tile) (s.willOwners t tile) else []
def State.larderZero (s : State) (t st : Nat) : List (Nat × Nat) :=
  if s.dieMoves t (dieOfStack st) then [(0, 65536)]
  else if s.writes t (0x40 + st) 0x800 0x1000 then ownerDiff (s.regionOwners st) (s.willRegionOwners t st) else []

/-- Zeroes Pantry units of a tile. -/
def State.zeroPantryUnits (s : State) (tile : Nat) (u : Nat × Nat) : State :=
  let a := pantryAddr tile (u.1 * 2 ^ 18)
  let b := pantryAddr tile (u.2 * 2 ^ 18)
  { s with pantry := s.pantry.zero a (b - a), perr := SMap.clear s.perr (a / 32) (b / 32) }

/-- Zeroes Larder units of a stack. -/
def State.zeroLarderUnits (s : State) (st : Nat) (u : Nat × Nat) : State :=
  let a := larderAddr st (u.1 * 2 ^ 20)
  let b := larderAddr st (u.2 * 2 ^ 20)
  ({ s with larder := s.larder.zero a (b - a), lerr := SMap.clear s.lerr (a / 32) (b / 32) } : State).count (0x40 + st) 1 ((b - a) / 256)

/-- Preparation: every unit that changes owner is zeroed; ZEROING shows it until the apply cycle. The answer also says whether
anything was zeroed. -/
def State.prepare (s : State) (t : Nat) : State × Bool :=
  let ts := ((List.range 176).map (fun k => (k, s.pantryZero t k))).filter (fun x => !x.2.isEmpty)
  let ns := ((List.range 12).map (fun n => (n, s.larderZero t n))).filter (fun x => !x.2.isEmpty)
  let s1 := ts.foldl (fun (r : State) (x : Nat × List (Nat × Nat)) =>
    let r := x.2.foldl (fun (r : State) u => r.zeroPantryUnits x.1 u) r
    (s.willSlots t x.1).foldl (fun r n =>
      let b := s.will t Reg.PN_BASE x.1 n
      if x.2.any (fun u => sharesRange u.1 (u.2 - u.1) b (s.will t Reg.PN_SIZE x.1 n)) then r.wr Reg.PN_ZEROING x.1 n 1 else r) r) s
  let s2 := ns.foldl (fun (r : State) (x : Nat × List (Nat × Nat)) =>
    (x.2.foldl (fun (r : State) u => r.zeroLarderUnits x.1 u) r).wr Reg.MEM_ZEROING x.1 0 1) s1
  (s2, !(ts.isEmpty && ns.isEmpty))

/-- COMMIT: the check cycle and, where it passes, the preparation. STATE shows CHECKING, or PREPARING where units are zeroed, until the
apply cycle. -/
def State.txnCommit (s : State) (ag : Agent) : State :=
  match s.txnOf ag with
  | none => s
  | some t =>
    if s.rd Reg.CFG_TXN_STATE 0 t ≠ 1 then s
    else
      let ms := (s.marks.filter (fun m => m.txn == t)).map (fun m => (m.code, m.page)) ++ (s.outOfScope t).map (fun p => (3, p))
      match firstMark ms with
      | some (code, page) => s.closeTxn t 2 code page
      | none =>
        match s.failPages t with
        | [] =>
          let r := s.prepare t
          r.1.wr Reg.CFG_TXN_STATE 0 t (if r.2 then 3 else 2)
        | p :: _ =>
          let s := match s.entriesBad t with
            | none => s
            | some (e, code) => ((s.wr0 Reg.CIR_COMMIT_CODE code).wr0 Reg.CIR_COMMIT_ENTRY e).raise 0x00C 9 none code
          let s := if s.wantsCal t && !s.calOk then (s.wr0 Reg.SOH_CAL_REFUSED 1).raise 0x008 5 none 0 else s
          s.closeTxn t 2 1 p

/-! ### The apply cycle -/

/-- Registers of a die that a new partition map empties, R416. -/
def mapDrops (ds : List Nat) (k : Nat) : Bool :=
  let page := k / 131072
  let off := k / 32 % 4096
  match Block.ofPage page with
  | some .tile => ds.contains (dieOfTile (page - 0x100)) && decide (0x11C ≤ off) && decide (off < 0x680)
  | some .mem => ds.contains (dieOfStack (page - 0x40)) && (decide (0x180 ≤ off) && decide (off < 0x300) || decide (0x800 ≤ off))
  | some .stc => ds.contains (dieOfStack (page - 0x50)) && decide (0x120 ≤ off) && decide (off < 0x280)
  | _ => false

/-- A new partition map takes effect on the dies that change partition, R416. -/
def State.applyMap (s : State) (t : Nat) : State :=
  let ds := (List.range 4).filter (s.dieMoves t)
  if ds.isEmpty then s
  else
    let fresh := (List.range 4).filter (s.newPart t)
    let s : State := { s with regs := s.regs.filter (fun e => !mapDrops ds e.1) }
    let s := ds.foldl (fun s d =>
      let s := (List.range 44).foldl (fun (s : State) k =>
        { s with tiles := SMap.del s.tiles (44 * d + k), imem := SMap.clear s.imem ((44 * d + k) * 2 ^ 18) ((44 * d + k + 1) * 2 ^ 18) }) s
      (List.range 3).foldl (fun (s : State) k =>
        let n := 3 * d + k
        let s : State := { s with starch := SMap.del s.starch n, folds := SMap.clear s.folds (64 * n) (64 * n + 64) }
        s.clearLandings n) s) s
    fresh.foldl (fun (s : State) p => { s with
      regs := SMap.clear s.regs ((0x1200 + 0x80 * p) * 32) ((0x1280 + 0x80 * p) * 32) }) s

/-- A shadowed word takes its new value; words of the circuit table are applied entry by entry. -/
def State.applyWord (s : State) (e : Nat × Nat) : State :=
  if ctePage * 1024 ≤ e.1 then s
  else
    let page := e.1 / 1024
    match Block.ofPage page with
    | none => s
    | some b =>
      ((wordFields b (e.1 % 1024 * 4)).filter (fun x => x.1.acc = .rwt)).foldl (fun s x =>
        s.wr x.1 (page - b.base) x.2.1 (fieldWith x.1 x.2.2 (s.rd x.1 (page - b.base) x.2.1) e.2)) s

/-- What follows a changed context slot: its pegs at 0, its context's program gone where the region changed, R99. -/
def State.slotChanged (s : State) (tile n : Nat) (old : State) : State :=
  let s := [old, s].foldl (fun s v =>
    (List.range (v.rd Reg.CS_PEG_N tile n)).foldl (fun s i =>
      let g := v.rd Reg.CS_PEG_BASE tile n + i
      ((s.wr Reg.PEG_COUNT tile g 0).wr Reg.PEG_HELD tile g 0).wr Reg.PEG_OWNER tile g 0) s) s
  let region := ([Reg.CS_VALID, Reg.CS_CTX, Reg.CS_IMEM_BASE, Reg.CS_IMEM_SIZE] : List Field).any (fun f => s.rd f tile n != old.rd f tile n)
  if !region then s
  else
    let s := [old, s].foldl (fun s v =>
      if v.rdB Reg.CS_VALID tile n then s.programGone (v.rd Reg.CS_CTX tile n) else s) s
    (s.setTile tile { s.tile tile with slots := SMap.del (s.tile tile).slots n }).showCurves tile

/-- What follows the changes of a tile's page. -/
def State.tileApplied (s : State) (tile : Nat) (old : State) : State :=
  let diff := fun (fs : List Field) n => fs.any (fun f => s.rd f tile n != old.rd f tile n)
  let s := (List.range 16).foldl (fun s n =>
    let s := if diff slotFields n then s.slotChanged tile n old else s
    (s.wr Reg.PN_QAREA tile n (s.rd Reg.PN_SIZE tile n - s.rd Reg.PN_ACT tile n - s.rd Reg.PN_RING tile n)).wr Reg.PN_ZEROING tile n 0) s
  let s := (List.range 16).foldl (fun s q =>
    let s := if diff rqFields q then (s.wr Reg.RQ_QTAIL tile q 0).wr Reg.RQ_HIWATER tile q 0 else s
    if diff sqFields q then s.wr Reg.SQ_QHEAD tile q 0 else s) s
  s.pegOwners tile

/-- What follows the changes of a stack's regions, R146. -/
def State.stackApplied (s : State) (st : Nat) (old : State) : State :=
  let s := (List.range 64).foldl (fun s n =>
    if regionFields.any (fun f => s.rd f st n != old.rd f st n) then
      let s := ((s.wr Reg.LR_STATE st n 0).wr Reg.LR_TAG st n 0).wr Reg.LR_CHUNKS st n 0
      { s with lands := SMap.del s.lands (64 * st + n) }
    else s) s
  s.wr Reg.MEM_ZEROING st 0 0

/-- APPLY: every shadowed field takes its new value, and what the chapters place at a successful COMMIT follows, R412. Operating limits
take effect at the next tick, R306. -/
def State.txnApply (s : State) (t : Nat) : State :=
  if 5 ≤ t ∨ s.rd Reg.CFG_TXN_STATE 0 t < 2 then s
  else
    let old := s
    let ws := s.shadowOf t
    let upd := s.wantsUpd t
    let cal := s.wantsCal t
    let img := s.calStaged
    let entries := (s.entriesOf t).map (fun e => (e, s.willEntry t e))
    let tiles := (List.range 176).filter (fun k => s.dieMoves t (dieOfTile k) || s.writesSlots t k || s.writesQueues t k)
    let mems := (List.range 12).filter (fun n => s.dieMoves t (dieOfStack n) || s.writes t (0x40 + n) 0x800 0x1000)
    let exps := (List.range 16).filter (fun k => s.writes t (lnkPage k) 0x108 0x10C)
    let s := s.applyMap t
    let s := ws.foldl State.applyWord s
    let s := s.closeTxn t 1 0 0
    let s := tiles.foldl (fun s k => s.tileApplied k old) s
    let s := mems.foldl (fun s n => s.stackApplied n old) s
    let s := entries.foldl (fun (s : State) (e : Nat × List Nat) => s.applyEntry e.1 e.2) s
    let s := exps.foldl State.expCommitted s
    let s := if cal then ((s.calImport img).wr0 Reg.SOH_CAL_REFUSED 0).wr0 Reg.SOH_CAL_IMPORT 0 else s
    if upd = 0 then s else (s.wr0 Reg.UPD_ACT 0).updActivate upd

end Sys2Proof.Machine
end

