-- ==== Sys2Proof/Machine/Bus.lean ====
section
/-! DEFINITION. The control ring: who may reach which page (R282, R424, R431, R438), reads with the latch of R427 and the pop of R234,
writes with the access types of Table 0-5 and the behaviour of every field that has one, counter clears (R428) and the collector
(R432 to R435). -/

namespace Sys2Proof.Machine

open Sys2Proof

/-! ### Agents, R282, R424 -/

/-- The agent makes accesses: an open session; Soholt while it runs; debug while JTAG is active, Table 12-9; the collector. -/
def State.agentLive (s : State) (ag : Agent) : Bool :=
  match ag with
  | .session p n => decide (p < 2) && decide (n < 32) && s.sessOpen p n
  | .soholt => s.rd Reg.SOH_RESTARTING == 0 && !s.noImage
  | .debug => s.flash.lifecycle % 2 == 0 && s.domainOn 79
  | .collector => true

/-- The partition to which a session's scope confines it. -/
def State.agentPart (s : State) (ag : Agent) : Option Nat :=
  match ag with
  | .session p n => if scopeAll (s.rd Reg.HST_S_SCOPE p n) then none else some (s.rd Reg.HST_S_SCOPE p n % 4)
  | _ => none

/-- The page is one that R282 opens to partition `p`. -/
def State.inPart (s : State) (p page : Nat) : Bool :=
  match Block.ofPage page with
  | some .tile => s.partOfTile (page - 0x100) == p
  | some .mem => s.partOfStack (page - 0x40) == p
  | some .stc => s.partOfStack (page - 0x50) == p
  | some .lnk => partOfDie s.pmap (dieOfPort (page - 0x30)) == p
  | some .ce => partOfDie s.pmap (page - 0x20) == p
  | some .sfb => partOfDie s.pmap (page - 0x60) == p
  | some .ctx => partOfCtx (page - 0x300) == p
  | _ => false

/-- The agent may make an access to a page. After NO_IMAGE sessions reach GLB, SOH and UPD alone, R401. -/
def State.reaches (s : State) (ag : Agent) (page : Nat) (write : Bool) : Bool :=
  s.agentLive ag && !(write && ag == .collector) &&
    match s.agentPart ag with
    | some p => s.inPart p page || (!write && (page == 0x000 || page == 0x00B))
    | none => match ag with
      | .session _ _ => !s.noImage || page == 0x000 || page == 0x008 || page == 0x009
      | _ => true

/-- An access outside a session's scope raises SCOPE_DENIED. -/
def State.accessDenied (s : State) (ag : Agent) : State :=
  match ag with
  | .session p n => if s.agentLive ag then s.deny p n else s
  | _ => s

/-! ### Reads -/

/-- A low or high word of a 64-bit pair, R427: which word of it lies at an offset, if any. -/
def pairWord (b : Block) (off : Nat) : Option Nat :=
  (wordFields b off).findSome? (fun x => if 32 < x.1.width ∧ x.1.width ≤ 64 then some x.2.2 else none)

/-- The block whose fields lie at an offset of a page. -/
def blockAt (page off : Nat) : Option Block := if off < 0x100 then (Block.ofPage page).map (fun _ => Block.common) else Block.ofPage page

/-- A word of the STW page as a session of partition `p` reads it, R431. -/
def State.stwFor (s : State) (p off : Nat) : Nat :=
  let v := s.stwWord off
  let w := off / 4
  let keep := fun (n width : Nat) (q : Nat → Bool) => packed n width (fun i => if q i then bits v (width * i + width - 1) (width * i) else 0)
  if off = 0x108 then keep 5 3 (fun l => l == p || l == 4)
  else if off = 0x110 ∨ off = 0x114 then keep 32 1 (fun b => partOfCtx (32 * (w - 0x44) + b) == p)
  else if off = 0x118 ∨ off = 0x11C then keep 32 1 (fun b => partOfCtx (32 * (w - 0x46) + b) == p)
  else if off = 0x120 ∨ off = 0x124 then keep 8 4 (fun k => s.inPart p (0x30 + 8 * (w - 0x48) + k))
  else if 0x200 ≤ off ∧ off < 0x268 then
    keep 32 1 (fun b => let q := 32 * (w - 0x80) + b; s.inPart p q || q == 0x000 || q == 0x00B)
  else if 0x300 ≤ off ∧ off < 0x400 then (if partOfCtx (w - 0xC0) = p then v else 0)
  else if 0x400 ≤ off ∧ off < 0x500 then (if partOfCtx (w - 0x100) = p then v else 0)
  else v

/-- A word as an agent reads it: the status window under R431, and the counters of a sealed partition's contexts under R438. -/
def State.agentWord (s : State) (ag : Agent) (page off : Nat) : Nat :=
  match ag with
  | .session _ _ => match s.agentPart ag with
    | some p => if page = 0x00B ∧ 0x100 ≤ off then s.stwFor p off else s.word page off
    | none => s.word page off
  | _ =>
    if Block.ofPage page = some .ctx ∧ 0x40 ≤ off ∧ off < 0x80 ∧ s.isSealed (partOfCtx (page - 0x300)) then 0 else s.word page off

/-- The agent's latch goes. -/
def State.dropLatch (s : State) (ag : Agent) : State := { s with latches := s.latches.filter (fun l => l.agent != ag) }

/-- An aligned read: the value, and the state after it. The low word of a pair latches the high word; the high word right after it
shows the latch; CIR_EVQ pops, R234, R427. -/
def State.busRead (s : State) (ag : Agent) (addr : Nat) : State × Nat :=
  let page := addr / 4096
  let off := addr % 4096
  let latch := s.latches.find? (fun l => l.agent == ag && l.page == page && l.off == off)
  let s := s.dropLatch ag
  let s := if page = 0x00C ∧ off = 0x140 ∧ s.powered page then s.evPop else s
  match latch with
  | some l => (s, l.value)
  | none =>
    let v := s.agentWord ag page off
    if (blockAt page off).any (fun b => pairWord b off == some 0) then
      ({ s with latches := s.latches ++ [⟨ag, page, off + 4, s.agentWord ag page (off + 4)⟩] }, v)
    else (s, v)

/-! ### Counters, R428, and the collector, R432 to R435 -/

/-- The 64-bit fields of a block that count. -/
def Block.counters (b : Block) : List Field := Reg.all.filter (fun f => f.block = b ∧ f.width = 64 ∧ b ≠ .hng)

/-- CLR_GO: the named counters of a page are cleared. -/
def State.clearCounters (s : State) (page mask : Nat) (blk : Bool) : State :=
  match Block.ofPage page with
  | none => s
  | some b =>
    let s := (List.range 8).foldl (fun s n => if bit mask n = 1 then s.wr Reg.CNT_N page n 0 else s) s
    if blk then b.counters.foldl (fun s f => (List.range f.count).foldl (fun s i => s.wr f (page - b.base) i 0) s) s else s

/-- A write of RUN: 1 starts the collector if a selection is valid, 0 stops it, R433. -/
def State.collectorRun (s : State) (v : Nat) : State :=
  if v = 0 then s.wr0 Reg.CNT_RUN 0
  else if !(List.range 64).any (fun k => s.rdB Reg.CNT_SEL_VALID 0 k) then s
  else (s.wr0 Reg.CNT_RUN 1).wr0 Reg.CNT_FULL 0

/-- The pair of a selection at the capture's edge; an undefined pair, an unmapped page or an unpowered block gives 0, R432, R438. -/
def State.sampleOf (s : State) (k : Nat) : Nat :=
  let page := s.rd Reg.CNT_SEL_PAGE 0 k
  let off := 8 * s.rd Reg.CNT_SEL_PAIR 0 k
  if s.rdB Reg.CNT_SEL_VALID 0 k && (blockAt page off).any (fun b => pairWord b off == some 0) then
    s.agentWord .collector page off + 2 ^ 32 * s.agentWord .collector page (off + 4)
  else 0

/-- COLLECTOR_CAPTURE: a record is written to the snapshot buffer, Table 15-8. -/
def State.collectorCapture (s : State) : State :=
  if s.rd Reg.CNT_RUN = 0 then s
  else if 1024 ≤ s.coll.recs.length ∧ s.rd Reg.CNT_WRAP = 0 then (s.wr0 Reg.CNT_RUN 0).wr0 Reg.CNT_FULL 1
  else
    let n := s.rd Reg.CNT_SNAP_NEXT
    let nsel := ((List.range 64).filter (fun k => s.rdB Reg.CNT_SEL_VALID 0 k)).length
    let v := n + 2 ^ 32 * (s.timeUs % 2 ^ 48) + 2 ^ 96 * nsel
      + ((List.range 64).map (fun k => 2 ^ (32 * (8 + 2 * k)) * s.sampleOf k)).sum
    let old := if 1024 ≤ s.coll.recs.length then SMap.del s.coll.recs (s.rd Reg.CNT_SNAP_OLDEST) else s.coll.recs
    let oldest := if 1024 ≤ s.coll.recs.length then s.rd Reg.CNT_SNAP_OLDEST + 1 else s.rd Reg.CNT_SNAP_OLDEST
    let s : State := { s with coll := { recs := SMap.put old n v } }
    let s := ((s.wr0 Reg.CNT_SNAP_NEXT (n + 1)).wr0 Reg.CNT_SNAP_OLDEST oldest).count 0x00A 0 1
    if 1024 ≤ s.coll.recs.length ∧ s.rd Reg.CNT_WRAP = 0 then (s.wr0 Reg.CNT_RUN 0).wr0 Reg.CNT_FULL 1 else s

/-- SNAP_RSEL: the record with a serial is copied into the window, R434. -/
def State.snapSelect (s : State) (v : Nat) : State :=
  let s := s.wr0 Reg.CNT_SNAP_RSEL v
  match SMap.find s.coll.recs v with
  | some r => (s.wr0 Reg.CNT_SNAP_W r).wr0 Reg.CNT_SNAP_RVALID 1
  | none => (s.wr0 Reg.CNT_SNAP_W 0).wr0 Reg.CNT_SNAP_RVALID 0

/-! ### Field writes -/

/-- The catalogue's bits of a page, as a mask; of FLT_CLASS the bits of origin C are left out, R364. -/
def faultMask (page : Nat) (cls : Bool) : Nat :=
  match Block.ofPage page with
  | none => 0
  | some b => (catalogue b).foldl (fun m x => if cls && x.2.org == 2 then m else setBit m x.1) 0

/-- A value written to an RW field is taken; the tables and rules that discard a value or a write answer false here, R8. -/
def State.takes (s : State) (f : Field) (inst v : Nat) : Bool :=
  let within := fun (lo hi : Nat) => decide (lo ≤ v) && decide (v ≤ hi)
  if f = Reg.CTX_EXEC_MODE then !s.stepBusy inst && decide (v < 2)
  else if f = Reg.CTX_EXEC_PLACE then !s.stepBusy inst && decide (v < 3)
  else if f = Reg.CTX_EXEC_SPLIT_LOG then !s.stepBusy inst && decide (v < 6)
  else if f = Reg.CTX_SG_MASK then !s.stepBusy inst && s.cstate inst != 0
  else if f = Reg.CTX_EXEC_NSEQ ∨ f = Reg.CTX_STEP_NUM ∨ f = Reg.CTX_SEED_LO ∨ f = Reg.CTX_SEED_HI ∨ f = Reg.CTX_MFEED then
    !s.stepBusy inst
  else if f = Reg.MEM_ECC2 then !s.isSealed (s.partOfStack inst)
  else if f = Reg.MEM_SCRUB_H then within 1 168
  else if f = Reg.CIR_OPEN_TMO ∨ f = Reg.CIR_QUIET_TMO ∨ f = Reg.CE_OSTALL_MS ∨ f = Reg.CE_RESEND_LIM then v != 0
  else if f = Reg.HST_RTO_US then within 10 50000
  else if f = Reg.HST_SESS_TMO ∨ f = Reg.CFG_TXN_TMO then within 1 6000
  else if f = Reg.CLK_DROOP_MV then within 10 100
  else if f = Reg.CLK_DROOP_HOLD then within 2 255
  else if f = Reg.THM_WARM_FLOOR then within 30 60
  else if f = Reg.UPD_LEN then decide (v ≤ 0x3000000)
  else if f = Reg.HNG_LADDER_MAX then within 1 5
  else if f = Reg.HNG_REPLAY_WIN then within 1 10000
  else if f = Reg.HNG_REPEAT_WIN then within 10 60000
  else if f = Reg.PROG_WIN then (Block.ofPage inst).any Block.isEngine && within 1 10000
  else if f = Reg.PAGE_DRAIN then (Block.ofPage inst).any Block.isEngine
  else if f = Reg.CNT_COL_PER then s.rd Reg.CNT_RUN == 0 && within 1 1000000
  else if f = Reg.CNT_SEL_PAGE ∨ f = Reg.CNT_SEL_PAIR ∨ f = Reg.CNT_SEL_VALID then s.rd Reg.CNT_RUN == 0
  else true

/-- DRAIN of an engine page: 0 lets the engine go on, R419. -/
def State.drain (s : State) (page v : Nat) : State :=
  if !s.takes Reg.PAGE_DRAIN page v then s
  else
    let s := s.wr Reg.PAGE_DRAIN page 0 v
    if v % 2 = 0 then s.engineGo page else s

/-- DUMP_PIN of the selected slot, R338. -/
def State.dumpPin (s : State) (v : Nat) : State :=
  let k := s.rd Reg.SOH_DUMP_SEL
  { s with flash := { s.flash with dumps := s.flash.dumps.modify k (fun d => { d with pinned := v == 1 }) } }

/-- An RW or RWL field of instance `inst` takes `v`, with the behaviour of the fields that have one. -/
def State.putField (s : State) (f : Field) (inst i v : Nat) : State :=
  if !s.takes f inst v then s
  else if f = Reg.FLT_MASK then s.wr f inst i (Nat.land v (faultMask inst false))
  else if f = Reg.FLT_CLASS then s.wr f inst i (Nat.land v (faultMask inst true))
  else if f = Reg.PAGE_DRAIN then s.drain inst v
  else if f = Reg.BR_CE_LIM then (if i = inst then s else s.wr f inst i v)
  else if f = Reg.LNK_EN then s.lnkEn inst v
  else if f = Reg.LNK_LOOP then s.lnkLoop inst v
  else if f = Reg.HST_EN then s.hstEn inst v
  else if f = Reg.HST_SPLIT then s.hstSplit inst v
  else if f = Reg.CTX_CPL_ACKED then s.cplAck inst v
  else if f = Reg.GLB_TARGET then s.target v
  else if f = Reg.SOH_CAL_LOCK then s.calLock v
  else if f = Reg.THM_WARM_EN then (s.wr0 f v).showPlace
  else if f = Reg.SOH_DUMP_PIN then s.dumpPin v
  else if f = Reg.CNT_RUN then s.collectorRun v
  else if f = Reg.CNT_SNAP_RSEL then s.snapSelect v
  else s.wr f inst i v

/-- The part of a written word that falls to a field. -/
def State.putWord (s : State) (f : Field) (inst i k w : Nat) : State :=
  match f.acc with
  | .rw | .rwl => if f = Reg.PWR_PD_REQ then s.pdReq k w else s.putField f inst i (fieldWith f k (s.rd f inst i) w)
  | .w1c =>
    if f = Reg.FLT_STAT then s.fltClear inst w
    else if f = Reg.FLT_FT_LATCH then (if bit w 0 = 1 then s.ftClear else s)
    else if bit w f.lo = 1 then s.wr f inst i 0 else s
  | _ => s

/-! ### Actions of WO fields -/

/-- Digests of the curve tables that a context's active program names, and of the user rules that its update records name, for the
report of R354. -/
def State.namesOf (s : State) (c : Nat) : List Nat :=
  let curves := match s.tilesOfCtx c with
    | [] => []
    | t :: _ => (s.slotOf t c).elim [] (fun n =>
        (SMap.get SlotRun.empty (s.tile t).slots n).curves.map (fun k => s.rd Reg.FN_CT_DIG t k))
  let rules := (s.stacksOf (partOfCtx c)).flatMap (fun st => (List.range (s.rd Reg.STC_NREC st (c % 16))).filterMap (fun k =>
    let slot := wfield (s.recWords st c k) 0 2 0
    if 4 ≤ slot then (SMap.find (s.starchAt st).rules slot).map (fun b => digNat (sha256 b)) else none))
  curves ++ rules.eraseDups

/-- ATT_GO by an agent, R354. -/
def State.attestGo (s : State) (ag : Agent) : State :=
  s.attGo s.namesOf (fun n r => (s.landing (64 * n + r)).digest) ((s.agentPart ag).getD 4)

/-- The verdict on a staged lifecycle token, whose layout the spec does not give, is a free value where the token is not an operand. -/
def State.tokenAny (s : State) : State :=
  let ok := (Config.freeWord s.free).toNat % 2 == 1
  s.tick.lcReturn s.flash.deviceId s.flash.attCount ok

/-- OP of CFG_TXN_CTRL, with GO = 1. -/
def State.txnCtrl (s : State) (ag : Agent) (op scope : Nat) : State :=
  match op with
  | 1 => s.txnBegin ag scope
  | 2 => s.txnCommit ag
  | 3 => s.txnRollback ag
  | _ => s

/-- REC_REQ, Table 13-19. -/
def State.recWord (s : State) (ag : Agent) (w : Nat) : State :=
  s.recReq (s.agentPart ag) (bits w 2 0) (bits w 9 7) (bits w 25 16)

/-- SCRUB of an engine page other than a Porch page, R420. -/
def State.scrubPage (s : State) (ag : Agent) (page : Nat) : State :=
  match Block.ofPage page with
  | some b => if b.isEngine && b != .hst then s.recReq (s.agentPart ag) 2 0 page else s
  | none => s

/-- Does `g` where bit `i` of the written word is 1. -/
def State.onBit (s : State) (w i : Nat) (g : State → State) : State := if bit w i = 1 then g s else s

/-- The actions of a written word's WO fields, after its other fields have taken their values. -/
def State.wordActions (s : State) (ag : Agent) (page off w : Nat) : State :=
  match blockAt page off, off with
  | some .common, 0x008 => s.onBit w 2 (fun s => s.scrubPage ag page)
  | some .cfg, 0x140 => s.onBit w 31 (fun s => s.txnCtrl ag (bits w 1 0) (bits w 4 2))
  | some .flt, 0x114 => s.onBit w 31 State.fenceGo
  | some .hng, 0x10C => s.onBit w 31 (fun s => s.recWord ag w)
  | some .thm, 0x100 => s.onBit w 8 State.sensClr
  | some .sec, 0x100 => s.onBit w 2 State.tokenAny
  | some .sec, 0x140 => (s.onBit w 0 (fun s => s.attestGo ag)).onBit w 1 State.attCert
  | some .sec, 0x160 => (s.onBit w 0 (fun s => s.sealGo (bit w 10 == 1))).onBit w 1 State.unsealGo
  | some .soh, 0x110 => s.onBit w 16 (fun s => s.requestPowerCycle 0)
  | some .soh, 0x160 => s.onBit w 2 State.dumpExport
  | some .soh, 0x180 => (s.onBit w 0 State.calExport).onBit w 4 State.cfgSave
  | some .upd, 0x100 => ((s.onBit w 0 State.updOpen).onBit w 1 State.updCheck).onBit w 2 State.updVerify
  | some .upd, 0x114 => s.svnRaise (w % 65536)
  | some .cnt, 0x120 => s.onBit w 31 (fun s => s.clearCounters (bits w 9 0) (bits w 17 10) (bit w 18 == 1))
  | some .cir, 0x144 => s.onBit w 31 (fun s => s.closeGo (bits w 9 0))
  | some .lnk, 0x100 => (s.onBit w 1 (fun s => s.lnkRetry (page - 0x30))).onBit w 2 (fun s => s.lnkRetrain (page - 0x30))
  | some .stc, 0x110 => s.onBit w 0 (fun s => s.ruleLoad (page - 0x50))
  | some .ctx, 0x120 => (s.onBit w 0 (fun s => s.load (page - 0x300))).onBit w 1 (fun s => s.curve (page - 0x300))
  | some .ctx, 0x200 =>
    ((s.onBit w 2 (fun s => s.ctxOpen (page - 0x300))).onBit w 3 (fun s => s.teardown (page - 0x300))).onBit w 14
      (fun s => s.cplBind (page - 0x300))
  | _, _ => s

/-! ### Writes -/

/-- The word holds RWT fields that may be written: not those of the fixed format entries, R50, nor of the expectations of the torus
ports, R194. -/
def txnWord (page off : Nat) : Bool :=
  match Block.ofPage page with
  | none => false
  | some b =>
    if off < 0x100 then false
    else if b = .cir then decide (0x110 ≤ off) && decide (off < 0x130)
    else (wordFields b off).any (fun x => x.1.acc = .rwt)
      && !(b == .cfg && decide (0x200 ≤ off) && decide (off / 8 % 16 < 8)) && !(b == .lnk && decide (page < 0x3C))

/-- A write that a page takes: mapped, powered, and not the page of an unassigned context, R22, R417, R422. -/
def State.writable (s : State) (page : Nat) : Bool :=
  (Block.ofPage page).isSome && s.powered page && !(Block.ofPage page == some .ctx && !s.ctxAssigned (page - 0x300))

/-- An aligned write by an agent that may reach the page: field by field, R5, R8. -/
def State.busWrite (s : State) (ag : Agent) (addr w : Nat) : State :=
  let page := addr / 4096
  let off := addr % 4096
  let s := s.dropLatch ag
  if !s.writable page then s
  else
    match blockAt page off with
    | none => s
    | some b =>
      let s := if txnWord page off then s.shadowWrite ag page off w else s
      let inst := if b = .common then page else page - b.base
      let s := (wordFields b off).foldl (fun s x => s.putWord x.1 inst x.2.1 x.2.2 w) s
      s.wordActions ag page off w

/-- An access of an agent to a page that does `g`: refused with SCOPE_DENIED where the session may not reach it, and discarded where the
page takes no write. -/
def State.asWrite (s : State) (ag : Agent) (page : Nat) (g : State → State) : State :=
  if !s.reaches ag page true then s.accessDenied ag
  else if !s.writable page then s.dropLatch ag
  else g (s.dropLatch ag)

/-- One operation of a REG message or of another agent: the state, the data returned and the STATUS of Table 10-4. -/
def State.regOp (s : State) (ag : Agent) (op addr data : Nat) : State × Nat × Nat :=
  if (op ≠ 1 ∧ op ≠ 2) ∨ addr % 4 ≠ 0 ∨ 2 ^ 24 ≤ addr then (s, data, 1)
  else if !s.reaches ag (addr / 4096) (op == 2) then (s.accessDenied ag, data, 2)
  else if op = 1 then
    let r := s.busRead ag addr
    (r.1, r.2, 0)
  else (s.busWrite ag addr (data % 2 ^ 32), data, 0)

end Sys2Proof.Machine
end

