-- ==== Sys2Proof/Machine/Messages.lean ====
section
/-! DEFINITION. BHP messages as they arrive (R277 to R283): validity, acknowledgement, order, and what each type does. -/

namespace Sys2Proof.Machine

open Sys2Proof

/-- The session that a message names is open and its peer is the sender, on the sub-port to which the session is bound. -/
def State.peerOf (s : State) (m : Msg) : Bool :=
  s.sessOpen m.port m.session && s.rd Reg.HST_S_SUB m.port m.session == m.sub && s.rd Reg.HST_S_UDP m.port m.session == m.udp
    && s.rd Reg.HST_S_ADDR m.port m.session == m.addr && (s.session m.port m.session).any (fun x => x.v6 == m.v6)

/-- A message opens a session. -/
def Msg.opens (m : Msg) : Bool := m.typ == 1 && m.skind == 1

/-- A message is valid, R277. -/
def State.msgValid (s : State) (m : Msg) : Bool := m.ver == 1 && m.formOk && m.crc == m.bcrc && (m.opens || s.peerOf m)

/-- The operations of a REG request, Table 10-4: address, OP and data. -/
def Msg.regOps (m : Msg) : List (Nat × Nat × Nat) :=
  let ws := toWords (m.payload.length / 4) m.payload
  (List.range (m.payload.length / 16)).map (fun i => (wfield ws (4 * i) 23 0, wfield ws (4 * i) 27 24, ws.getD (4 * i + 1) 0))

/-- REG: the operations in payload order, and one response, R283. -/
def State.regIn (s : State) (n : Nat) (m : Msg) : State :=
  let r := m.regOps.foldl (fun (a : State × List RegOp) (o : Nat × Nat × Nat) =>
    let q := a.1.regOp (.session m.port n) o.2.1 o.1 o.2.2
    ((if q.2.2 = 0 then q.1.count (hstPage m.port) 7 1 else q.1), a.2 ++ [⟨o.1, o.2.1, q.2.1, q.2.2⟩])) (s, [])
  r.1.sendNum m.port n (.regResp m.seq r.2)

/-- A numbered message is acted on. -/
def State.actOn (s : State) (m : Msg) : State :=
  match m.typ with
  | 2 => s.cmdIn m.port m.session m.seq (bits m.argA 5 0) m.argB m.payload
  | 3 => s.regIn m.session m
  | 4 => if m.bkind = 2 then s.wdataIn m.session m else s.descIn m.session m
  | _ => s

/-- Messages that have come in order are acted on, each once; WDATA that was placed as it came is not placed again. `f` bounds their
number. -/
def State.drainInbox (s : State) (p n : Nat) : Nat → State
  | 0 => s
  | f + 1 => match s.session p n with
    | none => s
    | some x =>
      let next := s.rd Reg.HST_S_RXACK p n
      match SMap.find x.inbox next with
      | none => s
      | some (m, acted) =>
        let s : State := { s with sess := SMap.put s.sess (32 * p + n) { x with inbox := SMap.del x.inbox next } }
        let s := s.wr Reg.HST_S_RXACK p n (next + 1)
        (if acted then s else (s.count (hstPage p) 0 1).actOn m).drainInbox p n f

/-- A numbered message of the peer, R279. -/
def State.numberedMsg (s : State) (m : Msg) : State :=
  let p := m.port
  let n := m.session
  match s.session p n with
  | none => s
  | some x =>
    let next := s.rd Reg.HST_S_RXACK p n
    let due := fun (s : State) => match s.session p n with
      | none => s
      | some x => { s with sess := SMap.put s.sess (32 * p + n) { x with ackDue := true } }
    if older m.seq next ∨ (SMap.find x.inbox m.seq).isSome then ((due s).ackSend p n).msgDrop m
    else if s.rxWindow p < (m.seq + 2 ^ 32 - next) % 2 ^ 32 then s.msgDrop m
    else
      let early := m.typ == 4 && m.bkind == 2 && (s.xfer p n (bits m.argA 15 0)).any (fun y => y.write)
      let s := due { s with sess := SMap.put s.sess (32 * p + n) { x with inbox := SMap.put x.inbox m.seq (m, early) } }
      let s := if early then (s.count (hstPage p) 0 1).wdataIn n m else s
      s.drainInbox p n (x.inbox.length + 1)

/-- The peer's place is where its last valid message came from, R275. -/
def State.learnPeer (s : State) (m : Msg) : State :=
  match s.session m.port m.session with
  | none => s
  | some x => { s with sess := SMap.put s.sess (32 * m.port + m.session) { x with mac := m.mac, vlan := m.vlan, ip := m.addr } }

/-- A valid message on a session: the peer's acknowledgement, then the message. -/
def State.sessionMsg (s : State) (m : Msg) : State :=
  let s := (s.learnPeer m).ackIn m.port m.session m
  match m.typ with
  | 1 => s.sessClose m.port m.session
  | 2 | 3 | 4 => s.numberedMsg m
  | _ => s

/-- A message arrives on a port: discarded and counted where it is not valid, R277; else, where it is of the kind that `q` names, it
takes effect. -/
def State.message (s : State) (m : Msg) (q : Msg → Bool) : State :=
  if !s.msgHeard m then s
  else if !s.msgValid m then
    let s := s.msgDrop m
    if m.crc != m.bcrc then s.raise (hstPage m.port) 0 none 0 else s
  else if !q m then s
  else if m.opens then s.sessionOpen m
  else s.sessionMsg m

end Sys2Proof.Machine
end

