-- ==== Sys2Proof/Machine/Waits.lean ====
section
/-! DEFINITION. What one µs of waiting adds: the Press goes on through its queue (R45 to R47), and the counters of clock cycles advance
by the cycles of the µs where what they count lasts (R70, R102, R126, R171, R203, R236, R267, R271, R329). The grain is the µs: a wait
that begins and ends within one µs adds nothing (DESIGN CHOICE, log entry 5). -/

namespace Sys2Proof.Machine

open Sys2Proof

/-- FCLK and MCLK cycles of a µs. -/
def fclkUs : Nat := 1500
def mclkUs : Nat := 1200

/-- CCLK cycles of the µs after `t` on a die: 18 GHz over its divider, Table 11-2. -/
def State.cclkUs (s : State) (d t : Nat) : Nat :=
  let v := s.rd ([Reg.CLK_DIV_0, Reg.CLK_DIV_1, Reg.CLK_DIV_2, Reg.CLK_DIV_3].getD d Reg.CLK_DIV_0) 0 0
  18000 * (t + 1) / v - 18000 * t / v

/-- Frames that a port's lanes carry in the µs after `t`: 5,440 bits a lane at 224 Gbit/s, R177. -/
def framesUs (t : Nat) : Nat := 7000 * (t + 1) / 170 - 7000 * t / 170

/-- A tile's Press runs for the cycles that pacing leaves it, R299, and its stalls are counted, R70. -/
def State.pressUs (s : State) (t n : Nat) : State :=
  let x := s.tile t
  if x.press.isEmpty ∨ !s.tileRuns t then s
  else
    let m := n * (4 - s.rd Reg.PWR_DUTY) / 4
    let r := pxRun m [] x.press
    let s := (s.setTile t { x with press := r.1 }).pxShow t
    let idle := r.2 + (if r.2 = 0 then 0 else n - m)
    let k := pxStalls r.1
    let s := if k.1 then s.count (tilePage t) 1 idle else s
    if k.2 then s.count (tilePage t) 3 idle else s

/-- The Finisher's waits, R102 and Table 5-14: on a peg, on the Press or a transfer, and on the peg of a queue. -/
def State.finisherUs (s : State) (t n : Nat) : State :=
  match (s.tile t).stage, s.rd Reg.FN_STAT_WAIT t with
  | some st, 1 =>
    let s := s.count (tilePage t) 5 n
    match s.bundleAt t st with
    | none => s
    | some b =>
      let p := bits b.m 37 32
      let space := (List.range 16).any (fun q => s.rdB Reg.SQ_VALID t q && s.rd Reg.SQ_CTX t q == st.ctx && s.rd Reg.SQ_SPACE_PEG t q == p)
      let data := (List.range 16).any (fun q => s.rdB Reg.RQ_VALID t q && s.rd Reg.RQ_CTX t q == st.ctx && s.rd Reg.RQ_DATA_PEG t q == p)
      let s := if b.mOp = 9 ∧ space then s.countF (tilePage t) Reg.RT_QFULL t 0 n else s
      if b.mOp = 9 ∧ data then s.countF (tilePage t) Reg.RT_QEMPTY t 0 n else s
  | some _, 2 => s.count (tilePage t) 6 n
  | some _, 3 => s.count (tilePage t) 6 n
  | _, _ => s

/-- What a channel waits for, Table 5-14: 1 a credit, 2 Larder data, 3 a landing tag; beside it the tiles without a credit. A vector of
an open record counts as ready, since the channel reads ahead (DEDUCED, log entry 5). -/
def State.chanWait (s : State) (g : Nat) (far : Bool) : Nat × List Nat :=
  let d := (s.groupDies g).1
  let e := (s.groupDies g).2
  match SMap.find s.feeds g with
  | some f =>
    let ts := (s.targetSet g f).filter (fun l => dieOfLogical l == (if far then e else d))
    let idx := if far then f.far else f.sent
    let late := ts.filter (fun l => s.credit (s.phys l) != some f.ctx)
    if wfield f.words 1 23 0 ≤ idx then (0, [])
    else if late.isEmpty then (2, [])
    else if far && f.farBuf.isEmpty then (0, [])
    else (1, late)
  | none =>
    let cs := (s.groupTiles g).map (fun l => s.credit (s.phys l))
    if far || cs.isEmpty || cs.any Option.isNone then (0, [])
    else match cs.eraseDups with
      | [some c] =>
        let w := (s.larderSeen (s.rd Reg.CTX_MFEED c g * 256 + 16 * s.rd Reg.CTX_MPOS c g) 16).map (toWords 4)
        let held := w.any (fun w => wfield w 2 0 0 == 1
          && (s.tagReady c [(w.getD 0 0 * 256, wfield w 1 23 0 * (4 * wfield w 1 31 24))]).isNone)
        (if held then 3 else 2, [])
      | _ => (1, [])

/-- The waits of the channels of a group. -/
def State.groupUs (s : State) (g t : Nat) : State :=
  if s.rd Reg.CFG_SG_SIZE 0 g = 0 ∨ s.rd Reg.CFG_SGM_MEN 0 g = 0 then s
  else
    let one := fun (s : State) (far : Bool) =>
      let d := if far then (s.groupDies g).2 else (s.groupDies g).1
      let k := s.rd (if far then Reg.CFG_SGM_RCH else Reg.CFG_SGM_CH) 0 g
      let n := s.cclkUs d t
      let w := s.chanWait g far
      let s := match w.1 with
        | 1 => s.countF (0x60 + d) Reg.MCH_WCRED d k n
        | 2 => s.countF (0x60 + d) Reg.MCH_WFEED d k n
        | 3 => s.countF (0x60 + d) Reg.MCH_WTAG d k n
        | _ => s
      w.2.foldl (fun s l => s.countF (tilePage (s.phys l)) Reg.RT_MLATE (s.phys l) 0 n) s
    let s := one s false
    if (s.groupDies g).1 = (s.groupDies g).2 then s else one s true

/-- The stack that a transfer's tag-checked read waits on. -/
def Move.heldOn (m : Move) : Option Nat := if m.kind == 0 && !m.opened then some (stackOf (fetchLarder m.words 0)) else none

/-- The circuits on which slot `n` of engine `d` waits, for data and for credit; none where it can go on, R267. -/
def State.slotWaits (s : State) (d n : Nat) (x : Slot) : List Nat × List Nat :=
  let st := s.rd Reg.SL_STAGE d n
  let es := x.groupCircuits
  let goes := (x.sends st).any (fun q => !x.sent.contains q && x.sendReady st q.2 && decide (SMap.get 0 x.credit (8 * q.1 + st) ≠ 0) && s.cirReady q.1)
    || x.early.any (fun q => x.mayUse q.stage st q.entry q.chunk)
  if s.rd Reg.SL_STATE d n < 2 ∨ goes then ([], [])
  else (es.filter (fun e => s.waitsChunk d n e x), es.filter (fun e => s.waitsCredit d n e x))

/-- The waits of an engine's slots on their peers, R267 and CNT_6 of R271. -/
def State.engineUs (s : State) (d : Nat) : State :=
  let r := (List.range 16).foldl (fun (r : State × Bool) n =>
    match r.1.slot d n with
    | none => r
    | some x =>
      let w := r.1.slotWaits d n x
      let s := if w.1.isEmpty then r.1 else r.1.addF Reg.SL_WAIT_PREV d n fclkUs
      let s := if w.2.isEmpty then s else s.addF Reg.SL_WAIT_NEXT d n fclkUs
      let ns := ((w.1 ++ w.2).filterMap (fun e => s.nbOf d (s.rd Reg.CT_FAR_PKG 0 e))).eraseDups
      (ns.foldl (fun s k => s.addF Reg.NB_WAITED d k fclkUs) s, r.2 || !(w.1 ++ w.2).isEmpty)) (s, false)
  if r.2 then r.1.count (cePage d) 6 fclkUs else r.1

/-- Frames sent and waits for link credits of a port, R203. -/
def State.portUs (s : State) (k t : Nat) : State :=
  let s := if (s.sendsFrame k).isSome then s.count (lnkPage k) 0 (framesUs t) else s
  if s.lnk k = 4 ∧ (!(s.port k).ctl.wait.isEmpty ∨ !(s.port k).dat.wait.isEmpty) then s.count (lnkPage k) 6 fclkUs else s

/-- Everything that waits through the µs after `t`. -/
def State.waitUs (s : State) (t : Nat) : State :=
  let s := s.tiles.foldl (fun s x =>
    let n := s.cclkUs (dieOfTile x.1) t
    (s.finisherUs x.1 n).pressUs x.1 n) s
  let s := (List.range 8).foldl (fun s g => s.groupUs g t) s
  let s := (List.range 4).foldl (fun s d => (List.range 4).foldl (fun s e =>
    if d ≠ e ∧ ctrlCredits < (s.onBridge (d, e)).length then s.countF (0x60 + d) Reg.BR_WCRED d e fclkUs else s) s) s
  let s := (List.range 12).foldl (fun s st =>
    let s := if s.moves.any (fun m => m.heldOn == some st) || s.landQ.any (fun w => stackOf w.addr == st) then s.count (0x40 + st) 5 mclkUs else s
    if s.starchHeld st then s.count (0x50 + st) 1 mclkUs else s) s
  let s := (s.ports.map Prod.fst).foldl (fun s k => s.portUs k t) s
  let s := if s.circs.any (fun x => !x.2.heldC.isEmpty || !x.2.heldD.isEmpty) then s.count cirPage 4 fclkUs else s
  let s := if s.slots.isEmpty then s else (List.range 4).foldl State.engineUs s
  s.hearth.drooped.foldl (fun s x => s.count 0x005 (4 + x.1) (s.cclkUs x.1 t)) s

end Sys2Proof.Machine
end

