-- ==== Sys2Proof/WellFormed.lean ====
section
/-! DEFINITION. Well-formed commands: every operand names a unit that the package has, and every field of a message, packet or written
word fits its width. -/

namespace Sys2Proof

/-- A session of a host port, or another agent. -/
def Agent.wellFormed : Agent → Bool
  | .session p n => decide (p < 2) && decide (n < 32)
  | .soholt => true
  | .debug => true
  | .collector => true

/-- The fields of a message fit their widths, Table 10-2. -/
def Machine.Msg.wellFormed (m : Machine.Msg) : Bool :=
  decide (m.port < 2) && decide (m.sub < 2) && decide (m.addr < 2 ^ 128) && decide (m.udp < 2 ^ 16) && decide (m.mac < 2 ^ 48)
    && decide (m.vlan < 2 ^ 16) && decide (m.dmac < 2 ^ 48) && decide (m.dip < 2 ^ 128) && decide (m.dport < 2 ^ 16) && decide (m.ver < 2 ^ 4) && decide (m.typ < 2 ^ 4) && decide (m.session < 2 ^ 8)
    && decide (m.len < 2 ^ 16) && decide (m.seq < 2 ^ 32) && decide (m.ack < 2 ^ 32) && decide (m.sack < 2 ^ 32)
    && decide (m.window < 2 ^ 16) && decide (m.resv < 2 ^ 16) && decide (m.argA < 2 ^ 32) && decide (m.argB < 2 ^ 32)
    && decide (m.bcrc < 2 ^ 32)

/-- A packet has seven header words, Table 8-4. -/
def Machine.Packet.wellFormed (p : Machine.Packet) : Bool := p.words.length == 7 && p.words.all (fun w => decide (w < 2 ^ 32))

/-- A lane's codeword holds 608 bytes of blocks, R177. -/
def Machine.LaneWord.wellFormed (l : Machine.LaneWord) : Bool := l.blocks.length == 608

/-- A request's kind and addresses fit, R275. -/
def Machine.Ask.wellFormed (a : Machine.Ask) : Bool :=
  decide (a.kind < 4) && decide (a.asked < 2 ^ 128) && decide (a.mac < 2 ^ 48) && decide (a.vlan < 2 ^ 16) && decide (a.ip < 2 ^ 128)

/-- A command is well-formed. -/
def Instr.wellFormed : Instr → Bool
  | .registerWrite ag addr _ => ag.wellFormed && decide (addr < 16777216)
  | .fltClear ag page _ => ag.wellFormed && decide (page < 4096)
  | .counterLatch ag addr => ag.wellFormed && decide (addr < 16777216)
  | .powerOnResetEnd straps => decide (straps < 262144)
  | .supplyGood ix => decide (ix < 3)
  | .supplyFault ix => decide (ix < 3) && (ix != 1)
  | .clockLost _ => true
  | .target ag v => ag.wellFormed && decide (v < 16)
  | .phaseEnd fail _ => decide (fail < 16)
  | .begin ag scope => ag.wellFormed && decide (scope < 8)
  | .commit ag => ag.wellFormed
  | .apply t => decide (t < 5)
  | .rollback ag => ag.wellFormed
  | .txnTmo t => decide (t < 5)
  | .pdReq ag w v => ag.wellFormed && decide (w < 3) && decide (v < 4294967296)
  | .pdSwitchDone d => decide (d < 80)
  | .step c _ => decide (c < 64)
  | .stepComplete c => decide (c < 64)
  | .mark c => decide (c < 64)
  | .coll c => decide (c < 64)
  | .dispatch c _ => decide (c < 64)
  | .pxissue t => decide (t < 176)
  | .pressCommandComplete t => decide (t < 176)
  | .pxwait t => decide (t < 176)
  | .vadd t => decide (t < 176)
  | .vsub t => decide (t < 176)
  | .vmul t => decide (t < 176)
  | .vfma t => decide (t < 176)
  | .vmax t => decide (t < 176)
  | .vmin t => decide (t < 176)
  | .vabs t => decide (t < 176)
  | .vneg t => decide (t < 176)
  | .vcmp t => decide (t < 176)
  | .vsel t => decide (t < 176)
  | .vbcast t => decide (t < 176)
  | .vrsum t => decide (t < 176)
  | .vrmax t => decide (t < 176)
  | .vperm t => decide (t < 176)
  | .vcurve t => decide (t < 176)
  | .vexp2 t => decide (t < 176)
  | .vlog2 t => decide (t < 176)
  | .vrcp t => decide (t < 176)
  | .vrsqrt t => decide (t < 176)
  | .vcvt t => decide (t < 176)
  | .vunp t => decide (t < 176)
  | .vand t => decide (t < 176)
  | .vor t => decide (t < 176)
  | .vxor t => decide (t < 176)
  | .vshl t => decide (t < 176)
  | .vshr t => decide (t < 176)
  | .vsra t => decide (t < 176)
  | .vitof t => decide (t < 176)
  | .vftoi t => decide (t < 176)
  | .vmov t => decide (t < 176)
  | .vld t => decide (t < 176)
  | .vst t => decide (t < 176)
  | .fetch t => decide (t < 176)
  | .fetchComplete t _ => decide (t < 176)
  | .fold t => decide (t < 176)
  | .foldMark _ => true
  | .foldComplete st n => decide (st < 12) && decide (n < 64)
  | .send t => decide (t < 176)
  | .slabWrite t _ _ => decide (t < 176)
  | .sendComplete t _ => decide (t < 176)
  | .ptake t => decide (t < 176)
  | .pwait t => decide (t < 176)
  | .pegWaitEnd t => decide (t < 176)
  | .ppost t => decide (t < 176)
  | .ppostr t => decide (t < 176)
  | .xwait t => decide (t < 176)
  | .sadd t => decide (t < 176)
  | .saddr t => decide (t < 176)
  | .ssubr t => decide (t < 176)
  | .smulr t => decide (t < 176)
  | .sandr t => decide (t < 176)
  | .sorr t => decide (t < 176)
  | .sshl t => decide (t < 176)
  | .sshr t => decide (t < 176)
  | .sli t => decide (t < 176)
  | .slui t => decide (t < 176)
  | .vtos t => decide (t < 176)
  | .srd t => decide (t < 176)
  | .br t => decide (t < 176)
  | .beq t => decide (t < 176)
  | .bne t => decide (t < 176)
  | .blt t => decide (t < 176)
  | .bge t => decide (t < 176)
  | .endStage t => decide (t < 176)
  | .stageBoundary t => decide (t < 176)
  | .stageOpen t => decide (t < 176)
  | .load ag c => ag.wellFormed && decide (c < 64)
  | .loadDone c _ => decide (c < 64)
  | .curve ag c => ag.wellFormed && decide (c < 64)
  | .curveDone c _ => decide (c < 64)
  | .pantryScrub t a _ => decide (t < 176) && decide (a < 12582912)
  | .recordStart g => decide (g < 8)
  | .mangleDeliver g _ => decide (g < 8)
  | .recordRetire g => decide (g < 8)
  | .flitArrive _ d e _ _ _ => decide (d < 176) && decide (e < 5)
  | .bridgeWeak d e => decide (d < 4) && decide (e < 5) && (d != e)
  | .larderAccess c _ _ _ _ => decide (c < 64)
  | .larderRefresh st _ => decide (st < 12)
  | .patrolScrub _ _ => true
  | .laneRepair st ch _ => decide (st < 12) && decide (ch < 8)
  | .rowRepair _ => true
  | .channelDown st ch => decide (st < 12) && decide (ch < 8)
  | .landingWrite c _ _ data _ => decide (c < 64) && decide (data.length ≤ 65536)
  | .landingResume _ => true
  | .tagReadOpen t _ => decide (t < 176)
  | .ingestMatch st n => decide (st < 12) && decide (n < 64)
  | .starchTrigger st c _ => decide (st < 12) && decide (c < 64)
  | .starchBatch st => decide (st < 12)
  | .ruleLoad ag st => ag.wellFormed && decide (st < 12)
  | .ruleLoadDone st _ => decide (st < 12)
  | .laserMeasure k lp => decide (k < 16) && decide (lp < 1024)
  | .laserLoss k => decide (k < 16)
  | .laserRestore k => decide (k < 16)
  | .frameReceive k ls => (ls.length == 8 && ls.all Machine.LaneWord.wellFormed) && decide (k < 16)
  | .replayTimeout k _ => decide (k < 16)
  | .errorWindow k => decide (k < 16)
  | .lossOfSignal k _ => decide (k < 16)
  | .signalDetect k _ => decide (k < 16)
  | .lnkEn ag k v => ag.wellFormed && decide (k < 16) && decide (v < 2)
  | .retry ag k => ag.wellFormed && decide (k < 16)
  | .retrain ag k => ag.wellFormed && decide (k < 16)
  | .loop ag k v => ag.wellFormed && decide (k < 16) && decide (v < 2)
  | .txPreset k => decide (k < 16)
  | .txPattern k => decide (k < 16)
  | .waitLock k locked => decide (k < 16) && decide (locked < 256)
  | .adapt k => decide (k < 16)
  | .checkBer k _ => decide (k < 16)
  | .fecLock k _ => decide (k < 16)
  | .peerSync k _ => decide (k < 16)
  | .rtt k _ => decide (k < 16)
  | .ident k _ _ _ => decide (k < 16)
  | .goto k => decide (k < 16)
  | .delay k => decide (k < 16)
  | .seqStepTimeout k => decide (k < 16)
  | .trainTimeout k => decide (k < 16)
  | .packetForward k p => p.wellFormed && decide (k < 16)
  | .packetReceive k p => p.wellFormed && decide (k < 16)
  | .packetDeliver e _ => decide (e < 1024)
  | .openCircuit e path _ => decide (e < 1024) && decide (path < 2)
  | .openResend e => decide (e < 1024)
  | .openTmo e => decide (e < 1024)
  | .closeGo ag e => ag.wellFormed && decide (e < 1024)
  | .close e => decide (e < 1024)
  | .quiet e path => decide (e < 1024) && decide (path < 2)
  | .quietTmo e => decide (e < 1024)
  | .resetNotice e => decide (e < 1024)
  | .pathDown e path _ => decide (e < 1024) && decide (path < 2)
  | .rejoin e path _ => decide (e < 1024) && decide (path < 2)
  | .rejoinResend e path => decide (e < 1024) && decide (path < 2)
  | .allReduce d => decide (d < 4)
  | .reduceScatter d => decide (d < 4)
  | .allGather d => decide (d < 4)
  | .allToAll d => decide (d < 4)
  | .allToAllv d => decide (d < 4)
  | .broadcast d => decide (d < 4)
  | .circulate d => decide (d < 4)
  | .collTrigger d n => decide (d < 4) && decide (n < 16)
  | .start e _ => decide (e < 1024)
  | .startResend d n => decide (d < 4) && decide (n < 16)
  | .credit e _ _ _ => decide (e < 1024)
  | .chunkSend d n e _ => decide (d < 4) && decide (n < 16) && decide (e < 1024)
  | .chunkReceive e _ _ _ data _ _ => decide (e < 1024) && decide (data.length ≤ 65536)
  | .resend e _ _ _ => decide (e < 1024)
  | .abort e _ _ => decide (e < 1024)
  | .other e _ => decide (e < 1024)
  | .pace e _ => decide (e < 1024)
  | .paceSend d => decide (d < 4)
  | .orderStall d n e => decide (d < 4) && decide (n < 16) && decide (e < 1024)
  | .collComplete d n => decide (d < 4) && decide (n < 16)
  | .circuitBreakReport e => decide (e < 1024)
  | .sessionOpen m => m.wellFormed
  | .sessionClose m => m.wellFormed
  | .cmd m => m.wellFormed
  | .reg m => m.wellFormed
  | .wdesc m => m.wellFormed
  | .wdata m => m.wellFormed
  | .rreq m => m.wellFormed
  | .ack m => m.wellFormed
  | .ackSend p n => decide (p < 2) && decide (n < 32)
  | .rto p n _ => decide (p < 2) && decide (n < 32)
  | .sessTmo p n => decide (p < 2) && decide (n < 32)
  | .transferStart p => decide (p < 2)
  | .transferComplete p n xid => decide (p < 2) && decide (n < 32) && decide (xid < 65536)
  | .recordWrite c => decide (c < 64)
  | .cplBind ag c => ag.wellFormed && decide (c < 64)
  | .cplAcked ag c v => ag.wellFormed && decide (c < 64) && decide (v < 4294967296)
  | .ctxOpen ag c => ag.wellFormed && decide (c < 64)
  | .teardown ag c => ag.wellFormed && decide (c < 64)
  | .hstLinkDown p sub => decide (p < 2) && decide (sub < 2)
  | .split ag p v => ag.wellFormed && decide (p < 2) && decide (v < 2)
  | .hostLaserLow p lp => decide (p < 2) && decide (lp < 1024)
  | .capTick _ _ => true
  | .peakCheck _ => true
  | .droop d => decide (d < 4)
  | .droopRelease d => decide (d < 4)
  | .sensorSample _ _ _ => true
  | .sensorDisagree n => decide (n < 32)
  | .sensorFail ix _ => decide (ix < 106)
  | .sensClr ag => ag.wellFormed
  | .thermalTrip n => decide (n < 32)
  | .sohRestart cause => decide (cause < 3)
  | .logSel ag v => ag.wellFormed && decide (v < 4294967296)
  | .dumpExport ag => ag.wellFormed
  | .pcGo ag => ag.wellFormed
  | .calExport ag => ag.wellFormed
  | .calLock ag v => ag.wellFormed && decide (v < 2)
  | .cfgSave ag => ag.wellFormed
  | .updOpen ag => ag.wellFormed
  | .check ag => ag.wellFormed
  | .verify ag => ag.wellFormed
  | .verifyDone _ _ _ => true
  | .svnRaise ag v => ag.wellFormed && decide (v < 65536)
  | .lcReturn ag _ _ _ => ag.wellFormed
  | .attCert ag => ag.wellFormed
  | .attGo ag => ag.wellFormed
  | .attDone _ => true
  | .sealGo ag _ => ag.wellFormed
  | .sealDone _ _ => true
  | .unsealGo ag => ag.wellFormed
  | .ftLatch ag => ag.wellFormed
  | .fenceGo ag => ag.wellFormed
  | .replayTurnEnd l => decide (l < 5)
  | .rungFailed l => decide (l < 5)
  | .contextScrub ag c => ag.wellFormed && decide (c < 64)
  | .engineScrub l _ => decide (l < 5)
  | .scrub ag page => ag.wellFormed && decide (page < 4096)
  | .partitionReset p _ => decide (p < 4)
  | .warmReset _ => true
  | .drain ag page v => ag.wellFormed && decide (page < 4096) && decide (v < 2)
  | .clrGo ag page mask _ => ag.wellFormed && decide (page < 1024) && decide (mask < 256)
  | .run ag v => ag.wellFormed && decide (v < 2)
  | .snapRsel ag v => ag.wellFormed && decide (v < 4294967296)
  | .foldPartialLanded t _ => decide (t < 176)
  | .remotePostArrive _ => true
  | .hstLinkUp p sub => decide (p < 2) && decide (sub < 2)
  | .hostLaserRestore p lp => decide (p < 2) && decide (lp < 1024)
  | .hstEn ag p v => ag.wellFormed && decide (p < 2) && decide (v < 2)
  | .trayWrite index value => decide (index < 256) && decide (value < 65536)
  | .i3cCcc kind a d => decide (kind < 4) && decide (a < 128) && decide (d < 128)
  | .arpNdEcho p sub ask => ask.wellFormed && decide (p < 2) && decide (sub < 2)
  | .powerOnReset => true
  | .vaux33Loss => true
  | .refOk => true
  | .wrstN => true
  | .linksEnd => true
  | .evPop => true
  | .gainClamped => true
  | .rseq => true
  | .flowImplaus => true
  | .suddenRelease => true
  | .hbLost => true
  | .sohInService => true
  | .dumpWrite => true
  | .i3cStatusRead => true
  | .act => true
  | .compatRecord => true
  | .updFallback => true
  | .sealPartTimeout => true
  | .hangCheck => true
  | .powerCycle => true
  | .captureOnly => true
  | .collectorCapture => true
  | .wrstNRise => true
  | .exportComplete => true
  | .unsealDone => true

end Sys2Proof
end

