-- ==== Sys2Proof/Machine/Serve.lean ====
section
/-! DEFINITION. How a command is served: what holds for every row, the passing of time on an empty queue, and the shared operations of
the row files. -/

namespace Sys2Proof.Machine

open Sys2Proof

/-- A command that reaches lands, supplies or clocks is served in every state. What a command does never touches the queue. -/
def State.serveAlways (s : State) (c : Instr) (g : State → State) : Host.Outcome State Fault Refusal :=
  if !c.wellFormed then .next s else .next { (g s).settle with pending := s.pending }

/-- Any other command is served while the package is out of power-on reset, R397. One that names no unit of the package changes
nothing. -/
def State.serve (s : State) (c : Instr) (g : State → State) : Host.Outcome State Fault Refusal :=
  if s.boot.por || !c.wellFormed then .next s else .next { (g s).settle with pending := s.pending }

/-- A write by an agent to a register of instance `inst` of a block. -/
def State.asBlock (s : State) (ag : Agent) (b : Block) (inst : Nat) (g : State → State) : State :=
  if inst < b.pages then s.asWrite ag (b.base + inst) g else s

/-- A command of the Finisher's program; a Press command that it issues may find its marked vector already received, R118. -/
def State.finish (s : State) (t slot op : Nat) : State :=
  let n := (s.tile t).press.length
  let had := s.credit t
  let s := s.finisher t slot op
  if n < (s.tile t).press.length then s.afterIssue t had else s

/-- A waiting bundle proceeds, with what it issues. -/
def State.pegEnd (s : State) (t : Nat) : State :=
  let n := (s.tile t).press.length
  let had := s.credit t
  let s := s.pegWaitEnd t
  if n < (s.tile t).press.length then s.afterIssue t had else s

/-- One µs passes, R335: what waits through it is counted, and the counters of ms advance with each thousandth. -/
def State.tickUs (s : State) : State :=
  if s.boot.por then s
  else
    let s : State := { s.waitUs s.timeUs with timeUs := s.timeUs + 1 }
    if s.timeUs % 1000 = 0 then
      (s.wr0 Reg.GLB_ELAPSED (satInc 65535 (s.rd Reg.GLB_ELAPSED))).wr0 Reg.PWR_HB_AGE (satInc 65535 (s.rd Reg.PWR_HB_AGE))
    else s

end Sys2Proof.Machine
end

