-- ==== Sys2Proof/Machine/CmdBringUp.lean ====
section
/-! DEFINITION. The meanings of the commands of one family: lands, supplies, clocks, bring-up, resets and power domains. -/

namespace Sys2Proof.Machine

open Sys2Proof

/-- POWER_ON_RESET_END, R397: The later of PORST_N rising and the last supply becoming good ends the power-on reset and starts cold
bring-up. -/
def execPowerOnResetEnd (straps : Nat) (s : State) : Host.Outcome State Fault Refusal :=
  s.serveAlways (.powerOnResetEnd straps) (fun s => s.porstRise straps)

/-- SUPPLY_GOOD, R393: A supply that has stayed in range for 10 ms becomes good; when all three are good the safe state may end. -/
def execSupplyGood (ix : Nat) (s : State) : Host.Outcome State Fault Refusal :=
  s.serveAlways (.supplyGood ix) (fun s => s.supplyGood ix)

/-- SUPPLY_FAULT, R395: VIN12 or VIO18 leaving its range after power-on reset raises the fatal SUPPLY_FAULT and halts the package.
-/
def execSupplyFault (ix : Nat) (s : State) : Host.Outcome State Fault Refusal :=
  s.serveAlways (.supplyFault ix) (fun s => s.supplyFault ix)

/-- CLOCK_LOST, R297: Loss of REFCLK or root lock fails phase HUB before lock, or raises the fatal CLOCK_LOST after it. -/
def execClockLost (root : Bool) (s : State) : Host.Outcome State Fault Refusal :=
  s.serveAlways (.clockLost root) (fun s => s.clockLost root)

/-- TARGET, R399: A write of TARGET sets the bring-up phase to reach; values below PHASE are discarded. -/
def execTarget (ag : Agent) (v : Nat) (s : State) : Host.Outcome State Fault Refusal :=
  s.serve (.target ag v) (fun s => s.asBlock ag .glb 0 (fun s => s.target v))

/-- PHASE_END, R399: A bring-up phase finishes its work and the next phase starts while PHASE is below TARGET. -/
def execPhaseEnd (fail : Nat) (bad : List (Nat × Nat)) (s : State) : Host.Outcome State Fault Refusal :=
  s.serve (.phaseEnd fail bad) (fun s => s.phaseEnd fail bad)

/-- PD_REQ, R326: A write of PD_REQ requests power domains on or off; refused requests set PD_REF and raise PD_REFUSED. -/
def execPdReq (ag : Agent) (w : Nat) (v : Nat) (s : State) : Host.Outcome State Fault Refusal :=
  s.serve (.pdReq ag w v) (fun s => s.asBlock ag .pwr 0 (fun s => s.pdReq w v))

/-- PD_SWITCH_DONE, R326: A power domain reaches on or off after its switching time. -/
def execPdSwitchDone (d : Nat) (s : State) : Host.Outcome State Fault Refusal :=
  s.serve (.pdSwitchDone d) (fun s => s.pdSwitchDone d)

/-- PARTITION_RESET, R387: A partition's contexts, Larder, Pantry and seals are reset while others run. -/
def execPartitionReset (p : Nat) (bad : List (Nat × Nat)) (s : State) : Host.Outcome State Fault Refusal :=
  s.serve (.partitionReset p bad) (fun s => s.partReset p bad)

/-- WARM_RESET, R403: The package resets contexts and memories, re-runs compute, memory and test phases and returns to READY. -/
def execWarmReset (bad : List (Nat × Nat)) (s : State) : Host.Outcome State Fault Refusal :=
  s.serve (.warmReset bad) (fun s => s.warmReset bad)

/-- POWER_ON_RESET, R397: PORST_N low, or VAUX33 not good, holds the package in power-on reset and ends any warm reset. -/
def execPowerOnReset (s : State) : Host.Outcome State Fault Refusal :=
  s.serveAlways .powerOnReset (fun s => s.porstFall)

/-- VAUX33_LOSS, R395: VAUX33 leaving its range returns the package at once to the safe state and holds a power-on reset. -/
def execVaux33Loss (s : State) : Host.Outcome State Fault Refusal :=
  s.serveAlways .vaux33Loss (fun s => s.vaux33Loss)

/-- REF_OK, R443: REFCLK present and in tolerance for 1 ms lets phase HUB begin. -/
def execRefOk (s : State) : Host.Outcome State Fault Refusal :=
  s.serveAlways .refOk (fun s => s.refOk)

/-- WRST_N, R398: WRST_N falling and staying low for 1 µs starts a warm reset once phase HUB has ended. -/
def execWrstN (s : State) : Host.Outcome State Fault Refusal :=
  s.serveAlways .wrstN (fun s => s.wrstFall)

/-- LINKS_END, R402: Phase LINKS ends when no listed port trains after 50 ms, or after 1.1 s. -/
def execLinksEnd (s : State) : Host.Outcome State Fault Refusal :=
  s.serve .linksEnd (fun s => s.linksEnd)

/-- WRST_N_RISE, R404: WRST_N rising releases a warm reset held at PHASE 4 to READY, and re-arms WRST_N found low at the end of
phase HUB. -/
def execWrstNRise (s : State) : Host.Outcome State Fault Refusal :=
  s.serveAlways .wrstNRise (fun s => s.wrstRise)

end Sys2Proof.Machine
end

