-- ==== Sys2Proof/Machine/CmdCircuits.lean ====
section
/-! DEFINITION. The meanings of the commands of one family: circuits. -/

namespace Sys2Proof.Machine

open Sys2Proof

/-- PACKET_FORWARD, R208: A packet for a forwarding entry is sent on the other side with that side's peer CID, or discarded. -/
def execPacketForward (k : Nat) (p : Machine.Packet) (s : State) : Host.Outcome State Fault Refusal :=
  s.serve (.packetForward k p) (fun s => s.packetForward k p)

/-- PACKET_RECEIVE, R215: An endpoint accepts or discards an arriving packet by path, claim and generation and checks its ECHK. -/
def execPacketReceive (k : Nat) (p : Machine.Packet) (s : State) : Host.Outcome State Fault Refusal :=
  s.serve (.packetReceive k p) (fun s => s.packetReceive k p)

/-- PACKET_DELIVER, R221: A held numbered packet is delivered to the engine once ordering allows. -/
def execPacketDeliver (e : Nat) (data : Bool) (s : State) : Host.Outcome State Fault Refusal :=
  s.serve (.packetDeliver e data) (fun s => s.packetDeliver e data)

/-- OPEN, R217: An OPEN packet is compared with the entry, answered or breaking it with MISMATCH. -/
def execOpenCircuit (e : Nat) (path : Nat) (pay : Nat) (s : State) : Host.Outcome State Fault Refusal :=
  s.serve (.openCircuit e path pay) (fun s => s.openIn e path pay)

/-- OPEN_RESEND, R217: An OPENING endpoint sends OPEN every 10 µs on each path that is up. -/
def execOpenResend (e : Nat) (s : State) : Host.Outcome State Fault Refusal :=
  s.serve (.openResend e) (fun s => s.openResend e)

/-- OPEN_TMO, R217: An endpoint not OPEN within OPEN_TMO goes BROKEN. -/
def execOpenTmo (e : Nat) (s : State) : Host.Outcome State Fault Refusal :=
  s.serve (.openTmo e) (fun s => s.openTmo e)

/-- CLOSE_GO, R218: A write of CLOSE_GO closes an OPEN or DEGRADED endpoint into DRAINING. -/
def execCloseGo (ag : Agent) (e : Nat) (s : State) : Host.Outcome State Fault Refusal :=
  s.serve (.closeGo ag e) (fun s => s.asBlock ag .cir 0 (fun s => s.closeGo e))

/-- CLOSE, R218: A received CLOSE makes the far endpoint send QUIET and go CLOSED. -/
def execClose (e : Nat) (s : State) : Host.Outcome State Fault Refusal :=
  s.serve (.close e) (fun s => s.closeIn e)

/-- QUIET, R218: QUIET on every path that is up moves a DRAINING endpoint to CLOSED. -/
def execQuiet (e : Nat) (path : Nat) (s : State) : Host.Outcome State Fault Refusal :=
  s.serve (.quiet e path) (fun s => s.quietIn e path)

/-- QUIET_TMO, R218: A DRAINING endpoint goes CLOSED when QUIET_TMO elapses. -/
def execQuietTmo (e : Nat) (s : State) : Host.Outcome State Fault Refusal :=
  s.serve (.quietTmo e) (fun s => s.quietTmo e)

/-- RESET_NOTICE, R232: A received RESET_NOTICE moves the entry to BROKEN with PEER_RESET. -/
def execResetNotice (e : Nat) (s : State) : Host.Outcome State Fault Refusal :=
  s.serve (.resetNotice e) (fun s => s.resetNotice e)

/-- PATH_DOWN, R227: A PATH_DOWN with the path's claim takes the path down, degrading or breaking the entry. -/
def execPathDown (e : Nat) (path : Nat) (pay : Nat) (s : State) : Host.Outcome State Fault Refusal :=
  s.serve (.pathDown e path pay) (fun s => s.pathDownIn e path pay)

/-- REJOIN, R229: A received REJOIN of the new claim brings a rejoining path in step once the marks are reached. -/
def execRejoin (e : Nat) (path : Nat) (pay : Nat) (s : State) : Host.Outcome State Fault Refusal :=
  s.serve (.rejoin e path pay) (fun s => s.rejoinIn e path pay)

/-- REJOIN_RESEND, R229: A rejoining endpoint sends REJOIN every 10 µs until a packet of the new claim arrives. -/
def execRejoinResend (e : Nat) (path : Nat) (s : State) : Host.Outcome State Fault Refusal :=
  s.serve (.rejoinResend e path) (fun s => s.rejoinResend e path)

/-- EV_POP, R234: A read of CIR_EVQ returns the head event and advances the queue. -/
def execEvPop (s : State) : Host.Outcome State Fault Refusal :=
  s.serve .evPop (fun s => if s.powered 0x00C then s.evPop else s)

end Sys2Proof.Machine
end

