-- ==== Sys2Proof/Machine/CmdCollectives.lean ====
section
/-! DEFINITION. The meanings of the commands of one family: the collective engines. -/

namespace Sys2Proof.Machine

open Sys2Proof

/-- ALL_REDUCE, R255: An all-reduce collective is accepted into a slot, or refused. -/
def execAllReduce (d : Nat) (s : State) : Host.Outcome State Fault Refusal :=
  s.serve (.allReduce d) (fun s => s.collAccept d 1)

/-- REDUCE_SCATTER, R251: A reduce-scatter collective is accepted into a slot, or refused. -/
def execReduceScatter (d : Nat) (s : State) : Host.Outcome State Fault Refusal :=
  s.serve (.reduceScatter d) (fun s => s.collAccept d 2)

/-- ALL_GATHER, R255: An all-gather collective is accepted into a slot, or refused. -/
def execAllGather (d : Nat) (s : State) : Host.Outcome State Fault Refusal :=
  s.serve (.allGather d) (fun s => s.collAccept d 3)

/-- ALL_TO_ALL, R257: An all-to-all collective is accepted into a slot, or refused. -/
def execAllToAll (d : Nat) (s : State) : Host.Outcome State Fault Refusal :=
  s.serve (.allToAll d) (fun s => s.collAccept d 4)

/-- ALL_TO_ALLV, R258: An unequal all-to-all collective is accepted into a slot, or refused. -/
def execAllToAllv (d : Nat) (s : State) : Host.Outcome State Fault Refusal :=
  s.serve (.allToAllv d) (fun s => s.collAccept d 5)

/-- BROADCAST, R259: A broadcast collective is accepted into a slot, or refused. -/
def execBroadcast (d : Nat) (s : State) : Host.Outcome State Fault Refusal :=
  s.serve (.broadcast d) (fun s => s.collAccept d 6)

/-- CIRCULATE, R256: A circulate collective is accepted into a slot, or refused. -/
def execCirculate (d : Nat) (s : State) : Host.Outcome State Fault Refusal :=
  s.serve (.circulate d) (fun s => s.collAccept d 7)

/-- COLL_TRIGGER, R243: A slot's fold or source-tag trigger is met and it sends START. -/
def execCollTrigger (d : Nat) (n : Nat) (s : State) : Host.Outcome State Fault Refusal :=
  s.serve (.collTrigger d n) (fun s => s.collTrigger d n)

/-- START, R250: A received START is answered with CREDIT, or placed in the holding room. -/
def execStart (e : Nat) (key : Nat) (s : State) : Host.Outcome State Fault Refusal :=
  s.serve (.start e key) (fun s => s.startIn e key)

/-- START_RESEND, R250: START is sent again every 100 µs until a CREDIT arrives. -/
def execStartResend (d : Nat) (n : Nat) (s : State) : Host.Outcome State Fault Refusal :=
  s.serve (.startResend d n) (fun s => s.startResend d n)

/-- CREDIT, R246: A received CREDIT grants chunks the sender may send. -/
def execCredit (e : Nat) (stage : Nat) (arg : Nat) (key : Nat) (s : State) : Host.Outcome State Fault Refusal :=
  s.serve (.credit e stage arg key) (fun s => s.creditIn e stage arg key)

/-- CHUNK_SEND, R246: The engine sends a chunk of nine DATA packets against a credit. -/
def execChunkSend (d : Nat) (n : Nat) (e : Nat) (c : Nat) (s : State) : Host.Outcome State Fault Refusal :=
  s.serve (.chunkSend d n e c) (fun s => s.chunkSend d n e c)

/-- CHUNK_RECEIVE, R247: A received chunk is checked and written, added or forwarded, returning its credit. -/
def execChunkReceive (e : Nat) (key : Nat) (stage : Nat) (cidx : Nat) (data : List Byte) (trailer : List Byte) (adds : Nat) (s : State) : Host.Outcome State Fault Refusal :=
  s.serve (.chunkReceive e key stage cidx data trailer adds) (fun s => s.chunkIn e key stage ⟨cidx, data, trailer⟩ adds)

/-- RESEND, R248: A received RESEND makes the sender send a chunk again from its copy. -/
def execResend (e : Nat) (stage : Nat) (cidx : Nat) (key : Nat) (s : State) : Host.Outcome State Fault Refusal :=
  s.serve (.resend e stage cidx key) (fun s => s.resendIn e stage cidx key)

/-- ABORT, R262: A received ABORT fails the key's collective or marks its holding entry, and is propagated once. -/
def execAbort (e : Nat) (status : Nat) (key : Nat) (s : State) : Host.Outcome State Fault Refusal :=
  s.serve (.abort e status key) (fun s => s.abortIn e status key)

/-- OTHER, R262: A received OTHER names the second key for the ABORT that follows. -/
def execOther (e : Nat) (key : Nat) (s : State) : Host.Outcome State Fault Refusal :=
  s.serve (.other e key) (fun s => s.otherIn e key)

/-- PACE, R266: A received PACE records the peer's pace word in the neighbour table. -/
def execPace (e : Nat) (word : Nat) (s : State) : Host.Outcome State Fault Refusal :=
  s.serve (.pace e word) (fun s => s.paceIn e word)

/-- PACE_SEND, R266: The engine sends PACE after a change of its pace word and at least every 1 ms. -/
def execPaceSend (d : Nat) (s : State) : Host.Outcome State Fault Refusal :=
  s.serve (.paceSend d) (fun s => s.paceSend d)

/-- ORDER_STALL, R261: A slot waiting OSTALL_MS on a peer whose START is held that long fails with ORDER_STALL, or sets STALLED. -/
def execOrderStall (d : Nat) (n : Nat) (e : Nat) (s : State) : Host.Outcome State Fault Refusal :=
  s.serve (.orderStall d n e) (fun s => s.orderStall d n e)

/-- COLL_COMPLETE, R259: A collective ends its last stage, writes DST, posts its peg and writes its completion record. -/
def execCollComplete (d : Nat) (n : Nat) (s : State) : Host.Outcome State Fault Refusal :=
  s.serve (.collComplete d n) (fun s => s.collComplete d n)

/-- CIRCUIT_BREAK_REPORT, R264: A circuit reaching BROKEN or CLOSED fails every slot whose group uses it. -/
def execCircuitBreakReport (e : Nat) (s : State) : Host.Outcome State Fault Refusal :=
  s.serve (.circuitBreakReport e) (fun s => s.breakReport e)

end Sys2Proof.Machine
end

