-- ==== Sys2Proof/Machine/CmdHearth.lean ====
section
/-! DEFINITION. The meanings of the commands of one family: power, clocks and temperatures. -/

namespace Sys2Proof.Machine

open Sys2Proof

/-- CAP_TICK, R303: Every 1 ms the controller measures power, updates GAIN and steps down, up or holds. -/
def execCapTick (pin : Nat) (upEst : Nat) (s : State) : Host.Outcome State Fault Refusal :=
  s.serve (.capTick pin upEst) (fun s => s.capTick pin upEst)

/-- PEAK_CHECK, R305: Every 10 µs an estimate above PEAK steps the package down one place. -/
def execPeakCheck (raw : Nat) (s : State) : Host.Outcome State Fault Refusal :=
  s.serve (.peakCheck raw) (fun s => s.peakCheck raw)

/-- DROOP, R308: A droop detector firing slows its die's CCLK divider. -/
def execDroop (d : Nat) (s : State) : Host.Outcome State Fault Refusal :=
  s.serve (.droop d) (fun s => s.droop d)

/-- DROOP_RELEASE, R308: With no detector fired for DROOP_HOLD the die returns to the divider of the point. -/
def execDroopRelease (d : Nat) (s : State) : Host.Outcome State Fault Refusal :=
  s.serve (.droopRelease d) (fun s => s.droopRelease d)

/-- SENSOR_SAMPLE, R310: Every 100 µs sensors are sampled and the thermal limit steps down or allows a step up. -/
def execSensorSample (temps : List Nat) (expected : List Int) (warmEst : Nat) (s : State) : Host.Outcome State Fault Refusal :=
  s.serve (.sensorSample temps expected warmEst) (fun s => s.sensorSample temps expected warmEst)

/-- SENSOR_DISAGREE, R313: Paired sensors differing by more than 4 °C for 2 s set DISAGREE. -/
def execSensorDisagree (n : Nat) (s : State) : Host.Outcome State Fault Refusal :=
  s.serve (.sensorDisagree n) (fun s => s.sensorDisagree n)

/-- SENSOR_FAIL, R314: An implausible sensor is marked failed, derating the cap or holding OP7 when a region is unmonitored. -/
def execSensorFail (ix : Nat) (expected : Int) (s : State) : Host.Outcome State Fault Refusal :=
  s.serve (.sensorFail ix expected) (fun s => s.sensorFail ix expected)

/-- SENS_CLR, R315: A write of SENS_CLR re-admits failed sensors that have read plausibly for 10 s. -/
def execSensClr (ag : Agent) (s : State) : Host.Outcome State Fault Refusal :=
  s.serve (.sensClr ag) (fun s => s.asBlock ag .thm 0 (fun s => s.sensClr))

/-- THERMAL_TRIP, R312: A 110 °C comparator trips, stopping CCLK and raising a fatal fault. -/
def execThermalTrip (n : Nat) (s : State) : Host.Outcome State Fault Refusal :=
  s.serve (.thermalTrip n) (fun s => s.thermalTrip n)

/-- GAIN_CLAMPED, R301: GAIN held at a bound for 1 s sets CLAMPED and raises MODEL_DRIFT. -/
def execGainClamped (s : State) : Host.Outcome State Fault Refusal :=
  s.serve .gainClamped (fun s => s.gainClamped)

/-- RSEQ, R340: The tray's write of RSEQ applies a coolant reading set to the THM and PWR pages. -/
def execRseq (s : State) : Host.Outcome State Fault Refusal :=
  s.serve .rseq (fun s => s.rseq)

/-- FLOW_IMPLAUS, R318: Reported flow exceeding implied flow by 30 % for 2 s sets IMPLAUS. -/
def execFlowImplaus (s : State) : Host.Outcome State Fault Refusal :=
  s.serve .flowImplaus (fun s => s.flowImplaus)

/-- SUDDEN_RELEASE, R319: After 10 s of adequate flow, stable outlet and no leak, SUDDEN returns to 0. -/
def execSuddenRelease (s : State) : Host.Outcome State Fault Refusal :=
  s.serve .suddenRelease (fun s => s.suddenRelease)

/-- HB_LOST, R316: Coolant data older than 2 s set HB_LOST and impose the safe cap. -/
def execHbLost (s : State) : Host.Outcome State Fault Refusal :=
  s.serve .hbLost (fun s => s.hbLost)

end Sys2Proof.Machine
end

