-- ==== Sys2Proof/Machine/CmdHost.lean ====
section
/-! DEFINITION. The meanings of the commands of one family: BHP messages and the host ports. -/

namespace Sys2Proof.Machine

open Sys2Proof

/-- SESSION_OPEN, R278: A SESSION OPEN is answered OPENED or REFUSED and binds a session. -/
def execSessionOpen (m : Machine.Msg) (s : State) : Host.Outcome State Fault Refusal :=
  s.serve (.sessionOpen m) (fun s => s.message m (fun m => m.opens))

/-- SESSION_CLOSE, R281: A SESSION CLOSE ends a session, truncating its transfers. -/
def execSessionClose (m : Machine.Msg) (s : State) : Host.Outcome State Fault Refusal :=
  s.serve (.sessionClose m) (fun s => s.message m (fun m => m.typ == 1 && m.skind == 3))

/-- CMD, R284: A CMD message places commands in a context queue by serial, or discards them. -/
def execCmd (m : Machine.Msg) (s : State) : Host.Outcome State Fault Refusal :=
  s.serve (.cmd m) (fun s => s.message m (fun m => m.typ == 2))

/-- REG, R283: A REG message performs its register operations in order and returns one response. -/
def execReg (m : Machine.Msg) (s : State) : Host.Outcome State Fault Refusal :=
  s.serve (.reg m) (fun s => s.message m (fun m => m.typ == 3))

/-- WDESC, R287: A write transfer descriptor is accepted or refused. -/
def execWdesc (m : Machine.Msg) (s : State) : Host.Outcome State Fault Refusal :=
  s.serve (.wdesc m) (fun s => s.message m (fun m => m.typ == 4 && m.bkind == 1))

/-- WDATA, R288: Write data of a transfer is placed at its offset, or held while the transfer waits. -/
def execWdata (m : Machine.Msg) (s : State) : Host.Outcome State Fault Refusal :=
  s.serve (.wdata m) (fun s => s.message m (fun m => m.typ == 4 && m.bkind == 2))

/-- RREQ, R287: A read transfer request is accepted, refused or refused as SEALED. -/
def execRreq (m : Machine.Msg) (s : State) : Host.Outcome State Fault Refusal :=
  s.serve (.rreq m) (fun s => s.message m (fun m => m.typ == 4 && m.bkind == 3))

/-- ACK, R279: A received ACK advances acknowledgement of the package's messages. -/
def execAck (m : Machine.Msg) (s : State) : Host.Outcome State Fault Refusal :=
  s.serve (.ack m) (fun s => s.message m (fun m => m.typ == 7))

/-- ACK_SEND, R279: A receiver with nothing to send acknowledges within 20 µs. -/
def execAckSend (p : Nat) (n : Nat) (s : State) : Host.Outcome State Fault Refusal :=
  s.serve (.ackSend p n) (fun s => s.ackSend p n)

/-- RTO, R280: An unacknowledged message is sent again after RTO_US; after 16 sends the session closes LOST. -/
def execRto (p : Nat) (n : Nat) (seq : Nat) (s : State) : Host.Outcome State Fault Refusal :=
  s.serve (.rto p n seq) (fun s => s.rto p n seq)

/-- SESS_TMO, R280: A session with no valid message for SESS_TMO closes with TIMEOUT. -/
def execSessTmo (p : Nat) (n : Nat) (s : State) : Host.Outcome State Fault Refusal :=
  s.serve (.sessTmo p n) (fun s => s.sessTmo p n)

/-- TRANSFER_START, R288: A waiting transfer starts on a free transfer engine. -/
def execTransferStart (p : Nat) (s : State) : Host.Outcome State Fault Refusal :=
  s.serve (.transferStart p) (fun s => s.transferStart p)

/-- TRANSFER_COMPLETE, R288: A transfer completes, posts its peg and writes its completion record. -/
def execTransferComplete (p : Nat) (n : Nat) (xid : Nat) (s : State) : Host.Outcome State Fault Refusal :=
  s.serve (.transferComplete p n xid) (fun s => s.transferComplete p n xid)

/-- HST_LINK_DOWN, R295: A host port or sub-port that was up goes down and raises LINK_DOWN. -/
def execHstLinkDown (p : Nat) (sub : Nat) (s : State) : Host.Outcome State Fault Refusal :=
  s.serve (.hstLinkDown p sub) (fun s => s.hstLinkDown p sub)

/-- SPLIT, R274: A change of SPLIT retrains the host port and closes its sessions. -/
def execSplit (ag : Agent) (p : Nat) (v : Nat) (s : State) : Host.Outcome State Fault Refusal :=
  s.serve (.split ag p v) (fun s => s.asBlock ag .hst p (fun s => s.hstSplit p v))

/-- HOST_LASER_LOW, R276: Host laser light below the minimum for 1 ms takes the port down with LASER_LOW. -/
def execHostLaserLow (p : Nat) (lp : Nat) (s : State) : Host.Outcome State Fault Refusal :=
  s.serve (.hostLaserLow p lp) (fun s => s.hostLaserLow p lp)

/-- HST_LINK_UP, R274: A host port or sub-port completes Ethernet link training with its partner and UP_A or UP_B becomes 1. -/
def execHstLinkUp (p : Nat) (sub : Nat) (s : State) : Host.Outcome State Fault Refusal :=
  s.serve (.hstLinkUp p sub) (fun s => s.hstLinkUp p sub)

/-- HOST_LASER_RESTORE, R276: A host port's laser reading stays at or above +17.5 dBm for 100 ms and the port comes back up. -/
def execHostLaserRestore (p : Nat) (lp : Nat) (s : State) : Host.Outcome State Fault Refusal :=
  s.serve (.hostLaserRestore p lp) (fun s => s.hostLaserRestore p lp)

/-- HST_EN, R274: A write of EN in an HST page enables a host port, starting link training, or disables it, taking the link down.
-/
def execHstEn (ag : Agent) (p : Nat) (v : Nat) (s : State) : Host.Outcome State Fault Refusal :=
  s.serve (.hstEn ag p v) (fun s => s.asBlock ag .hst p (fun s => s.hstEn p v))

/-- ARP_ND_ECHO, R275: An ARP, IPv6 neighbour discovery or ICMP/ICMPv6 echo request arriving on a host port is answered. -/
def execArpNdEcho (p : Nat) (sub : Nat) (ask : Ask) (s : State) : Host.Outcome State Fault Refusal :=
  s.serve (.arpNdEcho p sub ask) (fun s => s.arpNdEcho p sub ask)

end Sys2Proof.Machine
end

