-- ==== Sys2Proof/Machine/CmdLarder.lean ====
section
/-! DEFINITION. The meanings of the commands of one family: Larder, landing regions and Starch. -/

namespace Sys2Proof.Machine

open Sys2Proof

/-- LARDER_ACCESS, R131: An access at a stack's arrival point is checked against the regions and served in order. -/
def execLarderAccess (c : Nat) (a : Nat) (data : List (Option Byte)) (n : Nat) (flips : List (Nat × Nat × Nat)) (s : State) : Host.Outcome State Fault Refusal :=
  s.serve (.larderAccess c a data n flips) (fun s => s.larderAccess c a data n flips)

/-- LARDER_REFRESH, R138: Each row is refreshed every 32 ms, or 16 ms when hot. -/
def execLarderRefresh (st : Nat) (lost : Nat) (s : State) : Host.Outcome State Fault Refusal :=
  s.serve (.larderRefresh st lost) (fun s => s.larderRefresh st lost)

/-- PATROL_SCRUB, R139: The patrol scrubber reads every granule once per SCRUB_H hours, correcting or clearing. -/
def execPatrolScrub (a : Nat) (flips : List (Nat × Nat × Nat)) (s : State) : Host.Outcome State Fault Refusal :=
  s.serve (.patrolScrub a flips) (fun s => s.patrolScrub a flips)

/-- LANE_REPAIR, R140: A pin exceeding LANE_LIM corrections in 60 s is replaced by a spare pin. -/
def execLaneRepair (st : Nat) (ch : Nat) (pin : Nat) (s : State) : Host.Outcome State Fault Refusal :=
  s.serve (.laneRepair st ch pin) (fun s => s.laneRepair st ch pin)

/-- ROW_REPAIR, R140: A row exceeding ROW_LIM corrections, or uncorrectable, is copied to a spare row. -/
def execRowRepair (a : Nat) (s : State) : Host.Outcome State Fault Refusal :=
  s.serve (.rowRepair a) (fun s => s.rowRepair a)

/-- CHANNEL_DOWN, R143: A failed or fenced channel takes its stack out of service and aborts contexts with regions on it. -/
def execChannelDown (st : Nat) (ch : Nat) (s : State) : Host.Outcome State Fault Refusal :=
  s.serve (.channelDown st ch) (fun s => s.channelDown st ch)

/-- LANDING_WRITE, R149: A tagged chunk write is written, discarded, refused or held according to the region state. -/
def execLandingWrite (c : Nat) (a : Nat) (tag : Nat) (data : List Byte) (writer : Machine.Writer) (s : State) : Host.Outcome State Fault Refusal :=
  s.serve (.landingWrite c a tag data writer) (fun s => s.landingWrite ⟨c, a, tag, data, writer⟩)

/-- LANDING_RESUME, R149: A landing write held by open readers proceeds when READERS reaches 0. -/
def execLandingResume (k : Nat) (s : State) : Host.Outcome State Fault Refusal :=
  s.serve (.landingResume k) (fun s => s.landingResume k)

/-- TAG_READ_OPEN, R149: A waiting tag-checked read opens once its region is LANDED at the context's step. -/
def execTagReadOpen (t : Nat) (k : Nat) (s : State) : Host.Outcome State Fault Refusal :=
  s.serve (.tagReadOpen t k) (fun s => s.fetchOpen t k)

/-- INGEST_MATCH, R152: The security block matches a sealed shard digest against the manifest, landing the region or moving it to
BAD. -/
def execIngestMatch (st : Nat) (n : Nat) (s : State) : Host.Outcome State Fault Refusal :=
  s.serve (.ingestMatch st n) (fun s => s.ingestMatch st n)

/-- STARCH_TRIGGER, R160: A record is triggered when its gradient region lands at the context's step. -/
def execStarchTrigger (st : Nat) (c : Nat) (k : Nat) (s : State) : Host.Outcome State Fault Refusal :=
  s.serve (.starchTrigger st c k) (fun s => s.starchTrigger st c k)

/-- STARCH_BATCH, R161: A batch of up to 4,096 elements reads inputs, writes outputs and commits PROGRESS. -/
def execStarchBatch (st : Nat) (s : State) : Host.Outcome State Fault Refusal :=
  s.serve (.starchBatch st) (fun s => s.starchBatch st)

/-- RULE_LOAD, R169: A write of LOAD in the STC page loads a user rule image into a user slot, or refuses it. -/
def execRuleLoad (ag : Agent) (st : Nat) (s : State) : Host.Outcome State Fault Refusal :=
  s.serve (.ruleLoad ag st) (fun s => s.asBlock ag .stc st (fun s => s.ruleLoad st))

/-- RULE_LOAD_DONE, R169: A rule load ends loaded, or failed with RULE_BAD. -/
def execRuleLoadDone (st : Nat) (ok : Bool) (s : State) : Host.Outcome State Fault Refusal :=
  s.serve (.ruleLoadDone st ok) (fun s => s.ruleLoadDone st ok)

end Sys2Proof.Machine
end

