-- ==== Sys2Proof/Machine/CmdLinks.lean ====
section
/-! DEFINITION. The meanings of the commands of one family: the trinal links and their training. -/

namespace Sys2Proof.Machine

open Sys2Proof

/-- LASER_MEASURE, R175: Every 100 µs each engine measures laser light and compares it with its limits. -/
def execLaserMeasure (k : Nat) (lp : Nat) (s : State) : Host.Outcome State Fault Refusal :=
  s.serve (.laserMeasure k lp) (fun s => s.laserMeasure k lp)

/-- LASER_LOSS, R176: Light below LP_MIN for 1 ms moves the port to NOLASER. -/
def execLaserLoss (k : Nat) (s : State) : Host.Outcome State Fault Refusal :=
  s.serve (.laserLoss k) (fun s => s.laserLoss k)

/-- LASER_RESTORE, R176: Light at or above LP_WARN for 100 ms returns a NOLASER port to DARK. -/
def execLaserRestore (k : Nat) (s : State) : Host.Outcome State Fault Refusal :=
  s.serve (.laserRestore k) (fun s => s.laserRestore k)

/-- FRAME_RECEIVE, R180: A frame of eight codewords is decoded, its packets checked and passed in order, and its acknowledgements
and credits taken. -/
def execFrameReceive (k : Nat) (ls : List Machine.LaneWord) (s : State) : Host.Outcome State Fault Refusal :=
  s.serve (.frameReceive k ls) (fun s => s.frameReceive k ls)

/-- REPLAY_TIMEOUT, R183: An acknowledgement not advanced 4 µs after a restart restarts the class again. -/
def execReplayTimeout (k : Nat) (data : Bool) (s : State) : Host.Outcome State Fault Refusal :=
  s.serve (.replayTimeout k data) (fun s => s.replayTimeout k data)

/-- ERROR_WINDOW, R196: At the end of each 1 s window lanes beyond SYM_WARN or NEAR_LIM raise LANE_WEAK. -/
def execErrorWindow (k : Nat) (s : State) : Host.Outcome State Fault Refusal :=
  s.serve (.errorWindow k) (fun s => s.errorWindow k)

/-- LOSS_OF_SIGNAL, R200: Light lost on all receive lanes moves the port to DARK and takes its circuit sides down. -/
def execLossOfSignal (k : Nat) (light : List Nat) (s : State) : Host.Outcome State Fault Refusal :=
  s.serve (.lossOfSignal k light) (fun s => s.lossOfSignal k light)

/-- SIGNAL_DETECT, R187: All receive lanes above the release level move a DARK port to TRAIN. -/
def execSignalDetect (k : Nat) (light : List Nat) (s : State) : Host.Outcome State Fault Refusal :=
  s.serve (.signalDetect k light) (fun s => s.signalDetect k light)

/-- LNK_EN, R189: A write of EN enables a port or turns it OFF, discarded while it carries an open circuit. -/
def execLnkEn (ag : Agent) (k : Nat) (v : Nat) (s : State) : Host.Outcome State Fault Refusal :=
  s.serve (.lnkEn ag k v) (fun s => s.asBlock ag .lnk k (fun s => s.lnkEn k v))

/-- RETRY, R189: A write of RETRY takes a FAILED, MISWIRED or VERSION_MISMATCH port to DARK unless fenced. -/
def execRetry (ag : Agent) (k : Nat) (s : State) : Host.Outcome State Fault Refusal :=
  s.serve (.retry ag k) (fun s => s.asBlock ag .lnk k (fun s => s.lnkRetry k))

/-- RETRAIN, R198: A write of RETRAIN in UP starts a retrain counted toward the limit. -/
def execRetrain (ag : Agent) (k : Nat) (s : State) : Host.Outcome State Fault Refusal :=
  s.serve (.retrain ag k) (fun s => s.asBlock ag .lnk k (fun s => s.lnkRetrain k))

/-- LOOP, R189: A write of LOOP selects loop-back test, effective only on the test card. -/
def execLoop (ag : Agent) (k : Nat) (v : Nat) (s : State) : Host.Outcome State Fault Refusal :=
  s.serve (.loop ag k v) (fun s => s.asBlock ag .lnk k (fun s => s.lnkLoop k v))

/-- TX_PRESET, R190: Sequence step setting a transmitter equalisation preset. -/
def execTxPreset (k : Nat) (s : State) : Host.Outcome State Fault Refusal :=
  s.serve (.txPreset k) (fun s => s.seqTxPreset k)

/-- TX_PATTERN, R190: Sequence step selecting the transmitted pattern. -/
def execTxPattern (k : Nat) (s : State) : Host.Outcome State Fault Refusal :=
  s.serve (.txPattern k) (fun s => s.seqTxPattern k)

/-- WAIT_LOCK, R190: Sequence step waiting for clock recovery lock on all lanes. -/
def execWaitLock (k : Nat) (locked : Nat) (s : State) : Host.Outcome State Fault Refusal :=
  s.serve (.waitLock k locked) (fun s => s.seqWaitLock k locked)

/-- ADAPT, R190: Sequence step running receiver equaliser adaptation rounds. -/
def execAdapt (k : Nat) (s : State) : Host.Outcome State Fault Refusal :=
  s.serve (.adapt k) (fun s => s.seqAdapt k)

/-- CHECK_BER, R190: Sequence step counting pattern bit errors against a limit. -/
def execCheckBer (k : Nat) (errs : List Nat) (s : State) : Host.Outcome State Fault Refusal :=
  s.serve (.checkBer k errs) (fun s => s.seqCheckBer k errs)

/-- FEC_LOCK, R190: Sequence step waiting for codeword lock and recording the lane order. -/
def execFecLock (k : Nat) (order : List Nat) (s : State) : Host.Outcome State Fault Refusal :=
  s.serve (.fecLock k order) (fun s => s.seqFecLock k order)

/-- PEER_SYNC, R190: Sequence step waiting for the peer to reach the same step. -/
def execPeerSync (k : Nat) (t : Nat) (s : State) : Host.Outcome State Fault Refusal :=
  s.serve (.peerSync k t) (fun s => s.seqPeerSync k t)

/-- RTT, R190: Sequence step measuring the round trip, failing with LENGTH above its limit. -/
def execRtt (k : Nat) (ns : Nat) (s : State) : Host.Outcome State Fault Refusal :=
  s.serve (.rtt k ns) (fun s => s.seqRtt k ns)

/-- IDENT, R193: Sequence step exchanging identity words and deciding UP, HELD, LOOPBACK, MISWIRED or VERSION_MISMATCH. -/
def execIdent (k : Nat) (lo : List Nat) (hi : List Nat) (echo : List Nat) (s : State) : Host.Outcome State Fault Refusal :=
  s.serve (.ident k lo hi echo) (fun s => s.seqIdent k (lo.zip (hi.zip echo)))

/-- GOTO, R190: Sequence step continuing at another step. -/
def execGoto (k : Nat) (s : State) : Host.Outcome State Fault Refusal :=
  s.serve (.goto k) (fun s => s.seqGoto k)

/-- DELAY, R190: Sequence step waiting a set time. -/
def execDelay (k : Nat) (s : State) : Host.Outcome State Fault Refusal :=
  s.serve (.delay k) (fun s => s.seqDelay k)

/-- SEQ_STEP_TIMEOUT, R190: A sequence step not completed within TMO fails and continues at ONFAIL. -/
def execSeqStepTimeout (k : Nat) (s : State) : Host.Outcome State Fault Refusal :=
  s.serve (.seqStepTimeout k) (fun s => s.seqTimeout k)

/-- TRAIN_TIMEOUT, R190: Training beyond 1 s, or retraining beyond 200 µs, moves the port to FAILED. -/
def execTrainTimeout (k : Nat) (s : State) : Host.Outcome State Fault Refusal :=
  s.serve (.trainTimeout k) (fun s => s.trainTimeout k)

end Sys2Proof.Machine
end

