-- ==== Sys2Proof/Machine/CmdRecovery.lean ====
section
/-! DEFINITION. The meanings of the commands of one family: faults and recovery. -/

namespace Sys2Proof.Machine

open Sys2Proof

/-- FT_LATCH, R375: A write of 1 to FT_LATCH clears it, discarded while any FT bit is set. -/
def execFtLatch (ag : Agent) (s : State) : Host.Outcome State Fault Refusal :=
  s.serve (.ftLatch ag) (fun s => s.asBlock ag .flt 0 (fun s => s.ftClear))

/-- FENCE_GO, R372: A write of FENCE_GO fences the named unit. -/
def execFenceGo (ag : Agent) (s : State) : Host.Outcome State Fault Refusal :=
  s.serve (.fenceGo ag) (fun s => s.asBlock ag .flt 0 (fun s => s.fenceGo))

/-- REPLAY_TURN_END, R382: A suspect's REPLAY_WIN ends without progress, so it fails and is aborted. -/
def execReplayTurnEnd (l : Nat) (s : State) : Host.Outcome State Fault Refusal :=
  s.serve (.replayTurnEnd l) (fun s => s.replayTurnEnd l)

/-- RUNG_FAILED, R384: A rung not finished within its maximum time raises RUNG_FAILED and starts the next rung. -/
def execRungFailed (l : Nat) (s : State) : Host.Outcome State Fault Refusal :=
  s.serve (.rungFailed l) (fun s => s.rungFailed l)

/-- CONTEXT_SCRUB, R385: A context is aborted: stages abandoned, collectives failed, transfers ended, state zeroed, QSTOP set. -/
def execContextScrub (ag : Agent) (c : Nat) (s : State) : Host.Outcome State Fault Refusal :=
  s.serve (.contextScrub ag c) (fun s => s.asBlock ag .hng 0 (fun s => s.recReq (s.agentPart ag) 1 0 (0x300 + c)))

/-- ENGINE_SCRUB, R386: An engine is stopped, reset, self-tested and returned to service or fenced. -/
def execEngineScrub (l : Nat) (ok : Bool) (s : State) : Host.Outcome State Fault Refusal :=
  s.serve (.engineScrub l ok) (fun s => s.engineScrub l ok)

/-- HANG_CHECK, R378: Every 1 ms the controller checks pending engines and may declare one hang per lane. -/
def execHangCheck (s : State) : Host.Outcome State Fault Refusal :=
  s.serve .hangCheck (fun s => s.hangCheck)

/-- POWER_CYCLE, R384: Rung 5 sets PC_REQ so the tray removes and restores power. -/
def execPowerCycle (s : State) : Host.Outcome State Fault Refusal :=
  s.serve .powerCycle (fun s => s.recReq none 5 0 0)

/-- CAPTURE_ONLY, R381: REC_REQ with ACTION 6 takes a capture without recovery. -/
def execCaptureOnly (s : State) : Host.Outcome State Fault Refusal :=
  s.serve .captureOnly (fun s => s.recReq none 6 0 0)

end Sys2Proof.Machine
end

