-- ==== Sys2Proof/Machine/CmdRegisters.lean ====
section
/-! DEFINITION. The meanings of the commands of one family: register accesses, transactions, counters and the collector. -/

namespace Sys2Proof.Machine

open Sys2Proof

/-- REGISTER_WRITE, R8: A write to a register that has no behaviour of its own applies or is discarded field by field under its
access types. -/
def execRegisterWrite (ag : Agent) (addr : Nat) (data : Nat) (s : State) : Host.Outcome State Fault Refusal :=
  s.serve (.registerWrite ag addr data) (fun s => (s.regOp ag 2 addr data).1)

/-- FLT_CLEAR, R369: A W1C write to FLT_STAT acknowledges fault occurrences; a bit set by hardware in the same cycle stays set. -/
def execFltClear (ag : Agent) (page : Nat) (v : Nat) (s : State) : Host.Outcome State Fault Refusal :=
  s.serve (.fltClear ag page v) (fun s => s.asWrite ag page (fun s => s.fltClear page v))

/-- COUNTER_LATCH, R427: A read of the low word of a 64-bit pair latches the high word for the same agent's next read. -/
def execCounterLatch (ag : Agent) (addr : Nat) (s : State) : Host.Outcome State Fault Refusal :=
  s.serve (.counterLatch ag addr) (fun s => (s.regOp ag 1 addr 0).1)

/-- BEGIN, R410: An agent opens a partition or package configuration transaction. -/
def execBegin (ag : Agent) (scope : Nat) (s : State) : Host.Outcome State Fault Refusal :=
  s.serve (.begin ag scope) (fun s => s.asBlock ag .cfg 0 (fun s => s.txnBegin ag scope))

/-- COMMIT, R412: The transaction's shadow is checked in one KCLK cycle against every rule and, if it passes, prepared for
application. -/
def execCommit (ag : Agent) (s : State) : Host.Outcome State Fault Refusal :=
  s.serve (.commit ag) (fun s => s.asBlock ag .cfg 0 (fun s => s.txnCommit ag))

/-- APPLY, R412: After preparation every shadowed field takes its new value in one KCLK cycle. -/
def execApply (t : Nat) (s : State) : Host.Outcome State Fault Refusal :=
  s.serve (.apply t) (fun s => s.txnApply t)

/-- ROLLBACK, R414: The owner discards its open transaction's shadow. -/
def execRollback (ag : Agent) (s : State) : Host.Outcome State Fault Refusal :=
  s.serve (.rollback ag) (fun s => s.asBlock ag .cfg 0 (fun s => s.txnRollback ag))

/-- TXN_TMO, R414: An open transaction with no write for TXN_TMO is rolled back. -/
def execTxnTmo (t : Nat) (s : State) : Host.Outcome State Fault Refusal :=
  s.serve (.txnTmo t) (fun s => s.txnTimeout t)

/-- LOG_SEL, R336: A write of LOG_SEL shows the selected event record in LOG_W. -/
def execLogSel (ag : Agent) (v : Nat) (s : State) : Host.Outcome State Fault Refusal :=
  s.serve (.logSel ag v) (fun s => s.asBlock ag .soh 0 (fun s => s.wr0 Reg.SOH_LOG_SEL v))

/-- SCRUB, R420: A write of SCRUB in an engine page requests an engine scrub of that page. -/
def execScrub (ag : Agent) (page : Nat) (s : State) : Host.Outcome State Fault Refusal :=
  s.serve (.scrub ag page) (fun s => s.asWrite ag page (fun s => s.scrubPage ag page))

/-- DRAIN, R419: A write of DRAIN stops an engine taking new work, or resumes it. -/
def execDrain (ag : Agent) (page : Nat) (v : Nat) (s : State) : Host.Outcome State Fault Refusal :=
  s.serve (.drain ag page v) (fun s => s.asWrite ag page (fun s => s.drain page v))

/-- CLR_GO, R428: A write of CLR_GO clears the named counters of a page in one cycle. -/
def execClrGo (ag : Agent) (page : Nat) (mask : Nat) (blk : Bool) (s : State) : Host.Outcome State Fault Refusal :=
  s.serve (.clrGo ag page mask blk) (fun s => s.asBlock ag .cnt 0 (fun s => s.clearCounters page mask blk))

/-- RUN, R433: A write of RUN starts or stops the counter collector. -/
def execRun (ag : Agent) (v : Nat) (s : State) : Host.Outcome State Fault Refusal :=
  s.serve (.run ag v) (fun s => s.asBlock ag .cnt 0 (fun s => s.collectorRun v))

/-- SNAP_RSEL, R434: A write of SNAP_RSEL copies a snapshot record into the window. -/
def execSnapRsel (ag : Agent) (v : Nat) (s : State) : Host.Outcome State Fault Refusal :=
  s.serve (.snapRsel ag v) (fun s => s.asBlock ag .cnt 0 (fun s => s.snapSelect v))

/-- COLLECTOR_CAPTURE, R432: Every COL_PER the collector samples its selections at one edge and writes a snapshot record. -/
def execCollectorCapture (s : State) : Host.Outcome State Fault Refusal :=
  s.serve .collectorCapture (fun s => s.collectorCapture)

end Sys2Proof.Machine
end

