-- ==== Sys2Proof/Machine/CmdScalar.lean ====
section
/-! DEFINITION. The meanings of the commands of one family: slot C of the Finisher. -/

namespace Sys2Proof.Machine

open Sys2Proof

/-- SADD, R77: Scalar add immediate. -/
def execSadd (t : Nat) (s : State) : Host.Outcome State Fault Refusal :=
  s.serve (.sadd t) (fun s => s.finish t 2 1)

/-- SADDR, R77: Scalar register add. -/
def execSaddr (t : Nat) (s : State) : Host.Outcome State Fault Refusal :=
  s.serve (.saddr t) (fun s => s.finish t 2 2)

/-- SSUBR, R77: Scalar register subtract. -/
def execSsubr (t : Nat) (s : State) : Host.Outcome State Fault Refusal :=
  s.serve (.ssubr t) (fun s => s.finish t 2 3)

/-- SMULR, R77: Scalar register multiply. -/
def execSmulr (t : Nat) (s : State) : Host.Outcome State Fault Refusal :=
  s.serve (.smulr t) (fun s => s.finish t 2 4)

/-- SANDR, R77: Scalar register and. -/
def execSandr (t : Nat) (s : State) : Host.Outcome State Fault Refusal :=
  s.serve (.sandr t) (fun s => s.finish t 2 5)

/-- SORR, R77: Scalar register or. -/
def execSorr (t : Nat) (s : State) : Host.Outcome State Fault Refusal :=
  s.serve (.sorr t) (fun s => s.finish t 2 6)

/-- SSHL, R77: Scalar logical shift left. -/
def execSshl (t : Nat) (s : State) : Host.Outcome State Fault Refusal :=
  s.serve (.sshl t) (fun s => s.finish t 2 7)

/-- SSHR, R77: Scalar logical shift right. -/
def execSshr (t : Nat) (s : State) : Host.Outcome State Fault Refusal :=
  s.serve (.sshr t) (fun s => s.finish t 2 8)

/-- SLI, R77: Load immediate. -/
def execSli (t : Nat) (s : State) : Host.Outcome State Fault Refusal :=
  s.serve (.sli t) (fun s => s.finish t 2 9)

/-- SLUI, R77: Load upper immediate. -/
def execSlui (t : Nat) (s : State) : Host.Outcome State Fault Refusal :=
  s.serve (.slui t) (fun s => s.finish t 2 10)

/-- VTOS, R77: Copy a vector lane to a scalar register. -/
def execVtos (t : Nat) (s : State) : Host.Outcome State Fault Refusal :=
  s.serve (.vtos t) (fun s => s.finish t 2 11)

/-- SRD, R437: Read of an allowed register of the tile page, including the context counter view. -/
def execSrd (t : Nat) (s : State) : Host.Outcome State Fault Refusal :=
  s.serve (.srd t) (fun s => s.finish t 2 12)

/-- BR, R77: Unconditional branch, raising IMEM_RANGE outside the region. -/
def execBr (t : Nat) (s : State) : Host.Outcome State Fault Refusal :=
  s.serve (.br t) (fun s => s.finish t 2 16)

/-- BEQ, R77: Branch if equal. -/
def execBeq (t : Nat) (s : State) : Host.Outcome State Fault Refusal :=
  s.serve (.beq t) (fun s => s.finish t 2 17)

/-- BNE, R77: Branch if not equal. -/
def execBne (t : Nat) (s : State) : Host.Outcome State Fault Refusal :=
  s.serve (.bne t) (fun s => s.finish t 2 18)

/-- BLT, R77: Branch if signed less than. -/
def execBlt (t : Nat) (s : State) : Host.Outcome State Fault Refusal :=
  s.serve (.blt t) (fun s => s.finish t 2 19)

/-- BGE, R77: Branch if signed greater or equal. -/
def execBge (t : Nat) (s : State) : Host.Outcome State Fault Refusal :=
  s.serve (.bge t) (fun s => s.finish t 2 20)

/-- END, R89: End of the stage program; the stage then waits for its boundary conditions. -/
def execEndStage (t : Nat) (s : State) : Host.Outcome State Fault Refusal :=
  s.serve (.endStage t) (fun s => s.finish t 2 31)

end Sys2Proof.Machine
end

