-- ==== Sys2Proof/Machine/CmdSecurity.lean ====
section
/-! DEFINITION. The meanings of the commands of one family: attestation and seals. -/

namespace Sys2Proof.Machine

open Sys2Proof

/-- LC_RETURN, R352: A write of LC_RETURN with a valid token unseals and moves PRODUCTION to RETURNED. -/
def execLcReturn (ag : Agent) (dev : Nat) (cnt : Nat) (sig : Bool) (s : State) : Host.Outcome State Fault Refusal :=
  s.serve (.lcReturn ag dev cnt sig) (fun s => s.asBlock ag .sec 0 (fun s => s.lcReturn dev cnt sig))

/-- ATT_CERT, R353: A write of ATT_CERT copies the vendor certificate to staging. -/
def execAttCert (ag : Agent) (s : State) : Host.Outcome State Fault Refusal :=
  s.serve (.attCert ag) (fun s => s.asBlock ag .sec 0 (fun s => s.attCert))

/-- ATT_GO, R354: A write of ATT_GO snapshots the package and starts a signed report, or refuses it. -/
def execAttGo (ag : Agent) (s : State) : Host.Outcome State Fault Refusal :=
  s.serve (.attGo ag) (fun s => s.asBlock ag .sec 0 (fun s => s.attestGo ag))

/-- ATT_DONE, R354: The signed report is written and ATT_STATE becomes DONE. -/
def execAttDone (sig : List Byte) (s : State) : Host.Outcome State Fault Refusal :=
  s.serve (.attDone sig) (fun s => s.attDone sig)

/-- SEAL_GO, R355: A write of SEAL_GO submits a manifest or a part of one for sealing a partition. -/
def execSealGo (ag : Agent) (more : Bool) (s : State) : Host.Outcome State Fault Refusal :=
  s.serve (.sealGo ag more) (fun s => s.asBlock ag .sec 0 (fun s => s.sealGo more))

/-- SEAL_DONE, R355: The security block verifies, unwraps MK and seals the partition, or refuses. -/
def execSealDone (sig : Bool) (k : List Byte) (s : State) : Host.Outcome State Fault Refusal :=
  s.serve (.sealDone sig k) (fun s => s.sealDone sig k)

/-- UNSEAL_GO, R359: A write of UNSEAL_GO zeroes the partition's memories, erases MK and clears SEALED, or is refused. -/
def execUnsealGo (ag : Agent) (s : State) : Host.Outcome State Fault Refusal :=
  s.serve (.unsealGo ag) (fun s => s.asBlock ag .sec 0 (fun s => s.unsealGo))

/-- SEAL_PART_TIMEOUT, R356: 10 s without a further part abandons the manifest with CODE PARTS. -/
def execSealPartTimeout (s : State) : Host.Outcome State Fault Refusal :=
  s.serve .sealPartTimeout (fun s => s.sealPartTimeout)

/-- UNSEAL_DONE, R359: About 21 ms after an accepted UNSEAL_GO, zeroing ends, MK and the shard list are erased, SEALED is cleared
and UNSEALED is logged. -/
def execUnsealDone (s : State) : Host.Outcome State Fault Refusal :=
  s.serve .unsealDone (fun s => s.unsealDone)

end Sys2Proof.Machine
end

