-- ==== Sys2Proof/Machine/CmdSlotM.lean ====
section
/-! DEFINITION. The meanings of the commands of one family: slot M of the Finisher. -/

namespace Sys2Proof.Machine

open Sys2Proof

/-- PXISSUE, R48: The Finisher issues a Press command descriptor, which is accepted or refused. -/
def execPxissue (t : Nat) (s : State) : Host.Outcome State Fault Refusal :=
  s.serve (.pxissue t) (fun s => s.finish t 1 4)

/-- PXWAIT, R75: The Finisher waits until the Press holds at most a given number of commands. -/
def execPxwait (t : Nat) (s : State) : Host.Outcome State Fault Refusal :=
  s.serve (.pxwait t) (fun s => s.finish t 1 5)

/-- VLD, R100: Load of a vector register from Pantry, raising PANTRY_RANGE outside the allocation. -/
def execVld (t : Nat) (s : State) : Host.Outcome State Fault Refusal :=
  s.serve (.vld t) (fun s => s.finish t 1 1)

/-- VST, R100: Store of a vector register to Pantry. -/
def execVst (t : Nat) (s : State) : Host.Outcome State Fault Refusal :=
  s.serve (.vst t) (fun s => s.finish t 1 2)

/-- FETCH, R153: Start of a Larder–Pantry transfer, optionally converting and tag-checked. -/
def execFetch (t : Nat) (s : State) : Host.Outcome State Fault Refusal :=
  s.serve (.fetch t) (fun s => s.finish t 1 6)

/-- FOLD, R154: Start of a gradient-fold transfer of a tile's partial, opening or joining a fold slot. -/
def execFold (t : Nat) (s : State) : Host.Outcome State Fault Refusal :=
  s.serve (.fold t) (fun s => s.finish t 1 7)

/-- SEND, R112: Start of a hand-off send of slabs into the consumer's receive queue slots. -/
def execSend (t : Nat) (s : State) : Host.Outcome State Fault Refusal :=
  s.serve (.send t) (fun s => s.finish t 1 8)

/-- PTAKE, R82: Take from a peg, waiting until its count suffices. -/
def execPtake (t : Nat) (s : State) : Host.Outcome State Fault Refusal :=
  s.serve (.ptake t) (fun s => s.finish t 1 9)

/-- PWAIT, R82: Wait until a peg reaches a value. -/
def execPwait (t : Nat) (s : State) : Host.Outcome State Fault Refusal :=
  s.serve (.pwait t) (fun s => s.finish t 1 10)

/-- PPOST, R83: Post an amount to a peg of this tile. -/
def execPpost (t : Nat) (s : State) : Host.Outcome State Fault Refusal :=
  s.serve (.ppost t) (fun s => s.finish t 1 11)

/-- PPOSTR, R83: Post to a peg of another tile, deferred to this stage's boundary. -/
def execPpostr (t : Nat) (s : State) : Host.Outcome State Fault Refusal :=
  s.serve (.ppostr t) (fun s => s.finish t 1 12)

/-- XWAIT, R89: Wait until every FETCH, FOLD and SEND of the stage has completed. -/
def execXwait (t : Nat) (s : State) : Host.Outcome State Fault Refusal :=
  s.serve (.xwait t) (fun s => s.finish t 1 13)

end Sys2Proof.Machine
end

