-- ==== Sys2Proof/Machine/CmdSoholt.lean ====
section
/-! DEFINITION. The meanings of the commands of one family: management: the tray, logs, dumps, calibration and updates. -/

namespace Sys2Proof.Machine

open Sys2Proof

/-- SOH_RESTART, R331: A lockstep mismatch, uncorrectable memory error or watchdog restarts Soholt from its active slot. -/
def execSohRestart (cause : Nat) (s : State) : Host.Outcome State Fault Refusal :=
  s.serve (.sohRestart cause) (fun s => s.sohRestart cause)

/-- DUMP_EXPORT, R338: A write of DUMP_EXPORT copies a dump slot to staging. -/
def execDumpExport (ag : Agent) (s : State) : Host.Outcome State Fault Refusal :=
  s.serve (.dumpExport ag) (fun s => s.asBlock ag .soh 0 (fun s => s.dumpExport))

/-- PC_GO, R341: A write of PC_GO sets PC_REQ for the tray to power-cycle the package. -/
def execPcGo (ag : Agent) (s : State) : Host.Outcome State Fault Refusal :=
  s.serve (.pcGo ag) (fun s => s.asBlock ag .soh 0 (fun s => s.requestPowerCycle 0))

/-- CAL_EXPORT, R345: A write of CAL_EXPORT writes the calibration store image to staging. -/
def execCalExport (ag : Agent) (s : State) : Host.Outcome State Fault Refusal :=
  s.serve (.calExport ag) (fun s => s.asBlock ag .soh 0 (fun s => s.calExport))

/-- CAL_LOCK, R345: A write of CAL_LOCK = 1 refuses imports until power-on reset. -/
def execCalLock (ag : Agent) (v : Nat) (s : State) : Host.Outcome State Fault Refusal :=
  s.serve (.calLock ag v) (fun s => s.asBlock ag .soh 0 (fun s => s.calLock v))

/-- CFG_SAVE, R345: A write of CFG_SAVE stores host and Hearth settings in the configuration block. -/
def execCfgSave (ag : Agent) (s : State) : Host.Outcome State Fault Refusal :=
  s.serve (.cfgSave ag) (fun s => s.asBlock ag .soh 0 (fun s => s.cfgSave))

/-- UPD_OPEN, R346: A write of OPEN starts reception of an update image. -/
def execUpdOpen (ag : Agent) (s : State) : Host.Outcome State Fault Refusal :=
  s.serve (.updOpen ag) (fun s => s.asBlock ag .upd 0 (fun s => s.updOpen))

/-- CHECK, R346: A write of CHECK reports missing image chunks. -/
def execCheck (ag : Agent) (s : State) : Host.Outcome State Fault Refusal :=
  s.serve (.check ag) (fun s => s.asBlock ag .upd 0 (fun s => s.updCheck))

/-- VERIFY, R347: A write of VERIFY starts verification of the received image. -/
def execVerify (ag : Agent) (s : State) : Host.Outcome State Fault Refusal :=
  s.serve (.verify ag) (fun s => s.asBlock ag .upd 0 (fun s => s.updVerify))

/-- VERIFY_DONE, R347: Verification ends with the component pending, or FAILED with a code. -/
def execVerifyDone (sig : Bool) (ucode : Bool) (readBack : Nat) (s : State) : Host.Outcome State Fault Refusal :=
  s.serve (.verifyDone sig ucode readBack) (fun s => s.verifyEnd seqImageOk sig ucode readBack)

/-- SVN_RAISE, R350: A write of SVN_RAISE raises MIN_SVN within its conditions. -/
def execSvnRaise (ag : Agent) (v : Nat) (s : State) : Host.Outcome State Fault Refusal :=
  s.serve (.svnRaise ag v) (fun s => s.asBlock ag .upd 0 (fun s => s.svnRaise v))

/-- TRAY_WRITE, R340: The tray's private I3C write to TIN, TOUT, FLOW, LEAK or TCAP holds the value pending until the next RSEQ,
and a write to a read-only index is not acknowledged. -/
def execTrayWrite (index : Nat) (value : Nat) (s : State) : Host.Outcome State Fault Refusal :=
  s.serve (.trayWrite index value) (fun s => s.trayWrite index value)

/-- I3C_CCC, R339: The tray's SETDASA, SETAASA, RSTDAA or GETSTATUS common command assigns, resets or reports the package's I3C
dynamic address and status. -/
def execI3cCcc (kind : Nat) (a : Nat) (d : Nat) (s : State) : Host.Outcome State Fault Refusal :=
  s.serve (.i3cCcc kind a d) (fun s => s.i3cCcc kind a d)

/-- SOH_IN_SERVICE, R331: Soholt returns to service after its restart. -/
def execSohInService (s : State) : Host.Outcome State Fault Refusal :=
  s.serve .sohInService (fun s => s.sohInService)

/-- DUMP_WRITE, R338: A capture is written to the oldest unpinned dump slot. -/
def execDumpWrite (s : State) : Host.Outcome State Fault Refusal :=
  s.serve .dumpWrite (fun s => s.dumpWrite)

/-- I3C_STATUS_READ, R341: The tray's read of STATUS releases ALERT_N for bits other than SD_REQ. -/
def execI3cStatusRead (s : State) : Host.Outcome State Fault Refusal :=
  s.serve .i3cStatusRead (fun s => s.i3cStatusRead)

/-- ACT, R343: A tray read of ACT returns the next word of the head compat action record. -/
def execAct (s : State) : Host.Outcome State Fault Refusal :=
  s.serve .act (fun s => s.actRead)

/-- COMPAT_RECORD, R343: One second after a protective action a compat action record is queued and logged. -/
def execCompatRecord (s : State) : Host.Outcome State Fault Refusal :=
  s.serve .compatRecord (fun s => s.compatRecord)

/-- UPD_FALLBACK, R349: A Soholt image without a self-check in 5 s falls back to the previous slot and components. -/
def execUpdFallback (s : State) : Host.Outcome State Fault Refusal :=
  s.serve .updFallback (fun s => s.updFallback)

/-- EXPORT_COMPLETE, R338: A dump or calibration export to staging offset 0x3000000 finishes, about 100 ms after it began, ending
the export in progress. -/
def execExportComplete (s : State) : Host.Outcome State Fault Refusal :=
  s.serve .exportComplete (fun s => s.exportComplete)

end Sys2Proof.Machine
end

