-- ==== Sys2Proof/Machine/CmdStage.lean ====
section
/-! DEFINITION. The meanings of the commands of one family: what a stage leads to: the Press, transfers, hand-offs, pegs, boundaries, Mangle and the fabric. -/

namespace Sys2Proof.Machine

open Sys2Proof

/-- PRESS_COMMAND_COMPLETE, R68: A Press command's drain ends and PX_LAST, PX_COUNTS and flags update with its outputs readable. -/
def execPressCommandComplete (t : Nat) (s : State) : Host.Outcome State Fault Refusal :=
  s.serve (.pressCommandComplete t) (fun s => s.pressComplete t)

/-- FETCH_COMPLETE, R153: Every granule of a FETCH has been written and its peg is posted. -/
def execFetchComplete (t : Nat) (k : Nat) (s : State) : Host.Outcome State Fault Refusal :=
  s.serve (.fetchComplete t k) (fun s => s.fetchComplete t k)

/-- FOLD_MARK, R156: A member's completion mark, released at its boundary, adds its partial in turn. -/
def execFoldMark (k : Nat) (s : State) : Host.Outcome State Fault Refusal :=
  s.serve (.foldMark k) (fun s => s.foldMark k)

/-- FOLD_COMPLETE, R157: When all partials are added the sum is converted, written, FDONE set and the slot freed. -/
def execFoldComplete (st : Nat) (n : Nat) (s : State) : Host.Outcome State Fault Refusal :=
  s.serve (.foldComplete st n) (fun s => s.foldComplete st n)

/-- SLAB_WRITE, R113: The consumer's router checks and writes an arriving slab, or refuses it. -/
def execSlabWrite (t : Nat) (k : Nat) (ix : Nat) (s : State) : Host.Outcome State Fault Refusal :=
  s.serve (.slabWrite t k ix) (fun s => s.slabWrite t k ix)

/-- SEND_COMPLETE, R114: A SEND completes when every byte is written and its acknowledgement reaches the producer. -/
def execSendComplete (t : Nat) (k : Nat) (s : State) : Host.Outcome State Fault Refusal :=
  s.serve (.sendComplete t k) (fun s => s.sendComplete t k)

/-- PEG_WAIT_END, R82: A waiting PTAKE or PWAIT finds the count sufficient and proceeds. -/
def execPegWaitEnd (t : Nat) (s : State) : Host.Outcome State Fault Refusal :=
  s.serve (.pegWaitEnd t) (fun s => s.pegEnd t)

/-- STAGE_BOUNDARY, R89: Once commands, transfers and bundles are done the boundary commits, releasing deferred effects and
advancing queues. -/
def execStageBoundary (t : Nat) (s : State) : Host.Outcome State Fault Refusal :=
  s.serve (.stageBoundary t) (fun s => s.stageBoundary t)

/-- STAGE_OPEN, R93: The tile opens the next ready stage from its context slots in round-robin order. -/
def execStageOpen (t : Nat) (s : State) : Host.Outcome State Fault Refusal :=
  s.serve (.stageOpen t) (fun s => s.stageOpen t)

/-- PANTRY_SCRUB, R109: The background scrubber reads, corrects or clears Pantry words within each 8 s period. -/
def execPantryScrub (t : Nat) (a : Nat) (flips : List (Nat × Nat)) (s : State) : Host.Outcome State Fault Refusal :=
  s.serve (.pantryScrub t a flips) (fun s => s.pantryScrub t a flips)

/-- RECORD_START, R119: A Mangle channel starts a feed record for the context all group tiles credit, checking tags and record
fields. -/
def execRecordStart (g : Nat) (s : State) : Host.Outcome State Fault Refusal :=
  s.serve (.recordStart g) (fun s => s.recordStart g)

/-- MANGLE_DELIVER, R117: The channel delivers a vector to every tile of the target set once all hold a credit. -/
def execMangleDeliver (g : Nat) (far : Bool) (s : State) : Host.Outcome State Fault Refusal :=
  s.serve (.mangleDeliver g far) (fun s => s.mangleDeliver g far)

/-- RECORD_RETIRE, R119: When every tile has committed the consuming stage the record retires and POS advances. -/
def execRecordRetire (g : Nat) (s : State) : Host.Outcome State Fault Refusal :=
  s.serve (.recordRetire g) (fun s => s.recordRetire g)

/-- FLIT_ARRIVE, R124: A bridge flit is corrected and delivered, or refused and replayed, with FLIT_UC after a fourth failed
replay. -/
def execFlitArrive (mesh : Bool) (d : Nat) (e : Nat) (errs : List (Nat × Nat)) (badCrc : Bool) (own : FlitOwner) (s : State) : Host.Outcome State Fault Refusal :=
  s.serve (.flitArrive mesh d e errs badCrc own) (fun s => s.flitIn mesh d e errs badCrc own.ctx own.cir)

/-- BRIDGE_WEAK, R125: More than BR_CE_LIM corrections in one second raise BRIDGE_WEAK. -/
def execBridgeWeak (d : Nat) (e : Nat) (s : State) : Host.Outcome State Fault Refusal :=
  s.serve (.bridgeWeak d e) (fun s => s.bridgeWeak d e)

/-- FOLD_PARTIAL_LANDED, R83: A FOLD transfer completes when its partial has landed in Larder staging, posting the sender's peg and
counting as done for XWAIT and the boundary. -/
def execFoldPartialLanded (t : Nat) (k : Nat) (s : State) : Host.Outcome State Fault Refusal :=
  s.serve (.foldPartialLanded t k) (fun s => s.foldLanded t k)

/-- REMOTE_POST_ARRIVE, R83: A PPOSTR post released at a producer's boundary reaches the peg of another tile after crossing the
mesh or a bridge, possibly opening a waiting stage. -/
def execRemotePostArrive (k : Nat) (s : State) : Host.Outcome State Fault Refusal :=
  s.serve (.remotePostArrive k) (fun s => s.remotePost k)

end Sys2Proof.Machine
end

