-- ==== Sys2Proof/Machine/CmdSteps.lean ====
section
/-! DEFINITION. The meanings of the commands of one family: context queues, steps, records, loading. -/

namespace Sys2Proof.Machine

open Sys2Proof

/-- STEP, R32: Dispatch of a STEP command accepts the step, or refuses it, and sets STEP_BUSY. -/
def execStep (c : Nat) (long : Bool) (s : State) : Host.Outcome State Fault Refusal :=
  s.serve (.step c long) (fun s => s.dispatchHead c (some 1) long)

/-- STEP_COMPLETE, R37: When all stages, collectives and Starch updates of the step are done, STEP_NUM increments and a record is
written. -/
def execStepComplete (c : Nat) (s : State) : Host.Outcome State Fault Refusal :=
  s.serve (.stepComplete c) (fun s => s.stepComplete c)

/-- MARK, R286: Dispatch of a MARK command writes a completion record at once. -/
def execMark (c : Nat) (s : State) : Host.Outcome State Fault Refusal :=
  s.serve (.mark c) (fun s => s.dispatchHead c (some 3) false)

/-- COLL, R286: Dispatch of a COLL command hands its descriptor to the named collective engine, where it waits for a slot. -/
def execColl (c : Nat) (s : State) : Host.Outcome State Fault Refusal :=
  s.serve (.coll c) (fun s => s.dispatchHead c (some 2) false)

/-- DISPATCH, R285: The head command of a context queue is dispatched once its waiting conditions hold. -/
def execDispatch (c : Nat) (long : Bool) (s : State) : Host.Outcome State Fault Refusal :=
  s.serve (.dispatch c long) (fun s => s.dispatchHead c none long)

/-- LOAD, R96: A write of LOAD checks and broadcasts a program image to the context's tiles, or refuses it. -/
def execLoad (ag : Agent) (c : Nat) (s : State) : Host.Outcome State Fault Refusal :=
  s.serve (.load ag c) (fun s => s.asBlock ag .ctx c (fun s => s.load c))

/-- LOAD_DONE, R97: After chunks and re-sends, the program becomes active on all tiles together, or the load fails. -/
def execLoadDone (c : Nat) (missed : List (Nat × List Nat)) (s : State) : Host.Outcome State Fault Refusal :=
  s.serve (.loadDone c missed) (fun s => s.loadDone c missed)

/-- CURVE, R98: A write of CURVE loads a curve table image into a free slot of every tile, or refuses it. -/
def execCurve (ag : Agent) (c : Nat) (s : State) : Host.Outcome State Fault Refusal :=
  s.serve (.curve ag c) (fun s => s.asBlock ag .ctx c (fun s => s.curve c))

/-- CURVE_DONE, R98: A curve load ends loaded or failed. -/
def execCurveDone (c : Nat) (missed : List (Nat × List Nat)) (s : State) : Host.Outcome State Fault Refusal :=
  s.serve (.curveDone c missed) (fun s => s.curveDone c missed)

/-- RECORD_WRITE, R289: A completion record is written once a ring slot is free, waiting with CPL_FULL otherwise. -/
def execRecordWrite (c : Nat) (s : State) : Host.Outcome State Fault Refusal :=
  s.serve (.recordWrite c) (fun s => s.recordWrite c)

/-- CPL_BIND, R290: A write of CPL_BIND = 1 sends every unconsumed record to CPL_SESS. -/
def execCplBind (ag : Agent) (c : Nat) (s : State) : Host.Outcome State Fault Refusal :=
  s.serve (.cplBind ag c) (fun s => s.asBlock ag .ctx c (fun s => s.cplBind c))

/-- CPL_ACKED, R290: A write of CPL_ACKED advances the consumed-record pointer if newer and valid. -/
def execCplAcked (ag : Agent) (c : Nat) (v : Nat) (s : State) : Host.Outcome State Fault Refusal :=
  s.serve (.cplAcked ag c v) (fun s => s.asBlock ag .ctx c (fun s => s.cplAck c v))

/-- CTX_OPEN, R291: A write of OPEN makes a FREE assigned context OPEN with an empty queue. -/
def execCtxOpen (ag : Agent) (c : Nat) (s : State) : Host.Outcome State Fault Refusal :=
  s.serve (.ctxOpen ag c) (fun s => s.asBlock ag .ctx c (fun s => s.ctxOpen c))

/-- TEARDOWN, R389: A write of TEARDOWN makes the context CLOSING and runs the teardown sequence to FREE. -/
def execTeardown (ag : Agent) (c : Nat) (s : State) : Host.Outcome State Fault Refusal :=
  s.serve (.teardown ag c) (fun s => s.asBlock ag .ctx c (fun s => s.teardown c))

end Sys2Proof.Machine
end

