-- ==== Sys2Proof/Machine/CmdVector.lean ====
section
/-! DEFINITION. The meanings of the commands of one family: slot V of the Finisher. -/

namespace Sys2Proof.Machine

open Sys2Proof

/-- VADD, R73: Vector add in FP32, BF16 or I32. -/
def execVadd (t : Nat) (s : State) : Host.Outcome State Fault Refusal :=
  s.serve (.vadd t) (fun s => s.finish t 0 1)

/-- VSUB, R73: Vector subtract. -/
def execVsub (t : Nat) (s : State) : Host.Outcome State Fault Refusal :=
  s.serve (.vsub t) (fun s => s.finish t 0 2)

/-- VMUL, R73: Vector multiply. -/
def execVmul (t : Nat) (s : State) : Host.Outcome State Fault Refusal :=
  s.serve (.vmul t) (fun s => s.finish t 0 3)

/-- VFMA, R73: Vector fused multiply-add, rounded once. -/
def execVfma (t : Nat) (s : State) : Host.Outcome State Fault Refusal :=
  s.serve (.vfma t) (fun s => s.finish t 0 4)

/-- VMAX, R73: Lane-wise maximum. -/
def execVmax (t : Nat) (s : State) : Host.Outcome State Fault Refusal :=
  s.serve (.vmax t) (fun s => s.finish t 0 5)

/-- VMIN, R73: Lane-wise minimum. -/
def execVmin (t : Nat) (s : State) : Host.Outcome State Fault Refusal :=
  s.serve (.vmin t) (fun s => s.finish t 0 6)

/-- VABS, R73: Lane-wise absolute value. -/
def execVabs (t : Nat) (s : State) : Host.Outcome State Fault Refusal :=
  s.serve (.vabs t) (fun s => s.finish t 0 7)

/-- VNEG, R73: Lane-wise negation. -/
def execVneg (t : Nat) (s : State) : Host.Outcome State Fault Refusal :=
  s.serve (.vneg t) (fun s => s.finish t 0 8)

/-- VCMP, R77: Lane-wise comparison written to a mask register. -/
def execVcmp (t : Nat) (s : State) : Host.Outcome State Fault Refusal :=
  s.serve (.vcmp t) (fun s => s.finish t 0 9)

/-- VSEL, R77: Lane-wise select under a mask. -/
def execVsel (t : Nat) (s : State) : Host.Outcome State Fault Refusal :=
  s.serve (.vsel t) (fun s => s.finish t 0 10)

/-- VBCAST, R77: Broadcast of a scalar register to every lane. -/
def execVbcast (t : Nat) (s : State) : Host.Outcome State Fault Refusal :=
  s.serve (.vbcast t) (fun s => s.finish t 0 11)

/-- VRSUM, R76: Fixed-tree sum of all lanes written to every lane. -/
def execVrsum (t : Nat) (s : State) : Host.Outcome State Fault Refusal :=
  s.serve (.vrsum t) (fun s => s.finish t 0 12)

/-- VRMAX, R76: Largest lane written to every lane. -/
def execVrmax (t : Nat) (s : State) : Host.Outcome State Fault Refusal :=
  s.serve (.vrmax t) (fun s => s.finish t 0 13)

/-- VPERM, R77: Lane permutation. -/
def execVperm (t : Nat) (s : State) : Host.Outcome State Fault Refusal :=
  s.serve (.vperm t) (fun s => s.finish t 0 14)

/-- VCURVE, R79: Evaluation of a curve table at each lane. -/
def execVcurve (t : Nat) (s : State) : Host.Outcome State Fault Refusal :=
  s.serve (.vcurve t) (fun s => s.finish t 0 16)

/-- VEXP2, R80: Base-2 exponential by range reduction and curve. -/
def execVexp2 (t : Nat) (s : State) : Host.Outcome State Fault Refusal :=
  s.serve (.vexp2 t) (fun s => s.finish t 0 17)

/-- VLOG2, R80: Base-2 logarithm by range reduction and curve. -/
def execVlog2 (t : Nat) (s : State) : Host.Outcome State Fault Refusal :=
  s.serve (.vlog2 t) (fun s => s.finish t 0 18)

/-- VRCP, R80: Reciprocal by range reduction and curve. -/
def execVrcp (t : Nat) (s : State) : Host.Outcome State Fault Refusal :=
  s.serve (.vrcp t) (fun s => s.finish t 0 19)

/-- VRSQRT, R80: Reciprocal square root by range reduction and curve. -/
def execVrsqrt (t : Nat) (s : State) : Host.Outcome State Fault Refusal :=
  s.serve (.vrsqrt t) (fun s => s.finish t 0 20)

/-- VCVT, R451: Conversion of FP32 lanes to a format entry, optionally in MX form, reporting FP_SAT and FP_NAN. -/
def execVcvt (t : Nat) (s : State) : Host.Outcome State Fault Refusal :=
  s.serve (.vcvt t) (fun s => s.finish t 0 24)

/-- VUNP, R77: Decode of a format entry to FP32, optionally applying E8M0 scales. -/
def execVunp (t : Nat) (s : State) : Host.Outcome State Fault Refusal :=
  s.serve (.vunp t) (fun s => s.finish t 0 25)

/-- VAND, R77: Bitwise and. -/
def execVand (t : Nat) (s : State) : Host.Outcome State Fault Refusal :=
  s.serve (.vand t) (fun s => s.finish t 0 32)

/-- VOR, R77: Bitwise or. -/
def execVor (t : Nat) (s : State) : Host.Outcome State Fault Refusal :=
  s.serve (.vor t) (fun s => s.finish t 0 33)

/-- VXOR, R77: Bitwise exclusive or. -/
def execVxor (t : Nat) (s : State) : Host.Outcome State Fault Refusal :=
  s.serve (.vxor t) (fun s => s.finish t 0 34)

/-- VSHL, R77: Shift left. -/
def execVshl (t : Nat) (s : State) : Host.Outcome State Fault Refusal :=
  s.serve (.vshl t) (fun s => s.finish t 0 35)

/-- VSHR, R77: Logical shift right. -/
def execVshr (t : Nat) (s : State) : Host.Outcome State Fault Refusal :=
  s.serve (.vshr t) (fun s => s.finish t 0 36)

/-- VSRA, R77: Arithmetic shift right. -/
def execVsra (t : Nat) (s : State) : Host.Outcome State Fault Refusal :=
  s.serve (.vsra t) (fun s => s.finish t 0 37)

/-- VITOF, R73: Signed integer to FP32 with RNE. -/
def execVitof (t : Nat) (s : State) : Host.Outcome State Fault Refusal :=
  s.serve (.vitof t) (fun s => s.finish t 0 40)

/-- VFTOI, R73: FP32 to saturating signed integer. -/
def execVftoi (t : Nat) (s : State) : Host.Outcome State Fault Refusal :=
  s.serve (.vftoi t) (fun s => s.finish t 0 41)

/-- VMOV, R77: Vector move. -/
def execVmov (t : Nat) (s : State) : Host.Outcome State Fault Refusal :=
  s.serve (.vmov t) (fun s => s.finish t 0 42)

end Sys2Proof.Machine
end

