-- ==== Sys2Proof/Machine/Dispatch.lean ====
section
/-! DEFINITION. The dispatch: one arm per command, each the direct call of its meaning. -/

namespace Sys2Proof.Machine

open Sys2Proof

def exec (i : Instr) (s : State) : Host.Outcome State Fault Refusal :=
  match i with
  | .registerWrite ag addr data => Sys2Proof.Machine.execRegisterWrite ag addr data s
  | .fltClear ag page v => Sys2Proof.Machine.execFltClear ag page v s
  | .counterLatch ag addr => Sys2Proof.Machine.execCounterLatch ag addr s
  | .powerOnResetEnd straps => Sys2Proof.Machine.execPowerOnResetEnd straps s
  | .supplyGood ix => Sys2Proof.Machine.execSupplyGood ix s
  | .supplyFault ix => Sys2Proof.Machine.execSupplyFault ix s
  | .clockLost root => Sys2Proof.Machine.execClockLost root s
  | .target ag v => Sys2Proof.Machine.execTarget ag v s
  | .phaseEnd fail bad => Sys2Proof.Machine.execPhaseEnd fail bad s
  | .begin ag scope => Sys2Proof.Machine.execBegin ag scope s
  | .commit ag => Sys2Proof.Machine.execCommit ag s
  | .apply t => Sys2Proof.Machine.execApply t s
  | .rollback ag => Sys2Proof.Machine.execRollback ag s
  | .txnTmo t => Sys2Proof.Machine.execTxnTmo t s
  | .pdReq ag w v => Sys2Proof.Machine.execPdReq ag w v s
  | .pdSwitchDone d => Sys2Proof.Machine.execPdSwitchDone d s
  | .step c long => Sys2Proof.Machine.execStep c long s
  | .stepComplete c => Sys2Proof.Machine.execStepComplete c s
  | .mark c => Sys2Proof.Machine.execMark c s
  | .coll c => Sys2Proof.Machine.execColl c s
  | .dispatch c long => Sys2Proof.Machine.execDispatch c long s
  | .pxissue t => Sys2Proof.Machine.execPxissue t s
  | .pressCommandComplete t => Sys2Proof.Machine.execPressCommandComplete t s
  | .pxwait t => Sys2Proof.Machine.execPxwait t s
  | .vadd t => Sys2Proof.Machine.execVadd t s
  | .vsub t => Sys2Proof.Machine.execVsub t s
  | .vmul t => Sys2Proof.Machine.execVmul t s
  | .vfma t => Sys2Proof.Machine.execVfma t s
  | .vmax t => Sys2Proof.Machine.execVmax t s
  | .vmin t => Sys2Proof.Machine.execVmin t s
  | .vabs t => Sys2Proof.Machine.execVabs t s
  | .vneg t => Sys2Proof.Machine.execVneg t s
  | .vcmp t => Sys2Proof.Machine.execVcmp t s
  | .vsel t => Sys2Proof.Machine.execVsel t s
  | .vbcast t => Sys2Proof.Machine.execVbcast t s
  | .vrsum t => Sys2Proof.Machine.execVrsum t s
  | .vrmax t => Sys2Proof.Machine.execVrmax t s
  | .vperm t => Sys2Proof.Machine.execVperm t s
  | .vcurve t => Sys2Proof.Machine.execVcurve t s
  | .vexp2 t => Sys2Proof.Machine.execVexp2 t s
  | .vlog2 t => Sys2Proof.Machine.execVlog2 t s
  | .vrcp t => Sys2Proof.Machine.execVrcp t s
  | .vrsqrt t => Sys2Proof.Machine.execVrsqrt t s
  | .vcvt t => Sys2Proof.Machine.execVcvt t s
  | .vunp t => Sys2Proof.Machine.execVunp t s
  | .vand t => Sys2Proof.Machine.execVand t s
  | .vor t => Sys2Proof.Machine.execVor t s
  | .vxor t => Sys2Proof.Machine.execVxor t s
  | .vshl t => Sys2Proof.Machine.execVshl t s
  | .vshr t => Sys2Proof.Machine.execVshr t s
  | .vsra t => Sys2Proof.Machine.execVsra t s
  | .vitof t => Sys2Proof.Machine.execVitof t s
  | .vftoi t => Sys2Proof.Machine.execVftoi t s
  | .vmov t => Sys2Proof.Machine.execVmov t s
  | .vld t => Sys2Proof.Machine.execVld t s
  | .vst t => Sys2Proof.Machine.execVst t s
  | .fetch t => Sys2Proof.Machine.execFetch t s
  | .fetchComplete t k => Sys2Proof.Machine.execFetchComplete t k s
  | .fold t => Sys2Proof.Machine.execFold t s
  | .foldMark k => Sys2Proof.Machine.execFoldMark k s
  | .foldComplete st n => Sys2Proof.Machine.execFoldComplete st n s
  | .send t => Sys2Proof.Machine.execSend t s
  | .slabWrite t k ix => Sys2Proof.Machine.execSlabWrite t k ix s
  | .sendComplete t k => Sys2Proof.Machine.execSendComplete t k s
  | .ptake t => Sys2Proof.Machine.execPtake t s
  | .pwait t => Sys2Proof.Machine.execPwait t s
  | .pegWaitEnd t => Sys2Proof.Machine.execPegWaitEnd t s
  | .ppost t => Sys2Proof.Machine.execPpost t s
  | .ppostr t => Sys2Proof.Machine.execPpostr t s
  | .xwait t => Sys2Proof.Machine.execXwait t s
  | .sadd t => Sys2Proof.Machine.execSadd t s
  | .saddr t => Sys2Proof.Machine.execSaddr t s
  | .ssubr t => Sys2Proof.Machine.execSsubr t s
  | .smulr t => Sys2Proof.Machine.execSmulr t s
  | .sandr t => Sys2Proof.Machine.execSandr t s
  | .sorr t => Sys2Proof.Machine.execSorr t s
  | .sshl t => Sys2Proof.Machine.execSshl t s
  | .sshr t => Sys2Proof.Machine.execSshr t s
  | .sli t => Sys2Proof.Machine.execSli t s
  | .slui t => Sys2Proof.Machine.execSlui t s
  | .vtos t => Sys2Proof.Machine.execVtos t s
  | .srd t => Sys2Proof.Machine.execSrd t s
  | .br t => Sys2Proof.Machine.execBr t s
  | .beq t => Sys2Proof.Machine.execBeq t s
  | .bne t => Sys2Proof.Machine.execBne t s
  | .blt t => Sys2Proof.Machine.execBlt t s
  | .bge t => Sys2Proof.Machine.execBge t s
  | .endStage t => Sys2Proof.Machine.execEndStage t s
  | .stageBoundary t => Sys2Proof.Machine.execStageBoundary t s
  | .stageOpen t => Sys2Proof.Machine.execStageOpen t s
  | .load ag c => Sys2Proof.Machine.execLoad ag c s
  | .loadDone c missed => Sys2Proof.Machine.execLoadDone c missed s
  | .curve ag c => Sys2Proof.Machine.execCurve ag c s
  | .curveDone c missed => Sys2Proof.Machine.execCurveDone c missed s
  | .pantryScrub t a flips => Sys2Proof.Machine.execPantryScrub t a flips s
  | .recordStart g => Sys2Proof.Machine.execRecordStart g s
  | .mangleDeliver g far => Sys2Proof.Machine.execMangleDeliver g far s
  | .recordRetire g => Sys2Proof.Machine.execRecordRetire g s
  | .flitArrive mesh d e errs badCrc own => Sys2Proof.Machine.execFlitArrive mesh d e errs badCrc own s
  | .bridgeWeak d e => Sys2Proof.Machine.execBridgeWeak d e s
  | .larderAccess c a data n flips => Sys2Proof.Machine.execLarderAccess c a data n flips s
  | .larderRefresh st lost => Sys2Proof.Machine.execLarderRefresh st lost s
  | .patrolScrub a flips => Sys2Proof.Machine.execPatrolScrub a flips s
  | .laneRepair st ch pin => Sys2Proof.Machine.execLaneRepair st ch pin s
  | .rowRepair a => Sys2Proof.Machine.execRowRepair a s
  | .channelDown st ch => Sys2Proof.Machine.execChannelDown st ch s
  | .landingWrite c a tag data writer => Sys2Proof.Machine.execLandingWrite c a tag data writer s
  | .landingResume k => Sys2Proof.Machine.execLandingResume k s
  | .tagReadOpen t k => Sys2Proof.Machine.execTagReadOpen t k s
  | .ingestMatch st n => Sys2Proof.Machine.execIngestMatch st n s
  | .starchTrigger st c k => Sys2Proof.Machine.execStarchTrigger st c k s
  | .starchBatch st => Sys2Proof.Machine.execStarchBatch st s
  | .ruleLoad ag st => Sys2Proof.Machine.execRuleLoad ag st s
  | .ruleLoadDone st ok => Sys2Proof.Machine.execRuleLoadDone st ok s
  | .laserMeasure k lp => Sys2Proof.Machine.execLaserMeasure k lp s
  | .laserLoss k => Sys2Proof.Machine.execLaserLoss k s
  | .laserRestore k => Sys2Proof.Machine.execLaserRestore k s
  | .frameReceive k ls => Sys2Proof.Machine.execFrameReceive k ls s
  | .replayTimeout k data => Sys2Proof.Machine.execReplayTimeout k data s
  | .errorWindow k => Sys2Proof.Machine.execErrorWindow k s
  | .lossOfSignal k light => Sys2Proof.Machine.execLossOfSignal k light s
  | .signalDetect k light => Sys2Proof.Machine.execSignalDetect k light s
  | .lnkEn ag k v => Sys2Proof.Machine.execLnkEn ag k v s
  | .retry ag k => Sys2Proof.Machine.execRetry ag k s
  | .retrain ag k => Sys2Proof.Machine.execRetrain ag k s
  | .loop ag k v => Sys2Proof.Machine.execLoop ag k v s
  | .txPreset k => Sys2Proof.Machine.execTxPreset k s
  | .txPattern k => Sys2Proof.Machine.execTxPattern k s
  | .waitLock k locked => Sys2Proof.Machine.execWaitLock k locked s
  | .adapt k => Sys2Proof.Machine.execAdapt k s
  | .checkBer k errs => Sys2Proof.Machine.execCheckBer k errs s
  | .fecLock k order => Sys2Proof.Machine.execFecLock k order s
  | .peerSync k t => Sys2Proof.Machine.execPeerSync k t s
  | .rtt k ns => Sys2Proof.Machine.execRtt k ns s
  | .ident k lo hi echo => Sys2Proof.Machine.execIdent k lo hi echo s
  | .goto k => Sys2Proof.Machine.execGoto k s
  | .delay k => Sys2Proof.Machine.execDelay k s
  | .seqStepTimeout k => Sys2Proof.Machine.execSeqStepTimeout k s
  | .trainTimeout k => Sys2Proof.Machine.execTrainTimeout k s
  | .packetForward k p => Sys2Proof.Machine.execPacketForward k p s
  | .packetReceive k p => Sys2Proof.Machine.execPacketReceive k p s
  | .packetDeliver e data => Sys2Proof.Machine.execPacketDeliver e data s
  | .openCircuit e path pay => Sys2Proof.Machine.execOpenCircuit e path pay s
  | .openResend e => Sys2Proof.Machine.execOpenResend e s
  | .openTmo e => Sys2Proof.Machine.execOpenTmo e s
  | .closeGo ag e => Sys2Proof.Machine.execCloseGo ag e s
  | .close e => Sys2Proof.Machine.execClose e s
  | .quiet e path => Sys2Proof.Machine.execQuiet e path s
  | .quietTmo e => Sys2Proof.Machine.execQuietTmo e s
  | .resetNotice e => Sys2Proof.Machine.execResetNotice e s
  | .pathDown e path pay => Sys2Proof.Machine.execPathDown e path pay s
  | .rejoin e path pay => Sys2Proof.Machine.execRejoin e path pay s
  | .rejoinResend e path => Sys2Proof.Machine.execRejoinResend e path s
  | .allReduce d => Sys2Proof.Machine.execAllReduce d s
  | .reduceScatter d => Sys2Proof.Machine.execReduceScatter d s
  | .allGather d => Sys2Proof.Machine.execAllGather d s
  | .allToAll d => Sys2Proof.Machine.execAllToAll d s
  | .allToAllv d => Sys2Proof.Machine.execAllToAllv d s
  | .broadcast d => Sys2Proof.Machine.execBroadcast d s
  | .circulate d => Sys2Proof.Machine.execCirculate d s
  | .collTrigger d n => Sys2Proof.Machine.execCollTrigger d n s
  | .start e key => Sys2Proof.Machine.execStart e key s
  | .startResend d n => Sys2Proof.Machine.execStartResend d n s
  | .credit e stage arg key => Sys2Proof.Machine.execCredit e stage arg key s
  | .chunkSend d n e c => Sys2Proof.Machine.execChunkSend d n e c s
  | .chunkReceive e key stage cidx data trailer adds => Sys2Proof.Machine.execChunkReceive e key stage cidx data trailer adds s
  | .resend e stage cidx key => Sys2Proof.Machine.execResend e stage cidx key s
  | .abort e status key => Sys2Proof.Machine.execAbort e status key s
  | .other e key => Sys2Proof.Machine.execOther e key s
  | .pace e word => Sys2Proof.Machine.execPace e word s
  | .paceSend d => Sys2Proof.Machine.execPaceSend d s
  | .orderStall d n e => Sys2Proof.Machine.execOrderStall d n e s
  | .collComplete d n => Sys2Proof.Machine.execCollComplete d n s
  | .circuitBreakReport e => Sys2Proof.Machine.execCircuitBreakReport e s
  | .sessionOpen m => Sys2Proof.Machine.execSessionOpen m s
  | .sessionClose m => Sys2Proof.Machine.execSessionClose m s
  | .cmd m => Sys2Proof.Machine.execCmd m s
  | .reg m => Sys2Proof.Machine.execReg m s
  | .wdesc m => Sys2Proof.Machine.execWdesc m s
  | .wdata m => Sys2Proof.Machine.execWdata m s
  | .rreq m => Sys2Proof.Machine.execRreq m s
  | .ack m => Sys2Proof.Machine.execAck m s
  | .ackSend p n => Sys2Proof.Machine.execAckSend p n s
  | .rto p n seq => Sys2Proof.Machine.execRto p n seq s
  | .sessTmo p n => Sys2Proof.Machine.execSessTmo p n s
  | .transferStart p => Sys2Proof.Machine.execTransferStart p s
  | .transferComplete p n xid => Sys2Proof.Machine.execTransferComplete p n xid s
  | .recordWrite c => Sys2Proof.Machine.execRecordWrite c s
  | .cplBind ag c => Sys2Proof.Machine.execCplBind ag c s
  | .cplAcked ag c v => Sys2Proof.Machine.execCplAcked ag c v s
  | .ctxOpen ag c => Sys2Proof.Machine.execCtxOpen ag c s
  | .teardown ag c => Sys2Proof.Machine.execTeardown ag c s
  | .hstLinkDown p sub => Sys2Proof.Machine.execHstLinkDown p sub s
  | .split ag p v => Sys2Proof.Machine.execSplit ag p v s
  | .hostLaserLow p lp => Sys2Proof.Machine.execHostLaserLow p lp s
  | .capTick pin upEst => Sys2Proof.Machine.execCapTick pin upEst s
  | .peakCheck raw => Sys2Proof.Machine.execPeakCheck raw s
  | .droop d => Sys2Proof.Machine.execDroop d s
  | .droopRelease d => Sys2Proof.Machine.execDroopRelease d s
  | .sensorSample temps expected warmEst => Sys2Proof.Machine.execSensorSample temps expected warmEst s
  | .sensorDisagree n => Sys2Proof.Machine.execSensorDisagree n s
  | .sensorFail ix expected => Sys2Proof.Machine.execSensorFail ix expected s
  | .sensClr ag => Sys2Proof.Machine.execSensClr ag s
  | .thermalTrip n => Sys2Proof.Machine.execThermalTrip n s
  | .sohRestart cause => Sys2Proof.Machine.execSohRestart cause s
  | .logSel ag v => Sys2Proof.Machine.execLogSel ag v s
  | .dumpExport ag => Sys2Proof.Machine.execDumpExport ag s
  | .pcGo ag => Sys2Proof.Machine.execPcGo ag s
  | .calExport ag => Sys2Proof.Machine.execCalExport ag s
  | .calLock ag v => Sys2Proof.Machine.execCalLock ag v s
  | .cfgSave ag => Sys2Proof.Machine.execCfgSave ag s
  | .updOpen ag => Sys2Proof.Machine.execUpdOpen ag s
  | .check ag => Sys2Proof.Machine.execCheck ag s
  | .verify ag => Sys2Proof.Machine.execVerify ag s
  | .verifyDone sig ucode readBack => Sys2Proof.Machine.execVerifyDone sig ucode readBack s
  | .svnRaise ag v => Sys2Proof.Machine.execSvnRaise ag v s
  | .lcReturn ag dev cnt sig => Sys2Proof.Machine.execLcReturn ag dev cnt sig s
  | .attCert ag => Sys2Proof.Machine.execAttCert ag s
  | .attGo ag => Sys2Proof.Machine.execAttGo ag s
  | .attDone sig => Sys2Proof.Machine.execAttDone sig s
  | .sealGo ag more => Sys2Proof.Machine.execSealGo ag more s
  | .sealDone sig k => Sys2Proof.Machine.execSealDone sig k s
  | .unsealGo ag => Sys2Proof.Machine.execUnsealGo ag s
  | .ftLatch ag => Sys2Proof.Machine.execFtLatch ag s
  | .fenceGo ag => Sys2Proof.Machine.execFenceGo ag s
  | .replayTurnEnd l => Sys2Proof.Machine.execReplayTurnEnd l s
  | .rungFailed l => Sys2Proof.Machine.execRungFailed l s
  | .contextScrub ag c => Sys2Proof.Machine.execContextScrub ag c s
  | .engineScrub l ok => Sys2Proof.Machine.execEngineScrub l ok s
  | .scrub ag page => Sys2Proof.Machine.execScrub ag page s
  | .partitionReset p bad => Sys2Proof.Machine.execPartitionReset p bad s
  | .warmReset bad => Sys2Proof.Machine.execWarmReset bad s
  | .drain ag page v => Sys2Proof.Machine.execDrain ag page v s
  | .clrGo ag page mask blk => Sys2Proof.Machine.execClrGo ag page mask blk s
  | .run ag v => Sys2Proof.Machine.execRun ag v s
  | .snapRsel ag v => Sys2Proof.Machine.execSnapRsel ag v s
  | .foldPartialLanded t k => Sys2Proof.Machine.execFoldPartialLanded t k s
  | .remotePostArrive k => Sys2Proof.Machine.execRemotePostArrive k s
  | .hstLinkUp p sub => Sys2Proof.Machine.execHstLinkUp p sub s
  | .hostLaserRestore p lp => Sys2Proof.Machine.execHostLaserRestore p lp s
  | .hstEn ag p v => Sys2Proof.Machine.execHstEn ag p v s
  | .trayWrite index value => Sys2Proof.Machine.execTrayWrite index value s
  | .i3cCcc kind a d => Sys2Proof.Machine.execI3cCcc kind a d s
  | .arpNdEcho p sub ask => Sys2Proof.Machine.execArpNdEcho p sub ask s
  | .powerOnReset => Sys2Proof.Machine.execPowerOnReset s
  | .vaux33Loss => Sys2Proof.Machine.execVaux33Loss s
  | .refOk => Sys2Proof.Machine.execRefOk s
  | .wrstN => Sys2Proof.Machine.execWrstN s
  | .linksEnd => Sys2Proof.Machine.execLinksEnd s
  | .evPop => Sys2Proof.Machine.execEvPop s
  | .gainClamped => Sys2Proof.Machine.execGainClamped s
  | .rseq => Sys2Proof.Machine.execRseq s
  | .flowImplaus => Sys2Proof.Machine.execFlowImplaus s
  | .suddenRelease => Sys2Proof.Machine.execSuddenRelease s
  | .hbLost => Sys2Proof.Machine.execHbLost s
  | .sohInService => Sys2Proof.Machine.execSohInService s
  | .dumpWrite => Sys2Proof.Machine.execDumpWrite s
  | .i3cStatusRead => Sys2Proof.Machine.execI3cStatusRead s
  | .act => Sys2Proof.Machine.execAct s
  | .compatRecord => Sys2Proof.Machine.execCompatRecord s
  | .updFallback => Sys2Proof.Machine.execUpdFallback s
  | .sealPartTimeout => Sys2Proof.Machine.execSealPartTimeout s
  | .hangCheck => Sys2Proof.Machine.execHangCheck s
  | .powerCycle => Sys2Proof.Machine.execPowerCycle s
  | .captureOnly => Sys2Proof.Machine.execCaptureOnly s
  | .collectorCapture => Sys2Proof.Machine.execCollectorCapture s
  | .wrstNRise => Sys2Proof.Machine.execWrstNRise s
  | .exportComplete => Sys2Proof.Machine.execExportComplete s
  | .unsealDone => Sys2Proof.Machine.execUnsealDone s

end Sys2Proof.Machine
end

