-- ==== Sys2Proof/Safety.lean ====
section
/-! DEFINITION. What a served command and a safe run are, in the terms that the statements use. -/

namespace Sys2Proof.Machine

open Sys2Proof

/-- Nothing waits for the end of a command: no fault with its reaction to come, no failed collective of a step, no turn of a suspect
replay, no teardown that waits for its endpoints, no FT latched without the halt, and no loss of VIN12 or VIO18. -/
def State.calm (s : State) : Bool :=
  s.due.isEmpty && s.ctxs.all (fun x => x.2.collFail.isNone && x.2.teardown != 5)
    && (List.range 5).all (fun l => s.rd Reg.HNG_RUNG 0 l != 1 || s.rd Reg.HNG_PHASE 0 l != 2)
    && !(s.rd Reg.FLT_FT_LATCH == 1 && s.rd Reg.FLT_HALTED == 0) && !s.boot.supplyHalt

/-- The package is out of power-on reset and calm. -/
def State.ready (s : State) : Bool := !s.boot.por && s.calm

/-- A write by the agent reaches the page: R22, R282, R401, R417, R422, R424. -/
def State.mayWrite (s : State) (ag : Agent) (page : Nat) : Bool := ag.wellFormed && s.reaches ag page true && s.writable page

/-- The command completes in a next state that has `P`. -/
def Completes (c : Instr) (s : State) (P : State → Prop) : Prop := ∃ t, exec c s = .next t ∧ P t

/-- What a served command answers: its effect `x`, all that follows it in the same moment (`State.settle`), and the queue as it was. -/
def State.answer (s x : State) : State := { x.settle with pending := s.pending }

/-- R375, R376: no fault awaits its reaction, and where FT_LATCH is set the package is halted. -/
def State.HaltsOnLatch (s : State) : Prop := s.due = [] ∧ ¬ (s.rd Reg.FLT_FT_LATCH = 1 ∧ s.rd Reg.FLT_HALTED = 0)

/-- Only the register fields at the places `ks` may differ, and the reading latches (R427) that an access of an agent drops. -/
def RegsOnly (s t : State) (ks : List Nat) : Prop :=
  (∀ (f : Field) (i j : Nat), f.key i j ∉ ks → t.rd f i j = s.rd f i j) ∧ t = { s with regs := t.regs, latches := t.latches }

end Sys2Proof.Machine
end

