-- ==== Sys2Proof/Certificates/Slice0/Obligations.lean ====
section
/-! DEFINITION. The statements about the package, for the provers. -/

open Sys2Proof Sys2Proof.Machine

/-! ### Registers, transactions and counters -/

/-- R32, R8: SG_MASK takes a written value while STEP_BUSY is 0; while it is 1 the write changes no register. -/
def Clause.RegisterWriteOfSgMask : Prop :=
  ∀ (ag : Agent) (c w : Nat) (s : State), s.ready = true → c < 64 → s.mayWrite ag (0x300 + c) = true →
    Completes (.registerWrite ag ((0x300 + c) * 4096 + 0x108) w) s (fun t =>
      t.rd Reg.CTX_SG_MASK c = (if s.rd Reg.CTX_EXEC_STEP_BUSY c = 1 then s.rd Reg.CTX_SG_MASK c else w % 256) ∧
      RegsOnly s t [Reg.CTX_SG_MASK.key c 0])

/-- R367, R369: a write of ones to FLT_STAT of a page where no held fault lasts clears exactly the bits written as 1. -/
def Clause.FaultBitsClear : Prop :=
  ∀ (ag : Agent) (page v : Nat) (s : State), s.ready = true → page < 4096 → s.mayWrite ag page = true →
    (∀ b < 32, s.heldNow page b = false) →
    Completes (.fltClear ag page v) s (fun t =>
      (∀ b < 32, bit (t.rd Reg.FLT_STAT page) b = if bit v b = 1 then 0 else bit (s.rd Reg.FLT_STAT page) b) ∧
      RegsOnly s t [Reg.FLT_STAT.key page 0])

/-- R370: a held fault whose condition lasts keeps its bit in FLT_STAT under a write of 1, and counts a new occurrence. -/
def Clause.HeldFaultStays : Prop :=
  ∀ (ag : Agent) (page b : Nat) (s : State), s.ready = true → s.mayWrite ag page = true → page < 4096 → b < 32 →
    (catEntry page b).any (fun e => e.held) = true → s.effClass page b ≠ 2 → s.heldNow page b = true →
    bit (s.rd Reg.FLT_STAT page) b = 1 → bit (s.rd Reg.FLT_MASK page) b = 1 →
    Completes (.fltClear ag page (2 ^ b)) s (fun t =>
      t.rd Reg.FLT_STAT page = s.rd Reg.FLT_STAT page ∧
      t.rd Reg.FLT_COUNT page = satInc 0xFFFF (s.rd Reg.FLT_COUNT page) % 2 ^ 16)

/-- R427: a read of the low word of counter `n` of a page latches the high word, and the agent's next read of the high word returns
the latched value whatever the counter has become. -/
def Clause.CounterLatchHoldsHighWord : Prop :=
  ∀ (ag : Agent) (page n : Nat) (s : State), s.ready = true → ag.wellFormed = true → (Block.ofPage page).isSome = true → page < 4096 →
    n < 8 → s.reaches ag page false = true →
    Completes (.counterLatch ag (page * 4096 + 0x40 + 8 * n)) s (fun t =>
      RegsOnly s t [] ∧ ∀ u : State, u.latches = t.latches →
        (u.busRead ag (page * 4096 + 0x44 + 8 * n)).2 = s.agentWord ag page (0x44 + 8 * n))

/-- R410: BEGIN with no transaction held and none open makes the agent the owner of an OPEN transaction with the scope asked for. -/
def Clause.BeginOpensTransaction : Prop :=
  ∀ (ag : Agent) (scope : Nat) (s : State), s.ready = true → s.mayWrite ag 1 = true → scope < 8 → s.mayTxn ag = true →
    (∀ t < 5, s.rd Reg.CFG_TXN_STATE 0 t = 0) → (scope < 4 → s.partPresent scope = true) →
    let u := if 4 ≤ scope then 4 else scope
    Completes (.begin ag scope) s (fun t =>
      t.owns ag u = true ∧ t.rd Reg.CFG_TXN_STATE 0 u = 1 ∧ t.shadow = s.shadow ∧
      RegsOnly s t [Reg.CFG_TXN_STATE.key 0 u, Reg.CFG_TXN_OWNER_SESS.key 0 u, Reg.CFG_TXN_OWNER_PORT.key 0 u, Reg.CFG_TXN_OWNER_SOH.key 0 u])

/-- R410: while the package transaction is not IDLE, a BEGIN by any agent changes no register. -/
def Clause.PackageTransactionExcludes : Prop :=
  ∀ (ag : Agent) (scope : Nat) (s : State), s.ready = true → s.mayWrite ag 1 = true → scope < 8 → s.rd Reg.CFG_TXN_STATE 0 4 ≠ 0 →
    Completes (.begin ag scope) s (fun t => RegsOnly s t [])

/-- R412, R415: a COMMIT that no mark and no rule fails leaves the transaction CHECKING or PREPARING with its shadow whole; one that a
rule fails ends with RULE and the lowest failing page, its shadow is dropped, and no other transaction changes. -/
def Clause.CommitChecks : Prop :=
  ∀ (ag : Agent) (u : Nat) (s : State), s.ready = true → s.mayWrite ag 1 = true → s.txnOf ag = some u → s.rd Reg.CFG_TXN_STATE 0 u = 1 →
    s.marks = [] → s.outOfScope u = [] →
    (s.failPages u = [] → Completes (.commit ag) s (fun t =>
      (t.rd Reg.CFG_TXN_STATE 0 u = 2 ∨ t.rd Reg.CFG_TXN_STATE 0 u = 3) ∧ t.shadow = s.shadow)) ∧
    (∀ p r, s.failPages u = p :: r → s.entriesBad u = none → s.wantsCal u = false → Completes (.commit ag) s (fun t =>
      t.rd Reg.CFG_TXN_STATE 0 u = 0 ∧ t.rd Reg.CFG_TXN_LAST 0 u = 2 ∧ t.rd Reg.CFG_TXN_FCODE 0 u = 1 ∧
      t.rd Reg.CFG_TXN_FPAGE 0 u = p % 1024 ∧ t.shadowOf u = [] ∧ ∀ v, v ≠ u → t.shadowOf v = s.shadowOf v))

/-- A transaction is opened by its owner, excluded by the package transaction, and checked at COMMIT. The model's choices behind it: log
entry 20. -/
def Obligations.TransactionsOpenAndCommit : Prop :=
  Clause.BeginOpensTransaction ∧ Clause.PackageTransactionExcludes ∧ Clause.CommitChecks

/-- R412: the apply cycle of a transaction that shadows one word of a stage group gives the group its new value, leaves the transaction
IDLE with LAST = APPLIED, and changes no other register. -/
def Clause.ApplyTakesShadow : Prop :=
  ∀ (u g w : Nat) (s : State), s.ready = true → u < 5 → g < 8 → 2 ≤ s.rd Reg.CFG_TXN_STATE 0 u →
    s.shadow = [(1024 + (0x100 + 4 * g) / 4, (u, w))] →
    Completes (.apply u) s (fun t =>
      t.rd Reg.CFG_SG_FIRST 0 g = w / 2 ^ Reg.CFG_SG_FIRST.lo % 2 ^ Reg.CFG_SG_FIRST.width ∧
      t.rd Reg.CFG_SG_SIZE 0 g = w / 2 ^ Reg.CFG_SG_SIZE.lo % 2 ^ Reg.CFG_SG_SIZE.width ∧
      t.rd Reg.CFG_TXN_STATE 0 u = 0 ∧ t.rd Reg.CFG_TXN_LAST 0 u = 1 ∧ t.shadow = [] ∧
      ∀ f i j, f.key i j ∉ [Reg.CFG_SG_FIRST.key 0 g, Reg.CFG_SG_SIZE.key 0 g, Reg.CFG_TXN_STATE.key 0 u, Reg.CFG_TXN_LAST.key 0 u,
        Reg.CFG_TXN_FCODE.key 0 u, Reg.CFG_TXN_FPAGE.key 0 u] → t.rd f i j = s.rd f i j)

/-- R414: ROLLBACK by the owner, and TXN_TMO passing, discard the whole shadow of an OPEN transaction, which becomes IDLE with
LAST = ROLLED_BACK; the other transactions keep theirs, and no register but the transaction's own changes. -/
def Clause.RollbackDiscardsShadow : Prop :=
  ∀ (u : Nat) (s : State), s.ready = true → u < 5 → s.rd Reg.CFG_TXN_STATE 0 u = 1 →
    let done := fun (t : State) => t.rd Reg.CFG_TXN_STATE 0 u = 0 ∧ t.rd Reg.CFG_TXN_LAST 0 u = 3 ∧ t.shadowOf u = [] ∧
      (∀ v, v ≠ u → t.shadowOf v = s.shadowOf v) ∧
      ∀ f i j, f.key i j ∉ [Reg.CFG_TXN_STATE.key 0 u, Reg.CFG_TXN_LAST.key 0 u, Reg.CFG_TXN_FCODE.key 0 u, Reg.CFG_TXN_FPAGE.key 0 u] →
        t.rd f i j = s.rd f i j
    Completes (.txnTmo u) s done ∧
    ∀ ag : Agent, s.mayWrite ag 1 = true → s.txnOf ag = some u → Completes (.rollback ag) s done

/-- The apply cycle takes the shadow and a rollback discards it. The model's choices behind it: log entry 20. -/
def Obligations.TransactionsEnd : Prop :=
  Clause.ApplyTakesShadow ∧ Clause.RollbackDiscardsShadow

/-- R428, R433, R434: CLR_GO sets the named counters of a page to 0 and no other register; RUN follows its written value, RUN = 1 with
a valid selection also clearing FULL; SNAP_RSEL copies the record with the serial written, or shows that it is not held; LOG_SEL and
DRAIN = 1 of an engine page are written alone. -/
def Clause.CollectorAndCounters : Prop :=
  ∀ (ag : Agent) (s : State), s.ready = true →
    (s.mayWrite ag 0x00A = true →
      (∀ page mask, page < 1024 → (Block.ofPage page).isSome = true → mask < 256 → Completes (.clrGo ag page mask false) s (fun t =>
        (∀ n < 8, t.rd Reg.CNT_N page n = if bit mask n = 1 then 0 else s.rd Reg.CNT_N page n) ∧
        RegsOnly s t ((List.range 8).map (fun n => Reg.CNT_N.key page n)))) ∧
      Completes (.run ag 0) s (fun t => t.rd Reg.CNT_RUN = 0 ∧ RegsOnly s t [Reg.CNT_RUN.key 0 0]) ∧
      (∀ k < 64, s.rd Reg.CNT_SEL_VALID 0 k = 1 → Completes (.run ag 1) s (fun t =>
        t.rd Reg.CNT_RUN = 1 ∧ t.rd Reg.CNT_FULL = 0 ∧ RegsOnly s t [Reg.CNT_RUN.key 0 0, Reg.CNT_FULL.key 0 0])) ∧
      (∀ v < 2 ^ 32, Completes (.snapRsel ag v) s (fun t =>
        t.rd Reg.CNT_SNAP_W = ((SMap.find s.coll.recs v).getD 0) % 2 ^ 8192 ∧
        t.rd Reg.CNT_SNAP_RVALID = (if (SMap.find s.coll.recs v).isSome then 1 else 0) ∧
        RegsOnly s t [Reg.CNT_SNAP_RSEL.key 0 0, Reg.CNT_SNAP_W.key 0 0, Reg.CNT_SNAP_RVALID.key 0 0]))) ∧
    (s.mayWrite ag 0x008 = true → ∀ v < 2 ^ 32, Completes (.logSel ag v) s (fun t =>
      t.rd Reg.SOH_LOG_SEL = v ∧ RegsOnly s t [Reg.SOH_LOG_SEL.key 0 0])) ∧
    (∀ page b, Block.ofPage page = some b → b.isEngine = true → s.mayWrite ag page = true → Completes (.drain ag page 1) s (fun t =>
      t.rd Reg.PAGE_DRAIN page = 1 ∧ RegsOnly s t [Reg.PAGE_DRAIN.key page 0]))

/-- R433: while RUN is 1 and the buffer has room, a capture stores its record under the serial SNAP_NEXT and advances SNAP_NEXT; every
record held before is still held. -/
def Clause.CollectorCaptureStores : Prop :=
  ∀ s : State, s.ready = true → s.rd Reg.CNT_RUN = 1 → s.coll.recs.length < 1023 → s.rd Reg.CNT_SNAP_NEXT < 2 ^ 32 →
    Completes .collectorCapture s (fun t =>
      (SMap.find t.coll.recs (s.rd Reg.CNT_SNAP_NEXT)).isSome = true ∧
      t.rd Reg.CNT_SNAP_NEXT = (s.rd Reg.CNT_SNAP_NEXT + 1) % 2 ^ 32 ∧ t.rd Reg.CNT_RUN = 1 ∧
      ∀ k r, k ≠ s.rd Reg.CNT_SNAP_NEXT → SMap.find s.coll.recs k = some r → SMap.find t.coll.recs k = some r)

/-- Counters clear, engines drain, and the collector runs, stops and stores records. The model's choices behind it: log entry 21. -/
def Obligations.CountersAndCollector : Prop :=
  Clause.CollectorAndCounters ∧ Clause.CollectorCaptureStores

/-! ### Supplies, resets and bring-up -/

/-- The places of the registers that a power-on reset loads from flash and fuses (Tables 1-7, 11-5, 12-3, 14-4), and of PD_REQ, whose
bit of PD_79 the lifecycle state holds at 0 (R423). -/
def flashPlaces : List Nat :=
  [Reg.SOH_VER.key 0 0, Reg.SOH_SLOT.key 0 0, Reg.PWR_PD_REQ.key 0 0] ++ (List.range 8).map (fun n => Reg.CLK_OPV.key 0 n)
    ++ (List.range 2).flatMap (fun p => [Reg.HST_MAC_LO.key p 0, Reg.HST_MAC_HI.key p 0])
    ++ (List.range 4).flatMap (fun d => [Reg.DARN_FUSE_LO.key 0 d, Reg.DARN_FUSE_HI.key 0 d])

/-- R397: PORST_N low, and VAUX33 leaving its range, hold the package in power-on reset from any state: every register has its reset
value but those loaded from flash, every memory is empty, Soholt flash is kept, and the queue is kept. -/
def Clause.PowerOnResetClears : Prop :=
  let cleared := fun (s t : State) => t.boot.por = true ∧ t.flash = s.flash ∧ t.pending = s.pending ∧ t.ctxs = [] ∧ t.larder = [] ∧
    t.pantry = [] ∧ t.staging = [] ∧ t.shadow = [] ∧ t.pins.fltP = false ∧ t.pins.fltN = false ∧
    ∀ f i j, f.key i j ∉ flashPlaces → t.rd f i j = f.resetAt i j
  ∀ s : State, Completes .powerOnReset s (fun t => cleared s t ∧ t.pins.porstLow = true) ∧
    Completes .vaux33Loss s (fun t => cleared s t ∧ t.pins.vaux33Good = false ∧ t.pins.pgOut = false)

/-- R17, R397, R443: the power-on reset ends when PORST_N rises with all supplies good: the straps are latched as the lands stand, and
phase HUB begins exactly where REF_OK has been held. With a supply not good the package stays in power-on reset. -/
def Clause.PowerOnResetEndLatchesStraps : Prop :=
  ∀ (v : Nat) (s : State), s.boot.por = true → s.calm = true → v < 2 ^ 18 →
    (s.pins.allGood = true → s.boot.running = 0 → s.rd Reg.GLB_PHASE = 0 → s.rd Reg.GLB_FAIL = 0 → s.rd Reg.GLB_BUSY = 0 →
      Completes (.powerOnResetEnd v) s (fun t =>
        t.boot.por = false ∧ t.rd Reg.GLB_STRAP_LOC_X = bits v 1 0 ∧ t.rd Reg.GLB_STRAP_LOC_Y = bits v 3 2 ∧
        t.rd Reg.GLB_STRAP_LOC_Z = bits v 5 4 ∧ t.rd Reg.GLB_STRAP_BLOCK = bits v 15 6 ∧ t.rd Reg.GLB_STRAP_VAR = bits v 17 16 ∧
        t.boot.running = (if s.boot.refHeld then 1 else 0) ∧ t.rd Reg.GLB_BUSY = (if s.boot.refHeld then 1 else 0))) ∧
    (s.pins.allGood = false → Completes (.powerOnResetEnd v) s (fun t =>
      t = { s with pins := { s.pins with porstLow := false, straps := v } }))

/-- A power-on reset clears the package and its end latches the straps. The model's choices behind it: log entries 1 and 19. -/
def Obligations.PowerOnReset : Prop :=
  Clause.PowerOnResetClears ∧ Clause.PowerOnResetEndLatchesStraps

/-- R393, R394: a supply in its range for 10 ms is good; while PORST_N is low nothing else changes but PG_OUT, which is high exactly
where all three supplies are good. -/
def Clause.SupplyBecomesGood : Prop :=
  ∀ (ix : Nat) (s : State), s.calm = true → s.pins.porstLow = true → ix < 3 →
    Completes (.supplyGood ix) s (fun t =>
      t.pins.vin12Good = (s.pins.vin12Good || ix == 0) ∧ t.pins.vaux33Good = (s.pins.vaux33Good || ix == 1) ∧
      t.pins.vio18Good = (s.pins.vio18Good || ix == 2) ∧ t.pins.pgOut = t.pins.allGood ∧
      t = { s with pins := t.pins })

/-- R395, R394: VIN12 or VIO18 leaving its range after the power-on reset takes PG_OUT low; the fault SUPPLY_FAULT is raised (page FLT,
bit 2) and ends in the halt, or, before the fault controller has started, is kept for its start. -/
def Clause.SupplyFaultIsRaisedOrKept : Prop :=
  ∀ (ix : Nat) (s : State), s.boot.por = false → (ix = 0 ∨ ix = 2) →
    let pins := if ix = 0 then { s.pins with vin12In := false, vin12Good := false, pgOut := false }
      else { s.pins with vio18In := false, vio18Good := false, pgOut := false }
    (s.boot.fltUp = true → exec (.supplyFault ix) s =
      .next (s.answer (({ s with pins := pins, boot := { s.boot with supplyHalt := true } } : State).raise 0x002 2 none 0))) ∧
    (s.boot.fltUp = false → s.calm = true → exec (.supplyFault ix) s =
      .next { s with pins := pins, boot := { s.boot with supplyDue := true } })

/-- R443, R297: REFCLK lost in phase HUB before the root PLL locks fails the phase with FAIL = CLOCK; lost after lock, or the root PLL
losing lock, raises CLOCK_LOST (page CLK, bit 0), and the host ports' lanes go down with the reference. -/
def Clause.ClockLostFailsOrRaises : Prop :=
  ∀ s : State, s.ready = true →
    (s.rd Reg.CLK_ROOT_LOCK = 0 → s.boot.running = 1 → (∀ p < 2, s.rd Reg.HST_UP_A p = 0 ∧ s.rd Reg.HST_UP_B p = 0) →
      Completes (.clockLost false) s (fun t =>
      t.rd Reg.GLB_FAIL = 2 ∧ t.rd Reg.GLB_BUSY = 0 ∧ t.rd Reg.CLK_REF_OK = 0 ∧ t.boot.running = 0 ∧
      ∀ f i j, f.key i j ∉ [Reg.GLB_FAIL.key 0 0, Reg.GLB_BUSY.key 0 0, Reg.CLK_REF_OK.key 0 0] → t.rd f i j = s.rd f i j)) ∧
    (s.rd Reg.CLK_ROOT_LOCK = 1 →
      exec (.clockLost false) s = .next (s.answer
        (([0, 1].foldl (fun (x : State) p => (x.hstDown p 0).hstDown p 1)
          (({ s with boot := { s.boot with refHeld := false } } : State).wr0 Reg.CLK_REF_OK 0)).raise 0x005 0 none 0)) ∧
      exec (.clockLost true) s = .next (s.answer ((s.wr0 Reg.CLK_ROOT_LOCK 0).raise 0x005 0 none 0)))

/-- Supplies become good or fault, and a lost clock fails phase HUB or raises CLOCK_LOST. The model's choices behind it: log entry 19. -/
def Obligations.SuppliesAndClock : Prop :=
  Clause.SupplyBecomesGood ∧ Clause.SupplyFaultIsRaisedOrKept ∧ Clause.ClockLostFailsOrRaises

/-- R399, R443: REF_OK begins phase HUB after the power-on reset; a write of TARGET that is not below PHASE is taken; phase HUB ends
with a failure's code; phase LINKS ends with PHASE 5; and phases COMPUTE to TEST end with their work done and PHASE advanced. -/
def Obligations.BringUpPhases : Prop :=
  ∀ s : State, s.ready = true →
    (s.boot.running = 0 → s.rd Reg.GLB_PHASE = 0 → s.rd Reg.GLB_FAIL = 0 → Completes .refOk s (fun t =>
      t.boot.refHeld = true ∧ t.boot.running = 1 ∧ t.timeUs = 0 ∧ t.rd Reg.GLB_BUSY = 1 ∧ t.rd Reg.CLK_REF_OK = 1 ∧
      ∀ f i j, f.key i j ∉ [Reg.GLB_BUSY.key 0 0, Reg.CLK_REF_OK.key 0 0] → t.rd f i j = s.rd f i j)) ∧
    (∀ ag v, s.mayWrite ag 0 = true → v < 16 → s.boot.running ≠ 0 → Completes (.target ag v) s (fun t =>
      t.rd Reg.GLB_TARGET = (if v = 0 ∨ 5 < v ∨ v < s.rd Reg.GLB_PHASE then s.rd Reg.GLB_TARGET else v) ∧
      RegsOnly s t [Reg.GLB_TARGET.key 0 0])) ∧
    (∀ ag v, s.mayWrite ag 0 = true → v < 16 → exec (.target ag v) s = .next (s.answer
      (if v = 0 ∨ 5 < v ∨ v < s.rd Reg.GLB_PHASE then s.dropLatch ag else ((s.dropLatch ag).wr0 Reg.GLB_TARGET v).phaseNext))) ∧
    (∀ n, (n = 2 ∨ n = 3) → s.boot.running = 1 → ∀ bad, Completes (.phaseEnd n bad) s (fun t =>
      t.rd Reg.GLB_FAIL = n ∧ t.rd Reg.GLB_BUSY = 0 ∧ t.boot.running = 0 ∧
      ∀ f i j, f.key i j ∉ [Reg.GLB_FAIL.key 0 0, Reg.GLB_BUSY.key 0 0] → t.rd f i j = s.rd f i j)) ∧
    (∀ bad, let ended := fun (x : State) (n : Nat) =>
        ((({ x with boot := { x.boot with running := 0 } } : State).wr0 Reg.GLB_PHASE n).wr0 Reg.GLB_BUSY 0).phaseNext
      (s.boot.running = 2 → exec (.phaseEnd 0 bad) s = .next (s.answer (ended (s.computeWork bad) 2))) ∧
      (s.boot.running = 3 → exec (.phaseEnd 0 bad) s = .next (s.answer (ended (s.memoryWork bad) 3))) ∧
      (s.boot.running = 4 → exec (.phaseEnd 0 bad) s = .next (s.answer (ended
        (let x := s.testWork bad true; ({ x with hearth := { x.hearth with bringUp := false } } : State).settleHearth) 4)))) ∧
    (∀ n < 16, ∀ bad, s.boot.running = 1 → exec (.phaseEnd n bad) s = .next (s.answer
      (s.hubEnd (if n = 1 ∨ n = 2 ∨ n = 3 then n else 0)))) ∧
    (∀ n < 16, ∀ bad, (s.boot.running = 0 ∨ s.boot.running = 5) → exec (.phaseEnd n bad) s = .next (s.answer s)) ∧
    (s.boot.running = 5 → s.rd Reg.GLB_WARM = 0 → Completes .linksEnd s (fun t =>
      t.rd Reg.GLB_PHASE = 5 ∧ t.rd Reg.GLB_BUSY = 0 ∧ t.boot.running = 0 ∧
      ∀ f i j, f.key i j ∉ [Reg.GLB_PHASE.key 0 0, Reg.GLB_BUSY.key 0 0] → t.rd f i j = s.rd f i j))

/-- R326: before the bringing phase of every domain of a word, a request is stored in PD_REQ and switches nothing; a domain that has
finished switching on shows PD_ON, one that has finished switching off does not, and its switching ends. -/
def Obligations.PowerDomains : Prop :=
  ∀ s : State, s.ready = true →
    (∀ ag v, s.mayWrite ag 0x004 = true → v < 2 ^ 32 → s.rd Reg.GLB_PHASE = 0 → s.rd Reg.PWR_PD_REQ < 2 ^ 80 →
      Completes (.pdReq ag 0 v) s (fun t =>
        t.rd Reg.PWR_PD_REQ = s.rd Reg.PWR_PD_REQ / 2 ^ 32 * 2 ^ 32 + v ∧ t.hearth = s.hearth ∧
        RegsOnly s t [Reg.PWR_PD_REQ.key 0 0])) ∧
    (∀ ag w v, s.mayWrite ag 0x004 = true → w < 3 → v < 2 ^ 32 →
      exec (.pdReq ag w v) s = .next (s.answer ((s.dropLatch ag).pdReq w v))) ∧
    (∀ d < 80, exec (.pdSwitchDone d) s = .next (s.answer
      (let x : State := { s with hearth := { s.hearth with moving := SMap.del s.hearth.moving d } }
       if SMap.get 0 s.hearth.moving d = 1 then (if d < 44 ∧ x.columnIdle d = true then x else x.domainUp d)
       else if SMap.get 0 s.hearth.moving d = 2 then x.domainDown d else x))) ∧
    (∀ d < 44, s.rd Reg.PWR_PD_ON < 2 ^ 80 → SMap.get 0 s.hearth.moving d = 1 → s.columnIdle d = false → Completes (.pdSwitchDone d) s (fun t =>
      t.domainOn d = true ∧ SMap.get 0 t.hearth.moving d = 0 ∧ ∀ f i j, f.key i j ≠ Reg.PWR_PD_ON.key 0 0 → t.rd f i j = s.rd f i j)) ∧
    (∀ d < 44, s.rd Reg.PWR_PD_ON < 2 ^ 80 → SMap.get 0 s.hearth.moving d = 2 → Completes (.pdSwitchDone d) s (fun t =>
      t.domainOn d = false ∧ SMap.get 0 t.hearth.moving d = 0 ∧ ∀ f i j, f.key i j ≠ Reg.PWR_PD_ON.key 0 0 → t.rd f i j = s.rd f i j))

/-- R398, R449, R403, R404: WRST_N falling starts a warm reset only after phase HUB and outside another one; a warm reset whose phases
have run with WRST_N low is held at PHASE 4, and ends when it rises. -/
def Obligations.WarmReset : Prop :=
  ∀ s : State, s.ready = true →
    (s.mayWarm = true → exec .wrstN s = .next (s.answer ({ s with pins := { s.pins with wrstLow := true } } : State).warmStart)) ∧
    (s.mayWarm = false → exec .wrstN s = .next { s with pins := { s.pins with wrstLow := true } }) ∧
    (∀ bad, s.rd Reg.GLB_WARM = 1 → s.boot.wrstHold = false →
      let x := ((((s.computeWork bad).memoryWork bad).testWork bad s.hearth.bringUp).wr0 Reg.GLB_PHASE 4)
      exec (.warmReset bad) s =
        .next (s.answer (if x.pins.wrstLow then { x with boot := { x.boot with wrstHold := true } } else x.warmEnd))) ∧
    (s.boot.wrstHold = true → exec .wrstNRise s = .next (s.answer
      (let x : State := { s with
        pins := { s.pins with wrstLow := false }
        boot := { s.boot with wrstHold := false, linksDue := false, running := 0 }
        hearth := { s.hearth with resetFloor := false, bringUp := false } }
       let x := (List.range 5).foldl (fun (x : State) l => x.laneNote l 4 0 0) x
       ((((x.wr0 Reg.GLB_PHASE (if s.boot.linksDue then 4 else 5)).wr0 Reg.GLB_WARM 0).wr0 Reg.GLB_BUSY 0).settleHearth).phaseNext))) ∧
    (s.boot.wrstHold = false → exec .wrstNRise s = .next { s with pins := { s.pins with wrstLow := false } })

/-! ### Contexts, steps, loads and completion records -/

/-- R285, R286, R32: the head command is taken off the queue of its context once nothing holds it. A STEP that no rule refuses is
accepted; a refused one has its record with status REFUSED and the reason; a COLL goes to the engine that it names; DISPATCH does the
same for whatever command is at the head. -/
def Clause.HeadCommandIsDispatched : Prop :=
  ∀ (c : Nat) (long : Bool) (h : Cmd) (r : List Cmd) (s : State), s.ready = true → c < 64 → (s.ctx c).queue = h :: r →
    s.headWait c = false → cmdReserved h.words = false →
    let taken := (s.setCtx c { s.ctx c with queue := r, pendCser := (s.ctx c).pendCser ++ [h.cser] }).count (hstPage h.port) 6 1
    (wfield h.words 0 7 0 = 1 → ∀ i ∈ [Instr.step c long, Instr.dispatch c long],
      exec i s = .next (s.answer (
        if taken.stepRefusal c h.words long = 0 then taken.stepAccept c h.cser
        else taken.cmdRecord c 1 1 h.cser (taken.stepRefusal c h.words long)))) ∧
    (wfield h.words 0 7 0 = 2 → ∀ i ∈ [Instr.coll c, Instr.dispatch c long],
      exec i s = .next (s.answer (taken.collQueue (wfield h.words 0 11 10) c h.cser (h.words.drop 16)))) ∧
    (wfield h.words 0 7 0 = 3 → ∀ i ∈ [Instr.mark c, Instr.dispatch c long],
      exec i s = .next (s.answer (taken.cmdRecord c 4 0 h.cser 0)))

/-- R286, R289: with a free slot in the ring and nothing waiting before it, MARK writes its record at once: slot RSER_NEXT mod 64, the
serial advanced, kind 4 with status OK and the command's serial; STEP_NUM and STEP_BUSY stay. -/
def Clause.MarkWritesRecord : Prop :=
  ∀ (c : Nat) (h : Cmd) (r : List Cmd) (s : State), s.ready = true → c < 64 → h.port < 2 → (s.ctx c).queue = h :: r →
    s.headWait c = false → cmdReserved h.words = false → wfield h.words 0 7 0 = 3 → s.ringFree c = true → (s.ctx c).waiting = [] →
    s.rd Reg.CTX_CPL_BIND c = 0 → s.rd Reg.CTX_RSER_NEXT c < 2 ^ 32 →
    Completes (.mark c) s (fun t =>
      (t.ctx c).queue = r ∧ t.rd Reg.CTX_RSER_NEXT c = (s.rd Reg.CTX_RSER_NEXT c + 1) % 2 ^ 32 ∧
      t.rd Reg.CTX_REC c (s.rd Reg.CTX_RSER_NEXT c % 64) =
        Rec.pack ⟨4, 0, h.cser, s.rd Reg.CTX_STEP_NUM c, 0, 0, 0, 0⟩ c (s.rd Reg.CTX_RSER_NEXT c) (256 - r.length) % 2 ^ 256 ∧
      t.rd Reg.CTX_STEP_NUM c = s.rd Reg.CTX_STEP_NUM c ∧ t.rd Reg.CTX_EXEC_STEP_BUSY c = s.rd Reg.CTX_EXEC_STEP_BUSY c)

/-- R37, R289: in INFER mode a step whose tiles have all reported and whose collectives have all completed ends: STEP_BUSY becomes 0,
STEP_NUM advances by one and a record takes the next place of the ring. While a tile has not reported, nothing changes. -/
def Clause.StepCompletes : Prop :=
  ∀ (c : Nat) (s : State), s.ready = true → c < 64 → s.rd Reg.CTX_EXEC_STEP_BUSY c = 1 → s.rd Reg.CTX_EXEC_MODE c ≠ 0 →
    ((s.tilesOfCtx c).all (fun k => s.tileReported k c) = true → (s.ctx c).collOpen = [] → (s.ctx c).collFail = none →
      s.ringFree c = true → (s.ctx c).waiting = [] → s.rd Reg.CTX_CPL_BIND c = 0 →
      Completes (.stepComplete c) s (fun t =>
        t.rd Reg.CTX_EXEC_STEP_BUSY c = 0 ∧ t.rd Reg.CTX_STEP_NUM c = (s.rd Reg.CTX_STEP_NUM c + 1) % 2 ^ 32 ∧
        t.rd Reg.CTX_RSER_NEXT c = (s.rd Reg.CTX_RSER_NEXT c + 1) % 2 ^ 32 ∧ t.tiles = s.tiles ∧ t.larder = s.larder ∧ t.pantry = s.pantry)) ∧
    ((s.tilesOfCtx c).all (fun k => s.tileReported k c) = false → exec (.stepComplete c) s = .next s)

/-- The head command of a context is dispatched in order, MARK writes its record, and a STEP ends. The model's choices behind it: log
entry 24. -/
def Obligations.CommandsOfAContext : Prop :=
  Clause.HeadCommandIsDispatched ∧ Clause.MarkWritesRecord ∧ Clause.StepCompletes

/-- R96: a LOAD that no case of the rule refuses latches the expected digest and the image, and STATE becomes loading on a context whose
tiles are tiles of the package; one with SG_MASK = 0, or during a STEP, sets REFUSED alone. -/
def Clause.LoadIsTakenOrRefused : Prop :=
  ∀ (ag : Agent) (c : Nat) (s : State), s.ready = true → c < 64 → s.mayWrite ag (0x300 + c) = true →
    ((s.rd Reg.CTX_EXEC_STEP_BUSY c = 1 ∨ s.rd Reg.CTX_SG_MASK c = 0) → Completes (.load ag c) s (fun t =>
      t.rd Reg.CTX_LOAD_REFUSED c = 1 ∧ RegsOnly s t [Reg.CTX_LOAD_REFUSED.key c 0])) ∧
    (s.cstate c = 1 → s.rd Reg.CTX_EXEC_STEP_BUSY c = 0 → s.rd Reg.CTX_LOAD_STATE c ≠ 1 → s.rd Reg.CTX_SG_MASK c ≠ 0 →
      (s.groupsOf c).all (fun g => (s.groupTiles g).all s.present) = true → (∀ t ∈ s.tilesOfCtx c, t < 176) →
      (∀ t ∈ s.tilesOfCtx c, ∃ n, s.slotOf t c = some n ∧ imgBundles (s.staged c) * 16 ≤ s.rd Reg.CS_IMEM_SIZE t n * 4096) →
      inStagePart (partOfCtx c) (s.rd Reg.CTX_LOAD_SRC c * 64) (s.rd Reg.CTX_LOAD_LEN c) = true → imageOk (s.staged c) = true →
      Completes (.load ag c) s (fun t =>
        t.rd Reg.CTX_LOAD_STATE c = 1 ∧ t.rd Reg.CTX_LOAD_REFUSED c = 0 ∧ (t.ctx c).loadImg = s.staged c ∧
        (t.ctx c).loadTiles = s.tilesOfCtx c ∧ (t.ctx c).loadDig = s.rd Reg.CTX_PROG_DIGEST c ∧ t.imem = s.imem))

/-- R97: a load whose image has the expected digest, names no curve table and reaches every tile that it began on becomes active, with
FAIL_TILES 0; one whose digest differs fails, and FAIL_TILES counts every one of those tiles. -/
def Clause.LoadBecomesActiveOrFails : Prop :=
  ∀ (c : Nat) (s : State), s.ready = true → c < 64 → s.rd Reg.CTX_LOAD_STATE c = 1 → (∀ t ∈ (s.ctx c).loadTiles, t < 176) →
    (digNat (sha256 (s.ctx c).loadImg) = (s.ctx c).loadDig → imgCurves (s.ctx c).loadImg = 0 →
      Completes (.loadDone c []) s (fun t =>
        t.rd Reg.CTX_LOAD_STATE c = 2 ∧ t.rd Reg.CTX_LOAD_FAIL_TILES c = 0 ∧ (t.ctx c).loadImg = [])) ∧
    (digNat (sha256 (s.ctx c).loadImg) ≠ (s.ctx c).loadDig → imgCurves (s.ctx c).loadImg = 0 → (s.ctx c).loadTiles ≠ [] →
      Completes (.loadDone c []) s (fun t =>
        t.rd Reg.CTX_LOAD_STATE c = 3 ∧ t.rd Reg.CTX_LOAD_FAIL_TILES c = min 255 (s.ctx c).loadTiles.length))

/-- The five fields of a tile page that show the chunks of an image under way. -/
def chunkKeys (t : Nat) : List Nat :=
  [Reg.FN_LCTX.key t 0, Reg.FN_MISSING.key t 0, Reg.FN_CHUNK_LO.key t 0, Reg.FN_CHUNK_HI.key t 0, Reg.FN_CHUNK_64.key t 0]

/-- R98: a CURVE that no case of the rule refuses latches the staged image and CURVE_STATE becomes loading; it ends as loaded, with no
tile changed but its chunk fields, where every tile already holds the digest, and it never changes STATE, REFUSED or FAIL_TILES. -/
def Clause.CurveLoads : Prop :=
  ∀ (c : Nat) (s : State), s.ready = true → c < 64 →
    (∀ ag, s.mayWrite ag (0x300 + c) = true → s.cstate c = 1 → s.rd Reg.CTX_LOAD_STATE c ≠ 1 → s.rd Reg.CTX_LOAD_CURVE_STATE c ≠ 1 →
      s.rd Reg.CTX_SG_MASK c ≠ 0 → inStagePart (partOfCtx c) (s.rd Reg.CTX_LOAD_SRC c * 64) (s.rd Reg.CTX_LOAD_LEN c) = true →
      s.rd Reg.CTX_LOAD_LEN c = 64 + 16 * curveSegs (s.staged c) →
      Completes (.curve ag c) s (fun t =>
        t.rd Reg.CTX_LOAD_CURVE_STATE c = 1 ∧ (t.ctx c).curveImg = s.staged c ∧
        (t.ctx c).curveTiles = s.tilesOfCtx c ∧ t.tiles = s.tiles ∧
        ∀ f i j, f.key i j ∉ [Reg.CTX_LOAD_CURVE_STATE.key c 0, Reg.CTX_LOAD_CURVE_REFUSED.key c 0] ++ (s.tilesOfCtx c).flatMap chunkKeys →
          t.rd f i j = s.rd f i j)) ∧
    (s.rd Reg.CTX_LOAD_CURVE_STATE c = 1 →
      (s.ctx c).curveTiles.all (fun t => (s.curveSlot t (digNat (sha256 (s.ctx c).curveImg))).isSome) = true →
      Completes (.curveDone c []) s (fun t =>
        t.rd Reg.CTX_LOAD_CURVE_STATE c = 2 ∧ t.tiles = s.tiles ∧
        ∀ f i j, f.key i j ∉ [Reg.CTX_LOAD_CURVE_STATE.key c 0, Reg.CTX_LOAD_CURVE_FAIL_TILES.key c 0] ++
          (s.ctx c).curveTiles.flatMap chunkKeys → t.rd f i j = s.rd f i j))

/-- Programs and curves load, or the load is refused or fails. The model's choices behind it: log entry 24. -/
def Obligations.LoadsOfAContext : Prop :=
  Clause.LoadIsTakenOrRefused ∧ Clause.LoadBecomesActiveOrFails ∧ Clause.CurveLoads

/-- R289, R290: the first event that waits takes the slot that has become free; CPL_ACKED advances to a newer serial that is not newer
than RSER_NEXT and keeps its value at any other; CPL_BIND is set, and every record from CPL_ACKED on is sent, oldest
first, in one message. -/
def Clause.CompletionRing : Prop :=
  ∀ (c : Nat) (s : State), s.ready = true → c < 64 →
    (∀ e r, (s.ctx c).waiting = e :: r → s.ringFree c = true → e.stepEnd = 0 → e.record.kind = 3 → s.rd Reg.CTX_CPL_BIND c = 0 →
      Completes (.recordWrite c) s (fun t =>
        (t.ctx c).waiting = r ∧ t.rd Reg.CTX_RSER_NEXT c = (s.rd Reg.CTX_RSER_NEXT c + 1) % 2 ^ 32 ∧
        t.rd Reg.CTX_REC c (s.rd Reg.CTX_RSER_NEXT c % 64) = e.record.pack c (s.rd Reg.CTX_RSER_NEXT c) (s.qfree c) % 2 ^ 256)) ∧
    (∀ ag v, s.mayWrite ag (0x300 + c) = true → v < 2 ^ 32 → Completes (.cplAcked ag c v) s (fun t =>
      t.rd Reg.CTX_CPL_ACKED c = (if newer v (s.rd Reg.CTX_CPL_ACKED c) && !newer v (s.rd Reg.CTX_RSER_NEXT c) then v
        else s.rd Reg.CTX_CPL_ACKED c) ∧ RegsOnly s t [Reg.CTX_CPL_ACKED.key c 0])) ∧
    (∀ ag n, s.mayWrite ag (0x300 + c) = true → 0 < n → n < 2 ^ 32 →
      (s.rd Reg.CTX_RSER_NEXT c + 2 ^ 32 - s.rd Reg.CTX_CPL_ACKED c) % 2 ^ 32 = n →
      exec (.cplBind ag c) s = .next (s.answer (((s.dropLatch ag).wr Reg.CTX_CPL_BIND c 0 1).sendNum (s.rd Reg.CTX_CPL_PORT c) (s.rd Reg.CTX_CPL_SESS c)
        (.cpl c ((List.range n).map (fun i => s.rd Reg.CTX_REC c ((s.rd Reg.CTX_CPL_ACKED c + i) % 64)))
          ((s.rd Reg.CTX_CPL_ACKED c + n - 1) % 2 ^ 32)))))

/-- R291, R389: CTX_OPEN makes a FREE context of a present partition OPEN with an empty queue and serials at 0; TEARDOWN of an OPEN
context makes it CLOSING, empties its queue, stops its work, ends its step and waits for its
endpoints; neither does anything in another state. -/
def Clause.ContextOpensAndCloses : Prop :=
  ∀ (ag : Agent) (c : Nat) (s : State), s.ready = true → c < 64 → s.mayWrite ag (0x300 + c) = true →
    (s.ctxAssigned c = true → s.cstate c = 0 → s.sec.sealing = none →
      Completes (.ctxOpen ag c) s (fun t =>
        t.cstate c = 1 ∧ t.ctx c = Ctx.empty ∧ t.rd Reg.CTX_CSER_NEXT c = 0 ∧ t.rd Reg.CTX_RSER_NEXT c = 0 ∧
        t.rd Reg.CTX_CPL_ACKED c = 0 ∧ t.larder = s.larder ∧ t.pantry = s.pantry ∧ t.tiles = s.tiles)) ∧
    (s.cstate c ≠ 0 → Completes (.ctxOpen ag c) s (fun t => RegsOnly s t [])) ∧
    (s.cstate c ≠ 1 → Completes (.teardown ag c) s (fun t => RegsOnly s t [])) ∧
    (s.cstate c = 1 → exec (.teardown ag c) s = .next (s.answer (
      let x := ((s.dropLatch ag).wr Reg.CTX_CSTATE c 0 2).eventCtx c 2
      let x := x.setCtx c { x.ctx c with
        queue := [], pendCser := (x.ctx c).pendCser.filter (fun n => !((x.ctx c).queue.any (fun q => q.cser == n))) }
      let x := (x.stopCtx c).leaveLanes c
      let x := (x.endpointsOf c).foldl (fun (x : State) e => if x.cirState e = 1 then x.closedCir e else x.closeGo e) x
      let x := (x.dropTraffic c).stepEnd c 3 0 0
      x.setCtx c { x.ctx c with teardown := 5, collFail := none })))

/-- Completion records wait for the ring and are acknowledged; contexts open and close. The model's choices behind it: log entries 9 and
24. -/
def Obligations.ContextsAndTheirRings : Prop :=
  Clause.CompletionRing ∧ Clause.ContextOpensAndCloses

/-! ### The Finisher: slot V -/

/-- Bundle `b` stands at the program counter of a running tile whose open stage is `st`, is legal, and is not the last of its region;
every vector register of the stage has its 256 lanes. -/
def AtBundle (s : State) (t : Nat) (st : Stage) (b : Bundle) : Prop :=
  s.tileRuns t = true ∧ (s.tile t).stage = some st ∧ st.ended = false ∧ s.bundleAt t st = some b ∧ b.legal st.fmts = true ∧
    s.rd Reg.FN_STAT_PC t + 1 < s.rd Reg.CS_IMEM_SIZE t st.slot * 256 ∧ s.rd Reg.FN_STAT_PC t + 1 < 2 ^ 14 ∧
    ∀ r, (st.v r).length = 256

/-- What an executed bundle of slot V or C leaves alone: memories, other tiles, and every register but PC, WAIT and the bundle counter
of the tile and the two flags of slot V. -/
def BundleFrame (s u : State) (t : Nat) : Prop :=
  u.pantry = s.pantry ∧ u.larder = s.larder ∧ u.imem = s.imem ∧ u.staging = s.staging ∧ (∀ k, k ≠ t → u.tile k = s.tile k) ∧
    ∀ f i j, f.key i j ∉ [Reg.FN_STAT_WAIT.key t 0, Reg.FN_STAT_PC.key t 0, Reg.FN_FP_NAN.key t 0, Reg.FN_FP_SAT.key t 0,
      Reg.CNT_N.key (tilePage t) 4] → u.rd f i j = s.rd f i j

/-- A command of slot V with operation `op`, alone in its bundle: each lane of VD that the mask register selects (every lane with `all`)
takes `f` of the stage before the bundle, the curve named, the slot's bits and the lane; every other lane and register stays, and PC
advances by one. -/
def VectorOp (cmd : Nat → Instr) (op : Nat) (all : Bool) (f : Stage → List Byte → Nat → Nat → Nat) : Prop :=
  ∀ (t : Nat) (st : Stage) (b : Bundle) (img : List Byte) (s : State), s.ready = true → AtBundle s t st b → b.vOp = op → b.vEn = true →
    b.mEn = false → b.cEn = false → (usesCurve op = true → (s.tile t).curveImg st.slot (bits b.v 40 38) = some img) →
    Completes (cmd t) s (fun u => u.rd Reg.FN_STAT_PC t = s.rd Reg.FN_STAT_PC t + 1 ∧ BundleFrame s u t ∧
      ∃ st', (u.tile t).stage = some st' ∧ st'.mreg = st.mreg ∧ st'.sreg = st.sreg ∧ st'.ended = false ∧
        (∀ r < 64, r ≠ bits b.v 13 8 → st'.v r = st.v r) ∧
        ∀ i < 256, (st'.v (bits b.v 13 8)).getD i 0 =
          if all || bit (st.m (bits b.v 34 32)) i == 1 then f st img b.v i else (st.v (bits b.v 13 8)).getD i 0)

/-- Lane `i` of the first, second and third vector operand. -/
def laneA (st : Stage) (v i : Nat) : Nat := (st.v (bits v 19 14)).getD i 0
def laneB (st : Stage) (v i : Nat) : Nat := (st.v (bits v 25 20)).getD i 0
def laneC (st : Stage) (v i : Nat) : Nat := (st.v (bits v 31 26)).getD i 0

/-- The operand type of slot V. -/
def typeOf (v : Nat) : Nat := bits v 37 35

/-- R73, R77: add, subtract, multiply and fused multiply-add work lane by lane on the lanes that the mask selects. -/
def Clause.VectorArithmetic : Prop :=
  VectorOp .vadd 1 false (fun st _ v i => (vAdd (typeOf v) (laneA st v i) (laneB st v i)).1) ∧
  VectorOp .vsub 2 false (fun st _ v i => (vSub (typeOf v) (laneA st v i) (laneB st v i)).1) ∧
  VectorOp .vmul 3 false (fun st _ v i => (vMul (typeOf v) (laneA st v i) (laneB st v i)).1) ∧
  VectorOp .vfma 4 false (fun st _ v i => (vFma (typeOf v) (laneA st v i) (laneB st v i) (laneC st v i)).1)

/-- R73, R77: maximum, minimum, absolute value and negation work lane by lane on the lanes that the mask selects. -/
def Clause.VectorExtremesAndSigns : Prop :=
  VectorOp .vmax 5 false (fun st _ v i => (vMax (typeOf v) (laneA st v i) (laneB st v i)).1) ∧
  VectorOp .vmin 6 false (fun st _ v i => (vMin (typeOf v) (laneA st v i) (laneB st v i)).1) ∧
  VectorOp .vabs 7 false (fun st _ v i => (vAbs (typeOf v) (laneA st v i)).1) ∧
  VectorOp .vneg 8 false (fun st _ v i => (vNeg (typeOf v) (laneA st v i)).1)

/-- R77: VSEL takes each lane from its first operand where the mask bit is 1 and from its second where it is 0, in every lane; VBCAST
copies a scalar register, VPERM takes lane (b mod 256) of its first operand, VMOV copies. -/
def Clause.VectorMoves : Prop :=
  VectorOp .vsel 0x0A true (fun st _ v i => if bit (st.m (bits v 34 32)) i = 1 then laneA st v i else laneB st v i) ∧
  VectorOp .vbcast 0x0B false (fun st _ v _ => st.s (bits v 19 14 % 32)) ∧
  VectorOp .vperm 0x0E false (fun st _ v i => (st.v (bits v 19 14)).getD (laneB st v i % 256) 0) ∧
  VectorOp .vmov 0x2A false (fun st _ v i => laneA st v i)

/-- R76: VRSUM and VRMAX give one value, of all 256 lanes of the operand whatever the mask, to every lane that the mask selects. -/
def Clause.VectorReductions : Prop :=
  VectorOp .vrsum 0x0C false (fun st _ v _ => vRsum (st.v (bits v 19 14))) ∧
  VectorOp .vrmax 0x0D false (fun st _ v _ => vRmax (st.v (bits v 19 14)))

/-- R79, R80: VCURVE, VEXP2, VLOG2, VRCP and VRSQRT evaluate the curve table that the bundle names at each lane. -/
def Clause.VectorCurves : Prop :=
  VectorOp .vcurve 0x10 false (fun st img v i => curveAt img (laneA st v i)) ∧
  VectorOp .vexp2 0x11 false (fun st img v i => vExp2 img (laneA st v i)) ∧
  VectorOp .vlog2 0x12 false (fun st img v i => vLog2 img (laneA st v i)) ∧
  VectorOp .vrcp 0x13 false (fun st img v i => vRcp img (laneA st v i)) ∧
  VectorOp .vrsqrt 0x14 false (fun st img v i => vRsqrt img (laneA st v i))

/-- R77, Table 4-4: and, or, exclusive or, and the three shifts by the low five bits of the second operand. -/
def Clause.VectorLogic : Prop :=
  VectorOp .vand 0x20 false (fun st _ v i => Nat.land (laneA st v i) (laneB st v i)) ∧
  VectorOp .vor 0x21 false (fun st _ v i => Nat.lor (laneA st v i) (laneB st v i)) ∧
  VectorOp .vxor 0x22 false (fun st _ v i => Nat.xor (laneA st v i) (laneB st v i)) ∧
  VectorOp .vshl 0x23 false (fun st _ v i => laneA st v i * 2 ^ (laneB st v i % 32) % 2 ^ 32) ∧
  VectorOp .vshr 0x24 false (fun st _ v i => laneA st v i / 2 ^ (laneB st v i % 32)) ∧
  VectorOp .vsra 0x25 false (fun st _ v i => cut (sgn (laneA st v i) / (2 ^ (laneB st v i % 32) : Nat)))

/-- The vector operations that compute lane by lane write their destination and nothing else. The model's choices behind it: log entries
10 and 11. -/
def Obligations.VectorRegisterOperations : Prop :=
  Clause.VectorArithmetic ∧ Clause.VectorExtremesAndSigns ∧ Clause.VectorMoves ∧ Clause.VectorReductions ∧ Clause.VectorLogic

/-- R73, R77: VITOF and VFTOI convert between signed integers and FP32; VUNP decodes the format entry that the modifier names. -/
def Clause.VectorConversions : Prop :=
  VectorOp .vitof 0x28 false (fun st _ v i => vItof (laneA st v i)) ∧
  VectorOp .vftoi 0x29 false (fun st _ v i => vFtoi (laneA st v i)) ∧
  VectorOp .vunp 0x19 false (fun st _ v i => (vUnp (st.fmts.getD (bits v 47 38 % 16) Fmt.absent) (bit (bits v 47 38) 6 == 1)
    (vNat (st.v (bits v 19 14))) (vNat (st.v (bits v 25 20))) i).1)

/-- R77, R451: VCMP writes each bit of its mask register that the mask selects with the comparison of the lane, and no vector register;
VCVT without MX packs the converted lanes into VD, and no mask register; M0 always reads as all ones. -/
def Clause.VectorCompareAndPack : Prop :=
  ∀ (t : Nat) (st : Stage) (b : Bundle) (s : State), s.ready = true → AtBundle s t st b → b.vEn = true → b.mEn = false → b.cEn = false →
    (b.vOp = 9 → Completes (.vcmp t) s (fun u => u.rd Reg.FN_STAT_PC t = s.rd Reg.FN_STAT_PC t + 1 ∧ BundleFrame s u t ∧
      ∃ st', (u.tile t).stage = some st' ∧ st'.vreg = st.vreg ∧ st'.sreg = st.sreg ∧ st'.m 0 = 2 ^ 256 - 1 ∧
        (∀ r < 8, r ≠ bits b.v 13 8 % 8 → st'.m r = st.m r) ∧
        ∀ i < 256, bit (st'.m (bits b.v 13 8 % 8)) i =
          if bit (st.m (bits b.v 34 32)) i = 1 then
            (if vCmp (typeOf b.v) (bits b.v 47 38 % 8) (laneA st b.v i) (laneB st b.v i) then 1 else 0)
          else bit (st.m (bits b.v 13 8 % 8)) i)) ∧
    (b.vOp = 0x18 → bit (bits b.v 47 38) 6 = 0 → Completes (.vcvt t) s (fun u =>
      u.rd Reg.FN_STAT_PC t = s.rd Reg.FN_STAT_PC t + 1 ∧ BundleFrame s u t ∧
      ∃ st', (u.tile t).stage = some st' ∧ st'.mreg = st.mreg ∧ st'.sreg = st.sreg ∧
        (∀ r < 64, r ≠ bits b.v 13 8 → st'.v r = st.v r) ∧
        st'.v (bits b.v 13 8) = (vCvt (st.fmts.getD (bits b.v 47 38 % 16) Fmt.absent) false (bits (bits b.v 47 38) 5 4)
          (fun i => (s.gen st.ctx (s.rd Reg.CTX_STEP_NUM st.ctx) (st.s 30 % 2 ^ 16) (st.s 30 / 2 ^ 16)).bits
            (st.s 28 + 2 ^ 32 * (st.s 29 % 2 ^ 16) + i))
          (st.m (bits b.v 34 32)) (st.v (bits b.v 13 8)) (st.v (bits b.v 19 14))).1))

/-- The vector operations on curves, formats and masks write what their rules give. The model's choices behind it: log entries 10 and 11.
-/
def Obligations.VectorCurvesAndFormats : Prop :=
  Clause.VectorCurves ∧ Clause.VectorConversions ∧ Clause.VectorCompareAndPack

/-! ### The Finisher: slot C -/

/-- A command of slot C that writes a scalar register, alone in its bundle: SD takes `f`, every other register of the stage stays, and
PC advances by one. -/
def ScalarOp (cmd : Nat → Instr) (op : Nat) (f : Stage → Nat → Nat) : Prop :=
  ∀ (t : Nat) (st : Stage) (b : Bundle) (s : State), s.ready = true → AtBundle s t st b → b.cOp = op → b.cEn = true →
    b.vEn = false → b.mEn = false →
    Completes (cmd t) s (fun u => u.rd Reg.FN_STAT_PC t = s.rd Reg.FN_STAT_PC t + 1 ∧ BundleFrame s u t ∧
      ∃ st', (u.tile t).stage = some st' ∧ st'.mreg = st.mreg ∧ st'.vreg = st.vreg ∧ st'.ended = false ∧
        (∀ r, r ≠ bits b.c 10 6 → st'.s r = st.s r) ∧ st'.s (bits b.c 10 6) = f st b.c % 2 ^ 32)

/-- The two scalar source registers and the signed immediate of slot C. -/
def regA (st : Stage) (c : Nat) : Nat := st.s (bits c 15 11)
def regB (st : Stage) (c : Nat) : Nat := st.s (bits c 20 16)

/-- R77, Table 4-6: scalar arithmetic and logic, modulo 2^32. -/
def Clause.ScalarArithmetic : Prop :=
  ScalarOp .sadd 1 (fun st c => ((regA st c + immOf c) % (2 ^ 32 : Int)).toNat) ∧
  ScalarOp .saddr 2 (fun st c => regA st c + regB st c) ∧
  ScalarOp .ssubr 3 (fun st c => (((regA st c : Int) - regB st c) % (2 ^ 32 : Int)).toNat) ∧
  ScalarOp .smulr 4 (fun st c => regA st c * regB st c) ∧
  ScalarOp .sandr 5 (fun st c => Nat.land (regA st c) (regB st c)) ∧
  ScalarOp .sorr 6 (fun st c => Nat.lor (regA st c) (regB st c))

/-- R77, Table 4-6: shifts by an immediate, the two loads of an immediate, and the copy of a vector lane. -/
def Clause.ScalarShiftsAndLoads : Prop :=
  ScalarOp .sshl 7 (fun st c => regA st c * 2 ^ bits c 20 16) ∧
  ScalarOp .sshr 8 (fun st c => regA st c / 2 ^ bits c 20 16) ∧
  ScalarOp .sli 9 (fun _ c => (immOf c % (2 ^ 32 : Int)).toNat) ∧
  ScalarOp .slui 10 (fun _ c => bits c 35 16 * 4096) ∧
  ScalarOp .vtos 11 (fun st c => (st.v (bits c 29 24)).getD (bits c 23 16) 0)

/-- R437: SRD of a register of the tile page that is not part of the context's counter view gives the register's word. -/
def Clause.ScalarRegisterRead : Prop :=
  ∀ (t : Nat) (st : Stage) (b : Bundle) (s : State), s.ready = true → AtBundle s t st b → b.cOp = 12 → b.cEn = true →
    b.vEn = false → b.mEn = false → (bits b.c 27 16 < 0x128 ∨ 0x400 ≤ bits b.c 27 16) → s.tileWord t (bits b.c 27 16) < 2 ^ 32 →
    s.rd Reg.PAGE_CNT_EN (tilePage t) = 0 → bits b.c 27 16 ≠ 0x110 →
    Completes (.srd t) s (fun u => u.rd Reg.FN_STAT_PC t = s.rd Reg.FN_STAT_PC t + 1 ∧ BundleFrame s u t ∧
      ∃ st', (u.tile t).stage = some st' ∧ st'.s (bits b.c 10 6) = s.tileWord t (bits b.c 27 16) ∧
        (∀ r, r ≠ bits b.c 10 6 → st'.s r = st.s r) ∧ st'.vreg = st.vreg ∧ st'.mreg = st.mreg)

/-- The scalar operations and SRD write their register and nothing else. The model's choices behind it: log entry 10. -/
def Obligations.ScalarOperations : Prop :=
  Clause.ScalarArithmetic ∧ Clause.ScalarShiftsAndLoads ∧ Clause.ScalarRegisterRead

/-- A branch, alone in its bundle: PC takes the target, relative to the bundle, where `taken` holds, and advances by one where it does
not; the stage stays as it was. -/
def BranchOp (cmd : Nat → Instr) (op : Nat) (taken : Stage → Nat → Bool) : Prop :=
  ∀ (t : Nat) (st : Stage) (b : Bundle) (s : State), s.ready = true → AtBundle s t st b → b.cOp = op → b.cEn = true →
    b.vEn = false → b.mEn = false → 0 ≤ (s.rd Reg.FN_STAT_PC t : Int) + immOf b.c →
    (s.rd Reg.FN_STAT_PC t : Int) + immOf b.c < (min (s.rd Reg.CS_IMEM_SIZE t st.slot * 256) (2 ^ 14) : Nat) →
    Completes (cmd t) s (fun u => BundleFrame s u t ∧ (u.tile t).stage = some st ∧
      (u.rd Reg.FN_STAT_PC t : Int) = (s.rd Reg.FN_STAT_PC t : Int) + if taken st b.c then immOf b.c else 1)

/-- R77, R89, Table 4-6: branches always, on equal, on not equal, on signed less than and on signed greater or equal of SD and SA; END ends the
stage, which waits for its boundary with PC unchanged. -/
def Obligations.Branches : Prop :=
  BranchOp .br 0x10 (fun _ _ => true) ∧
  BranchOp .beq 0x11 (fun st c => st.s (bits c 10 6) == regA st c) ∧
  BranchOp .bne 0x12 (fun st c => st.s (bits c 10 6) != regA st c) ∧
  BranchOp .blt 0x13 (fun st c => decide (sgn (st.s (bits c 10 6)) < sgn (regA st c))) ∧
  BranchOp .bge 0x14 (fun st c => decide (sgn (regA st c) ≤ sgn (st.s (bits c 10 6)))) ∧
  ∀ (t : Nat) (st : Stage) (b : Bundle) (s : State), s.ready = true → AtBundle s t st b → b.cOp = 0x1F → b.cEn = true →
    b.vEn = false → b.mEn = false →
    Completes (.endStage t) s (fun u => BundleFrame s u t ∧ (u.tile t).stage = some { st with ended := true } ∧
      u.rd Reg.FN_STAT_WAIT t = 5 ∧ u.rd Reg.FN_STAT_PC t = s.rd Reg.FN_STAT_PC t)

/-! ### The Finisher: slot M, and the work of a stage -/

/-- A command of slot M with operation `op`, alone in its bundle, on a tile whose Pantry holds no stored errors. -/
def SlotM (s : State) (t : Nat) (st : Stage) (b : Bundle) (op : Nat) : Prop :=
  AtBundle s t st b ∧ b.mOp = op ∧ b.mEn = true ∧ b.vEn = false ∧ b.cEn = false ∧ s.perr = []

/-- Every register keeps its value but those at the places `ks` and the counters CNT_n of the pages. -/
def RegsKeep (s u : State) (ks : List Nat) : Prop :=
  ∀ (f : Field) (i j : Nat), f.key i j ∉ ks → (∀ p, ∀ n < 8, f.key i j ≠ Reg.CNT_N.key p n) → u.rd f i j = s.rd f i j

/-- A bundle of slot M has executed: PC has advanced by one, and no memory but the Pantry, no other tile and no register but PC, WAIT
and those at the places `ks` has changed. -/
def Advances (s u : State) (t : Nat) (ks : List Nat) : Prop :=
  u.rd Reg.FN_STAT_PC t = s.rd Reg.FN_STAT_PC t + 1 ∧ u.rd Reg.FN_STAT_WAIT t = 0 ∧ u.larder = s.larder ∧ u.imem = s.imem ∧
    u.staging = s.staging ∧ (∀ k, k ≠ t → u.tile k = s.tile k) ∧
    RegsKeep s u ([Reg.FN_STAT_WAIT.key t 0, Reg.FN_STAT_PC.key t 0] ++ ks)

/-- A bundle of slot M waits: only WAIT has changed. -/
def WaitsFor (s u : State) (t w : Nat) : Prop :=
  u.rd Reg.FN_STAT_WAIT t = w ∧ RegsOnly s u [Reg.FN_STAT_WAIT.key t 0]

/-- R72, R100, Table 4-5: VLD loads a vector register from Pantry and VST stores one, at SA + 64·OFF in the size of the bundle; VST
changes exactly the bytes stored, and a range outside the allocation raises PANTRY_RANGE instead. -/
def Clause.FinisherLoadsAndStores : Prop :=
  ∀ (t : Nat) (st : Stage) (b : Bundle) (s : State), s.ready = true →
    let a := mAddr st b.m
    let n := mSize b.m
    (SlotM s t st b 1 → s.inAlloc t st.slot a n = true → Completes (.vld t) s (fun u => Advances s u t [] ∧ u.pantry = s.pantry ∧
      ∃ st', (u.tile t).stage = some st' ∧ st'.sreg = st.sreg ∧ st'.mreg = st.mreg ∧ (∀ r < 64, r ≠ bits b.m 11 6 → st'.v r = st.v r) ∧
        st'.v (bits b.m 11 6) = natV (leNat (s.pantry.readBytes (pantryAddr t a) n)))) ∧
    (SlotM s t st b 2 → s.inAlloc t st.slot a n = true → Completes (.vst t) s (fun u => Advances s u t [] ∧ (u.tile t).stage = some st ∧
      (∀ x, (x < pantryAddr t a ∨ pantryAddr t a + n ≤ x) → u.pantry.read x = s.pantry.read x) ∧
      ∀ i < n, u.pantry.read (pantryAddr t a + i) = BitVec.ofNat 8 (vNat (st.v (bits b.m 11 6)) / 256 ^ i))) ∧
    (∀ i ∈ [(1, Instr.vld t), (2, Instr.vst t)], SlotM s t st b i.1 → s.inAlloc t st.slot a n = false → exec i.2 s =
      .next (s.answer (((s.wr Reg.FN_STAT_WAIT t 0 0).count (tilePage t) 4 1).raise (tilePage t) 9 (some st.ctx) 0)))

/-- R82, R83: PTAKE takes from a peg of the context that holds enough and waits otherwise; PWAIT goes on once the peg reaches the value
of a scalar register, and takes nothing; PEG_WAIT_END lets either go on; PPOST adds to a peg; PPOSTR notes its post for the boundary. -/
def Obligations.FinisherPegs : Prop :=
  ∀ (t : Nat) (st : Stage) (b : Bundle) (s : State), s.ready = true →
    let amt := bits b.m 24 17
    ∀ g < 64, s.pegOf t st.slot (bits b.m 37 32) = some g →
      (SlotM s t st b 9 → s.rd Reg.PEG_COUNT t g < 2 ^ 24 → ∀ i ∈ [Instr.ptake t, Instr.pegWaitEnd t],
        (i = .pegWaitEnd t → s.rd Reg.FN_STAT_WAIT t = 1) →
        (amt ≤ s.rd Reg.PEG_COUNT t g → Completes i s (fun u =>
          Advances s u t [Reg.PEG_COUNT.key t g, Reg.PEG_HELD.key t g] ∧ u.rd Reg.PEG_COUNT t g = s.rd Reg.PEG_COUNT t g - amt ∧
          u.pantry = s.pantry ∧ (u.tile t).stage = some { st with takes := (g, amt) :: st.takes })) ∧
        (s.rd Reg.PEG_COUNT t g < amt → Completes i s (fun u => WaitsFor s u t 1))) ∧
      (SlotM s t st b 10 → ∀ i ∈ [Instr.pwait t, Instr.pegWaitEnd t], (i = .pegWaitEnd t → s.rd Reg.FN_STAT_WAIT t = 1) →
        (st.s (bits b.m 16 12) ≤ s.rd Reg.PEG_COUNT t g → Completes i s (fun u =>
          Advances s u t [] ∧ u.pantry = s.pantry ∧ (u.tile t).stage = some st)) ∧
        (s.rd Reg.PEG_COUNT t g < st.s (bits b.m 16 12) → Completes i s (fun u => WaitsFor s u t 1))) ∧
      (SlotM s t st b 11 → s.slotOf t st.ctx = some st.slot → s.rd Reg.PEG_COUNT t g + amt < 2 ^ 24 → Completes (.ppost t) s (fun u =>
        Advances s u t ([Reg.PEG_COUNT.key t g, Reg.PEG_HELD.key t g] ++ (List.range 16).map (fun q => Reg.RQ_HIWATER.key t q)) ∧
        u.rd Reg.PEG_COUNT t g = s.rd Reg.PEG_COUNT t g + amt ∧ u.pantry = s.pantry ∧
        (u.tile t).stage = some { st with posts := (g, amt) :: st.posts })) ∧
      (SlotM s t st b 12 → s.present (st.s (bits b.m 16 12)) = true →
        (s.slotOf (s.phys (st.s (bits b.m 16 12))) st.ctx).isSome = true → st.deferred.length < 64 → Completes (.ppostr t) s (fun u =>
          Advances s u t [] ∧ u.pantry = s.pantry ∧ u.posts = s.posts ∧ (u.tile t).stage =
            some { st with deferred := st.deferred ++ [.post (st.s (bits b.m 16 12)) (bits b.m 37 32) amt] }))

/-- R75, R89: PXWAIT goes on once the Press queue is short enough and XWAIT once no transfer of the tile is in flight; until then WAIT
shows what holds them and nothing else changes. -/
def Clause.FinisherWaits : Prop :=
  ∀ (t : Nat) (st : Stage) (b : Bundle) (s : State), s.ready = true →
    let goes := fun (u : State) => Advances s u t [] ∧ u.pantry = s.pantry ∧ u.moves = s.moves ∧ (u.tile t).stage = some st
    (SlotM s t st b 5 → ((s.tile t).press.length ≤ bits b.m 33 32 → Completes (.pxwait t) s goes) ∧
      (bits b.m 33 32 < (s.tile t).press.length → Completes (.pxwait t) s (fun u => WaitsFor s u t 2))) ∧
    (SlotM s t st b 13 → ((∀ m ∈ s.moves, m.tile ≠ t) → Completes (.xwait t) s goes) ∧
      ((∃ m ∈ s.moves, m.tile = t) → Completes (.xwait t) s (fun u => WaitsFor s u t 3)))

/-- Vector loads and stores move a register, and the waits hold a bundle back. The model's choices behind it: log entry 10. -/
def Obligations.FinisherMemoryAndWaits : Prop :=
  Clause.FinisherLoadsAndStores ∧ Clause.FinisherWaits

/-- R48, R75, R112, R153, R154: with its 64-byte descriptor in the allocation, PXISSUE queues a Press command with its formats latched
and refuses one that a rule refuses; FETCH, FOLD and SEND start their transfers, which move no byte yet. -/
def Obligations.FinisherIssues : Prop :=
  ∀ (t : Nat) (st : Stage) (b : Bundle) (s : State), s.ready = true → s.inAlloc t st.slot (mAddr st b.m) 64 = true →
    let w := toWords 16 (s.pantry.readBytes (pantryAddr t (mAddr st b.m)) 64)
    let x := s.tile t
    let p := partOfCtx st.ctx
    let cmd : PxCmd := ⟨st.ctx, w, s.fmt p (wfield w 0 3 0), s.fmt p (wfield w 0 7 4), s.fmt p (wfield w 0 11 8), x.half, [], 0⟩
    let pxs := [Reg.PX_STAT_CMDQ.key t 0, Reg.PX_STAT_STREAMING.key t 0, Reg.PX_STAT_LOADING.key t 0, Reg.PX_STAT_DRAINING.key t 0,
      Reg.PX_STAT_STALL_MOVE.key t 0, Reg.PX_STAT_STALL_DRAIN.key t 0] ++
      (List.range 4).flatMap (fun d => (List.range 8).map (fun i => Reg.MCH_LAGGARD.key d i))
    (SlotM s t st b 4 → x.press.length < 2 → x.mbuf = [] → s.skewed t = false → (wfield w 0 12 12 = 0 → st.marked = false) →
      wfield w 0 17 17 = 0 →
      (s.pxRefused t st.slot st.prev cmd = false → Completes (.pxissue t) s (fun u =>
        Advances s u t pxs ∧ u.pantry = s.pantry ∧ (u.tile t).press = x.press ++ [cmd] ∧ (u.tile t).half = 1 - x.half ∧
        u.rd Reg.PX_STAT_CMDQ t = min 2 ((x.press ++ [cmd]).filter (fun c => !c.entered)).length)) ∧
      (s.pxRefused t st.slot st.prev cmd = true → Completes (.pxissue t) s (fun u =>
        (u.tile t).press = x.press ∧ u.pantry = s.pantry ∧ u.rd Reg.PX_LAST_FLAGS t = 32 ∧ u.rd Reg.PX_FLAGS_DESC_ERR t = 1 ∧
        u.rd Reg.PX_CMD_SERIAL t = (s.rd Reg.PX_CMD_SERIAL t + 1) % 2 ^ 12 ∧ u.rd Reg.FN_STAT_PC t = s.rd Reg.FN_STAT_PC t + 1))) ∧
    (SlotM s t st b 6 → fetchOk st.fmts w = true → wfield w 0 1 1 = 0 →
      (∀ r < wfield w 4 15 0, s.larderCut t (fetchLarder w r) = false ∧
        s.inAlloc t st.slot (fetchPantry st.fmts w r) (fetchPantryLen st.fmts w) = true ∧
        s.larderCheck st.ctx (wfield w 0 0 0) 80 (fetchLarder w r) (fetchLarderLen st.fmts w) = none) →
      Completes (.fetch t) s (fun u => Advances s u t [] ∧ u.pantry = s.pantry ∧ (u.tile t).stage = some st ∧
        u.moves = s.moves ++ [⟨t, st.ctx, 0, w, true, [], 0, []⟩])) ∧
    (∀ q key member, SlotM s t st b 7 → st.deferred.length < 64 →
      ((s.wr Reg.FN_STAT_WAIT t 0 0).count (tilePage t) 4 1).foldStart t st.slot st.ctx w = (q, some (.mark (stackOf (w.getD 3 0 * 256)) key member)) →
      Completes (.fold t) s (fun u => u.pantry = s.pantry ∧ u.larder = s.larder ∧ u.moves = s.moves ++ [⟨t, st.ctx, 1, w, true, [], 0, []⟩] ∧
        key = w.getD 0 0 ∧ member = (s.logicalOf t).getD 255 - wfield w 1 15 8 ∧ u.rd Reg.FN_STAT_PC t = s.rd Reg.FN_STAT_PC t + 1 ∧
        (u.tile t).stage = some { st with deferred := st.deferred ++ [.mark (stackOf (w.getD 3 0 * 256)) key member] })) ∧
    (SlotM s t st b 8 → sendOk w = true → s.rdB Reg.SQ_VALID t (wfield w 0 3 0) = true → s.rd Reg.SQ_CTX t (wfield w 0 3 0) = st.ctx →
      (∀ i < wfield w 1 10 0, s.inAlloc t st.slot (sendSrc w i) (wfield w 3 9 0 * 256) = true) →
      Completes (.send t) s (fun u => Advances s u t [] ∧ u.pantry = s.pantry ∧
        u.moves = s.moves ++ [⟨t, st.ctx, 2, w, true, [], s.rd Reg.SQ_QHEAD t (wfield w 0 3 0), []⟩] ∧
        ∃ st', (u.tile t).stage = some st' ∧ st'.vreg = st.vreg ∧ st'.sreg = st.sreg ∧ st'.deferred = st.deferred ∧
          SMap.get 0 st'.slabs (wfield w 0 3 0) = SMap.get 0 st.slabs (wfield w 0 3 0) + wfield w 1 10 0))

/-- R68: the oldest command of a tile's Press whose vectors have all come ends: its outputs stand in Pantry at OUT, its accumulators in
its bank half, PX_LAST and CMD_SERIAL show it, and the next command is the oldest. -/
def Clause.PressCommandEnds : Prop :=
  ∀ (t : Nat) (c : PxCmd) (rest : List PxCmd) (s : State), s.ready = true → s.tileRuns t = true → (s.tile t).press = c :: rest →
    (wfield c.words 0 12 12 = 1 ∨ c.demand ≤ c.got.length) → s.perr = [] →
    let x := s.tile t
    let w := c.words
    let r := c.run (fun a n => s.pantry.readBytes (pantryAddr t a) n)
      (fun v => if wfield w 0 12 12 = 1 then (List.range c.vb).map (fun i =>
          s.pantry.read (pantryAddr t (s.ringAt t ((s.slotOf t c.ctx).getD 0) (wfield w 4 15 0 * 256) (v * c.vb + i))))
        else c.got.getD v [])
      (if c.half = 0 then x.bankX else x.bankY) (bit x.inex c.half == 1)
      (s.gen c.ctx (s.rd Reg.CTX_STEP_NUM c.ctx) (wfield w 8 15 0) (wfield w 8 31 16))
    Completes (.pressCommandComplete t) s (fun u =>
      (u.tile t).press = rest ∧ (if c.half = 0 then (u.tile t).bankX else (u.tile t).bankY) = r.bank ∧
      (if c.half = 0 then (u.tile t).bankY else (u.tile t).bankX) = (if c.half = 0 then x.bankY else x.bankX) ∧
      u.rd Reg.PX_LAST_FLAGS t = r.flags % 64 ∧ u.rd Reg.PX_CMD_SERIAL t = (s.rd Reg.PX_CMD_SERIAL t + 1) % 2 ^ 12 ∧
      u.rd Reg.PX_BREACH_N t = min 0xFFFF r.breached ∧ u.rd Reg.PX_NAN_N t = min 0xFFFF r.nans ∧
      u.larder = s.larder ∧ (u.tile t).stage = x.stage ∧ (∀ k, k ≠ t → u.tile k = s.tile k) ∧
      ∀ a, (a < pantryAddr t (wfield w 4 31 16 * 256) ∨ pantryAddr t (wfield w 4 31 16 * 256) + r.out.length ≤ a) →
        u.pantry.read a = s.pantry.read a)

/-- R87, R88, R93: an idle tile opens the next ready stage in round-robin order: PC is ENTRY, S0 to S4 are set from the record and the
step, every other register of the stage is zero. -/
def Clause.StageOpens : Prop :=
  ∀ (t n : Nat) (s : State), s.ready = true → s.tileRuns t = true → (s.tile t).stage = none → s.rd Reg.PAGE_DRAIN (tilePage t) ≠ 1 →
    s.perr = [] → ((List.range 16).map (fun i => ((s.tile t).lastSlot + 1 + i) % 16)).find? (s.slotReady t) = some n →
    let r := SMap.get SlotRun.empty (s.tile t).slots n
    let w := s.nextRecord t n
    s.inAlloc t n (s.rd Reg.CS_SLIST t n * 256 + 16 * r.ix) 16 = true → recordOk w (s.rd Reg.CS_IMEM_SIZE t n * 256) = true →
    (wfield w 1 23 0 ≠ 0 → (s.pegOf t n (wfield w 0 21 16)).isSome = true) →
    Completes (.stageOpen t) s (fun u =>
      u.rd Reg.FN_STAT_PC t = wfield w 0 13 0 ∧ u.rd Reg.FN_STAT_RUNNING t = 1 ∧ u.rd Reg.FN_STAT_WAIT t = 0 ∧
      u.rd Reg.FN_STAT_CTX t = s.rd Reg.CS_CTX t n % 64 ∧ (u.tile t).lastSlot = n ∧ u.pantry = s.pantry ∧
      (∃ st, (u.tile t).stage = some st ∧ st.ctx = s.rd Reg.CS_CTX t n ∧ st.slot = n ∧ st.ended = false ∧
        st.s 0 = r.run ∧ st.s 1 = wfield w 2 15 0 * 256 ∧ st.s 2 = s.rd Reg.CTX_STEP_NUM (s.rd Reg.CS_CTX t n) ∧
        st.s 3 = (s.logicalOf t).getD 0 ∧ st.s 4 = r.ix ∧ (∀ k, 5 ≤ k → st.s k = 0) ∧ st.vreg = [] ∧ st.mreg = []) ∧
      ∀ f i j, f.key i j ∉ [Reg.FN_STAT_PC.key t 0, Reg.FN_STAT_RUNNING.key t 0, Reg.FN_STAT_WAIT.key t 0, Reg.FN_STAT_CTX.key t 0] →
        u.rd f i j = s.rd f i j)

/-- R89, R90: a stage that has reached END with no command and no transfer left commits in one step: the stage closes with its banks
cleared, its deferred posts and marks are released in program order, STAGE_SERIAL advances and LAST_ABANDONED is 0; a stage that has
not ended, or has work left, does not change. -/
def Clause.StageBoundaryCommits : Prop :=
  ∀ (t : Nat) (st : Stage) (s : State), s.ready = true → (s.tile t).stage = some st →
    (s.tileRuns t = true → st.ended = true → (s.tile t).press = [] → (∀ m ∈ s.moves, m.tile ≠ t) → (st.mangle = true → st.marked = true ∧ (s.tile t).mbuf = []) →
      (st.last && st.lastRun && st.deferred.length == 64) = false →
      Completes (.stageBoundary t) s (fun u =>
        (u.tile t).stage = none ∧ (u.tile t).bankX = [] ∧ (u.tile t).bankY = [] ∧
        u.rd Reg.FN_STAGE_SERIAL t = (s.rd Reg.FN_STAGE_SERIAL t + 1) % 2 ^ 24 ∧ u.rd Reg.FN_LAST_ABANDONED t = 0 ∧
        u.rd Reg.FN_STAT_RUNNING t = 0 ∧ u.pantry = s.pantry ∧ u.larder = s.larder ∧
        u.posts = s.posts ++ st.deferred.filterMap (fun d => match d with
          | .post dest peg amount => some ⟨st.ctx, t, dest, peg, amount⟩
          | .mark .. => none) ∧
        u.foldMarks = s.foldMarks ++ st.deferred.filterMap (fun d => match d with
          | .mark stack key member => some ⟨st.ctx, stack, key, member⟩
          | .post .. => none))) ∧
    (t < 176 → (st.ended = false ∨ (s.tile t).press ≠ [] ∨ ∃ m ∈ s.moves, m.tile = t) →
      exec (.stageBoundary t) s = .next s)

/-- A stage opens on what its queue holds and commits at its boundary. The model's choices behind it: log entry 24. -/
def Obligations.StagesOpenAndCommit : Prop :=
  Clause.StageOpens ∧ Clause.StageBoundaryCommits

/-- R83, R113, R114: a released post reaches its peg, those on one bridge direction in the order of their release; a slab that the consumer's router accepts is written into the receive slot that
it names, and no other byte of Pantry changes; a SEND ends once every slab is written. -/
def Obligations.PostsAndSlabsArrive : Prop :=
  ∀ s : State, s.ready = true →
    (∀ k p g slot, s.posts[k]? = some p → s.present p.dest = true → s.phys p.dest < 176 →
      s.bridgeDown (dieOfTile p.src) (dieOfTile (s.phys p.dest)) = false → s.slotOf (s.phys p.dest) p.ctx = some slot →
      (∀ q ∈ s.posts.take k, s.postBridge q = s.postBridge p → s.postBridge p = none) →
      s.pegOf (s.phys p.dest) slot p.peg = some g → g < 64 → s.rd Reg.PEG_COUNT (s.phys p.dest) g + p.amount < 2 ^ 24 →
      Completes (.remotePostArrive k) s (fun u =>
        u.rd Reg.PEG_COUNT (s.phys p.dest) g = s.rd Reg.PEG_COUNT (s.phys p.dest) g + p.amount ∧ u.posts = s.posts.eraseIdx k ∧
        u.tiles = s.tiles ∧ u.pantry = s.pantry ∧
        RegsKeep s u (Reg.PEG_COUNT.key (s.phys p.dest) g :: Reg.BR_FLITS.key (dieOfTile p.src) (dieOfTile (s.phys p.dest)) :: (List.range 16).map (fun q => Reg.RQ_HIWATER.key (s.phys p.dest) q)))) ∧
    (∀ t k i ix m, t < 176 → s.moveAt t 2 k = some (ix, m) → i < wfield m.words 1 10 0 → i ∉ m.done → s.perr = [] →
      let q := wfield m.words 0 3 0
      let dt := s.phys (s.rd Reg.SQ_DEST t q)
      let dq := s.rd Reg.SQ_DEST_Q t q
      let n := wfield m.words 3 9 0 * 256
      let a := pantryAddr dt (s.rd Reg.RQ_BASE dt dq * 256 +
        (m.head + wfield m.words 0 25 16 + i) % max 1 (s.rd Reg.SQ_QSLOTS t q) * (s.rd Reg.RQ_SLOT_SZ dt dq * 4096))
      dt < 176 → s.bridgeDown (dieOfTile t) (dieOfTile dt) = false → s.slabOk t (s.rd Reg.SQ_DEST t q) m i = true →
      Completes (.slabWrite t k i) s (fun u =>
        (∀ j < n, u.pantry.read (a + j) = s.pantry.read (pantryAddr t (sendSrc m.words i) + j)) ∧
        (∀ x, (x < a ∨ a + n ≤ x) → u.pantry.read x = s.pantry.read x) ∧
        u.moves = s.moves.set ix { m with done := m.done ++ [i] } ∧ u.tiles = s.tiles ∧
        RegsKeep s u [Reg.RT_SEND_OUT.key t 0, Reg.RT_SEND_IN.key dt 0, Reg.BR_FLITS.key (dieOfTile t) (dieOfTile dt)])) ∧
    (∀ t k ix m, t < 176 → s.moveAt t 2 k = some (ix, m) → wfield m.words 1 10 0 ≤ m.done.length →
      exec (.sendComplete t k) s = .next { s with moves := s.moves.eraseIdx ix }) ∧
    (∀ t k ix m, t < 176 → s.moveAt t 2 k = some (ix, m) → m.done.length < wfield m.words 1 10 0 →
      exec (.sendComplete t k) s = .next s)

/-- R149, R153, R154, R156: an opened FETCH is checked as its regions stand, moves its rows in order, ends and
posts its peg; the partial of a FOLD lands in its staging
place in Larder and posts the sender's peg; a mark adds its member to the fold once. -/
def Obligations.TransfersComplete : Prop :=
  ∀ s : State, s.ready = true →
    (∀ t k i m, t < 176 → s.moveAt t 0 k = some (i, m) → m.opened = true →
      let fm := ((s.tile t).stage.map (fun st => st.fmts)).getD []
      let x := (s.dropMove i).closeReaders m.regions
      let q := if fetchKind m.words = 2 then (x, true) else x.fetchCheck t m.ctx fm m.words
      let r := (List.range (wfield m.words 4 15 0)).foldl (fun (y : State × Bool) n =>
        if y.2 then y.1.fetchRow t ((s.slotOf t m.ctx).getD 0) m.ctx fm m.words n else y) q
      exec (.fetchComplete t k) s = .next (s.answer
        (if r.2 then r.1.postOwn t m.ctx (wfield m.words 0 21 16) (wfield m.words 0 29 22) else r.1))) ∧
    (∀ t k i m, t < 176 → s.moveAt t 0 k = some (i, m) → m.opened = false → exec (.fetchComplete t k) s = .next s) ∧
    (∀ t k i m, t < 176 → s.moveAt t 1 k = some (i, m) → s.perr = [] → wfield m.words 2 7 0 = 0 →
      let w := m.words
      let n := wfield w 6 23 0
      let raw := if wfield w 1 16 16 = 0 then 4 * n else 32 + 16 * n + (n + 3) / 4
      let a := w.getD 4 0 * 256 + ((s.logicalOf t).getD 0 - wfield w 1 15 8) * foldPartial w
      Completes (.foldPartialLanded t k) s (fun u =>
        (∀ j < raw, u.larder.read (a + j) = s.pantry.read (pantryAddr t (wfield w 5 15 0 * 256) + j)) ∧
        (∀ x, (x < a ∨ a + foldPartial w ≤ x) → u.larder.read x = s.larder.read x) ∧
        u.moves = s.moves.eraseIdx i ∧ u.pantry = s.pantry ∧ u.tiles = s.tiles)) ∧
    (∀ k fm n f, s.foldMarks[k]? = some fm → s.foldSlot fm.stack fm.ctx fm.key = some n → SMap.find s.folds (64 * fm.stack + n) = some f →
      exec (.foldMark k) s = .next (s.answer (
        let x : State := { s with foldMarks := s.foldMarks.eraseIdx k }
        if f.marked.contains fm.member then x.raise (0x40 + fm.stack) 10 (some fm.ctx) 0
        else
          let f := { f with marked := f.marked ++ [fm.member] }
          let x : State := { x with folds := SMap.put x.folds (64 * fm.stack + n) f }
          (x.wr Reg.FS_HELD fm.stack n (f.marked.length - f.added.length)).foldAdds fm.stack n 32)))

/-- R157: a fold whose every partial is added writes its sum at the target, sets FDONE to its key and frees its slot; the other folds,
and every byte of Larder outside the result, stay. A fold that waits for a partial does not change. -/
def Clause.FoldCompletes : Prop :=
  ∀ (st n : Nat) (f : Fold) (s : State), s.ready = true → st < 12 → n < 64 → SMap.find s.folds (64 * st + n) = some f →
    (f.added.length < wfield f.words 1 5 0 → exec (.foldComplete st n) s = .next s) ∧
    (wfield f.words 1 5 0 ≤ f.added.length →
      let out := f.result (s.gen f.ctx (s.rd Reg.CTX_STEP_NUM f.ctx) (wfield f.words 7 15 0) (wfield f.words 7 31 16))
      let a := f.words.getD 3 0 * 256
      s.lerr = [] → s.larderCheck f.ctx 1 80 a out.length = none →
      Completes (.foldComplete st n) s (fun u =>
        u.rd Reg.MEM_FDONE st (f.ctx % 16) = f.key % 2 ^ 32 ∧ u.rd Reg.FS_OPEN st n = 0 ∧
        (∀ k, k ≠ 64 * st + n → SMap.find u.folds k = SMap.find s.folds k) ∧
        (∀ j < out.length, u.larder.read (a + j) = out.getD j 0) ∧
        (∀ x, (x < a ∨ a + out.length ≤ x) → u.larder.read x = s.larder.read x) ∧ u.pantry = s.pantry ∧
        RegsKeep s u [Reg.MEM_FDONE.key st (f.ctx % 16), Reg.FS_OPEN.key st n, Reg.FS_MARKS.key st n, Reg.FS_HELD.key st n]))

/-- A Press command drains into its bank and a fold is summed in member order. The model's choices behind it: log entry 10. -/
def Obligations.PressAndFolds : Prop :=
  Clause.PressCommandEnds ∧ Clause.FoldCompletes

/-- R117, R119: a Mangle channel whose group credits one context starts that context's record; with every tile of the target set in
credit it gives each the next vector; a record that every tile has consumed retires and POS advances. -/
def Clause.MangleFeeds : Prop :=
  ∀ (g c : Nat) (s : State), s.ready = true → g < 8 →
    let d := (s.groupDies g).1
    let e := (s.groupDies g).2
    let ch := s.rd Reg.CFG_SGM_CH 0 g
    let rch := s.rd Reg.CFG_SGM_RCH 0 g
    d < 4 → e < 4 → ch < 8 → rch < 8 →
    (s.groupTiles g ≠ [] → s.rd Reg.CFG_SGM_MEN 0 g ≠ 0 → SMap.find s.feeds g = none → s.rd Reg.FLT_HALTED ≠ 1 → s.lerr = [] →
      (∀ l ∈ s.groupTiles g, s.credit (s.phys l) = some c) →
      let a := s.rd Reg.CTX_MFEED c g * 256 + 16 * s.rd Reg.CTX_MPOS c g
      let w := toWords 4 (s.larder.readBytes a 16)
      s.dieCut d a = false → s.dieCut d (w.getD 0 0 * 256) = false → s.larderCheck c 0 80 a 16 = none → wfield w 2 31 2 = 0 → w.getD 3 0 = 0 → wfield w 1 23 0 ≠ 0 →
      wfield w 1 31 24 ≠ 0 → 4 * wfield w 1 31 24 ≤ 256 → wfield w 2 0 0 = 0 →
      s.larderCheck c 0 80 (w.getD 0 0 * 256) (wfield w 1 23 0 * (4 * wfield w 1 31 24)) = none →
      Completes (.recordStart g) s (fun t =>
        SMap.find t.feeds g = some ⟨c, s.rd Reg.CTX_MPOS c g, w, 0, 0, [], [], false, []⟩ ∧
        t.rd Reg.MCH_OPEN d ch = 1 ∧ t.rd Reg.MCH_OPEN e (if e = d then ch else rch) = 1 ∧
        t.larder = s.larder ∧ t.tiles = s.tiles ∧
        RegsKeep s t [Reg.MCH_OPEN.key d ch, Reg.MCH_CTX.key d ch, Reg.MCH_OPEN.key e rch, Reg.MCH_CTX.key e rch])) ∧
    (∀ f, SMap.find s.feeds g = some f →
      (d = e → f.sent < wfield f.words 1 23 0 → s.lerr = [] → s.rd Reg.FLT_HALTED ≠ 1 →
        s.dieCut d (f.words.getD 0 0 * 256 + f.sent * (4 * wfield f.words 1 31 24)) = false →
        let ts := (s.targetSet g f).filter (fun l => dieOfLogical l == d)
        let vb := 4 * wfield f.words 1 31 24
        (∀ l ∈ ts, s.credit (s.phys l) = some f.ctx) →
        exec (.mangleDeliver g false) s = .next (s.answer (
          let r := s.larderGet (some f.ctx) (f.words.getD 0 0 * 256 + f.sent * vb) vb
          let x : State := { r.1 with feeds := SMap.put s.feeds g { f with sent := f.sent + 1, farBuf := [] } }
          let x := ts.foldl (fun x l => x.takeVector (x.phys l)
            (s.larder.readBytes (f.words.getD 0 0 * 256 + f.sent * vb) vb) (f.sent + 1 == wfield f.words 1 23 0)) x
          (x.countF (0x60 + d) Reg.MCH_VEC d (x.rd Reg.CFG_SGM_CH 0 g) 1).count (0x300 + f.ctx) 2 ts.length))) ∧
      (s.targetSet g f = [] → f.regions = [] → f.ctx < 64 → Completes (.recordRetire g) s (fun t =>
        SMap.find t.feeds g = none ∧ t.rd Reg.CTX_MPOS f.ctx g = (s.rd Reg.CTX_MPOS f.ctx g + 1) % 2 ^ 24 ∧
        t.rd Reg.MCH_OPEN d ch = 0 ∧ t.tiles = s.tiles ∧ t.larder = s.larder ∧
        RegsKeep s t [Reg.CTX_MPOS.key f.ctx g, Reg.MCH_OPEN.key d ch, Reg.MCH_OPEN.key e rch])) ∧
      (s.targetSet g f ≠ [] → exec (.recordRetire g) s = .next s))

/-- R109, R124, R125: a Pantry word without errors is left as it is by the scrubber, and one that the code corrects is written back and
raises PANTRY_CE; a flit without errors clears RETRYING, a corrected one raises FLIT_CE; a bridge within its limit begins the next
second with no corrections, and one past it raises BRIDGE_WEAK. -/
def Clause.ScrubAndBridges : Prop :=
  ∀ s : State, s.ready = true →
    (∀ t a, t < 176 → a < 12 * 2 ^ 20 → s.powered (tilePage t) = true →
      (SMap.find s.perr (pantryAddr t a / 32) = none → exec (.pantryScrub t a []) s = .next s) ∧
      ∀ errs corr rest, SMap.find s.perr (pantryAddr t a / 32) = some errs → rsDecode false errs = some (corr, rest) → corr ≠ [] →
        exec (.pantryScrub t a []) s = .next (s.answer (({ s with
          perr := SMap.del s.perr (pantryAddr t a / 32)
          pantry := applyErrs (32 * (pantryAddr t a / 32)) s.pantry rest } : State).raise (tilePage t) 0 none 0))) ∧
    (∀ d e c, d < 4 → e < 4 → d ≠ e → s.rd Reg.BE_UP d e = 1 →
      Completes (.flitArrive false d e [] false ⟨c, none⟩) s (fun t =>
        t.rd Reg.BE_RETRYING d e = 0 ∧ (SMap.get ⟨0, 0⟩ t.bridges (8 * d + e)).fails = 0 ∧
        (SMap.get ⟨0, 0⟩ t.bridges (8 * d + e)).corr = (SMap.get ⟨0, 0⟩ s.bridges (8 * d + e)).corr ∧
        ∀ f i j, f.key i j ∉ [Reg.BE_RETRYING.key d e, Reg.BR_FLITS.key e d] → t.rd f i j = s.rd f i j)) ∧
    (∀ d c errs, d < 176 → rsDecode false errs = none → exec (.flitArrive true d 0 errs false ⟨c, none⟩) s =
      .next (s.answer (s.raise (tilePage d) 19 c 0))) ∧
    (∀ d e, d < 4 → e < 5 → d ≠ e →
      let x : State := { s with bridges := SMap.set ⟨0, 0⟩ s.bridges (8 * d + e) { SMap.get ⟨0, 0⟩ s.bridges (8 * d + e) with corr := 0 } }
      ((SMap.get ⟨0, 0⟩ s.bridges (8 * d + e)).corr ≤ s.rd Reg.BR_CE_LIM d e → exec (.bridgeWeak d e) s = .next x) ∧
      (s.rd Reg.BR_CE_LIM d e < (SMap.get ⟨0, 0⟩ s.bridges (8 * d + e)).corr → exec (.bridgeWeak d e) s =
        .next (s.answer (x.raise (0x60 + d) 4 none e))))

/-- Mangle channels feed their groups, memories are scrubbed and bridges kept. The model's choices behind it: log entry 10. -/
def Obligations.MangleAndFabric : Prop :=
  Clause.MangleFeeds ∧ Clause.ScrubAndBridges

/-! ### Larder, landing and Starch -/

/-- R130, R131, R148: an untagged access of a context that the region check allows is served: a write changes exactly its bytes, but
those that its mask leaves out, a read changes none; one that the check refuses changes nothing and raises the fault of the check with the channel. -/
def Clause.LarderAccesses : Prop :=
  ∀ (c a : Nat) (s : State), s.ready = true → c < 64 → s.lerr = [] →
    (∀ data : List (Option Byte), data ≠ [] → s.larderCheck c 1 80 a data.length = none →
      Completes (.larderAccess c a data 0 []) s (fun t =>
        (∀ j < data.length, t.larder.read (a + j) = (data.getD j none).getD (s.larder.read (a + j))) ∧
        (∀ x, (x < a ∨ a + data.length ≤ x) → t.larder.read x = s.larder.read x) ∧
        t.pantry = s.pantry ∧ t.lands = s.lands ∧ t.tiles = s.tiles ∧ RegsKeep s t [])) ∧
    (∀ n, s.larderCheck c 0 80 a n = none → Completes (.larderAccess c a [] n []) s (fun t =>
      t.larder = s.larder ∧ t.pantry = s.pantry ∧ t.lerr = [] ∧ RegsKeep s t [])) ∧
    (∀ n b, badAddr a = false → s.larderCheck c 0 80 a n = some b →
      exec (.larderAccess c a [] n []) s = .next (s.answer (s.raise (0x40 + stackOf a) b (some c) (chanOf a))))

/-- R138 to R140, R143: refresh follows the hotter sensor; the patrol scrub of a granule without errors changes no byte; a pin or row
within its limit over the last 60 s is left as it is, and one past it takes a spare while there is one; a lost channel takes its stack out of service. -/
def Clause.LarderUpkeep : Prop :=
  ∀ (st : Nat) (s : State), s.ready = true → st < 12 →
    (∀ lost, Completes (.larderRefresh st lost) s (fun t =>
      t.rd Reg.MEM_HOT st = (if 340 ≤ toSigned 10 (s.rd Reg.THM_STK_TA 0 st) ∨ 340 ≤ toSigned 10 (s.rd Reg.THM_STK_TB 0 st) then 1 else 0) ∧
      t.larder = s.larder ∧ RegsKeep s t [Reg.MEM_HOT.key st 0])) ∧
    (∀ a, badAddr a = false → stackOf a = st → (s.stack st).out = false → (∀ i < 8, SMap.find s.lerr (a / 256 * 8 + i) = none) →
      Completes (.patrolScrub a []) s (fun t => t.larder = s.larder ∧ t.lerr = s.lerr ∧ RegsKeep s t [])) ∧
    (∀ ch pin, ch < 8 → pin < 288 →
      let recent := (lastMinute s.timeUs (SMap.get [] (s.stack st).pins (ch * 512 + pin))).length
      (recent ≤ s.rd Reg.MEM_LANE_LIM st → exec (.laneRepair st ch pin) s = .next s) ∧
      (s.rd Reg.MEM_LANE_LIM st < recent → s.spareUsed st true ch < 2 →
        exec (.laneRepair st ch pin) s = .next (s.answer (
          let x := (s.setStack st { s.stack st with pins := SMap.del (s.stack st).pins (ch * 512 + pin) }).logRepair st
            ⟨true, ch, pin, s.spareUsed st true ch⟩
          (x.wr Reg.MEM_LANE_FREE st 0 (x.rd Reg.MEM_LANE_FREE st - 1)).occur (0x40 + st) 2 none ch)))) ∧
    (∀ a, badAddr a = false → stackOf a = st → s.lerr = [] →
      let recent := (lastMinute s.timeUs (SMap.get [] (s.stack st).rows (rowKey a))).length
      (recent ≤ s.rd Reg.MEM_ROW_LIM st → exec (.rowRepair a) s = .next s) ∧
      (s.rd Reg.MEM_ROW_LIM st < recent → s.spareUsed st false (layerOf a * 16 + bankOf a) < 4 →
        exec (.rowRepair a) s = .next (s.answer (
          let x := (s.setStack st { s.stack st with rows := SMap.del (s.stack st).rows (rowKey a) }).logRepair st
            ⟨false, layerOf a * 16 + bankOf a, rowOf a, s.spareUsed st false (layerOf a * 16 + bankOf a)⟩
          (x.wr Reg.MEM_ROW_FREE st 0 (x.rd Reg.MEM_ROW_FREE st - 1)).occur (0x40 + st) 3 none (chanOf a))))) ∧
    (∀ ch, ch < 8 →
      ((s.stack st).out = true → Completes (.channelDown st ch) s (fun t =>
        t.rd Reg.MEM_CH_UP st = clrBit (s.rd Reg.MEM_CH_UP st) ch % 256 ∧ t = { s with regs := t.regs } ∧
        ∀ f i j, f.key i j ≠ Reg.MEM_CH_UP.key st 0 → t.rd f i j = s.rd f i j)) ∧
      ((s.stack st).out = false → exec (.channelDown st ch) s = .next (s.answer (
        (((s.wr Reg.MEM_CH_UP st 0 (clrBit (s.rd Reg.MEM_CH_UP st) ch)).setStack st { s.stack st with out := true }).raise
          (0x40 + st) 5 none ch)))))

/-- Larder serves reads and writes of its regions and is kept up. The model's choices behind it: log entries 7 and 14. -/
def Obligations.LarderService : Prop :=
  Clause.LarderAccesses ∧ Clause.LarderUpkeep

/-- R149, Table 6-5: the first chunk of an EMPTY region starts a landing: FILLING, its tag, one chunk; a chunk of the landed tag changes
no byte; a newer one waits while a read is open, and an older one is refused with LAND_STALE. -/
def Clause.LandingWrites : Prop :=
  ∀ (c a tag r : Nat) (data : List Byte) (d n : Nat) (s : State), s.ready = true → c < 64 → data.length ≤ 65536 → s.lerr = [] →
    s.landRegion c a = .ok r → stackOf a < 12 → r < 64 →
    let w : LandWrite := ⟨c, a, tag, data, .coll d n⟩
    let st := stackOf a
    (s.rd Reg.LR_STATE st r = 0 → s.rd Reg.LR_HASH st r = 0 → 1 < s.rd Reg.LR_LLEN st r → tag < 2 ^ 32 →
      Completes (.landingWrite c a tag data (.coll d n)) s (fun t =>
        t.rd Reg.LR_STATE st r = 1 ∧ t.rd Reg.LR_TAG st r = tag ∧ t.rd Reg.LR_CHUNKS st r = 1 ∧
        (t.landing (64 * st + r)).chunks = [(a - s.regionBase st r) / 65536] ∧
        (∀ j < data.length, t.larder.read (a + j) = data.getD j 0) ∧
        (∀ x, (x < a ∨ a + data.length ≤ x) → t.larder.read x = s.larder.read x) ∧ t.landQ = s.landQ ∧
        RegsKeep s t [Reg.LR_STATE.key st r, Reg.LR_TAG.key st r, Reg.LR_CHUNKS.key st r])) ∧
    (s.rd Reg.LR_STATE st r = 2 → s.rd Reg.LR_TAG st r = tag → Completes (.landingWrite c a tag data (.coll d n)) s (fun t =>
      t.larder = s.larder ∧ t.lands = s.lands ∧ t.landQ = s.landQ ∧ RegsKeep s t [])) ∧
    (s.rd Reg.LR_STATE st r = 2 → newer tag (s.rd Reg.LR_TAG st r) = true → tag < 2 ^ 32 → s.rd Reg.LR_TAG st r < 2 ^ 32 →
      s.rd Reg.LR_READERS st r ≠ 0 → Completes (.landingWrite c a tag data (.coll d n)) s (fun t =>
        t.larder = s.larder ∧ t.lands = s.lands ∧ t.landQ = s.landQ ++ [w] ∧ t.rd Reg.LR_LWAIT st r = 1 ∧
        RegsKeep s t [Reg.LR_LWAIT.key st r])) ∧
    (s.rd Reg.LR_STATE st r ≠ 0 → newer (s.rd Reg.LR_TAG st r) tag = true → exec (.landingWrite c a tag data (.coll d n)) s =
      .next (s.answer (s.raise (0x40 + st) 8 (some c) 0)))

/-- R149, R152: a waiting landing write starts its landing once no read of the region is open; a tag-checked FETCH opens once every
region that it reads is LANDED at the context's step; a held landing of a sealed context lands where the manifest lists its digest, and goes to BAD with
INGEST_BAD where it does not. -/
def Clause.LandingsProceed : Prop :=
  ∀ s : State, s.ready = true →
    (∀ k w r d n, s.landQ[k]? = some w → w.writer = .coll d n → s.slot d n = none → s.lerr = [] → s.landRegion w.ctx w.addr = .ok r → stackOf w.addr < 12 → r < 64 →
      let st := stackOf w.addr
      s.rd Reg.LR_STATE st r = 2 → newer w.tag (s.rd Reg.LR_TAG st r) = true → w.tag < 2 ^ 32 → s.rd Reg.LR_TAG st r < 2 ^ 32 →
      s.rd Reg.LR_HASH st r = 0 → 1 < s.rd Reg.LR_LLEN st r →
      (s.rd Reg.LR_READERS st r = 0 → Completes (.landingResume k) s (fun t =>
        t.rd Reg.LR_STATE st r = 1 ∧ t.rd Reg.LR_TAG st r = w.tag ∧ t.rd Reg.LR_CHUNKS st r = 1 ∧ t.landQ = s.landQ.eraseIdx k ∧
        (∀ j < w.data.length, t.larder.read (w.addr + j) = w.data.getD j 0) ∧
        ∀ x, (x < w.addr ∨ w.addr + w.data.length ≤ x) → t.larder.read x = s.larder.read x)) ∧
      (s.rd Reg.LR_READERS st r ≠ 0 → Completes (.landingResume k) s (fun t => t.larder = s.larder ∧ t.landQ = s.landQ ∧
        RegsKeep s t [Reg.LR_LWAIT.key st r]))) ∧
    (∀ t k i m, t < 176 → s.moveAt t 0 k = some (i, m) → m.opened = false →
      let ready := s.tagReady m.ctx (fetchRanges (((s.tile t).stage.map (fun st => st.fmts)).getD []) m.words)
      (∀ rs, ready = some rs → Completes (.tagReadOpen t k) s (fun u =>
        u.moves = s.moves.set i { m with opened := true, regions := rs } ∧
        (∀ rk ∈ rs, u.rd Reg.LR_READERS (rk / 64) (rk % 64) = s.rd Reg.LR_READERS (rk / 64) (rk % 64) + 1) ∧
        ∀ f a b, f.key a b ∉ rs.map (fun rk => Reg.LR_READERS.key (rk / 64) (rk % 64)) → u.rd f a b = s.rd f a b)) ∧
      (ready = none → exec (.tagReadOpen t k) s = .next s)) ∧
    (∀ st n, st < 12 → n < 64 → (s.landing (64 * st + n)).held = true →
      let x := s.setLanding (64 * st + n) { s.landing (64 * st + n) with held := false }
      let listed := (SMap.find s.sec.sealed (s.partOfStack st)).any (fun i => i.shards.any (fun sh =>
        sh.digest == (s.landing (64 * st + n)).digest && (s.landing (64 * st + n)).shard.all (fun k => sh.no == k)))
      (listed = true → exec (.ingestMatch st n) s = .next (x.wr Reg.LR_STATE st n 2)) ∧
      (listed = false → s.isSealed (s.partOfStack st) = true → exec (.ingestMatch st n) s =
        .next (s.answer ((x.wr Reg.LR_STATE st n 3).raise (0x40 + st) 9 (some (s.rd Reg.LR_CTX st n)) 0))))

/-- Landing writes are taken, held or refused by their region, and proceed. The model's choices behind it: log entry 14. -/
def Obligations.LandingsOfLarder : Prop :=
  Clause.LandingWrites ∧ Clause.LandingsProceed

/-- R160, R162: the records of a context's list whose gradient region is LANDED at the context's step in a TRAIN step, by a landing that
has triggered none yet, are triggered together, in ascending index; a well-formed one joins the queue of an engine that runs another
record, and a malformed one raises UPDATE_DESC. A record that is not triggered so leaves everything as it is. -/
def Clause.StarchTriggers : Prop :=
  ∀ (st c k : Nat) (s : State), s.ready = true → st < 12 → c < 64 →
    let w := s.recWords st c k
    let x := s.starchAt st
    let key := 64 * st + wfield w 5 5 0
    let fired := s.setLanding key { s.landing key with fired := true }
    ((s.triggers st c k = false ∨ s.rd Reg.STC_NREC st (c % 16) ≤ k) → exec (.starchTrigger st c k) s = .next s) ∧
    (s.triggers st c k = true → s.rd Reg.CTX_EXEC_MODE c = 0 ∧ s.rd Reg.CTX_EXEC_STEP_BUSY c = 1 ∧ recEn w = true ∧
      w.getD 13 0 ≠ s.rd Reg.CTX_STEP_NUM c ∧ s.rd Reg.LR_STATE st (wfield w 5 5 0) = 2 ∧
      s.rd Reg.LR_TAG st (wfield w 5 5 0) = s.rd Reg.CTX_STEP_NUM c ∧ (s.landing key).fired = false) ∧
    (s.partOfStack st = partOfCtx c → k < s.rd Reg.STC_NREC st (c % 16) → (s.stack st).out = false → s.triggers st c k = true →
      exec (.starchTrigger st c k) s =
        .next (s.answer (((s.trigSet st c k).foldl (fun y j => y.trigRecord st c j) fired).starchNext st)) ∧
      (s.trigSet st c k = [k] → s.lerr = [] → s.larderCheck c 1 80 (s.recAddr st c k) 64 = none →
        (s.recOk st c w = true → wfield w 15 31 31 = 0 → x.run.isSome = true → Completes (.starchTrigger st c k) s (fun t =>
          (t.starchAt st).queue = x.queue ++ [(c, k, s.rd Reg.CTX_STEP_NUM c)] ∧ (t.starchAt st).run = x.run ∧
          t.rd Reg.STC_QUEUED st = min 255 (x.queue.length + 1) ∧ t.larder = s.larder ∧ (t.landing key).fired = true ∧
          RegsKeep s t [Reg.STC_QUEUED.key st 0])) ∧
        (s.recOk st c w = false → exec (.starchTrigger st c k) s = .next (s.answer
          (((fired.recRead st c k).1.raise (0x50 + st) 1 (some c) k).starchNext st)))))

/-- R161, R165: a batch that an engine may run takes its inputs, writes the new values of its outputs, then the record's progress (or,
with the last batch, DONE_STEP), lands the copies that are complete, and counts its elements; STARCH_NAN is raised once for each element
with a NaN among its results, the copy's included. An engine with nothing to run stays as it is. -/
def Clause.StarchBatches : Prop :=
  ∀ (st : Nat) (s : State), s.ready = true → st < 12 →
    ((s.starchAt st).run = none → (s.starchAt st).queue = [] → exec (.starchBatch st) s = .next s) ∧
    (∀ (r : StarchRun) (x : State) (wb m1b m2b gb : List Byte), (s.starchAt st).run = some r → s.isFenced (0x50 + st) 0 = false →
      s.starchHeld st = false → (s.stack st).out = false → s.rd Reg.FLT_HALTED ≠ 1 → s.mayWork (0x50 + st) 0 r.ctx = true →
      let w := r.words
      let b := r.batch
      let n := min 4096 (w.getD 1 0 - 4096 * b)
      let m := (s.ruleMasks st (wfield w 0 2 0)).getD (0, 0)
      s.getAll r.ctx ([0, 1, 2].map (fun i => (w.getD (2 + i) 0 * 256 + 16384 * b, if bit m.1 i = 1 then 4 * n else 0))
        ++ [(s.regionBase st (wfield w 5 5 0) + 4096 * b * recGsize w, if bit m.1 3 = 1 then n * recGsize w else 0)])
        = (x, some [wb, m1b, m2b, gb]) →
      let es := (List.range n).map (fun i => x.ruleApply st r (4096 * b + i)
        ⟨(f32s wb).getD i 0, (f32s m1b).getD i 0, (f32s m2b).getD i 0, (gradVals w gb).getD i 0⟩)
      let put := fun (y : State) (i : Nat) (vals : List Nat) =>
        if bit m.2 i = 1 then y.larderPutFor r.ctx (w.getD (2 + i) 0 * 256 + 16384 * b) (vals.flatMap (leBytes 4)) else y
      let nan := fun i v => bit m.2 i == 1 && (f32 v).isNan
      let y := put (put (put x 0 (es.map Elem.w)) 1 (es.map Elem.m1)) 2 (es.map Elem.m2)
      let cn := if bit m.2 3 = 1 then y.copyNans r.ctx r.step w b (es.map Elem.w) else []
      let nans := ((es.mapIdx (fun i e => nan 0 e.w || nan 1 e.m1 || nan 2 e.m2 || cn.getD i false)).filter id).length
      let y := (List.range nans).foldl (fun (y : State) _ => y.raise (0x50 + st) 3 (some r.ctx) r.ix) y
      let a := y.recAddr st r.ctx r.ix
      let y := if b + 1 = recBatches w then y.larderPutFor r.ctx (a + 52) (leBytes 4 r.step ++ leBytes 4 0 ++ leBytes 4 b)
        else y.larderPutFor r.ctx (a + 56) (leBytes 4 (b + 1) ++ leBytes 4 b)
      let bytes := if bit m.2 3 = 1 then y.copyOf r.ctx r.step w b (es.map Elem.w) else []
      let y := (y.setStarch st { y.starchAt st with run := some { r with
        batch := b + 1, copy := bytes.foldl (fun q z => SMap.put q z.1 z.2) r.copy } }).landCopies st
      let y := ((y.progress (0x50 + st) 1).count (0x50 + st) 0 n).count (0x50 + st) 3 nans
      exec (.starchBatch st) s = .next (s.answer (
        if b + 1 = recBatches w then
          (((y.setStarch st { y.starchAt st with run := none }).wr Reg.STC_BUSY st 0 0).count (0x50 + st) 2 1).starchNext st
        else y)))

/-- R169: LOAD of a well-formed user rule into a user slot that no step uses begins loading; a built-in slot refuses it; a load that ends
well makes the slot valid with the rule's length, and one that fails raises RULE_BAD. -/
def Clause.RuleLoads : Prop :=
  ∀ (ag : Agent) (st : Nat) (s : State), s.ready = true → st < 12 →
    (s.mayWrite ag (0x50 + st) = true →
      let img := s.staging.readBytes (s.rd Reg.STC_RULE_SRC st * 64) (s.rd Reg.STC_RULE_LEN st)
      (s.rd Reg.STC_SLOT st < 4 → Completes (.ruleLoad ag st) s (fun t =>
        t.rd Reg.STC_REFUSED st = 1 ∧ RegsOnly s t [Reg.STC_REFUSED.key st 0])) ∧
      (4 ≤ s.rd Reg.STC_SLOT st → inStagePart (s.partOfStack st) (s.rd Reg.STC_RULE_SRC st * 64) (s.rd Reg.STC_RULE_LEN st) = true →
        ruleOk img = true → s.ruleInUse st (s.rd Reg.STC_SLOT st) = false → Completes (.ruleLoad ag st) s (fun t =>
          t.rd Reg.STC_REFUSED st = 0 ∧ t.rd Reg.STC_STATE st = 1 ∧ (t.starchAt st).image = img ∧
          (t.starchAt st).target = s.rd Reg.STC_SLOT st ∧ (t.starchAt st).rules = (s.starchAt st).rules ∧
          ∀ f i j, f.key i j ∉ [Reg.STC_REFUSED.key st 0, Reg.STC_STATE.key st 0] → t.rd f i j = s.rd f i j))) ∧
    (s.rd Reg.STC_STATE st = 1 → (s.starchAt st).target < 8 → Completes (.ruleLoadDone st true) s (fun t =>
      t.rd Reg.STC_STATE st = 2 ∧ t.rd Reg.STC_RSLOT_VALID st (s.starchAt st).target = 1 ∧
      SMap.find (t.starchAt st).rules (s.starchAt st).target = some (s.starchAt st).image ∧
      ∀ f i j, f.key i j ∉ [Reg.STC_STATE.key st 0, Reg.STC_RSLOT_VALID.key st (s.starchAt st).target,
        Reg.STC_RSLOT_NINS.key st (s.starchAt st).target] → t.rd f i j = s.rd f i j)) ∧
    (s.rd Reg.STC_STATE st = 1 → exec (.ruleLoadDone st false) s = .next (s.answer (
      ((s.setStarch st { s.starchAt st with image := [], target := 0 }).wr Reg.STC_STATE st 0 3).raise (0x50 + st) 0 none
        (s.starchAt st).target)))

/-- Starch records trigger, run their batches and load their rules. The model's choices behind it: log entry 14. -/
def Obligations.StarchUpdates : Prop :=
  Clause.StarchTriggers ∧ Clause.StarchBatches ∧ Clause.RuleLoads

/-! ### Trinal links -/

/-- R175, R176: a laser reading between LP_WARN and +22.0 dBm is shown in LP and raises nothing, one below LP_WARN raises LASER_LOW; light
below LP_MIN for 1 ms takes the port to NOLASER with LASER_LOST, and light at or above LP_WARN for 100 ms brings it back to DARK. -/
def Clause.LaserLight : Prop :=
  ∀ (k : Nat) (s : State), s.ready = true → k < 16 →
    (∀ lp, lp < 1024 → s.powered (lnkPage k) = true →
      (toSigned 10 (s.rd Reg.LNK_LP_WARN k) ≤ toSigned 10 lp → toSigned 10 lp ≤ 220 → Completes (.laserMeasure k lp) s (fun t =>
        t.rd Reg.LNK_LP k = lp ∧ t.ports = s.ports ∧ ∀ f i j, f.key i j ≠ Reg.LNK_LP.key k 0 → t.rd f i j = s.rd f i j)) ∧
      (toSigned 10 lp < toSigned 10 (s.rd Reg.LNK_LP_WARN k) → toSigned 10 lp ≤ 220 → exec (.laserMeasure k lp) s =
        .next (s.answer (((s.wr Reg.LNK_LP k 0 lp).laserNote (k % 8)).raise (lnkPage k) 8 none 0)))) ∧
    (s.lpLow k = true → s.lnk k ≠ 0 → s.lnk k ≠ 10 →
      exec (.laserLoss k) s = .next (s.answer ((s.setLnk k 10).raise (lnkPage k) 9 none 0))) ∧
    (s.lpLow k = false → exec (.laserLoss k) s = .next s) ∧
    (s.lnk k = 10 → toSigned 10 (s.rd Reg.LNK_LP_WARN k) ≤ toSigned 10 (s.rd Reg.LNK_LP k) → Completes (.laserRestore k) s (fun t =>
      t.lnk k = 1 ∧ t.ports = s.ports ∧ ∀ f i j, f.key i j ≠ Reg.LNK_STATE.key k 0 → t.rd f i j = s.rd f i j)) ∧
    (s.lnk k ≠ 10 → exec (.laserRestore k) s = .next s)

/-- Step `n` of a sequence table is there and has a listed operation, Table 7-6. -/
def StepOk (tb : SeqTable) (n : Nat) : Prop := n < 256 ∧ ∃ x, tb.steps[n]? = some x ∧ 1 ≤ x.op ∧ x.op ≤ 11

/-- R189, R198: EN = 1 takes an OFF port to DARK or NOLASER, EN = 0 is refused while the port carries an open circuit and otherwise
turns it OFF; RETRY brings an unfenced failed port to DARK; RETRAIN of an UP port begins at the retrain entry within RETRAIN_LIM; LOOP = 1 is
taken only with the variant strap at 1. -/
def Obligations.LinkControls : Prop :=
  ∀ (ag : Agent) (k : Nat) (s : State), s.ready = true → k < 16 → s.mayWrite ag (0x30 + k) = true →
    let keeps := fun (t : State) (ks : List Nat) => ∀ f i j, f.key i j ∉ ks → t.rd f i j = s.rd f i j
    (s.powered (lnkPage k) = true → s.lnk k = 0 → (12 ≤ k → s.rd Reg.GLB_STRAP_STRAP_BAD ≠ 1) → Completes (.lnkEn ag k 1) s (fun t =>
      t.rd Reg.LNK_EN k = 1 ∧ t.lnk k = (if s.lpLow k then 10 else 1) ∧ keeps t [Reg.LNK_EN.key k 0, Reg.LNK_STATE.key k 0])) ∧
    (s.powered (lnkPage k) = true → s.portOpen k = true → Completes (.lnkEn ag k 0) s (fun t =>
      t.rd Reg.LNK_REFUSED k = 1 ∧ RegsOnly s t [Reg.LNK_REFUSED.key k 0])) ∧
    (s.powered (lnkPage k) = true → s.portOpen k = false → s.lnk k ≠ 4 → s.lnk k ≠ 5 → Completes (.lnkEn ag k 0) s (fun t =>
      t.rd Reg.LNK_EN k = 0 ∧ t.lnk k = 0 ∧ t.rd Reg.LNK_REFUSED k = 0 ∧
      keeps t [Reg.LNK_EN.key k 0, Reg.LNK_STATE.key k 0, Reg.LNK_REFUSED.key k 0, Reg.LNK_REMOTE_DOWN.key k 0])) ∧
    (s.isFenced (lnkPage k) 0 = true → Completes (.retry ag k) s (fun t =>
      t.rd Reg.LNK_REFUSED k = 1 ∧ RegsOnly s t [Reg.LNK_REFUSED.key k 0])) ∧
    (s.isFenced (lnkPage k) 0 = false → Completes (.retry ag k) s (fun t =>
      t.rd Reg.LNK_REFUSED k = 0 ∧ t.lnk k = (if 6 ≤ s.lnk k ∧ s.lnk k ≤ 8 then 1 else s.lnk k) ∧
      keeps t [Reg.LNK_REFUSED.key k 0, Reg.LNK_STATE.key k 0])) ∧
    (s.lnk k = 4 → ((s.port k).retrains.filter (fun t => decide (s.timeUs < t + 60000000))).length < s.rd Reg.LNK_RETRAIN_LIM k →
      StepOk s.seqTable s.seqTable.retrain → Completes (.retrain ag k) s (fun t =>
        t.lnk k = 5 ∧ t.rd Reg.LNK_STEP k = s.seqTable.retrain ∧ (t.port k).table = s.seqTable ∧ t.circs = s.circs)) ∧
    (s.lnk k ≠ 4 → Completes (.retrain ag k) s (fun t => RegsOnly s t [])) ∧
    (∀ v < 2, s.rd Reg.GLB_STRAP_VAR = 1 ∨ v = 0 → Completes (.loop ag k v) s (fun t =>
      t.rd Reg.LNK_LOOP k = v ∧ RegsOnly s t [Reg.LNK_LOOP.key k 0]))

/-- R187, R200: with the light of all eight lanes above the release level a DARK port begins the training sequence of the table in force;
with all eight below −14.0 dBm a training port goes to DARK, and one in HELD, UP, RETRAIN or LOOPBACK does so with SIGNAL_LOST. -/
def Clause.ReceivedLight : Prop :=
  ∀ (k : Nat) (p : List Nat) (s : State), s.ready = true → k < 16 → p.length = 8 →
    (s.lnk k = 1 → (∀ v ∈ p, v < 1024 ∧ -120 < toSigned 10 v) → StepOk s.seqTable s.seqTable.train →
      Completes (.signalDetect k p) s (fun t =>
        t.lnk k = 2 ∧ t.rd Reg.LNK_STEP k = s.seqTable.train ∧ t.rd Reg.LNK_SEQ_VER k = s.seqTable.ver % 2 ^ 16 ∧
        t.rd Reg.LNK_LOS_LANES k = 0 ∧ (t.port k).table = s.seqTable)) ∧
    ((∀ v ∈ p, v < 1024 ∧ toSigned 10 v < -140) →
      (s.lnk k = 2 → Completes (.lossOfSignal k p) s (fun t => t.lnk k = 1 ∧ t.rd Reg.LNK_LOS_LANES k = 255)) ∧
      (s.lnk k = 3 ∨ s.lnk k = 4 ∨ s.lnk k = 5 ∨ s.lnk k = 9 →
        exec (.lossOfSignal k p) s = .next (s.answer (((s.rxPower k p).setLnk k 1 true).raise (lnkPage k) 5 none 0))))

/-- Laser light and received light move a Trinal port between its states. The model's choices behind it: log entry 15. -/
def Obligations.LinkLight : Prop :=
  Clause.LaserLight ∧ Clause.ReceivedLight

/-- Port `k` trains, and its step is `x`. -/
def TrainsIn (s : State) (k op : Nat) (x : SeqStep) : Prop :=
  k < 16 ∧ (s.lnk k = 2 ∨ s.lnk k = 5) ∧ (s.port k).table.steps[s.rd Reg.LNK_STEP k]? = some x ∧ x.op = op

/-- It does, and the step after it is there and has a listed operation. -/
def TrainsAt (s : State) (k op : Nat) (x : SeqStep) : Prop :=
  TrainsIn s k op x ∧ StepOk (s.port k).table (s.rd Reg.LNK_STEP k + 1)

/-- The training sequence has gone to step `n`, and no register but STEP and those at the places `ks` has changed. -/
def GoesTo (s t : State) (k n : Nat) (ks : List Nat) : Prop :=
  t.rd Reg.LNK_STEP k = n ∧ ∀ f i j, f.key i j ∉ Reg.LNK_STEP.key k 0 :: ks → t.rd f i j = s.rd f i j

/-- R190, Tables 7-5 and 7-6: each step of the training sequence has the effect of its operation and goes on to the next; GOTO goes to the
step of its argument; a step that fails goes to its ONFAIL, or fails the port. -/
def Clause.TrainingSteps : Prop :=
  ∀ (k : Nat) (x : SeqStep) (s : State), s.ready = true →
    let next := fun (t : State) => GoesTo s t k (s.rd Reg.LNK_STEP k + 1) []
    (TrainsAt s k 1 x → Completes (.txPreset k) s (fun t => next t ∧ (t.port k).preset = x.arg % 16)) ∧
    (TrainsAt s k 2 x → Completes (.txPattern k) s (fun t => next t ∧ (t.port k).pattern = x.arg % 4)) ∧
    (TrainsAt s k 3 x → Completes (.waitLock k 255) s next) ∧
    (TrainsIn s k 3 x → ∀ n < 255, exec (.waitLock k n) s = .next s) ∧
    (TrainsAt s k 4 x → Completes (.adapt k) s next) ∧
    (TrainsAt s k 5 x → ∀ errs : List Nat, (∀ e ∈ errs, e ≤ x.arg / 65536) → Completes (.checkBer k errs) s next) ∧
    (TrainsIn s k 5 x → ∀ errs : List Nat, (∃ e ∈ errs, x.arg / 65536 < e) → StepOk (s.port k).table x.onfail → x.onfail ≠ 255 →
      Completes (.checkBer k errs) s (fun t => GoesTo s t k x.onfail [])) ∧
    (TrainsAt s k 6 x → ∀ order : List Nat, Completes (.fecLock k order) s (fun t =>
      GoesTo s t k (s.rd Reg.LNK_STEP k + 1) [Reg.LNK_LANE_MAP.key k 0, Reg.LNK_LANE_PERM.key k 0] ∧
      ∀ l < 8, t.rd Reg.LNK_LANE_MAP k / 8 ^ l % 8 = order.getD l 0 % 8)) ∧
    (TrainsAt s k 7 x → Completes (.peerSync k (s.rd Reg.LNK_STEP k)) s next) ∧
    (TrainsAt s k 8 x → ∀ ns, ns ≤ x.arg → ns < 2 ^ 16 → Completes (.rtt k ns) s (fun t =>
      GoesTo s t k (s.rd Reg.LNK_STEP k + 1) [Reg.LNK_RTT.key k 0] ∧ t.rd Reg.LNK_RTT k = ns)) ∧
    (TrainsIn s k 10 x → StepOk (s.port k).table (x.arg % 256) → Completes (.goto k) s (fun t => GoesTo s t k (x.arg % 256) [])) ∧
    (TrainsAt s k 11 x → Completes (.delay k) s next) ∧
    (∀ op, TrainsIn s k op x → StepOk (s.port k).table x.onfail → x.onfail ≠ 255 →
      Completes (.seqStepTimeout k) s (fun t => GoesTo s t k x.onfail [])) ∧
    (∀ op, TrainsIn s k op x → x.onfail = 255 → exec (.seqStepTimeout k) s = .next (s.answer (s.linkFailed k))) ∧
    (∀ op, TrainsIn s k op x → exec (.trainTimeout k) s = .next (s.answer (s.linkFailed k)))

/-- IDENT at port `k` with the identity frames received: low and high word and echo of each. -/
def identOf (k : Nat) (blocks : List (Nat × Nat × Nat)) : Instr :=
  .ident k (blocks.map (fun b => b.1)) (blocks.map (fun b => b.2.1)) (blocks.map (fun b => b.2.2))

/-- R192 to R195: the identity accepted is one that stands in three identity frames in a row; while the peer echoes nothing the port
shows it and goes on sending its own. One that fits, with the own identity echoed and a settled version, brings a port in TRAIN with its expectation
in force to UP and one without to HELD, and one in RETRAIN back to UP; one that does not fit goes to MISWIRED, one with no common version to VERSION_MISMATCH. -/
def Clause.IdentityDecides : Prop :=
  ∀ (k lo hi : Nat) (blocks : List (Nat × Nat × Nat)) (x : SeqStep) (s : State), s.ready = true → TrainsIn s k 9 x →
    identAccepted blocks = some (lo, hi) → lo < 2 ^ 32 → hi < 2 ^ 32 →
    (∀ e ∈ s.entriesOn k, s.rd (if e.2 = 0 then Reg.CT_RUN_BG_A else Reg.CT_RUN_BG_B) 0 e.1 = lo / 2 ^ 22) → s.ownIdLo k < 2 ^ 32 → s.rd Reg.LNK_LOOP k ≠ 1 → bits lo 21 20 = s.rd Reg.GLB_STRAP_VAR →
    let inForce := s.rd Reg.LNK_EXP_VALID k = 1 ∧ s.rd Reg.GLB_STRAP_VAR ≠ 1
    let seen := ((s.wr Reg.LNK_PEER_ID_LO k 0 lo).wr Reg.LNK_PEER_ID_HI k 0 hi)
    (blocks.getLast?.map (fun b => b.2.2) = some 0 → s.ownIdLo k ≠ 0 → exec (identOf k blocks) s = .next (s.answer seen)) ∧
    (blocks.getLast?.map (fun b => b.2.2) = some (s.ownIdLo k) →
    (∀ v, s.lnk k = 2 → (inForce → s.expMatches k lo = true) → settleVersion s.ownIdHi hi = some v → Completes (identOf k blocks) s (fun t =>
      (inForce → t.lnk k = 4) ∧ (¬ inForce → t.lnk k = 3) ∧ t.rd Reg.LNK_PEER_ID_LO k = lo ∧ t.rd Reg.LNK_PEER_ID_HI k = hi ∧
      t.rd Reg.LNK_NEG_MAJOR k = v.1 % 16 ∧ t.rd Reg.LNK_NEG_MINOR k = v.2 % 256 ∧
      (t.port k).ctl = LinkClass.fresh 512 ∧ (t.port k).dat = LinkClass.fresh 4096)) ∧
    (∀ v, s.lnk k = 5 → inForce → s.expMatches k lo = true → settleVersion s.ownIdHi hi = some v → exec (identOf k blocks) s =
      .next (s.answer (((seen.wr Reg.LNK_NEG_MAJOR k 0 v.1).wr Reg.LNK_NEG_MINOR k 0 v.2).linkBack k))) ∧
    (inForce → s.expMatches k lo = false → exec (identOf k blocks) s =
      .next (s.answer ((seen.setLnk k 6).raise (lnkPage k) 6 none 0))) ∧
    ((inForce → s.expMatches k lo = true) → settleVersion s.ownIdHi hi = none → exec (identOf k blocks) s =
      .next (s.answer ((seen.setLnk k 7).raise (lnkPage k) 7 none 0))))

/-- The training sequence follows its table and the identity exchange decides its end. The model's choices behind it: log entry 15. -/
def Obligations.LinkTraining : Prop :=
  Clause.TrainingSteps ∧ Clause.IdentityDecides

/-- R178, R180, R182, R183, R196: of a frame whose codewords all decode, the acknowledgements are matched against what the port keeps and
the blocks taken in order; a lost frame drops the data packet that was arriving, and of it only the fields that all lanes share act, as
the lowest lane that decoded gives them; a port without light takes no frame; 4 µs without an acknowledgement sends a class again;
a second within its limits ends with its counts at 0. -/
def Obligations.LinkFrames : Prop :=
  ∀ (k : Nat) (s : State), s.ready = true → k < 16 →
    (∀ ls : List LaneWord, ls.length = 8 → (∀ l ∈ ls, l.wellFormed = true) →
      let good := goodLanes ls
      let x := s.frameErrors k ls
      (s.lnk k < 2 ∨ s.lnk k = 8 ∨ s.lnk k = 10 → exec (.frameReceive k ls) s = .next s) ∧
      (2 ≤ s.lnk k → s.lnk k ≤ 7 → frameLost good = true → exec (.frameReceive k ls) s = .next (s.answer (
        let x := x.setPort k { x.port k with part := none }
        (sharedLane good).elim x (fun g => x.frameShared k g)))) ∧
      (∀ g, s.lnk k = 4 → x.lnk k = 4 → frameLost good = false → sharedLane good = some g → bits (g.t 0) 7 4 = 0 →
        exec (.frameReceive k ls) s = .next (s.answer (
          let x := (x.count (lnkPage k) 1 1).frameAcks k g
          let due := (x.port k).dat.rx + (if (x.port k).part.isSome then 1 else 0)
          let x := x.setPort k { x.port k with
            ctl := { (x.port k).ctl with nak := (x.port k).ctl.nak || newer16 (g.t 3 % 65536) (x.port k).ctl.rx }
            dat := { (x.port k).dat with nak := (x.port k).dat.nak || newer16 (g.t 3 / 65536) due } }
          x.takeBlocks k (bits (g.t 2) 13 6) (g.t 3 % 65536) (g.t 3 / 65536) (frameBlocks good))))) ∧
    (∀ data, s.lnk k = 4 → (if data then (s.port k).dat else (s.port k).ctl).restart.isSome = true →
      exec (.replayTimeout k data) s = .next (s.answer (s.linkRestart k data))) ∧
    (∀ data, s.lnk k ≠ 4 → exec (.replayTimeout k data) s = .next s) ∧
    ((∀ l < 8, SMap.get 0 (s.port k).syms l ≤ s.rd Reg.LNK_SYM_WARN k ∧ SMap.get 0 (s.port k).nears l ≤ s.rd Reg.LNK_NEAR_LIM k) →
      Completes (.errorWindow k) s (fun t =>
        (t.port k).ucw = 0 ∧ (t.port k).syms = [] ∧ (t.port k).nears = [] ∧ (t.port k).ctl = (s.port k).ctl ∧ t.regs = s.regs)) ∧
    (∀ l < 8, s.rd Reg.LNK_SYM_WARN k < SMap.get 0 (s.port k).syms l →
      (∀ m < 8, m ≠ l → SMap.get 0 (s.port k).syms m ≤ s.rd Reg.LNK_SYM_WARN k ∧ SMap.get 0 (s.port k).nears m ≤ s.rd Reg.LNK_NEAR_LIM k) →
      exec (.errorWindow k) s = .next (s.answer (
        (s.setPort k { s.port k with ucw := 0, syms := [], nears := [] }).raise (lnkPage k) 1 none l)))

/-! ### Circuits -/

/-- R208, R213 to R215, R220 to R223: a packet for an up forwarding entry leaves on the other side with that side's CID; one without an
entry is dropped with NO_ENTRY; a new numbered packet on the right path, generation and claim is held at its endpoint, and the oldest held
packet of a class, once ordering allows, is taken: its number becomes CLAST or DLAST and its link credit is given back. -/
def Obligations.CircuitPackets : Prop :=
  ∀ s : State, s.ready = true →
    (∀ k p d, k < 16 → p.wellFormed = true → p.typ ∈ [0, 1, 2, 3, 4, 5, 6, 8] → d < 2 → s.isForward p.cid = true → s.sidePort p.cid d = k → s.sidePort p.cid (1 - d) < 16 →
      s.sidePort p.cid (1 - d) ≠ k → s.sideUp p.cid 0 = true → s.sideUp p.cid 1 = true →
      s.bridgeDown (dieOfPort k) (dieOfPort (s.sidePort p.cid (1 - d))) = false → s.lnk (s.sidePort p.cid (1 - d)) = 4 →
      let out := s.sidePort p.cid (1 - d)
      let q := p.setCid (s.sideCid p.cid (1 - d))
      Completes (.packetForward k p) s (fun t =>
        t.port out = (if p.isData then { s.port out with dat := (s.port out).dat.accept q true }
          else { s.port out with ctl := (s.port out).ctl.accept q true }) ∧
        (t.port k).dat.freed = (if p.isData then ((s.port k).dat.freed + p.units) % 65536 else (s.port k).dat.freed) ∧
        (t.port k).ctl.freed = (if p.isData then (s.port k).ctl.freed else ((s.port k).ctl.freed + 1) % 65536) ∧
        (∀ j, j ≠ k → j ≠ out → t.port j = s.port j) ∧ RegsKeep s t [Reg.BR_FLITS.key (dieOfPort k) (dieOfPort out)])) ∧
    (∀ k p, k < 16 → p.wellFormed = true → p.typ ∈ [0, 1, 2, 3, 4, 5, 6, 8] → s.isEndpoint p.cid = false → s.isForward p.cid = false →
      exec (.packetForward k p) s = .next (s.answer (((s.freeCredit k p).count cirPage 3 1).raise cirPage 0 none p.cid))) ∧
    (∀ k p, k < 16 → p.wellFormed = true → s.isEndpoint p.cid = true → (p.typ = 0 ∨ p.typ = 8) → p.path ∈ s.pathsOf p.cid →
      s.sidePort p.cid p.path = k → s.sideUp p.cid p.path = true → ((s.circ p.cid).path' p.path).rejoin = false →
      p.gen = s.rd Reg.CT_GEN 0 p.cid → p.claim = s.sideClaim p.cid p.path → 1 ≤ s.cirState p.cid → s.cirState p.cid ≤ 3 →
      s.rd Reg.CT_SEALED 0 p.cid ≠ 1 → p.echk = p.echkOf → newer p.seq (s.lastTaken p.cid p.isData) = true →
      Completes (.packetReceive k p) s (fun t =>
        (t.circ p.cid).heldD = (if p.isData then holdIn ⟨k, p⟩ (s.circ p.cid).heldD else (s.circ p.cid).heldD) ∧
        (t.circ p.cid).heldC = (if p.isData then (s.circ p.cid).heldC else holdIn ⟨k, p⟩ (s.circ p.cid).heldC) ∧
        p.seq ∉ (t.circ p.cid).gaps p.isData ∧
        (∀ e, e ≠ p.cid → t.circ e = s.circ e) ∧ t.ports = s.ports ∧ t.regs = s.regs)) ∧
    (∀ e data, e < 1024 → s.mayDeliver e data = none → exec (.packetDeliver e data) s = .next s) ∧
    (∀ e data h, e < 1024 → s.mayDeliver e data = some h →
      let x := s.setCirc e (if data then { s.circ e with heldD := (s.circ e).heldD.drop 1 }
        else { s.circ e with heldC := (s.circ e).heldC.drop 1 })
      let x := x.wr (if data then Reg.CT_RUN_DLAST else Reg.CT_RUN_CLAST) 0 e h.pkt.seq
      let x := ((x.freeCredit h.port h.pkt).count cirPage 1 1).rejoinCheck e
      exec (.packetDeliver e data) s = .next (s.answer (if data then x.dataIn e h.pkt else x.engineIn e h.pkt.pay)))

/-- R217, R218, R232, Table 8-7: an OPEN that matches on every path takes OPENING to OPEN and one that differs breaks the circuit; a
circuit still OPENING at OPEN_TMO breaks; CLOSE_GO drains, a CLOSE closes, a QUIET on every path or QUIET_TMO ends the draining, and a
RESET_NOTICE breaks. -/
def Clause.CircuitsOpenAndClose : Prop :=
  ∀ (e : Nat) (s : State), s.ready = true → e < 1024 →
    let st := s.cirState e
    (∀ path pay, path < 2 → st = 1 ∨ st = 2 → pay % 2 ^ 45 ≠ s.openPay e 0 →
      exec (.openCircuit e path pay) s = .next (s.answer (s.breakCir e 5))) ∧
    (∀ pay, st = 1 → pay % 2 ^ 45 = s.openPay e 0 → bit pay 45 = 1 → s.rd Reg.CT_TWIN 0 e ≠ 1 → s.evq.length < 256 →
      Completes (.openCircuit e 0 pay) s (fun t =>
        t.cirState e = 2 ∧ t.evq = s.evq ++ [⟨e, 1, 0, s.evLost⟩] ∧ t.ports = s.ports ∧ (t.circ e).a.opened = true)) ∧
    (∀ path pay, path < 2 → st ≠ 1 → st ≠ 2 → exec (.openCircuit e path pay) s = .next s) ∧
    (s.isEndpoint e = true → st = 1 → exec (.openResend e) s = .next (s.sendMgmtAll e 1 (s.openPay e 0))) ∧
    (st ≠ 1 → exec (.openResend e) s = .next s ∧ exec (.openTmo e) s = .next s) ∧
    (s.isEndpoint e = true → st = 1 → exec (.openTmo e) s = .next (s.answer (s.breakCir e 6))) ∧
    (∀ ag, s.mayWrite ag 0x00C = true →
      (s.isEndpoint e = true → st = 2 ∨ st = 3 → Completes (.closeGo ag e) s (fun t =>
        t.cirState e = 4 ∧ (t.circ e).heldC = [] ∧ (t.circ e).heldD = [] ∧ t.evq = s.evq)) ∧
      (st ≠ 2 → st ≠ 3 → Completes (.closeGo ag e) s (fun t => RegsOnly s t []))) ∧
    (st = 2 ∨ st = 3 → s.evq.length < 256 → Completes (.close e) s (fun t =>
      t.cirState e = 5 ∧ (t.circ e).heldC = [] ∧ (t.circ e).heldD = [] ∧ t.evq = s.evq ++ [⟨e, 5, 0, s.evLost⟩])) ∧
    (s.rd Reg.CT_TWIN 0 e ≠ 1 → s.evq.length < 256 → Completes (.quiet e 0) s (fun t =>
      t.cirState e = (if st = 4 then 5 else st) ∧ (t.circ e).a.quiet = true ∧
      t.evq = s.evq ++ (if st = 4 then [⟨e, 5, 0, s.evLost⟩] else []))) ∧
    (s.isEndpoint e = true → st = 4 → s.evq.length < 256 → Completes (.quietTmo e) s (fun t =>
      t.cirState e = 5 ∧ t.evq = s.evq ++ [⟨e, 5, 0, s.evLost⟩])) ∧
    (st ≠ 4 → exec (.quietTmo e) s = .next s) ∧
    (1 ≤ st → st ≤ 3 → exec (.resetNotice e) s = .next (s.answer (s.breakCir e 1))) ∧
    (4 ≤ st ∨ st = 0 → exec (.resetNotice e) s = .next s)

/-- R227, R229, R234: a PATH_DOWN on one of two up paths takes OPEN to DEGRADED with PATH_LOST, and one on a path that is down changes no
register; a REJOIN whose marks are reached brings its path up; it is sent again until a packet of the new claim is heard; a read of
CIR_EVQ gives its head and removes it. -/
def Clause.PathsAndEvents : Prop :=
  ∀ (e : Nat) (s : State), s.ready = true → e < 1024 →
    (∀ path pay, path < 2 →
      let x := s.setCirc e { s.circ e with lost := some (pay % 65536) }
      (s.sideUp e path = false → ((s.circ e).path' path).rejoin = false → exec (.pathDown e path pay) s = .next x) ∧
      (s.sideUp e path = true → (1 - path) ∈ s.pathsOf e → s.sideUp e (1 - path) = true → s.cirState e = 2 →
        exec (.pathDown e path pay) s = .next (s.answer (
          let y := (x.setSide e path false).onPath e path (fun q => { q with rejoin := false, opened := false, marks := none })
          ((((y.cirEvent e 2 path).raise cirPage 5 (some (s.cirCtx e)) e).setCirState e 3).drainCheck e))))) ∧
    (∀ path pay, path < 2 → path ∈ s.pathsOf e → ((s.circ e).path' path).rejoin = true → ((s.circ e).path' (1 - path)).marks = none →
      s.evq.length < 256 →
      (newer (pay % 2 ^ 32) (s.rd Reg.CT_RUN_CLAST 0 e) = false → newer (pay / 2 ^ 32) (s.rd Reg.CT_RUN_DLAST 0 e) = false →
        Completes (.rejoin e path pay) s (fun t =>
          t.sideUp e path = true ∧ ((t.circ e).path' path).rejoin = false ∧ t.evq = s.evq ++ [⟨e, 3, path, s.evLost⟩])) ∧
      (newer (pay % 2 ^ 32) (s.rd Reg.CT_RUN_CLAST 0 e) = true ∨ newer (pay / 2 ^ 32) (s.rd Reg.CT_RUN_DLAST 0 e) = true →
        Completes (.rejoin e path pay) s (fun t =>
          ((t.circ e).path' path).marks = some (pay % 2 ^ 32, pay / 2 ^ 32) ∧ t.regs = s.regs ∧ t.evq = s.evq))) ∧
    (∀ path pay, path < 2 → ((s.circ e).path' path).rejoin = false → exec (.rejoin e path pay) s = .next s) ∧
    (∀ path, path < 2 →
      let q := (s.circ e).path' path
      let p := mgmt 6 (s.sideCid e path) path (s.sideClaim e path + 65536 * s.rd Reg.CT_GEN 0 e) (q.ctl0 + 2 ^ 32 * q.dat0)
      let r := s.portSend (s.sidePort e path) ({ p with words := p.words.set 1 q.s0 } : Packet).sealEchk
      (s.isEndpoint e = true → 0 < q.s0 → q.heard = false → q.rejoin = true ∨ s.sideUp e path = true →
        exec (.rejoinResend e path) s = .next (if r.2 then r.1.count cirPage 7 1 else r.1)) ∧
      (q.heard = true → exec (.rejoinResend e path) s = .next s)) ∧
    (s.powered 0x00C = true →
      (∀ v r, s.evq = v :: r → v.entry < 1024 → v.kind < 8 → v.path < 2 → Completes .evPop s (fun t =>
        t.evq = r ∧ t.rd Reg.CIR_EV_VALID = 1 ∧ t.rd Reg.CIR_EV_ENTRY = v.entry ∧ t.rd Reg.CIR_EV_KIND = v.kind ∧
        t.rd Reg.CIR_EV_PATH = v.path ∧ t.rd Reg.CIR_EV_LOST = (if v.lost then 1 else 0))) ∧
      (s.evq = [] → Completes .evPop s (fun t => t.evq = [] ∧ t.rd Reg.CIR_EV_VALID = 0)))

/-- Circuits open, close and break, and their events are queued. The model's choices behind it: log entry 16. -/
def Obligations.CircuitsAndPaths : Prop :=
  Clause.CircuitsOpenAndClose ∧ Clause.PathsAndEvents

/-! ### Collectives -/

/-- R238, R241, R243: the oldest command that waits at an engine, whichever of the seven operations it is, is judged by the group record
and the tables that it names: one that R241 refuses raises COLL_DESC and ends with status 11; one that it accepts takes the lowest free
slot, which waits in TRIGGER while its fold has not completed, and records its SEQ in the group. Judging it writes no memory. -/
def Clause.CollectiveCommands : Prop :=
  ∀ (d n : Nat) (w : CollWait) (x : Slot) (g sv : List Nat) (y s : State), s.ready = true → d < 4 → s.collHead d = some w → w.ctx < 64 →
    s.isFenced (cePage d) 0 = false → s.rd Reg.PAGE_DRAIN (cePage d) ≠ 1 → s.mayWork (cePage d) 0 w.ctx = true →
    (List.range 16).find? (fun n => (s.slot d n).isNone) = some n →
    s.collPlan d w.ctx w.cser w.words = (y, some (x, g, sv)) →
    (s.lerr = [] → y.larder = s.larder ∧ y.slots = s.slots ∧ y.collWait = s.collWait ∧ RegsKeep s y ((List.range 4).map (fun e =>
      Reg.BR_FLITS.key e 4))) ∧
    ∀ i ∈ [(1, Instr.allReduce d), (2, Instr.reduceScatter d), (3, Instr.allGather d), (4, Instr.allToAll d), (5, Instr.allToAllv d),
        (6, Instr.broadcast d), (7, Instr.circulate d)], wfield w.words 0 3 0 = i.1 →
      (y.collOk x g sv = false → exec i.2 s = .next (s.answer ((y.collRefuse d w).collSkim d y.collWait.length))) ∧
      (y.collOk x g sv = true → s.lerr = [] → y.collWait = [w] → x.bind = false → y.inRegions w.ctx true 80 (x.group + 4) 2 = true →
        y.larderCheck w.ctx 1 80 (x.group + 4) 2 = none → y.dieCut d (x.group + 4) = false →
        (∀ h ∈ y.rooms, ¬ (h.1 / 64 = d ∧ h.2.ctx = w.ctx ∧ h.2.key = x.key)) → x.fwait = true →
        stackOf x.src < 12 → y.rd Reg.MEM_FDONE (stackOf x.src) (w.ctx % 16) ≠ x.words.getD 9 0 →
        newer (y.rd Reg.MEM_FDONE (stackOf x.src) (w.ctx % 16)) (x.words.getD 9 0) = false →
        Completes i.2 s (fun t =>
          t.rd Reg.SL_STATE d n = 1 ∧ t.rd Reg.SL_OP d n = i.1 ∧ t.rd Reg.SL_CTX d n = w.ctx ∧ t.rd Reg.SL_KEY d n = x.key % 2 ^ 32 ∧
          t.slot d n = some x ∧ x.words = w.words ∧ x.ctx = w.ctx ∧ x.cser = w.cser ∧
          (∀ k, k ≠ 16 * d + n → SMap.find t.slots k = SMap.find s.slots k) ∧ t.collWait = [] ∧ t.pantry = s.pantry ∧
          (∀ j < 2, t.larder.read (x.group + 4 + j) = (leBytes 2 (wfield w.words 1 15 0)).getD j 0) ∧
          ∀ a, (a < x.group + 4 ∨ x.group + 6 ≤ a) → t.larder.read a = s.larder.read a))

/-- R243, R244, R246, R250: a triggered slot sends START on every circuit it sends on, and a slot whose trigger is not met does not
change; a START for a key the engine has no slot for waits in the holding room, or raises HOLD_FULL where that is full; a CREDIT is added
to the slot's credit and answers its START, and the last answer lets the slot run; START is sent again where no answer has come. -/
def Clause.CollectiveStart : Prop :=
  ∀ s : State, s.ready = true →
    (∀ d n x, d < 4 → n < 16 → s.slot d n = some x →
      (s.rd Reg.SL_STATE d n ≠ 1 → exec (.collTrigger d n) s = .next s) ∧
      (∀ z l, s.rd Reg.SL_STATE d n = 1 → s.mayWork (cePage d) 0 x.ctx = true → x.fwait = false → x.stagchk = false →
        (if x.op = 5 then s.collSegs x else (s, some [])) = (z, some l) →
        exec (.collTrigger d n) s = .next (s.answer (
          let y := x.outCircuits.foldl (fun (y : State) e => y.engineSend e 1 0 0 0 x.key) z
          let y := y.onSlot d n (fun x' => { x' with unanswered := x.outCircuits, since := y.timeUs, segs := l })
          (y.wr Reg.SL_STATE d n (if x.outCircuits.isEmpty then 3 else 2)).collGo d n))) ∧
      exec (.startResend d n) s = .next (s.answer (x.unanswered.foldl (fun (y : State) e => y.engineSend e 1 0 0 0 x.key) s))) ∧
    (∀ e key, e < 1024 → s.slotOfKey (s.dieOfCir e) (s.cirCtx e) key = none →
      let d := s.dieOfCir e
      (s.doneKeys.contains (d, s.cirCtx e, key) = true → exec (.start e key) s = .next s) ∧
      (s.doneKeys.contains (d, s.cirCtx e, key) = false →
        (∀ h ∈ s.rooms, ¬ (h.1 / 64 = d ∧ h.2.ctx = s.cirCtx e ∧ h.2.key = key ∧ h.2.entry = some e)) →
        (∀ i, (List.range 64).find? (fun i => (SMap.find s.rooms (64 * d + i)).isNone) = some i →
          exec (.start e key) s = .next { s with
            rooms := SMap.put s.rooms (64 * d + i) ⟨s.cirCtx e, key, some e, s.rd Reg.CT_FAR_PKG 0 e, false, 0, 0, s.timeUs⟩ }) ∧
        ((∀ i < 64, (SMap.find s.rooms (64 * d + i)).isSome = true) →
          exec (.start e key) s = .next (s.answer (s.raise (cePage d) 7 (some (s.cirCtx e)) 0))))) ∧
    (∀ e key n st x, e < 1024 → s.slotOfKey (s.dieOfCir e) (s.cirCtx e) key = some n → s.slot (s.dieOfCir e) n = some x →
      x.inStage e = some st → exec (.start e key) s = .next (s.answer (s.grant (s.dieOfCir e) n e st))) ∧
    (∀ e stage arg key n x, e < 1024 → s.dieOfCir e < 4 → n < 16 → s.slotOfKey (s.dieOfCir e) (s.cirCtx e) key = some n →
      s.slot (s.dieOfCir e) n = some x →
      let d := s.dieOfCir e
      let k := 8 * e + stage
      let left := x.unanswered.filter (fun z => z != e)
      let gone := if (SMap.find x.credit k).isNone then [] else (x.kept.filter (fun q => q.entry == e && q.stage == stage)).take arg
      let y := s.onSlot d n (fun x' => { x' with
        unanswered := left, credit := SMap.put x.credit k ((SMap.find x.credit k).getD 0 + arg)
        kept := x.kept.filter (fun q => !gone.contains q), heard := SMap.put x.heard e s.timeUs })
      let y := y.wr Reg.SL_STALLED d n 0
      exec (.credit e stage arg key) s = .next (s.answer
        ((if s.rd Reg.SL_STATE d n = 2 ∧ left = [] then y.wr Reg.SL_STATE d n 3 else y).collGo d n))) ∧
    (∀ e stage arg key, e < 1024 → s.slotOfKey (s.dieOfCir e) (s.cirCtx e) key = none → exec (.credit e stage arg key) s = .next s)

/-- A collective command is accepted into a slot or refused, and starts with its neighbours. The model's choices behind it: log entry 17.
-/
def Obligations.CollectivesBegin : Prop :=
  Clause.CollectiveCommands ∧ Clause.CollectiveStart

/-- R245 to R248: a chunk is sent against a credit and kept until the credit returns, and none is sent without one; a chunk that fails its
check is asked for again within RESEND_LIM; a good chunk of the stage in progress is used once, one that comes before its turn is kept for
it, and one used before changes nothing; a RESEND is answered from what is kept. -/
def Obligations.CollectiveChunks : Prop :=
  ∀ s : State, s.ready = true →
    (∀ d n e c x, d < 4 → n < 16 → e < 1024 → s.slot d n = some x →
      let st := s.rd Reg.SL_STAGE d n
      (SMap.get 0 x.credit (8 * e + st) = 0 → exec (.chunkSend d n e c) s = .next s) ∧
      (∀ y q, (e, c) ∈ x.sends st → (e, c) ∉ x.sent → x.sendReady st c = true → SMap.get 0 x.credit (8 * e + st) ≠ 0 →
        s.cirReady e = true → s.isFenced (cePage d) 0 = false → s.slotMoves d n x = true → s.sendData n x st e c = (y, some q) →
        exec (.chunkSend d n e c) s = .next (s.answer (
          let z := y.chunkOut x e st q
          let z := z.onSlot d n (fun x' => { x' with
            sent := x'.sent ++ [(e, c)], credit := SMap.put x'.credit (8 * e + st) (SMap.get 0 x.credit (8 * e + st) - 1)
            kept := x'.kept ++ [⟨e, st, q, 1⟩], heard := SMap.put x'.heard e z.timeUs })
          ((z.count (cePage d) 0 1).progress (cePage d) 1).collGo d n)))) ∧
    (∀ e key stage cidx data trailer adds, e < 1024 → data.length ≤ 65536 →
      let d := s.dieOfCir e
      let c : Chunk := ⟨cidx, data, trailer⟩
      (s.slotOfKey d (s.cirCtx e) key = none → exec (.chunkReceive e key stage cidx data trailer adds) s = .next s) ∧
      (∀ n x, s.slotOfKey d (s.cirCtx e) key = some n → s.slot d n = some x →
        let tries := (x.bad.filter (fun b => b == (8 * e + stage, cidx))).length + 1
        let counted := (s.count (cePage d) 1 1).progress (cePage d) (if s.mayWork (cePage d) 0 x.ctx then 1 else 0)
        (c.checks = false → tries ≤ s.rd Reg.CE_RESEND_LIM d →
          exec (.chunkReceive e key stage cidx data trailer adds) s = .next (s.answer (
            ((s.raise (cePage d) 0 (some x.ctx) n).onSlot d n (fun x' => { x' with bad := x'.bad ++ [(8 * e + stage, cidx)] })).engineSend
              e 3 0 stage cidx key))) ∧
        (c.checks = false → s.rd Reg.CE_RESEND_LIM d < tries →
          exec (.chunkReceive e key stage cidx data trailer adds) s = .next (s.answer (
            (s.raise (cePage d) 0 (some x.ctx) n).collFail d n 6 0 false none))) ∧
        (c.checks = true → stage = s.rd Reg.SL_STAGE d n → (e, cidx) ∈ x.used →
          exec (.chunkReceive e key stage cidx data trailer adds) s = .next s) ∧
        (c.checks = true → stage = s.rd Reg.SL_STAGE d n → x.op = 5 ∨ (e, cidx) ∈ x.recvs stage → (e, cidx) ∉ x.used →
          s.slotMoves d n x = true → x.mayUse stage stage e c = true →
          exec (.chunkReceive e key stage cidx data trailer adds) s = .next (s.answer ((counted.chunkUse d n stage e c adds).collGo d n))) ∧
        (c.checks = true → s.rd Reg.SL_STAGE d n ≤ stage → x.op = 5 ∨ (e, cidx) ∈ x.recvs stage →
          (stage = s.rd Reg.SL_STAGE d n → (e, cidx) ∉ x.used) →
          s.slotMoves d n x = false ∨ x.mayUse stage (s.rd Reg.SL_STAGE d n) e c = false →
          exec (.chunkReceive e key stage cidx data trailer adds) s = .next (s.answer
            (counted.onSlot d n (fun x' => { x' with early := x'.early ++ [⟨e, stage, c⟩] })))))) ∧
    (∀ e stage cidx key n x, e < 1024 → s.slotOfKey (s.dieOfCir e) (s.cirCtx e) key = some n → s.slot (s.dieOfCir e) n = some x →
      let d := s.dieOfCir e
      let found := x.kept.find? (fun q => q.entry == e && q.stage == stage && q.chunk.cidx == cidx)
      (found = none → exec (.resend e stage cidx key) s = .next s) ∧
      (∀ q, found = some q → exec (.resend e stage cidx key) s = .next (s.answer (
        (((s.onSlot d n (fun x' => { x' with kept := x'.kept.filter (fun k => k != q) ++ [{ q with sends := q.sends + 1 }] })).chunkOut
          x e stage q.chunk).count (cePage d) 3 1).progress (cePage d) 1))))

/-- R259, R261, R262, R264, R266: an ABORT fails the slot of its key with the status and the OTHER key that came before it; OTHER is noted on
its circuit; PACE becomes the neighbour's pace word, and the own word goes out on circuits of running slots; a slot that has waited OSTALL_MS
with nothing held shows STALLED; a slot whose last stage is done writes what remains and completes; a broken circuit fails every slot that uses it. -/
def Obligations.CollectivesEnd : Prop :=
  ∀ s : State, s.ready = true →
    (∀ e status key n, e < 1024 → s.slotOfKey (s.dieOfCir e) (s.cirCtx e) key = some n →
      exec (.abort e status key) s = .next (s.answer ((s.setWire e { s.wire e with other := none }).collFail (s.dieOfCir e) n status
        ((s.wire e).other.getD 0) true (some e)))) ∧
    (∀ e key, e < 1024 → exec (.other e key) s = .next (s.setWire e { s.wire e with other := some key })) ∧
    (∀ e word n, e < 1024 → s.dieOfCir e < 4 → s.nbOf (s.dieOfCir e) (s.rd Reg.CT_FAR_PKG 0 e) = some n →
      Completes (.pace e word) s (fun t => t.rd Reg.NB_PACE (s.dieOfCir e) n = word % 2 ^ Reg.NB_PACE.width ∧
        ∀ f i j, f.key i j ≠ Reg.NB_PACE.key (s.dieOfCir e) n → t.rd f i j = s.rd f i j)) ∧
    (∀ d, d < 4 → exec (.paceSend d) s = .next (s.answer (
      (((List.range 16).flatMap (fun n => if 2 ≤ s.rd Reg.SL_STATE d n then ((s.slot d n).map Slot.outCircuits).getD [] else [])).eraseDups).foldl
        (fun (y : State) e => if y.cirReady e then y.cirSend e false false (5 + 2 ^ 32 * y.rd Reg.CE_PACE_OWN d) [] else y) s))) ∧
    (∀ d n e x, d < 4 → n < 16 → e < 1024 → s.slot d n = some x →
      let since := max x.since ((SMap.find x.heard e).getD 0) + 1000 * s.rd Reg.CE_OSTALL_MS d
      (2 ≤ s.rd Reg.SL_STATE d n → s.waitsCredit d n e x = true ∨ s.waitsChunk d n e x = true → since ≤ s.timeUs → s.rooms = [] →
        Completes (.orderStall d n e) s (fun t => t.rd Reg.SL_STALLED d n = 1 ∧ RegsOnly s t [Reg.SL_STALLED.key d n])) ∧
      (s.rd Reg.SL_STATE d n < 2 ∨ s.timeUs < since ∨ (s.waitsCredit d n e x = false ∧ s.waitsChunk d n e x = false) →
        exec (.orderStall d n e) s = .next s)) ∧
    (∀ d n x, d < 4 → n < 16 →
      let y := s.collGo d n
      y.slot d n = some x →
      (y.rd Reg.SL_STATE d n ≠ 3 → exec (.collComplete d n) s = .next (s.answer y)) ∧
      (y.rd Reg.SL_STATE d n = 3 → x.op ≠ 5 → x.stages ≤ y.rd Reg.SL_STAGE d n + 1 →
        x.stages = 0 ∨ (x.stageDone (y.rd Reg.SL_STAGE d n) = true ∧ x.kept = []) →
        let z := if x.wrote then y else (y.collFinalWrite n x).onSlot d n (fun q => { q with wrote := true })
        exec (.collComplete d n) s = .next (s.answer (
          if z.landQ.any (fun w => w.writer == .coll d n) then z else (z.slot d n).elim z (fun q => z.collFinish d n q))))) ∧
    (∀ e, e < 1024 → (s.cirState e ≠ 5 → s.cirState e ≠ 6 → exec (.circuitBreakReport e) s = .next s) ∧
      (s.isEndpoint e = true → s.cirState e = 5 → exec (.circuitBreakReport e) s = .next (s.answer (
        (List.range 16).foldl (fun (y : State) n =>
          if (y.slot (s.dieOfCir e) n).any (fun x => x.ctx == y.cirCtx e && x.groupCircuits.contains e)
          then y.collFail (s.dieOfCir e) n 4 0 false none else y) s))))

/-! ### Host sessions, messages and transfers -/

/-- R278: a SESSION OPEN of a new peer binds the lowest free session to its address, scope and SEQ and is answered OPENED; it is answered
REFUSED with cause 1 where the allow table or the boot ROM turns it away, with cause 2 where all 32 sessions are open. The package's
own first SEQ is a free value (log entry 6), and what a REFUSED carries beside its cause is the model's choice (log entry 9). -/
def Clause.SessionsOpen : Prop :=
  ∀ (m : Msg) (s : State), s.ready = true → m.wellFormed = true → s.msgHeard m = true → s.msgValid m = true → m.opens = true →
    s.sessOf m = none →
    let p := m.port
    let scope := bits m.argA 6 4
    let turned := (s.noImage && !scopeAll scope) || !s.allows p m.v6 m.addr scope
    let free := (List.range 32).find? (fun n => !s.sessOpen p n)
    let refused := fun (cause : Nat) => ({ s with hostOut := s.hostOut ++ [.session p 0 4 scope cause 0
      ⟨m.sub, m.mac, m.vlan, m.v6, m.addr, m.udp⟩ ⟨m.seq, 0, s.rxWindow p⟩] } : State)
    (turned = true → exec (.sessionOpen m) s = .next (refused 1)) ∧
    (turned = false → free = none → exec (.sessionOpen m) s = .next (refused 2)) ∧
    (∀ n, turned = false → free = some n → Completes (.sessionOpen m) s (fun t =>
      let tx := (Config.freeWord s.free).toNat
      t.rd Reg.HST_S_OPEN p n = 1 ∧ t.rd Reg.HST_S_SUB p n = m.sub ∧ t.rd Reg.HST_S_SCOPE p n = scope ∧ t.rd Reg.HST_S_UDP p n = m.udp ∧
      t.rd Reg.HST_S_ADDR p n = m.addr ∧ t.rd Reg.HST_S_TXSEQ p n = tx ∧ t.rd Reg.HST_S_RXACK p n = m.seq ∧
      let y : Session := { firstRx := m.seq, firstTx := tx, peerAck := tx, window := m.window, outq := [], v6 := m.v6, mac := m.mac
                           vlan := m.vlan, ip := m.addr, unacked := [], inbox := [], ackDue := false }
      t.session p n = some y ∧
      (∀ k, k ≠ 32 * p + n → SMap.find t.sess k = SMap.find s.sess k) ∧
      t.hostOut = s.hostOut ++ [.session p n 2 scope 0 tx (t.addrOf p n y) (t.headOf p n)] ∧ t.xfers = s.xfers ∧ t.ctxs = s.ctxs ∧
      ∀ f i j, f.key i j ∉ ([Reg.HST_S_OPEN, Reg.HST_S_SUB, Reg.HST_S_SCOPE, Reg.HST_S_UDP, Reg.HST_S_ADDR, Reg.HST_S_TXSEQ,
        Reg.HST_S_RXACK] : List Field).map (fun f => f.key p n) → t.rd f i j = s.rd f i j))

/-- R277: a message that is not valid is discarded and counted; where its BCRC fails, BHP_CRC is raised; one that no port in
service hears changes nothing. -/
def Clause.InvalidMessages : Prop :=
  ∀ (m : Msg) (s : State), s.ready = true → m.wellFormed = true →
    ∀ c ∈ [Instr.sessionOpen m, .sessionClose m, .cmd m, .reg m, .wdesc m, .wdata m, .rreq m, .ack m],
      (s.msgHeard m = false → exec c s = .next s) ∧
      (s.msgHeard m = true → s.msgValid m = false → m.crc = m.bcrc → exec c s = .next (s.msgDrop m)) ∧
      (s.msgHeard m = true → m.crc ≠ m.bcrc → exec c s = .next (s.answer ((s.msgDrop m).raise (hstPage m.port) 0 none 0)))

/-- A valid message of type `typ` is heard on a session with nothing in flight, whose record is `x`. -/
def Heard (s : State) (m : Msg) (typ : Nat) (x : Session) : Prop :=
  m.wellFormed = true ∧ s.msgHeard m = true ∧ s.msgValid m = true ∧ m.typ = typ ∧ s.session m.port m.session = some x ∧ x.inbox = [] ∧
    x.unacked = [] ∧ x.outq = []

/-- It is the next numbered message of the session. -/
def Arrives (s : State) (m : Msg) (typ : Nat) (x : Session) : Prop := Heard s m typ x ∧ m.seq = s.rd Reg.HST_S_RXACK m.port m.session

/-- R279, R280, R281: a SESSION CLOSE, SESS_TMO and the sixteenth send close a session and free its registers; an unacknowledged message is
sent again; an owed ACK goes out once; a received ACK takes the peer's next SEQ and window. -/
def Clause.SessionsEnd : Prop :=
  ∀ s : State, s.ready = true →
    (∀ m x, Heard s m 1 x → m.skind = 3 →
      exec (.sessionClose m) s = .next (s.answer (((s.learnPeer m).ackIn m.port m.session m).sessClose m.port m.session)) ∧
      ((∀ y ∈ s.xfers, ¬ (y.port = m.port ∧ y.sess = m.session)) →
        (∀ c < 64, ¬ (s.rd Reg.CTX_CPL_SESS c = m.session ∧ s.rd Reg.CTX_CPL_PORT c = m.port)) →
        (∀ u < 5, s.owns (.session m.port m.session) u = false) → Completes (.sessionClose m) s (fun t =>
          t.rd Reg.HST_S_OPEN m.port m.session = 0 ∧ t.session m.port m.session = none ∧ t.xfers = s.xfers ∧ t.ctxs = s.ctxs ∧
          t.hostOut = s.hostOut ∧ (∀ k, k ≠ 32 * m.port + m.session → SMap.find t.sess k = SMap.find s.sess k) ∧
          ∀ f i j, f.key i j ∉ ([Reg.HST_S_OPEN, Reg.HST_S_SUB, Reg.HST_S_SCOPE, Reg.HST_S_UDP, Reg.HST_S_ADDR, Reg.HST_S_TXSEQ,
            Reg.HST_S_RXACK] : List Field).map (fun f => f.key m.port m.session) → t.rd f i j = s.rd f i j))) ∧
    (∀ p n, p < 2 → n < 32 →
      (s.sessOpen p n = true → exec (.sessTmo p n) s = .next (s.answer (s.sessDrop p n 3))) ∧
      (s.sessOpen p n = false → exec (.sessTmo p n) s = .next s) ∧
      (s.session p n = none → exec (.ackSend p n) s = .next s) ∧
      (∀ x, s.session p n = some x →
        (x.ackDue = false → exec (.ackSend p n) s = .next s) ∧
        (x.ackDue = true → exec (.ackSend p n) s = .next { s with
          sess := SMap.put s.sess (32 * p + n) { x with ackDue := false }
          hostOut := s.hostOut ++ [.ack p n (s.addrOf p n x) (s.headOf p n)] }) ∧
        (∀ q, x.unacked.find? (fun u => u.seq == q) = none → exec (.rto p n q) s = .next s) ∧
        (∀ u, x.unacked.find? (fun v => v.seq == u.seq) = some u →
          (16 ≤ u.sends → exec (.rto p n u.seq) s = .next (s.answer ((s.raise (hstPage p) 1 none n).sessDrop p n 4))) ∧
          (u.sends < 16 → Completes (.rto p n u.seq) s (fun t =>
            t.hostOut = s.hostOut ++ [.numbered p n u.seq u.body (s.addrOf p n x) (s.headOf p n)] ∧
            t.session p n = some { x with unacked := x.unacked.map (fun v =>
              if v.seq = u.seq then { v with sends := v.sends + 1, time := s.timeUs } else v), ackDue := false } ∧ t.ctxs = s.ctxs ∧ t.xfers = s.xfers ∧
            t.larder = s.larder))))) ∧
    (∀ m x, Heard s m 7 x → Completes (.ack m) s (fun t =>
      (∃ y, t.session m.port m.session = some y ∧ y.window = m.window ∧ y.peerAck =
        (if older x.peerAck m.ack && !newer m.ack (s.rd Reg.HST_S_TXSEQ m.port m.session) then m.ack else x.peerAck) ∧
        y.mac = m.mac ∧ y.vlan = m.vlan ∧ y.ip = m.addr) ∧
      t.regs = s.regs ∧ t.hostOut = s.hostOut ∧ t.xfers = s.xfers))

/-- Host sessions open, are kept alive, and end. The model's choices behind it: log entry 9. -/
def Obligations.SessionsOpenAndEnd : Prop :=
  Clause.SessionsOpen ∧ Clause.SessionsEnd

/-- R279, R283, R284, R287: the next message of a session is acted on once and its SEQ acknowledged: a CMD places its command in its context's
queue under its serial; a REG writes a register and is answered; a transfer that Table 10-6 and R287 allow waits for an engine. -/
def Clause.MessagesInOrder : Prop :=
  ∀ (m : Msg) (x : Session) (s : State), s.ready = true →
    let p := m.port
    let n := m.session
    let taken := fun (t : State) => t.rd Reg.HST_S_RXACK p n = (m.seq + 1) % 2 ^ 32 ∧ t.larder = s.larder ∧ t.pantry = s.pantry
    (let c := bits m.argA 5 0
     Arrives s m 2 x → s.sessMayCtx p n c = true → s.cstate c = 1 → m.payload.length = 128 → m.argB = s.rd Reg.CTX_CSER_NEXT c →
      s.qfree c ≠ 0 → Completes (.cmd m) s (fun t =>
        taken t ∧ (t.ctx c).queue = (s.ctx c).queue ++ [⟨toWords 32 m.payload, m.argB, p, n, m.seq⟩] ∧
        t.rd Reg.CTX_CSER_NEXT c = (m.argB + 1) % 2 ^ 32 ∧ (t.ctx c).pendCser = (s.ctx c).pendCser ∧ ∀ d, d ≠ c → t.ctx d = s.ctx d)) ∧
    (∀ c w, c < 64 → Arrives s m 3 x → m.regOps = [((0x300 + c) * 4096 + 0x108, 2, w)] → w < 2 ^ 32 → s.mayWrite (.session p n) (0x300 + c) = true →
      s.rd Reg.CTX_EXEC_STEP_BUSY c = 0 → m.ack = x.peerAck → (s.rd Reg.HST_S_TXSEQ p n + 2 ^ 32 - x.peerAck) % 2 ^ 32 ≤ m.window →
      Completes (.reg m) s (fun t =>
        taken t ∧ t.rd Reg.CTX_SG_MASK c = w % 256 ∧
        t.hostOut = s.hostOut ++ [.numbered p n (s.rd Reg.HST_S_TXSEQ p n) (.regResp m.seq [⟨(0x300 + c) * 4096 + 0x108, 2, w, 0⟩])
          (t.addrOf p n { x with mac := m.mac, vlan := m.vlan, ip := m.addr }) (t.headOf p n)] ∧
        t.ctxs = s.ctxs)) ∧
    (let y := toXfer m n
     Arrives s m 4 x → s.noImage = false → s.sessMayCtx p n y.ctx = true → s.cstate y.ctx = 1 → s.descOk m y = true →
      s.xfer p n y.xid = none → s.xferInRange y = true →
      (m.bkind = 1 → Completes (.wdesc m) s (fun t => taken t ∧ t.xfers = s.xfers ++ [y] ∧ t.ctxs = s.ctxs)) ∧
      (m.bkind = 3 → s.isSealed (partOfCtx y.ctx) = false →
        Completes (.rreq m) s (fun t => taken t ∧ t.xfers = s.xfers ++ [y] ∧ t.ctxs = s.ctxs)))

/-- Host messages are discarded when not valid and served in order when they are. The model's choices behind it: log entry 9. -/
def Obligations.MessagesAreServed : Prop :=
  Clause.InvalidMessages ∧ Clause.MessagesInOrder

/-- R288: write data of a running transfer into an untagged region is placed at its offset and nowhere else; data of a transfer that waits
for an engine is held with it and no memory changes; data of no transfer is dropped. -/
def Clause.WriteDataIsPlaced : Prop :=
  ∀ (m : Msg) (x : Session) (s : State), s.ready = true → Arrives s m 4 x → m.bkind = 2 →
    let p := m.port
    let n := m.session
    let taken := fun (t : State) => t.rd Reg.HST_S_RXACK p n = (m.seq + 1) % 2 ^ 32 ∧ t.pantry = s.pantry ∧ t.staging = s.staging
    (∀ y e, s.xfer p n (bits m.argA 15 0) = some y → y.write = true → y.engine = some e → e < 8 → y.tgt = 0 → y.tagged = false →
      y.isSealed = false → y.held = [] → s.xferHeld y = false → s.lerr = [] → m.argB + m.payload.length ≤ y.len → s.bridgeDown (dieOfStack (stackOf (y.addr + m.argB))) 4 = false →
      s.larderCheck y.ctx 1 80 (y.addr + m.argB) m.payload.length = none → Completes (.wdata m) s (fun t =>
        taken t ∧ (∀ i < m.payload.length, t.larder.read (y.addr + m.argB + i) = m.payload.getD i 0) ∧
        ∀ a, (a < y.addr + m.argB ∨ y.addr + m.argB + m.payload.length ≤ a) → t.larder.read a = s.larder.read a)) ∧
    (∀ y, s.xfer p n (bits m.argA 15 0) = some y → y.write = true → y.engine = none → Completes (.wdata m) s (fun t =>
      taken t ∧ t.larder = s.larder ∧ ∃ z, t.xfer p n (bits m.argA 15 0) = some z ∧ z.held = y.held ++ [(m.seq, m.argB, m.payload)] ∧
        z.engine = none)) ∧
    (s.xfer p n (bits m.argA 15 0) = none → Completes (.wdata m) s (fun t =>
      taken t ∧ t.larder = s.larder ∧ t.xfers = s.xfers))

/-- R288, R419: the oldest waiting transfer takes the lowest free engine, a write that holds no data only its engine, and none does while the
page drains; a write whose every byte has been served posts its peg and ends OK, a read ends once every RDATA is acknowledged, and one
that is not served goes on. -/
def Clause.TransfersRun : Prop :=
  ∀ (p : Nat) (s : State), s.ready = true → p < 2 →
    let free := (List.range 8).find? (fun e => !(s.xfers.any (fun x => x.port == p && x.engine == some e)) && !s.xeFenced p e
      && (s.recLane (hstPage p) e).isNone)
    (s.rd Reg.PAGE_DRAIN (hstPage p) = 1 → exec (.transferStart p) s = .next s) ∧
    (free = none → exec (.transferStart p) s = .next s) ∧
    (∀ x e, s.rd Reg.PAGE_DRAIN (hstPage p) ≠ 1 → s.powered (hstPage p) = true → free = some e →
      s.xfers.find? (fun x => x.port == p && x.engine.isNone) = some x → x.held = [] → x.placed = [] →
      (x.write = true → exec (.transferStart p) s = .next (s.putXfer { x with engine := some e })) ∧
      (x.write = false → exec (.transferStart p) s = .next (s.answer
        ((s.putXfer { x with engine := some e }).readRun { x with engine := some e })))) ∧
    (∀ n xid x, n < 32 → xid < 65536 → s.xfer p n xid = some x →
      (x.write = true → covers x.served 0 x.len (x.served.length + 1) = false → exec (.transferComplete p n xid) s = .next s) ∧
      (x.write = true → x.tgt = 0 → covers x.served 0 x.len (x.served.length + 1) = true →
        exec (.transferComplete p n xid) s = .next (s.answer (s.xferEnd { x with moved := x.len } 0))) ∧
      (x.write = true → x.tgt = 1 → x.amount ≠ 0 → s.present x.ptile = true → covers x.served 0 x.len (x.served.length + 1) = true →
        exec (.transferComplete p n xid) s = .next (s.answer
          ((s.postPeg (s.phys x.ptile) x.ctx x.peg x.amount).xferEnd { x with moved := x.len } 0))) ∧
      (x.write = true → x.tgt = 2 → covers x.served 0 x.len (x.served.length + 1) = true →
        exec (.transferComplete p n xid) s = .next (s.answer ((s.updCovered x.addr x.len).xferEnd { x with moved := x.len } 0))) ∧
      (x.write = false → x.sentAll = true → s.rdataOpen x = false →
        exec (.transferComplete p n xid) s = .next (s.answer (s.xferEnd x 0))) ∧
      (x.write = false → (x.sentAll = false ∨ s.rdataOpen x = true) → exec (.transferComplete p n xid) s = .next s))

/-- Bulk transfers place their data, take engines and complete. The model's choices behind it: log entry 9. -/
def Obligations.BulkTransfers : Prop :=
  Clause.WriteDataIsPlaced ∧ Clause.TransfersRun

/-- R274, R276, R295: link training brings up a port that is enabled, has its reference and is not dark; losing it raises LINK_DOWN once; EN and SPLIT take what is
written, EN = 0 and a change of SPLIT with the links up taking them down; laser light below +16.0 dBm takes the port down with LASER_LOW
until it is at or above +17.5 dBm again; ARP, neighbour and echo requests for an address of the port are answered to
their sender, those for another are not. -/
def Obligations.HostPorts : Prop :=
  ∀ (p sub : Nat) (s : State), s.ready = true → p < 2 → sub < 2 →
    let up := if sub = 0 then Reg.HST_UP_A else Reg.HST_UP_B
    (s.rd Reg.HST_EN p = 1 → s.domainOn (74 + p) = true → (sub = 1 → s.rd Reg.HST_SPLIT p = 1) → SMap.find s.hdark p = none →
      s.boot.refHeld = true → Completes (.hstLinkUp p sub) s (fun t => t.rd up p = 1 ∧ t = { s with regs := t.regs } ∧
        ∀ f i j, f.key i j ≠ up.key p 0 → t.rd f i j = s.rd f i j)) ∧
    (s.rd Reg.HST_EN p ≠ 1 ∨ s.boot.refHeld = false → exec (.hstLinkUp p sub) s = .next s) ∧
    (s.rd up p = 1 → exec (.hstLinkDown p sub) s = .next (s.answer ((s.wr up p 0 0).raise (hstPage p) 6 none 0))) ∧
    (s.rd up p ≠ 1 → exec (.hstLinkDown p sub) s = .next s) ∧
    (∀ ag, s.mayWrite ag (hstPage p) = true → SMap.find s.hdark p = none →
      Completes (.hstEn ag p 1) s (fun t => t.rd Reg.HST_EN p = 1 ∧ RegsOnly s t [Reg.HST_EN.key p 0]) ∧
      (s.rd Reg.HST_UP_A p ≠ 1 → s.rd Reg.HST_UP_B p ≠ 1 →
        Completes (.hstEn ag p 0) s (fun t => t.rd Reg.HST_EN p = 0 ∧ RegsOnly s t [Reg.HST_EN.key p 0])) ∧
      (s.rd Reg.HST_UP_A p = 1 → s.rd Reg.HST_UP_B p ≠ 1 → exec (.hstEn ag p 0) s = .next (s.answer
        ((((s.dropLatch ag).wr Reg.HST_EN p 0 0).wr Reg.HST_UP_A p 0 0).raise (hstPage p) 6 none 0))) ∧
      (∀ v < 2, s.rd Reg.HST_SPLIT p = v → Completes (.split ag p v) s (fun t => RegsOnly s t [])) ∧
      (∀ v < 2, s.rd Reg.HST_SPLIT p ≠ v → (∀ n < 32, s.sessOpen p n = false) → s.rd Reg.HST_UP_A p ≠ 1 → s.rd Reg.HST_UP_B p ≠ 1 →
        Completes (.split ag p v) s (fun t => t.rd Reg.HST_SPLIT p = v ∧ RegsOnly s t [Reg.HST_SPLIT.key p 0]))) ∧
    (∀ lp, lp < 1024 → s.powered (hstPage p) = true →
      (160 ≤ toSigned 10 lp → Completes (.hostLaserLow p lp) s (fun t => t.rd Reg.HST_LP p = lp ∧ t.hdark = s.hdark ∧ t.hostOut = s.hostOut ∧
        ∀ f i j, f.key i j ≠ Reg.HST_LP.key p 0 → t.rd f i j = s.rd f i j)) ∧
      (toSigned 10 lp < 160 → SMap.find s.hdark p = none → exec (.hostLaserLow p lp) s = .next (s.answer (
        let x := (s.wr Reg.HST_LP p 0 lp).laserNote (4 * p)
        let x : State := { x with hdark := SMap.put x.hdark p (2 * s.rd Reg.HST_UP_A p + 4 * s.rd Reg.HST_UP_B p) }
        ((x.raise (hstPage p) 7 none 0).hstDown p 0).hstDown p 1))) ∧
      (∀ was, SMap.find s.hdark p = some was → 175 ≤ toSigned 10 lp → s.rd Reg.HST_EN p = 1 → Completes (.hostLaserRestore p lp) s (fun t =>
        SMap.find t.hdark p = none ∧ t.rd Reg.HST_LP p = lp ∧ t.rd Reg.HST_UP_A p = bit was 1 ∧ t.rd Reg.HST_UP_B p = bit was 2))) ∧
    (∀ a : Ask, a.wellFormed = true → let answers := s.hstUp p sub && s.answersAt p (a.kind % 2 == 1) a.asked
      (answers = true → exec (.arpNdEcho p sub a) s =
        .next { s with hostOut := s.hostOut ++ [.answer p a.kind ⟨sub, a.mac, a.vlan, a.kind % 2 == 1, a.ip, 0⟩] }) ∧
      (answers = false → exec (.arpNdEcho p sub a) s = .next s))

/-! ### Hearth -/

/-- No limit but the cap controller's holds the place in force. -/
def OnlyCap (s : State) : Prop :=
  s.hearth.capPlace = s.hearth.place ∧ s.hearth.place ≤ 10 ∧ s.hearth.thermal ≤ s.hearth.place ∧ s.hearth.plan = 0 ∧ s.hearth.follow = 0 ∧
    s.rd Reg.THM_SUDDEN ≠ 1 ∧ s.rd Reg.THM_SD_REQ ≠ 1 ∧ s.unmonitored = false ∧ s.hearth.resetFloor = false ∧ s.hearth.bringUp = false

/-- The registers show the place `p`: OPT, DUTY and AT_FLOOR of R299. -/
def Shows (t : State) (p : Nat) : Prop :=
  t.hearth.place = p ∧ t.rd Reg.PWR_OPT = min p 7 ∧ t.rd Reg.PWR_DUTY = p - 7 ∧ t.rd Reg.PWR_AT_FLOOR = (if p = 10 then 1 else 0)

/-- R300, R303: with no other limit, each tick shows P_IN, P_1MS, P_AVG and EFF_CAP, and the package steps down one place while P_1MS exceeds
EFF_CAP and P_AVG exceeds EFF_CAP less the guard, or after a droop storm; steps up one place, 50 ms after the last step of any cause and after
50 ms below the temperatures of R310, while P_AVG is below EFF_CAP less the guard and the model's estimate for the faster place is within it;
and else holds its place. The tick puts the operating limits of the registers in force, R306. -/
def Clause.CapControllerSteps : Prop :=
  ∀ (pin upEst : Nat) (s : State), s.ready = true → OnlyCap s → s.hearth.thermal = 0 → s.hearth.peak = 0 → s.rd Reg.PWR_MODE ≠ 0 → s.rd Reg.PWR_PACE_FOLLOW = 0 →
    s.hearth.overRun < 99 →
    let p := s.hearth.place
    let n1 := if s.hearth.estN = 0 then 1 else s.hearth.estN
    let sum1 := if s.hearth.estN = 0 then s.rd Reg.PWR_P_EST else s.hearth.estSum
    let win := ((pin :: s.hearth.pin).take 16000).take (1000 * s.rd Reg.PWR_WINDOW)
    let eff := ({ s with hearth := { s.hearth with lim := s.limitsNow } } : State).effCap
    let down := (64 * eff * n1 < 64 * sum1 ∧ 63 * eff * win.length < 64 * win.sum) ∨ s.hearth.storm = true
    let up := 64 * win.sum < 63 * eff * win.length ∧ 64 * upEst ≤ 63 * eff ∧ 0 < p ∧ s.mayStepUp = true ∧ 500 ≤ s.hearth.coolRun
    Completes (.capTick pin upEst) s (fun t =>
      t.rd Reg.PWR_P_IN = pin % 2 ^ 16 ∧ t.rd Reg.PWR_P_1MS = sum1 / n1 % 2 ^ 16 ∧ t.rd Reg.PWR_P_AVG = win.sum / win.length % 2 ^ 16 ∧
      t.rd Reg.PWR_EFF_CAP = eff % 2 ^ 16 ∧ t.hearth.lim = s.limitsNow ∧ t.hearth.storm = false ∧ t.larder = s.larder ∧ t.pantry = s.pantry ∧
      (down → Shows t (min 10 (p + 1))) ∧ (¬ down → up → Shows t (p - 1)) ∧ (¬ down → ¬ up → Shows t p))

/-- R305, R308: an estimate above PEAK steps the package down one place and one within it releases the peak limit; a droop event puts its die on
the next divider until it is released, and with more than DROOP_LIM events within 1 ms it raises DROOP_STORM, once until the tick steps down; the place in force does not change. -/
def Clause.PeakAndDroop : Prop :=
  ∀ s : State, s.ready = true →
    (∀ raw, OnlyCap s → let est := s.rd Reg.PWR_GAIN * raw / 2 ^ 14
      Completes (.peakCheck raw) s (fun t => t.rd Reg.PWR_P_EST = est % 2 ^ 16 ∧ t.larder = s.larder ∧
        (10 * s.hearth.lim.peak < est → Shows t (min 10 (s.hearth.place + 1)) ∧ t.hearth.peak = min 10 (s.hearth.place + 1)) ∧
        (est ≤ 10 * s.hearth.lim.peak → Shows t s.hearth.place ∧ t.hearth.peak = 0))) ∧
    (∀ d, d < 4 →
      let div := ([Reg.CLK_DIV_0, Reg.CLK_DIV_1, Reg.CLK_DIV_2, Reg.CLK_DIV_3] : List Field).getD d Reg.CLK_DIV_0
      let past := s.rd Reg.CLK_DROOP_LIM < (s.droopsIn d).length + 1
      (¬ past ∨ s.hearth.storm = true → Completes (.droop d) s (fun t =>
        t.rd div = dividerOf (min s.hearth.place 7 + 1) ∧ SMap.get [] t.hearth.droops d = s.timeUs :: s.droopsIn d ∧
        t.hearth.storm = s.hearth.storm ∧ t.hearth.place = s.hearth.place ∧ t.larder = s.larder)) ∧
      (past → s.hearth.storm = false → s.occurClass 0x004 2 ≠ 2 → Completes (.droop d) s (fun t =>
        t.rd div = dividerOf (min s.hearth.place 7 + 1) ∧ t.hearth.storm = true ∧ bit (t.rd Reg.FLT_STAT 0x004) 2 = 1 ∧
        t.hearth.place = s.hearth.place)) ∧
      Completes (.droopRelease d) s (fun t =>
        t.rd div = dividerOf (min s.hearth.place 7) ∧ SMap.find t.hearth.drooped d = none ∧ t.hearth.place = s.hearth.place ∧
        t.larder = s.larder)) ∧
    (let g := s.rd Reg.PWR_GAIN
     (g ≠ 12288 → g ≠ 20480 → Completes .gainClamped s (fun t => t.rd Reg.PWR_CLAMPED = 0 ∧ RegsOnly s t [Reg.PWR_CLAMPED.key 0 0])) ∧
     (g = 12288 ∨ g = 20480 → s.rd Reg.PWR_CLAMPED = 1 → exec .gainClamped s = .next s) ∧
     (g = 12288 ∨ g = 20480 → s.rd Reg.PWR_CLAMPED ≠ 1 → s.occurClass 0x004 1 ≠ 2 → Completes .gainClamped s (fun t =>
       t.rd Reg.PWR_CLAMPED = 1 ∧ bit (t.rd Reg.FLT_STAT 0x004) 1 = 1 ∧ t.hearth = s.hearth)))

/-- The cap controller, the peak limit and droop set the place and the dividers. The model's choices behind it: log entries 8 and 22. -/
def Obligations.PowerLimits : Prop :=
  Clause.CapControllerSteps ∧ Clause.PeakAndDroop

/-- R310, R311, R312: a sample shows its readings, TJ_MAX and its source; a hot one steps the package down one place and sets THROTTLE; 500
samples below the release temperatures lift the thermal limit; 105 °C sets SD_REQ and takes the package to the floor, and it ends below
100 °C; a comparator that trips raises THERM_TRIP. -/
def Clause.TemperatureLimits : Prop :=
  ∀ s : State, s.ready = true →
    (∀ temps expected warm,
      let x := s.storeTemps temps
      let hot := (x.hottest.any (fun (y : Int × Nat) => decide (380 ≤ y.1))) || x.opticalAt 320 || x.singleHot
      let cool := (x.hottest.all (fun (y : Int × Nat) => decide (y.1 < 372))) && !x.opticalAt 312
      let below := fun (k : Int) => x.hottest.all (fun (y : Int × Nat) => decide (y.1 < k)) = true
      (s.rd Reg.THM_THROTTLE = 1 ∨ hot = false → s.rd Reg.THM_SD_REQ ≠ 1 → below 420 → OnlyCap s → s.hearth.peak = 0 →
        Completes (.sensorSample temps expected warm) s (fun t =>
          (∀ n < 32, t.rd Reg.THM_TA 0 n = temps.getD (2 * n) 0x200 % 1024 ∧ t.rd Reg.THM_TB 0 n = temps.getD (2 * n + 1) 0x200 % 1024) ∧
          (∀ v k, x.hottest = some (v, k) → t.rd Reg.THM_TJ_MAX = ofSigned 10 v ∧ t.rd Reg.THM_TJ_SRC = k) ∧
          (hot = true → t.hearth.thermal = min 10 (s.hearth.place + 1) ∧ Shows t (min 10 (s.hearth.place + 1))) ∧
          (hot = false → Shows t s.hearth.place ∧ (if cool = true ∧ 499 ≤ s.hearth.coolRun ∧ s.rd Reg.THM_THROTTLE = 1
            then t.hearth.thermal = 0 ∧ t.rd Reg.THM_THROTTLE = 0
            else t.hearth.thermal = s.hearth.thermal ∧ t.rd Reg.THM_THROTTLE = s.rd Reg.THM_THROTTLE)))) ∧
      (hot = true → s.rd Reg.THM_THROTTLE ≠ 1 → s.rd Reg.THM_SD_REQ ≠ 1 → below 420 → s.occurClass 0x006 0 ≠ 2 →
        Completes (.sensorSample temps expected warm) s (fun t =>
          t.rd Reg.THM_THROTTLE = 1 ∧ bit (t.rd Reg.FLT_STAT 0x006) 0 = 1 ∧ t.hearth.thermal = min 10 (s.hearth.place + 1))) ∧
      (s.rd Reg.THM_THROTTLE = 1 → s.hearth.sdHot = false → ¬ below 420 → s.occurClass 0x006 1 ≠ 2 → s.hearth.place ≤ 10 →
        OnlyCap s → s.hearth.peak = 0 → Completes (.sensorSample temps expected warm) s (fun t =>
          t.rd Reg.THM_SD_REQ = 1 ∧ bit (t.rd Reg.FLT_STAT 0x006) 1 = 1 ∧ Shows t 10)) ∧
      (s.rd Reg.THM_THROTTLE = 1 → s.rd Reg.THM_SD_REQ = 1 → below 400 →
        Completes (.sensorSample temps expected warm) s (fun t => t.rd Reg.THM_SD_REQ = 0 ∧ t.pins.alertLow = false))) ∧
    (∀ n < 32, exec (.thermalTrip n) s = .next (s.answer
      (({ s with hearth := { s.hearth with trips := SMap.put s.hearth.trips n 0 } } : State).raise 0x006 2 none 0)))

/-- R313, R314, R315: paired readings more than 4 °C apart set DISAGREE and others clear it; an implausible sensor is marked failed and a
plausible one is not; SENS_CLR admits exactly the failed sensors that have read well for 10 s. -/
def Clause.SensorsFailAndReturn : Prop :=
  ∀ s : State, s.ready = true →
    (∀ n < 32, let apart := (s.sensor (2 * n) - s.sensor (2 * n + 1)).natAbs
      (16 < apart → s.rd Reg.THM_DISAGREE 0 n = 1 → exec (.sensorDisagree n) s = .next s) ∧
      (16 < apart → s.rd Reg.THM_DISAGREE 0 n ≠ 1 → s.occurClass 0x006 3 ≠ 2 → Completes (.sensorDisagree n) s (fun t =>
        t.rd Reg.THM_DISAGREE 0 n = 1 ∧ bit (t.rd Reg.FLT_STAT 0x006) 3 = 1 ∧ t.hearth = s.hearth)) ∧
      (apart ≤ 16 → Completes (.sensorDisagree n) s (fun t =>
        t.rd Reg.THM_DISAGREE 0 n = 0 ∧ RegsOnly s t [Reg.THM_DISAGREE.key 0 n]))) ∧
    (∀ i < 106, ∀ expT,
      (s.implausible i expT = false → exec (.sensorFail i expT) s = .next s) ∧
      (s.sensorFailed i = true → exec (.sensorFail i expT) s = .next s) ∧
      (i < 88 → s.implausible i expT = true → s.sensorFailed i = false → s.sensorFailed (twinOf i) = false → s.occurClass 0x006 4 ≠ 2 →
        Completes (.sensorFail i expT) s (fun t =>
          t.sensorFailed i = true ∧ (∀ j < 106, j ≠ i → t.sensorFailed j = s.sensorFailed j) ∧ bit (t.rd Reg.FLT_STAT 0x006) 4 = 1))) ∧
    (∀ ag, s.mayWrite ag 0x006 = true → Completes (.sensClr ag) s (fun t =>
      ∀ i < 106, t.sensorFailed i = (s.sensorFailed i && !decide (100000 ≤ SMap.get 0 s.hearth.goodRun i))))

/-- Temperatures throttle the package, and sensors fail and return. The model's choices behind it: log entries 8 and 22. -/
def Obligations.Temperatures : Prop :=
  Clause.TemperatureLimits ∧ Clause.SensorsFailAndReturn

/-- R316 to R319, R340: RSEQ applies the tray's pending readings together, restarts the heartbeat age and sets the derate; data 2 s old set
HB_LOST and impose SAFE_PCT of EFF_CAP; flow reported more than 30 % above the implied one sets IMPLAUS; SUDDEN returns to 0 only with flow,
a stable outlet and no leak. -/
def Obligations.Coolant : Prop :=
  ∀ s : State, s.ready = true →
    (s.i3cUp = false → exec .rseq s = .next s) ∧
    (let v := fun i => SMap.get 0 s.soh.trayPend i
     let y := (((s.wr0 Reg.THM_T_IN (v 0x10)).wr0 Reg.THM_T_OUT (v 0x11)).wr0 Reg.THM_FLOW (v 0x12)).wr0 Reg.THM_LEAK (v 0x13)
     let used := y.impliedFlow.elim (y.rd Reg.THM_FLOW) (fun q => min (y.rd Reg.THM_FLOW) q)
     s.i3cUp = true → y.rd Reg.THM_LEAK = 0 → s.rd Reg.THM_NOM_FLOW ≤ 5 * used → s.hearth.outHist = [] → Completes .rseq s (fun t =>
       t.rd Reg.THM_T_IN = v 0x10 % 2 ^ 10 ∧ t.rd Reg.THM_T_OUT = v 0x11 % 2 ^ 10 ∧ t.rd Reg.THM_FLOW = v 0x12 % 2 ^ 16 ∧
       t.rd Reg.THM_LEAK = 0 ∧ t.rd Reg.PWR_HB_AGE = 0 ∧ t.rd Reg.PWR_HB_LOST = 0 ∧
       t.rd Reg.PWR_TRAYCAP = (if v 0x14 = 0 then 0 else max 120 (v 0x14)) % 2 ^ 9 ∧ t.rd Reg.THM_FLOW_USED = used % 2 ^ 16 ∧
       t.rd Reg.THM_DERATE_CAP = derateAt s.derateTable used % 2 ^ 16 ∧ t.rd Reg.THM_SUDDEN = s.rd Reg.THM_SUDDEN)) ∧
    (s.rd Reg.PWR_HB_LOST = 1 → exec .hbLost s = .next s) ∧
    (s.rd Reg.PWR_HB_LOST ≠ 1 → s.occurClass 0x004 4 ≠ 2 → Completes .hbLost s (fun t =>
      t.rd Reg.PWR_HB_LOST = 1 ∧ t.hearth.safeCap = s.rd Reg.PWR_EFF_CAP * s.hearth.lim.safePct / 100 ∧
      bit (t.rd Reg.FLT_STAT 0x004) 4 = 1)) ∧
    (s.impliedFlow = none → exec .flowImplaus s = .next s) ∧
    (∀ q, s.impliedFlow = some q →
      (13 * q < 10 * s.rd Reg.THM_FLOW → s.rd Reg.THM_IMPLAUS = 1 → exec .flowImplaus s = .next s) ∧
      (13 * q < 10 * s.rd Reg.THM_FLOW → s.rd Reg.THM_IMPLAUS ≠ 1 → s.occurClass 0x006 6 ≠ 2 → Completes .flowImplaus s (fun t =>
        t.rd Reg.THM_IMPLAUS = 1 ∧ bit (t.rd Reg.FLT_STAT 0x006) 6 = 1)) ∧
      (10 * s.rd Reg.THM_FLOW ≤ 13 * q → Completes .flowImplaus s (fun t =>
        t.rd Reg.THM_IMPLAUS = 0 ∧ RegsOnly s t [Reg.THM_IMPLAUS.key 0 0]))) ∧
    (let may := s.rd Reg.THM_SUDDEN = 1 ∧ 40 * s.rd Reg.THM_NOM_FLOW ≤ 100 * s.rd Reg.THM_FLOW_USED ∧ s.rd Reg.THM_LEAK = 0 ∧
       stableOutlet s.hearth.outHist = true
     (may → Completes .suddenRelease s (fun t => t.rd Reg.THM_SUDDEN = 0 ∧ t.larder = s.larder)) ∧
     (¬ may → exec .suddenRelease s = .next s))

/-! ### Soholt -/

/-- How a write of flash reads back, from the free value that the model takes for it (log entry 6): 0 as written, 1 from the second block,
2 not at all. -/
def flashVerdict (s : State) : Nat :=
  let v := (Config.freeWord s.free).toNat
  if bit v 0 = 0 then 0 else if bit v 1 = 0 then 1 else 2

/-- A write of flash that gives `done` where it is read back, and `kept` where it is not; a failed read-back is reported, R333. -/
def FlashWrites (s : State) (c : Instr) (done kept both : State → Prop) : Prop :=
  (flashVerdict s = 0 → Completes c s (fun t => done t ∧ both t)) ∧
  (flashVerdict s = 1 → s.occurClass 0x008 3 ≠ 2 → Completes c s (fun t => done t ∧ both t ∧ bit (t.rd Reg.FLT_STAT 0x008) 3 = 1)) ∧
  (flashVerdict s = 2 → s.occurClass 0x008 3 ≠ 2 → Completes c s (fun t => kept t ∧ both t ∧ bit (t.rd Reg.FLT_STAT 0x008) 3 = 1))

/-- No transaction of Soholt is open and no update is being verified. -/
def SohFree (s : State) : Prop :=
  s.rd Reg.UPD_STATE ≠ 2 ∧ ∀ u < 5, s.rd Reg.CFG_TXN_STATE 0 u = 1 → s.rd Reg.CFG_TXN_OWNER_SOH 0 u ≠ 1

/-- R331, R332, R349: a restart counts itself and ends the loads in progress as failed, and no other; Soholt returns to service once; an image
without its self-check falls back to the other slot and to the previous copies of its components, and an image that has passed it does not. -/
def Clause.SoholtRestarts : Prop :=
  ∀ s : State, s.ready = true →
    let loads := fun (t : State) => (∀ c < 64,
        t.rd Reg.CTX_LOAD_STATE c = (if s.rd Reg.CTX_LOAD_STATE c = 1 then 3 else s.rd Reg.CTX_LOAD_STATE c) ∧
        t.rd Reg.CTX_LOAD_CURVE_STATE c = (if s.rd Reg.CTX_LOAD_CURVE_STATE c = 1 then 3 else s.rd Reg.CTX_LOAD_CURVE_STATE c)) ∧
      (∀ n < 12, t.rd Reg.STC_STATE n = (if s.rd Reg.STC_STATE n = 1 then 3 else s.rd Reg.STC_STATE n)) ∧
      t.larder = s.larder ∧ t.pantry = s.pantry ∧ t.staging = s.staging ∧ t.ctxs = s.ctxs
    (∀ cause, cause < 3 → SohFree s → s.occurClass 0x008 (if cause = 0 then 0 else 1) ≠ 2 → Completes (.sohRestart cause) s (fun t =>
      t.rd Reg.SOH_RESTARTING = 1 ∧ t.rd Reg.SOH_RESTARTS = satInc 255 (s.rd Reg.SOH_RESTARTS) % 2 ^ 8 ∧
      bit (t.rd Reg.FLT_STAT 0x008) (if cause = 0 then 0 else 1) = 1 ∧ loads t)) ∧
    (s.rd Reg.SOH_RESTARTING ≠ 1 → exec .sohInService s = .next s) ∧
    (s.rd Reg.SOH_RESTARTING = 1 → s.soh.heldLost = 0 → Completes .sohInService s (fun t =>
      t.rd Reg.SOH_RESTARTING = 0 ∧ t.rd Reg.SOH_SLOT = s.flash.slot % 2 ∧ t.soh.held = [] ∧ t.soh.actMask = 0 ∧
      t.larder = s.larder ∧ t.ctxs = s.ctxs)) ∧
    (s.soh.selfCheck = false → exec .updFallback s = .next s) ∧
    (s.soh.selfCheck = true → SohFree s → s.occurClass 0x009 1 ≠ 2 → Completes .updFallback s (fun t =>
      t.rd Reg.SOH_FALLBACK = 1 ∧ t.rd Reg.SOH_RESTARTING = 1 ∧ t.flash.slot = 1 - s.flash.slot ∧
      t.flash.active = s.flash.previous.foldl (fun m x => x.2.elim (SMap.del m x.1) (SMap.put m x.1)) s.flash.active ∧ t.flash.pend = s.flash.pend ∧
      t.soh.selfCheck = false ∧ bit (t.rd Reg.FLT_STAT 0x009) 1 = 1 ∧ loads t))

/-- R333, R336, R338, R341, R345: an export copies the selected dump slot, or the calibration image, to staging offset 0x3000000 when it ends,
one at a time; a capture goes to the oldest unpinned slot outside a restart; CFG_SAVE stores the listed fields; what cannot be read
back keeps its old contents and is reported; CAL_LOCK = 1 stays;
PC_GO sets PC_REQ; LOG_SEL is taken. -/
def Obligations.LogsDumpsAndStores : Prop :=
  ∀ s : State, s.ready = true →
    (∀ ag, s.mayWrite ag 0x008 = true →
      (∀ c ∈ [Instr.dumpExport ag, .calExport ag], s.soh.exporting ≠ none → Completes c s (fun t => RegsOnly s t [])) ∧
      (s.soh.exporting = none →
        Completes (.dumpExport ag) s (fun t => t.regs = s.regs ∧ t.flash = s.flash ∧ t.staging = s.staging ∧
          t.soh = { s.soh with exporting := some ((s.flash.dumps.getD (s.rd Reg.SOH_DUMP_SEL) Dump.empty).bytes) }) ∧
        Completes (.calExport ag) s (fun t => t.regs = s.regs ∧ t.flash = s.flash ∧ t.staging = s.staging ∧
          t.soh = { s.soh with exporting := some s.calImage })) ∧
      Completes (.calLock ag 1) s (fun t => t.rd Reg.SOH_CAL_LOCK = 1 ∧ RegsOnly s t [Reg.SOH_CAL_LOCK.key 0 0]) ∧
      Completes (.calLock ag 0) s (fun t => RegsOnly s t []) ∧
      FlashWrites s (.cfgSave ag)
        (fun t => ∀ x ∈ configFields, SMap.find t.flash.config (x.1.key x.2.1 x.2.2) = some (s.rd x.1 x.2.1 x.2.2))
        (fun t => t.flash.config = s.flash.config) (fun t => t.flash.active = s.flash.active ∧ t.larder = s.larder) ∧
      Completes (.pcGo ag) s (fun t => t.soh.pcReq = true ∧ t.rd Reg.FLT_HALTED = s.rd Reg.FLT_HALTED ∧ t.larder = s.larder) ∧
      (∀ v, v < 2 ^ 32 → Completes (.logSel ag v) s (fun t => t.rd Reg.SOH_LOG_SEL = v ∧ RegsOnly s t [Reg.SOH_LOG_SEL.key 0 0]))) ∧
    (s.soh.exporting = none → exec .exportComplete s = .next s) ∧
    (∀ b, s.soh.exporting = some b → exec .exportComplete s = .next { s with
      soh := { s.soh with exporting := none }, staging := s.staging.writeBytes 0x3000000 b }) ∧
    (s.soh.capture = none ∨ s.rd Reg.SOH_RESTARTING = 1 → exec .dumpWrite s = .next s) ∧
    (∀ c, s.soh.capture = some c → s.rd Reg.SOH_RESTARTING ≠ 1 →
      (∀ i, oldestUnpinned s.flash.dumps = some i → FlashWrites s .dumpWrite
        (fun t => t.flash.dumps = s.flash.dumps.set i
          ⟨false, true, c.redacted, c.serial, s.flash.bootGen, s.timeUs, c.sealMask, s.flash.dumpAge + 1, c.body⟩)
        (fun t => t.flash.dumps = s.flash.dumps) (fun t => t.soh.capture = none ∧ t.staging = s.staging)) ∧
      (oldestUnpinned s.flash.dumps = none → s.occurClass 0x008 2 ≠ 2 → Completes .dumpWrite s (fun t =>
        t.soh.capture = none ∧ t.flash.dumps = s.flash.dumps ∧ bit (t.rd Reg.FLT_STAT 0x008) 2 = 1)))

/-- What R347 finds in a staged image, in its order; 0 nothing. -/
def imageCode (s : State) (sig ucode : Bool) (readBack : Nat) : Nat :=
  let h := s.staging.readBytes 0 128
  let w := fun i => leNat ((h.drop (4 * i)).take 4)
  let comp := bits (w 1) 7 0
  let body := s.staging.readBytes 128 (w 3)
  if !imageFormatOk h (s.rd Reg.UPD_LEN) then 2
  else if bits (w 1) 31 16 < s.flash.minSvn then 3
  else if sha256 body ≠ (h.drop 32).take 32 then 4
  else if !sig then 5
  else if !((comp != 2 || seqImageOk body) && (comp != 3 || derateOk body) && (comp != 4 || planOk body)) then 6
  else if comp = 5 ∧ !ucode then 7
  else if 2 ≤ readBack then 8 else 0

/-- R346, R347, R350: OPEN starts reception with every chunk missing; CHECK counts the chunks not received; VERIFY starts on a whole image and
fails a short one with code 1; verification ends FAILED with the first code of R347 that applies, no component changed, or PENDING with
the component of the image; MIN_SVN rises only above its value and up to every component's. -/
def Clause.UpdatesAreVerified : Prop :=
  ∀ s : State, s.ready = true →
    (∀ ag, s.mayWrite ag 0x009 = true →
      (s.rd Reg.UPD_STATE ≠ 2 → Completes (.updOpen ag) s (fun t =>
        t.rd Reg.UPD_STATE = 1 ∧ t.rd Reg.UPD_FAIL = 0 ∧ t.rd Reg.UPD_MAP = 0 ∧
        t.rd Reg.UPD_MISSING = updChunks (s.rd Reg.UPD_LEN) % 2 ^ 10 ∧ t.soh.covered = [] ∧ t.staging = s.staging ∧ t.flash = s.flash)) ∧
      (s.rd Reg.UPD_STATE = 2 → Completes (.updOpen ag) s (fun t => RegsOnly s t [])) ∧
      Completes (.check ag) s (fun t => t.rd Reg.UPD_MISSING =
        ((List.range (updChunks (s.rd Reg.UPD_LEN))).filter (fun k => bit (s.rd Reg.UPD_MAP) k == 0)).length % 2 ^ 10 ∧
        t.rd Reg.UPD_STATE = s.rd Reg.UPD_STATE ∧ t.staging = s.staging) ∧
      (s.rd Reg.UPD_STATE = 1 → s.rd Reg.UPD_MISSING = 0 → Completes (.verify ag) s (fun t =>
        t.rd Reg.UPD_STATE = 2 ∧ RegsOnly s t [Reg.UPD_STATE.key 0 0])) ∧
      (s.rd Reg.UPD_STATE = 1 → s.rd Reg.UPD_MISSING ≠ 0 → s.occurClass 0x009 0 ≠ 2 → Completes (.verify ag) s (fun t =>
        t.rd Reg.UPD_STATE = 4 ∧ t.rd Reg.UPD_FAIL = 1 ∧ bit (t.rd Reg.FLT_STAT 0x009) 0 = 1)) ∧
      (s.rd Reg.UPD_STATE ≠ 1 → Completes (.verify ag) s (fun t => RegsOnly s t [])) ∧
      (∀ v, v < 2 ^ 16 → let may := s.flash.minSvn < v ∧ ∀ x ∈ s.flash.active ++ s.flash.pend, v ≤ x.2.svn
        (¬ may → Completes (.svnRaise ag v) s (fun t => t.flash = s.flash ∧ t.regs = s.regs)) ∧
        (may → FlashWrites s (.svnRaise ag v) (fun t => t.flash.minSvn = v) (fun t => t.flash.minSvn = s.flash.minSvn)
          (fun t => t.flash.active = s.flash.active ∧ t.flash.pend = s.flash.pend)))) ∧
    (∀ sig ucode back,
      (s.rd Reg.UPD_STATE ≠ 2 → exec (.verifyDone sig ucode back) s = .next s) ∧
      (s.rd Reg.UPD_STATE = 2 → imageCode s sig ucode back ≠ 0 → s.occurClass 0x009 0 ≠ 2 → s.occurClass 0x008 3 ≠ 2 →
        Completes (.verifyDone sig ucode back) s (fun t =>
          t.rd Reg.UPD_STATE = 4 ∧ t.rd Reg.UPD_FAIL = imageCode s sig ucode back ∧ t.flash.pend = s.flash.pend ∧
          t.flash.active = s.flash.active ∧ bit (t.rd Reg.FLT_STAT 0x009) 0 = 1)) ∧
      (s.rd Reg.UPD_STATE = 2 → imageCode s sig ucode back = 0 → back = 0 ∨ s.occurClass 0x008 3 ≠ 2 → Completes (.verifyDone sig ucode back) s (fun t =>
        (back = 1 → bit (t.rd Reg.FLT_STAT 0x008) 3 = 1) ∧
        let h := s.staging.readBytes 0 128
        let w := fun i => leNat ((h.drop (4 * i)).take 4)
        t.rd Reg.UPD_STATE = 3 ∧ t.flash.active = s.flash.active ∧ t.flash.pend = SMap.put s.flash.pend (bits (w 1) 7 0)
          ⟨bits (w 2) 23 0, bits (w 1) 31 16, digNat ((h.drop 32).take 32), w 4, s.staging.readBytes 128 (w 3)⟩)))

/-- Soholt restarts and returns; updates are received, verified and fall back. The model's choices behind it: log entry 23. -/
def Obligations.SoholtAndUpdates : Prop :=
  Clause.SoholtRestarts ∧ Clause.UpdatesAreVerified

/-- R339 to R341, R343: the tray's values wait for RSEQ; SETDASA and SETAASA give an address, RSTDAA takes it away, GETSTATUS reports; reading
STATUS releases ALERT_N but for SD_REQ; ACT returns the words of the oldest record in order, and a free value where none is queued
(log entry 6); a record due is queued, at most 16. While Soholt does not answer, nothing changes. -/
def Obligations.TrayInterface : Prop :=
  ∀ s : State, s.ready = true →
    (s.i3cUp = false → (∀ ix v, exec (.trayWrite ix v) s = .next s) ∧ exec .i3cStatusRead s = .next s ∧ exec .act s = .next s) ∧
    (∀ ix v, v < 2 ^ 16 → s.i3cUp = true → 0x10 ≤ ix → ix ≤ 0x14 → Completes (.trayWrite ix v) s (fun t =>
      SMap.get 0 t.soh.trayPend ix = v ∧ (∀ j, j ≠ ix → SMap.get 0 t.soh.trayPend j = SMap.get 0 s.soh.trayPend j) ∧
      t.rd Reg.THM_T_IN = s.rd Reg.THM_T_IN ∧ t.rd Reg.THM_T_OUT = s.rd Reg.THM_T_OUT ∧ t.rd Reg.THM_FLOW = s.rd Reg.THM_FLOW)) ∧
    (∀ ix v, ix < 0x10 ∨ 0x14 < ix → exec (.trayWrite ix v) s = .next s) ∧
    (let live := s.rd Reg.SOH_RESTARTING ≠ 1 ∧ s.pins.vaux33Good = true
     ∀ a d, a < 128 → d < 128 →
      (¬ live → ∀ k, exec (.i3cCcc k a d) s = .next s) ∧
      (live → a = s.staticAddr → Completes (.i3cCcc 0 a d) s (fun t => t.soh.daValid = true ∧ t.rd Reg.SOH_DADDR = d)) ∧
      (live → a ≠ s.staticAddr → exec (.i3cCcc 0 a d) s = .next s) ∧
      (live → Completes (.i3cCcc 1 a d) s (fun t => t.soh.daValid = true ∧ t.rd Reg.SOH_DADDR = s.staticAddr % 128)) ∧
      (live → Completes (.i3cCcc 2 a d) s (fun t => t.soh.daValid = false ∧ t.rd Reg.SOH_DADDR = 0)) ∧
      (live → s.soh.daValid = true → Completes (.i3cCcc 3 a d) s (fun t =>
        t.soh.lastRead = Config.getStatus s.trayStatus ∧ t.soh.daValid = true ∧ t.rd Reg.SOH_DADDR = s.rd Reg.SOH_DADDR))) ∧
    (s.i3cUp = true → Completes .i3cStatusRead s (fun t =>
      t.soh.lastRead = s.trayStatus ∧ t.pins = { s.pins with alertLow := s.rd Reg.THM_SD_REQ == 1 })) ∧
    (s.i3cUp = true → s.soh.compat = [] → Completes .act s (fun t =>
      t.soh.lastRead = (Config.freeWord s.free).toNat ∧ t.soh.compat = [] ∧ t.free = s.free + 1)) ∧
    (∀ w ws r, s.i3cUp = true → s.soh.compat = (w :: ws) :: r → Completes .act s (fun t =>
      t.soh.lastRead = w ∧ t.soh.compat = (if ws = [] then r else ws :: r))) ∧
    (s.soh.compatDue = [] → exec .compatRecord s = .next s) ∧
    (∀ d r, s.soh.compatDue = d :: r → Completes .compatRecord s (fun t =>
      t.soh.compatDue = r ∧ t.soh.compat.length ≤ 16 ∧
      t.soh.compat.getLast? = some (d.set 0 (Config.actionCode (d.getD 0 0)) ++ [s.rd Reg.THM_TJ_MAX, s.rd Reg.PWR_P_IN])))

/-! ### Attestation and seals -/

/-- What R355 finds in a whole manifest for a partition, in its order; 0 nothing. -/
def manifestCode (s : State) (p : Nat) (m : List Byte) (sig : Bool) (k : List Byte) : Nat :=
  let w := fun i => leNat ((m.drop (4 * i)).take 4)
  let id := (m.drop 20).take 16
  let e := fun i => (m.drop (128 + 1632 * i)).take 1632
  if !manifestOk m then 1
  else if !sig then 2
  else match manifestEntry m (w 3) s.flash.deviceId with
    | none => 3
    | some i =>
      if gcmTag k (id.take 12) (id ++ leBytes 16 s.flash.deviceId) (((e i).drop 1584).take 32) ≠ ((e i).drop 1616).take 16 then 4
      else if s.nOpen p ≠ 0 then 5
      else if s.flash.lifecycle ≠ 1 then 6
      else if s.isSealed p then 7 else 0

/-- A request of the seals was refused with a code, R355. -/
def SealRefused (t : State) (code : Nat) : Prop :=
  t.rd Reg.SEC_SEAL_STATE = 3 ∧ t.rd Reg.SEC_SEAL_CODE = code ∧ t.rd Reg.SEC_PART_WAIT = 0 ∧ t.sec.sealing = none ∧
    bit (t.rd Reg.FLT_STAT 0x007) 0 = 1

/-- R355, R356: SEAL_GO takes a manifest, or a part of one, from staging, and refuses a length out of range with CODE 1; SEAL_DONE seals the
partition, or refuses with the first code of R355 that applies and seals nothing; 10 s without a further part refuse with CODE 8. -/
def Clause.SealsAreTaken : Prop :=
  ∀ s : State, s.ready = true → s.occurClass 0x007 0 ≠ 2 →
    let p := s.rd Reg.SEC_SEAL_PART
    let len := s.rd Reg.SEC_SEAL_LEN
    (∀ ag more, s.mayWrite ag 0x007 = true → s.shadowMapTouches p = true → s.sec.sealing = none →
      Completes (.sealGo ag more) s (fun t => SealRefused t 5 ∧ t.sec.sealed = s.sec.sealed)) ∧
    (∀ ag more, s.mayWrite ag 0x007 = true → s.shadowMapTouches p = false →
      (s.sec.sealing = none → (len = 0 ∨ 2097152 < len) → Completes (.sealGo ag more) s (fun t => SealRefused t 1 ∧ t.sec.sealed = s.sec.sealed)) ∧
      (0 < len → len ≤ 2097152 → ∀ old, (s.sec.sealing = none ∧ old = []) ∨ (∃ x, s.sec.sealing = some x ∧ x.last = false ∧ x.part = p ∧ x.bytes = old) →
        Completes (.sealGo ag more) s (fun t =>
          t.rd Reg.SEC_SEAL_STATE = 1 ∧ t.rd Reg.SEC_SEAL_CODE = 0 ∧ t.rd Reg.SEC_PART_WAIT = (if more then 1 else 0) ∧
          t.rd Reg.SEC_NPART = (if more then (s.rd Reg.SEC_NPART + 1) % 2 ^ 8 else s.rd Reg.SEC_NPART) ∧
          t.sec.sealed = s.sec.sealed ∧ t.staging = s.staging ∧ ∃ y, t.sec.sealing = some y ∧ y.part = p ∧ y.last = !more ∧
            y.bytes = old ++ s.staging.readBytes (64 * s.rd Reg.SEC_SEAL_SRC) len)) ∧
      (∀ x, s.sec.sealing = some x → x.last = true → Completes (.sealGo ag more) s (fun t => RegsOnly s t []))) ∧
    (∀ sig k, (s.sec.sealing = none ∨ (∃ x, s.sec.sealing = some x ∧ x.last = false) → exec (.sealDone sig k) s = .next s) ∧
      (∀ x, s.sec.sealing = some x → x.last = true → x.part < 4 →
        let code := manifestCode s x.part x.bytes sig k
        (code ≠ 0 → Completes (.sealDone sig k) s (fun t => SealRefused t code ∧ t.sec.sealed = s.sec.sealed ∧
          ∀ q < 4, t.isSealed q = s.isSealed q)) ∧
        (code = 0 → Completes (.sealDone sig k) s (fun t =>
          t.rd Reg.SEC_SEAL_STATE = 2 ∧ t.sec.sealing = none ∧ t.isSealed x.part = true ∧
          (∀ q < 4, q ≠ x.part → t.isSealed q = s.isSealed q) ∧
          ∃ y, SMap.find t.sec.sealed x.part = some y ∧ y.mdig = digNat (sha256 x.bytes) ∧ y.modelId = (x.bytes.drop 20).take 16)))) ∧
    (s.partsOpen = false → exec .sealPartTimeout s = .next s) ∧
    (s.partsOpen = true → Completes .sealPartTimeout s (fun t => SealRefused t 8 ∧ t.sec.sealed = s.sec.sealed))

/-- R352, R359: UNSEAL_GO refuses with CODE 5 while a context of the partition is not FREE, else shows its stacks zeroing; at its end every byte
of its stacks is 0 and the seal is gone, and no other stack's byte changes; a valid lifecycle token moves PRODUCTION to RETURNED,
any other is refused and changes nothing of it. -/
def Clause.UnsealsAndLifecycle : Prop :=
  ∀ s : State, s.ready = true →
    (∀ ag, s.mayWrite ag 0x007 = true → s.sec.sealing = none → let p := s.rd Reg.SEC_SEAL_PART
      (s.nOpen p ≠ 0 → s.occurClass 0x007 0 ≠ 2 → Completes (.unsealGo ag) s (fun t => SealRefused t 5 ∧ t.larder = s.larder)) ∧
      (s.nOpen p = 0 → Completes (.unsealGo ag) s (fun t =>
        t.sec.unsealing = (if p ∈ s.sec.unsealing then s.sec.unsealing else s.sec.unsealing ++ [p]) ∧ (∀ n ∈ s.stacksOf p, t.rd Reg.MEM_ZEROING n = 1) ∧ t.sec.sealed = s.sec.sealed ∧ t.larder = s.larder))) ∧
    (s.sec.unsealing = [] → exec .unsealDone s = .next s) ∧
    (∀ p r, s.sec.unsealing = p :: r → p < 4 → Completes .unsealDone s (fun t =>
      (∀ n ∈ s.stacksOf p, t.rd Reg.MEM_ZEROING n = 0 ∧ ∀ a, larderAddr n 0 ≤ a → a < larderAddr n 0 + 2 ^ 36 → t.larder.read a = 0) ∧
      (∀ a, (∀ n ∈ s.stacksOf p, a < larderAddr n 0 ∨ larderAddr n 0 + 2 ^ 36 ≤ a) → t.larder.read a = s.larder.read a) ∧
      t.isSealed p = false ∧ SMap.find t.sec.sealed p = none ∧ t.sec.unsealing = s.sec.unsealing.filter (fun q => q != p) ∧
      ∀ q < 4, q ≠ p → t.isSealed q = s.isSealed q)) ∧
    (∀ ag dev cnt sig, s.mayWrite ag 0x007 = true →
      let valid := s.flash.lifecycle = 1 ∧ dev = s.flash.deviceId ∧ cnt = s.flash.attCount ∧ sig = true
      (valid → Completes (.lcReturn ag dev cnt sig) s (fun t => t.flash.lifecycle = 2 ∧ ∀ p < 4, t.isSealed p = false)) ∧
      (¬ valid → s.occurClass 0x007 3 ≠ 2 → Completes (.lcReturn ag dev cnt sig) s (fun t =>
        t.flash.lifecycle = s.flash.lifecycle ∧ t.sec = s.sec ∧ t.larder = s.larder ∧ bit (t.rd Reg.FLT_STAT 0x007) 3 = 1)))

/-- Partitions are sealed and unsealed, and the lifecycle moves on a valid token. The model's choices behind it: log entries 8 and 23. -/
def Obligations.Seals : Prop :=
  Clause.SealsAreTaken ∧ Clause.UnsealsAndLifecycle

/-- R353, R354: ATT_CERT copies the certificate; ATT_GO counts and snapshots a report within the asker's scope and its staging area, or is refused
without either; ATT_DONE writes the report and its signature where it was asked for. -/
def Obligations.Reports : Prop :=
  ∀ s : State, s.ready = true →
    (∀ ag, s.mayWrite ag 0x007 = true →
      let scope := s.rd Reg.SEC_ATT_SCOPE
      let dst := 64 * s.rd Reg.SEC_ATT_DST
      let area := attArea scope
      let refused := s.flash.lifecycle = 3 ∨ dst < area.1 ∨ area.1 + area.2 ≤ dst ∨ (∃ p, s.agentPart ag = some p ∧ scope ≠ p) ∨
        s.sec.report ≠ none
      Completes (.attCert ag) s (fun t => t.staging = s.staging.writeBytes dst s.flash.cert ∧ t.regs = s.regs ∧ t.sec = s.sec) ∧
      (refused → s.occurClass 0x007 2 ≠ 2 → Completes (.attGo ag) s (fun t =>
        t.rd Reg.SEC_ATT_STATE = 3 ∧ t.flash.attCount = s.flash.attCount ∧ t.sec = s.sec ∧ t.staging = s.staging ∧
        bit (t.rd Reg.FLT_STAT 0x007) 2 = 1)) ∧
      (¬ refused → FlashWrites s (.attGo ag) (fun t => t.flash.attCount = (s.flash.attCount + 1) % 2 ^ 32)
        (fun t => t.flash.attCount = s.flash.attCount) (fun t =>
        t.rd Reg.SEC_ATT_STATE = 1 ∧ t.staging = s.staging ∧ ∃ b, t.sec.report = some (b, dst) ∧ b.take 4 = leBytes 4 0x54505241))) ∧
    (∀ sig, (s.sec.report = none → exec (.attDone sig) s = .next s) ∧
      (∀ b dst, s.sec.report = some (b, dst) → Completes (.attDone sig) s (fun t =>
        t.staging = s.staging.writeBytes dst (b ++ sig) ∧ t.rd Reg.SEC_ATT_LEN = (b ++ sig).length % 2 ^ 20 ∧
        t.rd Reg.SEC_ATT_STATE = 2 ∧ t.sec.report = none ∧ t.sec.sealed = s.sec.sealed)))

/-! ### Faults, fences and recovery -/

/-- R372, R373, R375: FT_LATCH clears only while no page holds a fault of class FT; FENCE_GO fences a unit once, a Porch bridge leaving service
and a tile leaving the map, with a capture, and names no other unit. -/
def Obligations.LatchAndFences : Prop :=
  ∀ (ag : Agent) (s : State), s.ready = true → s.mayWrite ag 0x002 = true →
    (s.pagesOfClass 2 ≠ 0 → Completes (.ftLatch ag) s (fun t => RegsOnly s t [])) ∧
    (s.pagesOfClass 2 = 0 → s.rd Reg.FLT_FT_LATCH = 1 → Completes (.ftLatch ag) s (fun t =>
      t.rd Reg.FLT_FT_LATCH = 0 ∧ t.rd Reg.FLT_PAIR_FAULT = 0 ∧ t.rd Reg.FLT_HALTED = s.rd Reg.FLT_HALTED ∧ t.larder = s.larder)) ∧
    (let page := s.rd Reg.FLT_FENCE_PAGE
     let sub := s.rd Reg.FLT_FENCE_SUB
     (fenceable page sub = false ∨ s.isFenced page (fenceSub page sub) = true → Completes (.fenceGo ag) s (fun t => RegsOnly s t [])) ∧
     (∀ d < 4, page = 0x60 + d → sub = 4 → s.isFenced page 4 = false → s.soh.capture = none →
       Completes (.fenceGo ag) s (fun t =>
         t.isFenced page 4 = true ∧ t.rd Reg.BE_FENCED d 4 = 1 ∧ t.rd Reg.BE_UP d 4 = 0 ∧ t.rd Reg.FLT_REPLACE_REQ = 1 ∧
         t.soh.capture ≠ none ∧ bit (t.rd Reg.FLT_STAT 0x002) 4 = 1 ∧ ∀ q u, (q, u) ≠ (page, 4) → u < 8 → t.isFenced q u = s.isFenced q u)) ∧
     (∀ n l, n < 176 → page = 0x100 + n → s.isFenced page 0 = false → s.ctxsOnTile n = [] → s.logicalOf n = some l → s.soh.capture = none →
       Completes (.fenceGo ag) s (fun t =>
         t.isFenced page 0 = true ∧ t.rd Reg.DARN_PRESENT 0 l = 0 ∧ t.rd Reg.DARN_PENDING 0 l = 1 ∧ t.soh.capture ≠ none ∧
         bit (t.rd Reg.FLT_STAT 0x002) 4 = 1)))

/-- R378, R380, R382: a check declares nothing while hangs are off or the package is halted, and nothing where no engine is pending; the one
engine that has been pending without progress for PROG_WIN is declared hung on its lane; a turn that ends without progress kills its
suspect and the next turn follows; one with progress, or on another lane, ends nothing. -/
def Clause.HangsAndTurns : Prop :=
  ∀ s : State, s.ready = true →
    (let all := (List.range 5).flatMap (fun l => (s.laneEngines l).map (fun e => (l, e)))
     let pend := all.filter (fun e => !(s.pendingFor e.2.1 e.2.2).isEmpty && !s.isFenced e.2.1 e.2.2)
     (pend = [] → exec .hangCheck s = .next { s with watch := [] }) ∧
     (s.rd Reg.HNG_HANG_EN = 0 ∨ s.rd Reg.FLT_HALTED = 1 → Completes .hangCheck s (fun t => t = { s with watch := t.watch })) ∧
     (∀ l page xe, pend = [(l, (page, xe))] → s.rd Reg.HNG_HANG_EN ≠ 0 → s.rd Reg.FLT_HALTED ≠ 1 →
       let since := SMap.get s.timeUs s.watch (8 * page + xe)
       let y : State := { s with watch := SMap.put [] (8 * page + xe) since }
       (s.timeUs < since + 1000 * s.rd Reg.PROG_WIN page → exec .hangCheck s = .next y) ∧
       (since + 1000 * s.rd Reg.PROG_WIN page ≤ s.timeUs → s.laneOpen l = true ∨ s.laneDrains l = true → exec .hangCheck s = .next y) ∧
       (since + 1000 * s.rd Reg.PROG_WIN page ≤ s.timeUs → s.laneOpen l = false → s.laneDrains l = false →
         exec .hangCheck s = .next (s.answer (y.hangDeclare l page xe))))) ∧
    (∀ l < 5, let x := SMap.get Lane.empty s.lanes l
      let ends := s.rd Reg.HNG_RUNG 0 l = 1 ∧ s.rd Reg.HNG_TURN_VALID 0 l ≠ 0 ∧ x.passing = false ∧
        s.progCount (s.rd Reg.HNG_ENGINE 0 l) (s.rd Reg.HNG_REC_XE 0 l) = x.prog
      (¬ ends → exec (.replayTurnEnd l) s = .next s) ∧
      (ends → exec (.replayTurnEnd l) s = .next (s.answer (
        let c := s.rd Reg.HNG_TURN 0 l
        let y := (s.wr Reg.HNG_KILLED 0 l (setBit (s.rd Reg.HNG_KILLED 0 l) c)).count 0x003 6 1
        let y := (y.occur 0x003 1 (some c) 0).contextScrub c
        let z := SMap.get Lane.empty y.lanes l
        ({ y with lanes := SMap.set Lane.empty y.lanes l { z with failed := z.failed ++ [c] } } : State).nextTurn l))))

/-- R384, R386, R387: an engine scrub that passes its self-test ends the recovery, one that fails fences the engine; a rung that fails raises
RUNG_FAILED and the next begins, or the ladder ends at LADDER_MAX; a partition reset leaves every byte of the partition's stacks 0 and
its lane idle; none of them acts on a lane that is not at that rung. -/
def Clause.RungsOfTheLadder : Prop :=
  ∀ s : State, s.ready = true →
    (∀ l < 5, let page := s.rd Reg.HNG_ENGINE 0 l
      let xe := s.rd Reg.HNG_REC_XE 0 l
      let r := s.rd Reg.HNG_RUNG 0 l
      (∀ ok, r ≠ 2 ∨ s.rd Reg.HNG_PHASE 0 l ≠ 3 → exec (.engineScrub l ok) s = .next s) ∧
      (r = 2 → s.rd Reg.HNG_PHASE 0 l = 3 → Block.ofPage page = some .tile → Completes (.engineScrub l true) s (fun t =>
        t.rd Reg.HNG_RUNG 0 l = 0 ∧ t.rd Reg.HNG_PHASE 0 l = 0 ∧ t.rd Reg.HNG_TURN_VALID 0 l = 0 ∧
        (SMap.get Lane.empty t.lanes l).hist.getLast? = some (2, page, xe, s.timeUs) ∧ t.tiles = s.tiles ∧ t.fenced = s.fenced)) ∧
      (r = 2 → s.rd Reg.HNG_PHASE 0 l = 3 → exec (.engineScrub l false) s = .next (s.answer (
        let asked := (SMap.get Lane.empty s.lanes l).asked
        let f := s.fenceDo page xe (if asked then 0x002 else 0x003) 4 (!asked)
        let y := f.2.foldl State.contextScrub f.1
        (if asked then y else y.raise 0x003 4 none 0).laneEnd l 2))) ∧
      (r = 0 ∨ 5 ≤ r ∨ s.rd Reg.HNG_PHASE 0 l = 5 → exec (.rungFailed l) s = .next s) ∧
      (0 < r → r < 5 → s.rd Reg.HNG_PHASE 0 l ≠ 5 → let next := if l = 4 ∧ r = 2 then 4 else r + 1
        (s.rd Reg.HNG_LADDER_MAX < next → exec (.rungFailed l) s = .next (s.answer
          (((s.raise 0x003 2 none 0).wr Reg.HNG_PHASE 0 l 5).raise 0x003 3 none 0))) ∧
        (next ≤ s.rd Reg.HNG_LADDER_MAX → exec (.rungFailed l) s = .next (s.answer
          ((s.raise 0x003 2 none 0).takeRung l next false))))) ∧
    (∀ p bad, p < 4 →
      (s.rd Reg.HNG_RUNG 0 p ≠ 3 ∨ s.rd Reg.HNG_PHASE 0 p ≠ 4 → exec (.partitionReset p bad) s = .next s) ∧
      (s.rd Reg.HNG_RUNG 0 p = 3 → s.rd Reg.HNG_PHASE 0 p = 4 →
        let x := s.partReset p bad
        exec (.partitionReset p bad) s = .next (s.answer x) ∧ x.rd Reg.HNG_RUNG 0 p = 0 ∧ x.rd Reg.HNG_PHASE 0 p = 0 ∧
        ∀ n ∈ s.stacksOf p, ∀ a, larderAddr n 0 ≤ a → a < larderAddr n 0 + 2 ^ 36 → x.larder.read a = 0))

/-- Hangs are declared and replayed, and the rungs of the ladder end or give way to the next. The model's choices behind it: log entry 18.
-/
def Obligations.HangsAndRungs : Prop :=
  Clause.HangsAndTurns ∧ Clause.RungsOfTheLadder

/-- R381, R385, R390, R420: a recovery asked for on a lane that has one open is refused and changes nothing else, as is one outside the asker's
partition; otherwise a context is scrubbed and an engine is stopped for its scrub; ACTION 5 asks the tray for a power cycle and ACTION 6
takes a capture, where the buffer is free. -/
def Obligations.RecoveryOnRequest : Prop :=
  ∀ s : State, s.ready = true →
    (∀ ag c, c < 64 → s.mayWrite ag 0x003 = true →
      let lane := partOfCtx c
      let may := s.ctxAssigned c = true ∧ s.cstate c ≠ 2 ∧ (∀ p, s.agentPart ag = some p → p = lane) ∧
        (s.laneOpen lane = false ∨ s.rd Reg.HNG_PHASE 0 lane = 5)
      (¬ may → Completes (.contextScrub ag c) s (fun t => t.rd Reg.HNG_REFUSED = 1 ∧ RegsOnly s t [Reg.HNG_REFUSED.key 0 0])) ∧
      (may → s.laneOpen lane = false → exec (.contextScrub ag c) s = .next (s.answer
        (((s.dropLatch ag).wr Reg.HNG_REFUSED 0 0 0).contextScrub c))) ∧
      (may → s.laneOpen lane = false → s.cstate c = 0 → Completes (.contextScrub ag c) s (fun t =>
        t.rd Reg.HNG_REFUSED = 0 ∧ RegsOnly s t [Reg.HNG_REFUSED.key 0 0]))) ∧
    (∀ ag page, page < 4096 → s.mayWrite ag page = true →
      ((Block.ofPage page).any Block.isEngine = true → Block.ofPage page ≠ some .hst →
        exec (.scrub ag page) s = .next (s.answer ((s.dropLatch ag).recReq (s.agentPart ag) 2 0 page))) ∧
      ((Block.ofPage page).any Block.isEngine = false ∨ Block.ofPage page = some .hst →
        Completes (.scrub ag page) s (fun t => RegsOnly s t []))) ∧
    (∀ ag n, n < 176 → s.mayWrite ag (0x100 + n) = true →
      let lane := s.partOfTile n
      let may := (∀ p, s.agentPart ag = some p → p = lane) ∧ s.laneOpen lane = false
      (s.laneOpen lane = true → s.rd Reg.HNG_PHASE 0 lane ≠ 5 → Completes (.scrub ag (0x100 + n)) s (fun t =>
        t.rd Reg.HNG_REFUSED = 1 ∧ RegsOnly s t [Reg.HNG_REFUSED.key 0 0])) ∧
      (may → exec (.scrub ag (0x100 + n)) s = .next (s.answer
        ((((s.dropLatch ag).wr Reg.HNG_REFUSED 0 0 0).laneShow lane 2 3 (0x100 + n) 0).takeRung lane 2 true)))) ∧
    Completes .powerCycle s (fun t => t.rd Reg.HNG_REFUSED = 0 ∧ t.soh.pcReq = true ∧ t.larder = s.larder) ∧
    (s.soh.capture = none → Completes .captureOnly s (fun t =>
      t.rd Reg.HNG_REFUSED = 0 ∧ t.soh.capture ≠ none ∧ t.larder = s.larder ∧ t.ctxs = s.ctxs)) ∧
    (s.soh.capture ≠ none → s.occurClass 0x008 2 ≠ 2 → Completes .captureOnly s (fun t =>
      t.soh.capture = s.soh.capture ∧ bit (t.rd Reg.FLT_STAT 0x008) 2 = 1))

/-! ### The queue, time, reset and the invariants -/

/-- A step serves the command at the front of the queue, with the queue's rest; on an empty queue one µs passes (the model's choice, log
entry 2). -/
def Obligations.StepServesTheFrontCommand : Prop :=
  (∀ (c : Instr) (r : List Instr) (s : State), s.pending = c :: r → step s = exec c { s with pending := r }) ∧
  (∀ s : State, s.pending = [] → step s = .next s.tickUs)

/-- Nothing waits that a counter of clock cycles counts. -/
def NothingWaits (s : State) : Prop :=
  s.tiles = [] ∧ s.moves = [] ∧ s.landQ = [] ∧ s.ports = [] ∧ s.circs = [] ∧ s.slots = [] ∧ s.hearth.drooped = [] ∧ s.bridges = [] ∧
    (∀ d e, s.onBridge (d, e) = []) ∧ ∀ g < 8, s.rd Reg.CFG_SG_SIZE 0 g = 0

/-- R335, R401: on an empty queue TIME advances by one µs, the memories, the transfers and the sessions stay, and each thousandth µs advances
ELAPSED and the age of the coolant data, which saturate; where nothing waits, nothing else changes; in power-on reset nothing advances
(the model's choice of a step, log entry 2). -/
def Clause.TimePasses : Prop :=
  ∀ s : State, s.pending = [] →
    (s.boot.por = true → step s = .next s) ∧
    (s.boot.por = false → ∃ t, step s = .next t ∧ t.timeUs = s.timeUs + 1 ∧ t.pending = [] ∧ t.larder = s.larder ∧ t.pantry = s.pantry ∧
      t.imem = s.imem ∧ t.staging = s.staging ∧ t.ctxs = s.ctxs ∧ t.sess = s.sess ∧ t.xfers = s.xfers ∧ t.flash = s.flash ∧ t.slots = s.slots ∧
      t.circs = s.circs ∧ t.due = s.due ∧
      (let ms : Bool := decide ((s.timeUs + 1) % 1000 = 0)
       t.rd Reg.GLB_ELAPSED = (if ms then satInc 65535 (s.rd Reg.GLB_ELAPSED) % 2 ^ 16 else s.rd Reg.GLB_ELAPSED) ∧
       t.rd Reg.PWR_HB_AGE = (if ms then satInc 65535 (s.rd Reg.PWR_HB_AGE) % 2 ^ 16 else s.rd Reg.PWR_HB_AGE)) ∧
      (NothingWaits s → t = { s with timeUs := s.timeUs + 1, regs := t.regs } ∧
        ∀ f i j, f.key i j ≠ Reg.GLB_ELAPSED.key 0 0 → f.key i j ≠ Reg.PWR_HB_AGE.key 0 0 → t.rd f i j = s.rd f i j))

/-- The commands that reach the package through its lands, supplies and clocks. -/
def FromLands : Instr → Bool
  | .powerOnReset | .powerOnResetEnd _ | .vaux33Loss | .supplyGood _ | .supplyFault _ | .clockLost _ | .refOk | .wrstN | .wrstNRise => true
  | _ => false

/-- R393, R397: every command ends in a next state with the waiting queue as it was; in power-on reset a command that comes neither through a
land nor from a supply or clock changes nothing; one that names no unit of the package changes nothing (the model's choice, log entry 4). -/
def Clause.EveryCommandEnds : Prop :=
  ∀ (c : Instr) (s : State),
    (∃ t, exec c s = .next t ∧ t.pending = s.pending) ∧
    (s.boot.por = true → FromLands c = false → exec c s = .next s) ∧
    (c.wellFormed = false → exec c s = .next s)

/-- Every command ends in a next state, power-on reset holds the others back, and time passes. The model's choices behind it: log entries
2 and 4. -/
def Obligations.EveryCommandEnds : Prop :=
  Clause.EveryCommandEnds ∧ Clause.TimePasses

/-- Serves a list of commands one after another, each on the state that the one before left, with the rest of the list waiting. -/
def serveAll : List Instr → State → Host.Outcome State Fault Refusal
  | [], s => .next s
  | c :: r, s => match exec c { s with pending := r } with
    | .next t => serveAll r t
    | .fault e => .fault e
    | .refused e => .refused e

/-- A queue of any length is served to its end, first in, first out: as many steps as commands wait end in a state with an empty queue, the one
that serving the commands in order gives. -/
def Obligations.QueueIsServedInOrder : Prop :=
  ∀ s : State, ∃ t, core.run s.pending.length s = .next t ∧ t.pending = [] ∧ serveAll s.pending s = .next t

/-- R375, R376: after every step, whatever the command, no fault awaits its reaction, and where FT_LATCH is set the package is halted. -/
def Obligations.EveryStepHaltsOnLatch : Prop :=
  ∀ s t : State, s.HaltsOnLatch → step s = .next t → t.HaltsOnLatch

/-- R393, R397, R423: after reset the package is held in power-on reset with no supply good, every register at its reset value (PD_REQ without
PD_79, as the lifecycle state of log entry 1 has it), every memory empty, nothing in progress and no command waiting, and the
invariant of FT_LATCH holds. -/
def Obligations.ResetState : Prop :=
  let s := State.reset
  s.boot.por = true ∧ s.pins.vin12Good = false ∧ s.pins.vaux33Good = false ∧ s.pins.vio18Good = false ∧ s.pins.pgOut = false ∧
  (∀ f i j, f.key i j ≠ Reg.PWR_PD_REQ.key 0 0 → s.rd f i j = f.resetAt i j) ∧ s.rd Reg.PWR_PD_REQ = 2 ^ 79 - 1 ∧
  s.larder = [] ∧ s.pantry = [] ∧ s.imem = [] ∧ s.staging = [] ∧ s.ctxs = [] ∧ s.sess = [] ∧ s.xfers = [] ∧ s.circs = [] ∧ s.slots = [] ∧
  s.tiles = [] ∧ s.pending = [] ∧ s.timeUs = 0 ∧ s.HaltsOnLatch

/-! ### Register accesses -/

/-- R379: PROG_WIN of an engine page resets to 100 and takes a written value of 1 to 10,000; another value is discarded, and bits 31:14
of the written word have no effect. -/
def Obligations.ProgressWindow : Prop :=
  (∀ page, State.reset.rd Reg.PROG_WIN page = 100) ∧
  ∀ (ag : Agent) (page w : Nat) (s : State), s.ready = true → page < 4096 → s.mayWrite ag page = true →
    (Block.ofPage page).any Block.isEngine = true →
    Completes (.registerWrite ag (page * 4096 + 0x28) w) s (fun t =>
      t.rd Reg.PROG_WIN page = (if 1 ≤ w % 2 ^ 14 ∧ w % 2 ^ 14 ≤ 10000 then w % 2 ^ 14 else s.rd Reg.PROG_WIN page) ∧
      RegsOnly s t [Reg.PROG_WIN.key page 0])

/-- The pages of Table 15-1. -/
def MappedPage (p : Nat) : Prop :=
  p ≤ 0xC ∨ (0x10 ≤ p ∧ p ≤ 0x11) ∨ (0x20 ≤ p ∧ p ≤ 0x23) ∨ (0x30 ≤ p ∧ p ≤ 0x3F) ∨ (0x40 ≤ p ∧ p ≤ 0x4B) ∨ (0x50 ≤ p ∧ p ≤ 0x5B) ∨
    (0x60 ≤ p ∧ p ≤ 0x63) ∨ (0x100 ≤ p ∧ p ≤ 0x1AF) ∨ p = 0x200 ∨ (0x300 ≤ p ∧ p ≤ 0x33F)

/-- R417, R422: a page that Table 15-1 does not map reads 0 at every offset, and one whose block is unpowered at every offset but PAGE_ID,
PAGE_CAP and PAGE_STAT, whose STATE is OFF; writes to either change no register. -/
def Obligations.UnmappedAndUnpoweredPages : Prop :=
  ∀ (ag : Agent) (page : Nat) (s : State), page < 4096 →
    ((Block.ofPage page).isSome = true ↔ MappedPage page) ∧
    (¬ MappedPage page → ∀ off, s.word page off = 0) ∧
    (s.powered page = false → (∀ off, off ≠ 0 → off ≠ 4 → off ≠ 0xC → s.word page off = 0) ∧ s.word page 0xC % 4 = 0) ∧
    (s.ready = true → ag.wellFormed = true → s.reaches ag page true = true → ¬ MappedPage page ∨ s.powered page = false →
      ∀ off w, off < 4096 → Completes (.registerWrite ag (page * 4096 + off) w) s (fun t => RegsOnly s t []))

/-- R69: in a sealed partition the words of a tile page that hold PX_FLAGS, PX_LAST and PX_COUNTS read 0 to every agent. -/
def Clause.SealedPressFlags : Prop :=
  ∀ (ag : Agent) (n off : Nat) (s : State), n < 176 → s.isSealed (s.partOfTile n) = true → off = 0x104 ∨ off = 0x108 ∨ off = 0x10C →
    s.latches = [] → (s.busRead ag ((0x100 + n) * 4096 + off)).2 = 0

/-- R365: no fault of origin C has a reaction that fences, escalates, or has effective class FT, whatever FLT_CLASS and FLT_STAT hold. -/
def Clause.CommandFaultsNeverEscalate : Prop :=
  ∀ (page b : Nat) (e : CatEntry) (s : State), catEntry page b = some e → e.org = 2 →
    e.esc = 0 ∧ s.effClass page b ≠ 2 ∧ s.escalates page b = false ∧ s.occurClass page b ≠ 2

/-- Fault bits clear by writing ones, held faults stay, and command faults never escalate. The model's choices behind it: log entry 18. -/
def Obligations.FaultBits : Prop :=
  Clause.FaultBitsClear ∧ Clause.HeldFaultStays ∧ Clause.CommandFaultsNeverEscalate

/-- R282, R424: an access that the agent's scope does not open to it changes no register but those of the SCOPE_DENIED that it raises; one by an
agent that makes no accesses changes nothing. -/
def Clause.AccessesAreConfined : Prop :=
  ∀ (ag : Agent) (addr w : Nat) (s : State), s.ready = true → ag.wellFormed = true → addr < 2 ^ 24 → addr % 4 = 0 →
    s.reaches ag (addr / 4096) true = false →
    (s.agentLive ag = false → exec (.registerWrite ag addr w) s = .next s) ∧
    (∀ p n, ag = .session p n → s.agentLive ag = true →
      exec (.registerWrite ag addr w) s = .next (s.answer (s.raise (hstPage p) 5 none n))) ∧
    (∀ c, c < 64 → ∀ p n, ag = .session p n → s.rd Reg.HST_S_SCOPE p n < 4 →
      (s.reaches ag (0x300 + c) true = true → partOfCtx c = s.rd Reg.HST_S_SCOPE p n))

/-- A field write takes or is discarded, a counter read latches, and accesses stay in their scope. The model's choices behind it: log
entries 3 and 21. -/
def Obligations.RegisterAccesses : Prop :=
  Clause.RegisterWriteOfSgMask ∧ Clause.CounterLatchHoldsHighWord ∧ Clause.SealedPressFlags ∧ Clause.AccessesAreConfined

/-! ### The effect of every command -/

/-- Out of power-on reset and with no reaction pending, the command `c` that names units of the package ends in its effect `x`. -/
def Gives (s : State) (c : Instr) (x : State) : Prop := s.ready = true → c.wellFormed = true → exec c s = .next (s.answer x)

/-- A command of the lands, the supplies and the clocks ends in its effect in power-on reset too. -/
def AlwaysGives (s : State) (c : Instr) (x : State) : Prop := c.wellFormed = true → exec c s = .next (s.answer x)

/-- A command that is a register write ends in its effect where its agent may write the page; a write ends the agent's counter latch. -/
def WriteGives (s : State) (c : Instr) (ag : Agent) (page : Nat) (g : State → State) : Prop :=
  s.ready = true → c.wellFormed = true → s.mayWrite ag page = true → exec c s = .next (s.answer (g (s.dropLatch ag)))

/-- A command that is a write of block `b`'s page `i`. -/
def BlockGives (s : State) (c : Instr) (ag : Agent) (b : Block) (i : Nat) (g : State → State) : Prop :=
  i < b.pages → WriteGives s c ag (b.base + i) g

/-- Every command of register accesses, transactions, counters and clears ends in its effect. -/
def Clause.EffectsOfRegisters : Prop :=
  ∀ s : State,
    (∀ (ag : Agent) (addr : Nat) (data : Nat), Gives s (.registerWrite ag addr data) ((s.regOp ag 2 addr data).1)) ∧
    (∀ (ag : Agent) (page : Nat) (v : Nat), WriteGives s (.fltClear ag page v) ag page (fun s => s.fltClear page v)) ∧
    (∀ (ag : Agent) (addr : Nat), Gives s (.counterLatch ag addr) ((s.regOp ag 1 addr 0).1)) ∧
    (∀ (ag : Agent) (scope : Nat), BlockGives s (.begin ag scope) ag .cfg 0 (fun s => s.txnBegin ag scope)) ∧
    (∀ (ag : Agent), BlockGives s (.commit ag) ag .cfg 0 (fun s => s.txnCommit ag)) ∧
    (∀ (t : Nat), Gives s (.apply t) (s.txnApply t)) ∧
    (∀ (ag : Agent), BlockGives s (.rollback ag) ag .cfg 0 (fun s => s.txnRollback ag)) ∧
    (∀ (t : Nat), Gives s (.txnTmo t) (s.txnTimeout t)) ∧
    (∀ (ag : Agent) (v : Nat), BlockGives s (.logSel ag v) ag .soh 0 (fun s => s.wr0 Reg.SOH_LOG_SEL v)) ∧
    (∀ (ag : Agent) (page : Nat), WriteGives s (.scrub ag page) ag page (fun s => s.scrubPage ag page)) ∧
    (∀ (ag : Agent) (page : Nat) (v : Nat), WriteGives s (.drain ag page v) ag page (fun s => s.drain page v)) ∧
    (∀ (ag : Agent) (page : Nat) (mask : Nat) (blk : Bool), BlockGives s (.clrGo ag page mask blk) ag .cnt 0 (fun s => s.clearCounters page mask blk)) ∧
    (∀ (ag : Agent) (v : Nat), BlockGives s (.run ag v) ag .cnt 0 (fun s => s.collectorRun v)) ∧
    (∀ (ag : Agent) (v : Nat), BlockGives s (.snapRsel ag v) ag .cnt 0 (fun s => s.snapSelect v)) ∧
    (Gives s .collectorCapture (s.collectorCapture))

/-- Every command of contexts, their command queues and loads ends in its effect. -/
def Clause.EffectsOfSteps : Prop :=
  ∀ s : State,
    (∀ (c : Nat) (long : Bool), Gives s (.step c long) (s.dispatchHead c (some 1) long)) ∧
    (∀ (c : Nat), Gives s (.stepComplete c) (s.stepComplete c)) ∧
    (∀ (c : Nat), Gives s (.mark c) (s.dispatchHead c (some 3) false)) ∧
    (∀ (c : Nat), Gives s (.coll c) (s.dispatchHead c (some 2) false)) ∧
    (∀ (c : Nat) (long : Bool), Gives s (.dispatch c long) (s.dispatchHead c none long)) ∧
    (∀ (ag : Agent) (c : Nat), BlockGives s (.load ag c) ag .ctx c (fun s => s.load c)) ∧
    (∀ (c : Nat) (missed : List (Nat × List Nat)), Gives s (.loadDone c missed) (s.loadDone c missed)) ∧
    (∀ (ag : Agent) (c : Nat), BlockGives s (.curve ag c) ag .ctx c (fun s => s.curve c)) ∧
    (∀ (c : Nat) (missed : List (Nat × List Nat)), Gives s (.curveDone c missed) (s.curveDone c missed)) ∧
    (∀ (c : Nat), Gives s (.recordWrite c) (s.recordWrite c)) ∧
    (∀ (ag : Agent) (c : Nat), BlockGives s (.cplBind ag c) ag .ctx c (fun s => s.cplBind c)) ∧
    (∀ (ag : Agent) (c : Nat) (v : Nat), BlockGives s (.cplAcked ag c v) ag .ctx c (fun s => s.cplAck c v)) ∧
    (∀ (ag : Agent) (c : Nat), BlockGives s (.ctxOpen ag c) ag .ctx c (fun s => s.ctxOpen c)) ∧
    (∀ (ag : Agent) (c : Nat), BlockGives s (.teardown ag c) ag .ctx c (fun s => s.teardown c))

/-- Every command of the vector slot ends in its effect. -/
def Clause.EffectsOfVector : Prop :=
  ∀ s : State,
    (∀ (t : Nat), Gives s (.vadd t) (s.finish t 0 1)) ∧
    (∀ (t : Nat), Gives s (.vsub t) (s.finish t 0 2)) ∧
    (∀ (t : Nat), Gives s (.vmul t) (s.finish t 0 3)) ∧
    (∀ (t : Nat), Gives s (.vfma t) (s.finish t 0 4)) ∧
    (∀ (t : Nat), Gives s (.vmax t) (s.finish t 0 5)) ∧
    (∀ (t : Nat), Gives s (.vmin t) (s.finish t 0 6)) ∧
    (∀ (t : Nat), Gives s (.vabs t) (s.finish t 0 7)) ∧
    (∀ (t : Nat), Gives s (.vneg t) (s.finish t 0 8)) ∧
    (∀ (t : Nat), Gives s (.vcmp t) (s.finish t 0 9)) ∧
    (∀ (t : Nat), Gives s (.vsel t) (s.finish t 0 10)) ∧
    (∀ (t : Nat), Gives s (.vbcast t) (s.finish t 0 11)) ∧
    (∀ (t : Nat), Gives s (.vrsum t) (s.finish t 0 12)) ∧
    (∀ (t : Nat), Gives s (.vrmax t) (s.finish t 0 13)) ∧
    (∀ (t : Nat), Gives s (.vperm t) (s.finish t 0 14)) ∧
    (∀ (t : Nat), Gives s (.vcurve t) (s.finish t 0 16)) ∧
    (∀ (t : Nat), Gives s (.vexp2 t) (s.finish t 0 17)) ∧
    (∀ (t : Nat), Gives s (.vlog2 t) (s.finish t 0 18)) ∧
    (∀ (t : Nat), Gives s (.vrcp t) (s.finish t 0 19)) ∧
    (∀ (t : Nat), Gives s (.vrsqrt t) (s.finish t 0 20)) ∧
    (∀ (t : Nat), Gives s (.vcvt t) (s.finish t 0 24)) ∧
    (∀ (t : Nat), Gives s (.vunp t) (s.finish t 0 25)) ∧
    (∀ (t : Nat), Gives s (.vand t) (s.finish t 0 32)) ∧
    (∀ (t : Nat), Gives s (.vor t) (s.finish t 0 33)) ∧
    (∀ (t : Nat), Gives s (.vxor t) (s.finish t 0 34)) ∧
    (∀ (t : Nat), Gives s (.vshl t) (s.finish t 0 35)) ∧
    (∀ (t : Nat), Gives s (.vshr t) (s.finish t 0 36)) ∧
    (∀ (t : Nat), Gives s (.vsra t) (s.finish t 0 37)) ∧
    (∀ (t : Nat), Gives s (.vitof t) (s.finish t 0 40)) ∧
    (∀ (t : Nat), Gives s (.vftoi t) (s.finish t 0 41)) ∧
    (∀ (t : Nat), Gives s (.vmov t) (s.finish t 0 42))

/-- Every command of the scalar slot ends in its effect. -/
def Clause.EffectsOfScalar : Prop :=
  ∀ s : State,
    (∀ (t : Nat), Gives s (.sadd t) (s.finish t 2 1)) ∧
    (∀ (t : Nat), Gives s (.saddr t) (s.finish t 2 2)) ∧
    (∀ (t : Nat), Gives s (.ssubr t) (s.finish t 2 3)) ∧
    (∀ (t : Nat), Gives s (.smulr t) (s.finish t 2 4)) ∧
    (∀ (t : Nat), Gives s (.sandr t) (s.finish t 2 5)) ∧
    (∀ (t : Nat), Gives s (.sorr t) (s.finish t 2 6)) ∧
    (∀ (t : Nat), Gives s (.sshl t) (s.finish t 2 7)) ∧
    (∀ (t : Nat), Gives s (.sshr t) (s.finish t 2 8)) ∧
    (∀ (t : Nat), Gives s (.sli t) (s.finish t 2 9)) ∧
    (∀ (t : Nat), Gives s (.slui t) (s.finish t 2 10)) ∧
    (∀ (t : Nat), Gives s (.vtos t) (s.finish t 2 11)) ∧
    (∀ (t : Nat), Gives s (.srd t) (s.finish t 2 12)) ∧
    (∀ (t : Nat), Gives s (.br t) (s.finish t 2 16)) ∧
    (∀ (t : Nat), Gives s (.beq t) (s.finish t 2 17)) ∧
    (∀ (t : Nat), Gives s (.bne t) (s.finish t 2 18)) ∧
    (∀ (t : Nat), Gives s (.blt t) (s.finish t 2 19)) ∧
    (∀ (t : Nat), Gives s (.bge t) (s.finish t 2 20)) ∧
    (∀ (t : Nat), Gives s (.endStage t) (s.finish t 2 31))

/-- Every command of the M slot ends in its effect. -/
def Clause.EffectsOfSlotM : Prop :=
  ∀ s : State,
    (∀ (t : Nat), Gives s (.pxissue t) (s.finish t 1 4)) ∧
    (∀ (t : Nat), Gives s (.pxwait t) (s.finish t 1 5)) ∧
    (∀ (t : Nat), Gives s (.vld t) (s.finish t 1 1)) ∧
    (∀ (t : Nat), Gives s (.vst t) (s.finish t 1 2)) ∧
    (∀ (t : Nat), Gives s (.fetch t) (s.finish t 1 6)) ∧
    (∀ (t : Nat), Gives s (.fold t) (s.finish t 1 7)) ∧
    (∀ (t : Nat), Gives s (.send t) (s.finish t 1 8)) ∧
    (∀ (t : Nat), Gives s (.ptake t) (s.finish t 1 9)) ∧
    (∀ (t : Nat), Gives s (.pwait t) (s.finish t 1 10)) ∧
    (∀ (t : Nat), Gives s (.ppost t) (s.finish t 1 11)) ∧
    (∀ (t : Nat), Gives s (.ppostr t) (s.finish t 1 12)) ∧
    (∀ (t : Nat), Gives s (.xwait t) (s.finish t 1 13))

/-- Every command of stages, the Press, pegs and the stage fabric ends in its effect. -/
def Clause.EffectsOfStage : Prop :=
  ∀ s : State,
    (∀ (t : Nat), Gives s (.pressCommandComplete t) (s.pressComplete t)) ∧
    (∀ (t : Nat) (k : Nat), Gives s (.fetchComplete t k) (s.fetchComplete t k)) ∧
    (∀ (k : Nat), Gives s (.foldMark k) (s.foldMark k)) ∧
    (∀ (st : Nat) (n : Nat), Gives s (.foldComplete st n) (s.foldComplete st n)) ∧
    (∀ (t : Nat) (k : Nat) (ix : Nat), Gives s (.slabWrite t k ix) (s.slabWrite t k ix)) ∧
    (∀ (t : Nat) (k : Nat), Gives s (.sendComplete t k) (s.sendComplete t k)) ∧
    (∀ (t : Nat), Gives s (.pegWaitEnd t) (s.pegEnd t)) ∧
    (∀ (t : Nat), Gives s (.stageBoundary t) (s.stageBoundary t)) ∧
    (∀ (t : Nat), Gives s (.stageOpen t) (s.stageOpen t)) ∧
    (∀ (t : Nat) (a : Nat) (flips : List (Nat × Nat)), Gives s (.pantryScrub t a flips) (s.pantryScrub t a flips)) ∧
    (∀ (g : Nat), Gives s (.recordStart g) (s.recordStart g)) ∧
    (∀ (g : Nat) (far : Bool), Gives s (.mangleDeliver g far) (s.mangleDeliver g far)) ∧
    (∀ (g : Nat), Gives s (.recordRetire g) (s.recordRetire g)) ∧
    (∀ (mesh : Bool) (d : Nat) (e : Nat) (errs : List (Nat × Nat)) (badCrc : Bool) (own : FlitOwner), Gives s (.flitArrive mesh d e errs badCrc own) (s.flitIn mesh d e errs badCrc own.ctx own.cir)) ∧
    (∀ (d : Nat) (e : Nat), Gives s (.bridgeWeak d e) (s.bridgeWeak d e)) ∧
    (∀ (t : Nat) (k : Nat), Gives s (.foldPartialLanded t k) (s.foldLanded t k)) ∧
    (∀ (k : Nat), Gives s (.remotePostArrive k) (s.remotePost k))

/-- Every command of Larder and Starch ends in its effect. -/
def Clause.EffectsOfLarder : Prop :=
  ∀ s : State,
    (∀ (c : Nat) (a : Nat) (data : List (Option Byte)) (n : Nat) (flips : List (Nat × Nat × Nat)), Gives s (.larderAccess c a data n flips) (s.larderAccess c a data n flips)) ∧
    (∀ (st : Nat) (lost : Nat), Gives s (.larderRefresh st lost) (s.larderRefresh st lost)) ∧
    (∀ (a : Nat) (flips : List (Nat × Nat × Nat)), Gives s (.patrolScrub a flips) (s.patrolScrub a flips)) ∧
    (∀ (st : Nat) (ch : Nat) (pin : Nat), Gives s (.laneRepair st ch pin) (s.laneRepair st ch pin)) ∧
    (∀ (a : Nat), Gives s (.rowRepair a) (s.rowRepair a)) ∧
    (∀ (st : Nat) (ch : Nat), Gives s (.channelDown st ch) (s.channelDown st ch)) ∧
    (∀ (c : Nat) (a : Nat) (tag : Nat) (data : List Byte) (writer : Machine.Writer), Gives s (.landingWrite c a tag data writer) (s.landingWrite ⟨c, a, tag, data, writer⟩)) ∧
    (∀ (k : Nat), Gives s (.landingResume k) (s.landingResume k)) ∧
    (∀ (t : Nat) (k : Nat), Gives s (.tagReadOpen t k) (s.fetchOpen t k)) ∧
    (∀ (st : Nat) (n : Nat), Gives s (.ingestMatch st n) (s.ingestMatch st n)) ∧
    (∀ (st : Nat) (c : Nat) (k : Nat), Gives s (.starchTrigger st c k) (s.starchTrigger st c k)) ∧
    (∀ (st : Nat), Gives s (.starchBatch st) (s.starchBatch st)) ∧
    (∀ (ag : Agent) (st : Nat), BlockGives s (.ruleLoad ag st) ag .stc st (fun s => s.ruleLoad st)) ∧
    (∀ (st : Nat) (ok : Bool), Gives s (.ruleLoadDone st ok) (s.ruleLoadDone st ok))

/-- Every command of Trinal links ends in its effect. -/
def Clause.EffectsOfLinks : Prop :=
  ∀ s : State,
    (∀ (k : Nat) (lp : Nat), Gives s (.laserMeasure k lp) (s.laserMeasure k lp)) ∧
    (∀ (k : Nat), Gives s (.laserLoss k) (s.laserLoss k)) ∧
    (∀ (k : Nat), Gives s (.laserRestore k) (s.laserRestore k)) ∧
    (∀ (k : Nat) (ls : List Machine.LaneWord), Gives s (.frameReceive k ls) (s.frameReceive k ls)) ∧
    (∀ (k : Nat) (data : Bool), Gives s (.replayTimeout k data) (s.replayTimeout k data)) ∧
    (∀ (k : Nat), Gives s (.errorWindow k) (s.errorWindow k)) ∧
    (∀ (k : Nat) (light : List Nat), Gives s (.lossOfSignal k light) (s.lossOfSignal k light)) ∧
    (∀ (k : Nat) (light : List Nat), Gives s (.signalDetect k light) (s.signalDetect k light)) ∧
    (∀ (ag : Agent) (k : Nat) (v : Nat), BlockGives s (.lnkEn ag k v) ag .lnk k (fun s => s.lnkEn k v)) ∧
    (∀ (ag : Agent) (k : Nat), BlockGives s (.retry ag k) ag .lnk k (fun s => s.lnkRetry k)) ∧
    (∀ (ag : Agent) (k : Nat), BlockGives s (.retrain ag k) ag .lnk k (fun s => s.lnkRetrain k)) ∧
    (∀ (ag : Agent) (k : Nat) (v : Nat), BlockGives s (.loop ag k v) ag .lnk k (fun s => s.lnkLoop k v)) ∧
    (∀ (k : Nat), Gives s (.txPreset k) (s.seqTxPreset k)) ∧
    (∀ (k : Nat), Gives s (.txPattern k) (s.seqTxPattern k)) ∧
    (∀ (k : Nat) (locked : Nat), Gives s (.waitLock k locked) (s.seqWaitLock k locked)) ∧
    (∀ (k : Nat), Gives s (.adapt k) (s.seqAdapt k)) ∧
    (∀ (k : Nat) (errs : List Nat), Gives s (.checkBer k errs) (s.seqCheckBer k errs)) ∧
    (∀ (k : Nat) (order : List Nat), Gives s (.fecLock k order) (s.seqFecLock k order)) ∧
    (∀ (k : Nat) (t : Nat), Gives s (.peerSync k t) (s.seqPeerSync k t)) ∧
    (∀ (k : Nat) (ns : Nat), Gives s (.rtt k ns) (s.seqRtt k ns)) ∧
    (∀ (k : Nat) (lo : List Nat) (hi : List Nat) (echo : List Nat), Gives s (.ident k lo hi echo) (s.seqIdent k (lo.zip (hi.zip echo)))) ∧
    (∀ (k : Nat), Gives s (.goto k) (s.seqGoto k)) ∧
    (∀ (k : Nat), Gives s (.delay k) (s.seqDelay k)) ∧
    (∀ (k : Nat), Gives s (.seqStepTimeout k) (s.seqTimeout k)) ∧
    (∀ (k : Nat), Gives s (.trainTimeout k) (s.trainTimeout k))

/-- Every command of circuits ends in its effect. -/
def Clause.EffectsOfCircuits : Prop :=
  ∀ s : State,
    (∀ (k : Nat) (p : Machine.Packet), Gives s (.packetForward k p) (s.packetForward k p)) ∧
    (∀ (k : Nat) (p : Machine.Packet), Gives s (.packetReceive k p) (s.packetReceive k p)) ∧
    (∀ (e : Nat) (data : Bool), Gives s (.packetDeliver e data) (s.packetDeliver e data)) ∧
    (∀ (e : Nat) (path : Nat) (pay : Nat), Gives s (.openCircuit e path pay) (s.openIn e path pay)) ∧
    (∀ (e : Nat), Gives s (.openResend e) (s.openResend e)) ∧
    (∀ (e : Nat), Gives s (.openTmo e) (s.openTmo e)) ∧
    (∀ (ag : Agent) (e : Nat), BlockGives s (.closeGo ag e) ag .cir 0 (fun s => s.closeGo e)) ∧
    (∀ (e : Nat), Gives s (.close e) (s.closeIn e)) ∧
    (∀ (e : Nat) (path : Nat), Gives s (.quiet e path) (s.quietIn e path)) ∧
    (∀ (e : Nat), Gives s (.quietTmo e) (s.quietTmo e)) ∧
    (∀ (e : Nat), Gives s (.resetNotice e) (s.resetNotice e)) ∧
    (∀ (e : Nat) (path : Nat) (pay : Nat), Gives s (.pathDown e path pay) (s.pathDownIn e path pay)) ∧
    (∀ (e : Nat) (path : Nat) (pay : Nat), Gives s (.rejoin e path pay) (s.rejoinIn e path pay)) ∧
    (∀ (e : Nat) (path : Nat), Gives s (.rejoinResend e path) (s.rejoinResend e path)) ∧
    (s.powered 0x00C = true → Gives s .evPop (s.evPop))

/-- Every command of collectives ends in its effect. -/
def Clause.EffectsOfCollectives : Prop :=
  ∀ s : State,
    (∀ (d : Nat), Gives s (.allReduce d) (s.collAccept d 1)) ∧
    (∀ (d : Nat), Gives s (.reduceScatter d) (s.collAccept d 2)) ∧
    (∀ (d : Nat), Gives s (.allGather d) (s.collAccept d 3)) ∧
    (∀ (d : Nat), Gives s (.allToAll d) (s.collAccept d 4)) ∧
    (∀ (d : Nat), Gives s (.allToAllv d) (s.collAccept d 5)) ∧
    (∀ (d : Nat), Gives s (.broadcast d) (s.collAccept d 6)) ∧
    (∀ (d : Nat), Gives s (.circulate d) (s.collAccept d 7)) ∧
    (∀ (d : Nat) (n : Nat), Gives s (.collTrigger d n) (s.collTrigger d n)) ∧
    (∀ (e : Nat) (key : Nat), Gives s (.start e key) (s.startIn e key)) ∧
    (∀ (d : Nat) (n : Nat), Gives s (.startResend d n) (s.startResend d n)) ∧
    (∀ (e : Nat) (stage : Nat) (arg : Nat) (key : Nat), Gives s (.credit e stage arg key) (s.creditIn e stage arg key)) ∧
    (∀ (d : Nat) (n : Nat) (e : Nat) (c : Nat), Gives s (.chunkSend d n e c) (s.chunkSend d n e c)) ∧
    (∀ (e : Nat) (key : Nat) (stage : Nat) (cidx : Nat) (data : List Byte) (trailer : List Byte) (adds : Nat), Gives s (.chunkReceive e key stage cidx data trailer adds) (s.chunkIn e key stage ⟨cidx, data, trailer⟩ adds)) ∧
    (∀ (e : Nat) (stage : Nat) (cidx : Nat) (key : Nat), Gives s (.resend e stage cidx key) (s.resendIn e stage cidx key)) ∧
    (∀ (e : Nat) (status : Nat) (key : Nat), Gives s (.abort e status key) (s.abortIn e status key)) ∧
    (∀ (e : Nat) (key : Nat), Gives s (.other e key) (s.otherIn e key)) ∧
    (∀ (e : Nat) (word : Nat), Gives s (.pace e word) (s.paceIn e word)) ∧
    (∀ (d : Nat), Gives s (.paceSend d) (s.paceSend d)) ∧
    (∀ (d : Nat) (n : Nat) (e : Nat), Gives s (.orderStall d n e) (s.orderStall d n e)) ∧
    (∀ (d : Nat) (n : Nat), Gives s (.collComplete d n) (s.collComplete d n)) ∧
    (∀ (e : Nat), Gives s (.circuitBreakReport e) (s.breakReport e))

/-- Every command of host sessions and transfers ends in its effect. -/
def Clause.EffectsOfHost : Prop :=
  ∀ s : State,
    (∀ (m : Machine.Msg), Gives s (.sessionOpen m) (s.message m (fun m => m.opens))) ∧
    (∀ (m : Machine.Msg), Gives s (.sessionClose m) (s.message m (fun m => m.typ == 1 && m.skind == 3))) ∧
    (∀ (m : Machine.Msg), Gives s (.cmd m) (s.message m (fun m => m.typ == 2))) ∧
    (∀ (m : Machine.Msg), Gives s (.reg m) (s.message m (fun m => m.typ == 3))) ∧
    (∀ (m : Machine.Msg), Gives s (.wdesc m) (s.message m (fun m => m.typ == 4 && m.bkind == 1))) ∧
    (∀ (m : Machine.Msg), Gives s (.wdata m) (s.message m (fun m => m.typ == 4 && m.bkind == 2))) ∧
    (∀ (m : Machine.Msg), Gives s (.rreq m) (s.message m (fun m => m.typ == 4 && m.bkind == 3))) ∧
    (∀ (m : Machine.Msg), Gives s (.ack m) (s.message m (fun m => m.typ == 7))) ∧
    (∀ (p : Nat) (n : Nat), Gives s (.ackSend p n) (s.ackSend p n)) ∧
    (∀ (p : Nat) (n : Nat) (seq : Nat), Gives s (.rto p n seq) (s.rto p n seq)) ∧
    (∀ (p : Nat) (n : Nat), Gives s (.sessTmo p n) (s.sessTmo p n)) ∧
    (∀ (p : Nat), Gives s (.transferStart p) (s.transferStart p)) ∧
    (∀ (p : Nat) (n : Nat) (xid : Nat), Gives s (.transferComplete p n xid) (s.transferComplete p n xid)) ∧
    (∀ (p : Nat) (sub : Nat), Gives s (.hstLinkDown p sub) (s.hstLinkDown p sub)) ∧
    (∀ (ag : Agent) (p : Nat) (v : Nat), BlockGives s (.split ag p v) ag .hst p (fun s => s.hstSplit p v)) ∧
    (∀ (p : Nat) (lp : Nat), Gives s (.hostLaserLow p lp) (s.hostLaserLow p lp)) ∧
    (∀ (p : Nat) (sub : Nat), Gives s (.hstLinkUp p sub) (s.hstLinkUp p sub)) ∧
    (∀ (p : Nat) (lp : Nat), Gives s (.hostLaserRestore p lp) (s.hostLaserRestore p lp)) ∧
    (∀ (ag : Agent) (p : Nat) (v : Nat), BlockGives s (.hstEn ag p v) ag .hst p (fun s => s.hstEn p v)) ∧
    (∀ (p : Nat) (sub : Nat) (ask : Ask), Gives s (.arpNdEcho p sub ask) (s.arpNdEcho p sub ask))

/-- Every command of Hearth ends in its effect. -/
def Clause.EffectsOfHearth : Prop :=
  ∀ s : State,
    (∀ (pin : Nat) (upEst : Nat), Gives s (.capTick pin upEst) (s.capTick pin upEst)) ∧
    (∀ (raw : Nat), Gives s (.peakCheck raw) (s.peakCheck raw)) ∧
    (∀ (d : Nat), Gives s (.droop d) (s.droop d)) ∧
    (∀ (d : Nat), Gives s (.droopRelease d) (s.droopRelease d)) ∧
    (∀ (temps : List Nat) (expected : List Int) (warmEst : Nat), Gives s (.sensorSample temps expected warmEst) (s.sensorSample temps expected warmEst)) ∧
    (∀ (n : Nat), Gives s (.sensorDisagree n) (s.sensorDisagree n)) ∧
    (∀ (ix : Nat) (expected : Int), Gives s (.sensorFail ix expected) (s.sensorFail ix expected)) ∧
    (∀ (ag : Agent), BlockGives s (.sensClr ag) ag .thm 0 (fun s => s.sensClr)) ∧
    (∀ (n : Nat), Gives s (.thermalTrip n) (s.thermalTrip n)) ∧
    (Gives s .gainClamped (s.gainClamped)) ∧
    (Gives s .rseq (s.rseq)) ∧
    (Gives s .flowImplaus (s.flowImplaus)) ∧
    (Gives s .suddenRelease (s.suddenRelease)) ∧
    (Gives s .hbLost (s.hbLost))

/-- Every command of Soholt, the tray, logs and updates ends in its effect. -/
def Clause.EffectsOfSoholt : Prop :=
  ∀ s : State,
    (∀ (cause : Nat), Gives s (.sohRestart cause) (s.sohRestart cause)) ∧
    (∀ (ag : Agent), BlockGives s (.dumpExport ag) ag .soh 0 (fun s => s.dumpExport)) ∧
    (∀ (ag : Agent), BlockGives s (.pcGo ag) ag .soh 0 (fun s => s.requestPowerCycle 0)) ∧
    (∀ (ag : Agent), BlockGives s (.calExport ag) ag .soh 0 (fun s => s.calExport)) ∧
    (∀ (ag : Agent) (v : Nat), BlockGives s (.calLock ag v) ag .soh 0 (fun s => s.calLock v)) ∧
    (∀ (ag : Agent), BlockGives s (.cfgSave ag) ag .soh 0 (fun s => s.cfgSave)) ∧
    (∀ (ag : Agent), BlockGives s (.updOpen ag) ag .upd 0 (fun s => s.updOpen)) ∧
    (∀ (ag : Agent), BlockGives s (.check ag) ag .upd 0 (fun s => s.updCheck)) ∧
    (∀ (ag : Agent), BlockGives s (.verify ag) ag .upd 0 (fun s => s.updVerify)) ∧
    (∀ (sig : Bool) (ucode : Bool) (readBack : Nat), Gives s (.verifyDone sig ucode readBack) (s.verifyEnd seqImageOk sig ucode readBack)) ∧
    (∀ (ag : Agent) (v : Nat), BlockGives s (.svnRaise ag v) ag .upd 0 (fun s => s.svnRaise v)) ∧
    (∀ (index : Nat) (value : Nat), Gives s (.trayWrite index value) (s.trayWrite index value)) ∧
    (∀ (kind : Nat) (a : Nat) (d : Nat), Gives s (.i3cCcc kind a d) (s.i3cCcc kind a d)) ∧
    (Gives s .sohInService (s.sohInService)) ∧
    (Gives s .dumpWrite (s.dumpWrite)) ∧
    (Gives s .i3cStatusRead (s.i3cStatusRead)) ∧
    (Gives s .act (s.actRead)) ∧
    (Gives s .compatRecord (s.compatRecord)) ∧
    (Gives s .updFallback (s.updFallback)) ∧
    (Gives s .exportComplete (s.exportComplete))

/-- Every command of attestation and seals ends in its effect. -/
def Clause.EffectsOfSecurity : Prop :=
  ∀ s : State,
    (∀ (ag : Agent) (dev : Nat) (cnt : Nat) (sig : Bool), BlockGives s (.lcReturn ag dev cnt sig) ag .sec 0 (fun s => s.lcReturn dev cnt sig)) ∧
    (∀ (ag : Agent), BlockGives s (.attCert ag) ag .sec 0 (fun s => s.attCert)) ∧
    (∀ (ag : Agent), BlockGives s (.attGo ag) ag .sec 0 (fun s => s.attestGo ag)) ∧
    (∀ (sig : List Byte), Gives s (.attDone sig) (s.attDone sig)) ∧
    (∀ (ag : Agent) (more : Bool), BlockGives s (.sealGo ag more) ag .sec 0 (fun s => s.sealGo more)) ∧
    (∀ (sig : Bool) (k : List Byte), Gives s (.sealDone sig k) (s.sealDone sig k)) ∧
    (∀ (ag : Agent), BlockGives s (.unsealGo ag) ag .sec 0 (fun s => s.unsealGo)) ∧
    (Gives s .sealPartTimeout (s.sealPartTimeout)) ∧
    (Gives s .unsealDone (s.unsealDone))

/-- Every command of hangs and recovery ends in its effect. -/
def Clause.EffectsOfRecovery : Prop :=
  ∀ s : State,
    (∀ (ag : Agent), BlockGives s (.ftLatch ag) ag .flt 0 (fun s => s.ftClear)) ∧
    (∀ (ag : Agent), BlockGives s (.fenceGo ag) ag .flt 0 (fun s => s.fenceGo)) ∧
    (∀ (l : Nat), Gives s (.replayTurnEnd l) (s.replayTurnEnd l)) ∧
    (∀ (l : Nat), Gives s (.rungFailed l) (s.rungFailed l)) ∧
    (∀ (ag : Agent) (c : Nat), BlockGives s (.contextScrub ag c) ag .hng 0 (fun s => s.recReq (s.agentPart ag) 1 0 (0x300 + c))) ∧
    (∀ (l : Nat) (ok : Bool), Gives s (.engineScrub l ok) (s.engineScrub l ok)) ∧
    (Gives s .hangCheck (s.hangCheck)) ∧
    (Gives s .powerCycle (s.recReq none 5 0 0)) ∧
    (Gives s .captureOnly (s.recReq none 6 0 0))

/-- Every command of supplies, resets and bring-up ends in its effect. -/
def Clause.EffectsOfBringUp : Prop :=
  ∀ s : State,
    (∀ (straps : Nat), AlwaysGives s (.powerOnResetEnd straps) (s.porstRise straps)) ∧
    (∀ (ix : Nat), AlwaysGives s (.supplyGood ix) (s.supplyGood ix)) ∧
    (∀ (ix : Nat), AlwaysGives s (.supplyFault ix) (s.supplyFault ix)) ∧
    (∀ (root : Bool), AlwaysGives s (.clockLost root) (s.clockLost root)) ∧
    (∀ (ag : Agent) (v : Nat), BlockGives s (.target ag v) ag .glb 0 (fun s => s.target v)) ∧
    (∀ (fail : Nat) (bad : List (Nat × Nat)), Gives s (.phaseEnd fail bad) (s.phaseEnd fail bad)) ∧
    (∀ (ag : Agent) (w : Nat) (v : Nat), BlockGives s (.pdReq ag w v) ag .pwr 0 (fun s => s.pdReq w v)) ∧
    (∀ (d : Nat), Gives s (.pdSwitchDone d) (s.pdSwitchDone d)) ∧
    (∀ (p : Nat) (bad : List (Nat × Nat)), Gives s (.partitionReset p bad) (s.partReset p bad)) ∧
    (∀ (bad : List (Nat × Nat)), Gives s (.warmReset bad) (s.warmReset bad)) ∧
    (AlwaysGives s .powerOnReset (s.porstFall)) ∧
    (AlwaysGives s .vaux33Loss (s.vaux33Loss)) ∧
    (AlwaysGives s .refOk (s.refOk)) ∧
    (AlwaysGives s .wrstN (s.wrstFall)) ∧
    (Gives s .linksEnd (s.linksEnd)) ∧
    (AlwaysGives s .wrstNRise (s.wrstRise))

/-- Every command completes with its own effect. The model's choices behind it: log entry 4. -/
def Obligations.EveryCommandHasItsEffect : Prop :=
  Clause.EffectsOfRegisters ∧ Clause.EffectsOfSteps ∧ Clause.EffectsOfVector ∧ Clause.EffectsOfScalar ∧ Clause.EffectsOfSlotM ∧
    Clause.EffectsOfStage ∧ Clause.EffectsOfLarder ∧ Clause.EffectsOfLinks ∧ Clause.EffectsOfCircuits ∧ Clause.EffectsOfCollectives ∧
    Clause.EffectsOfHost ∧ Clause.EffectsOfHearth ∧ Clause.EffectsOfSoholt ∧ Clause.EffectsOfSecurity ∧ Clause.EffectsOfRecovery ∧
    Clause.EffectsOfBringUp
end

