-- ==== Sys2Proof/Laws/Map.lean ====
section
/-! SUPPORT. The laws of sparse maps and memories: a read after a write, what a write leaves alone, and that every
operation keeps the canonical form. -/

namespace Sys2Proof.Machine

variable {α : Type}

@[simp] theorem SMap.find_nil (k : Nat) : SMap.find ([] : SMap α) k = none := rfl

@[simp] theorem SMap.find_put_self (m : SMap α) (k : Nat) (v : α) : (m.put k v).find k = some v := by
  induction m with
  | nil => simp [SMap.put, SMap.find]
  | cons p r ih =>
    obtain ⟨k', v'⟩ := p
    simp only [SMap.put]
    split
    · simp [SMap.find]
    · split
      · simp [SMap.find]
      · simp [SMap.find, *]

theorem SMap.find_put_ne (m : SMap α) {k j : Nat} (v : α) (h : j ≠ k) : (m.put k v).find j = m.find j := by
  induction m with
  | nil => simp [SMap.put, SMap.find, h]
  | cons p r ih =>
    obtain ⟨k', v'⟩ := p
    simp only [SMap.put]
    split
    · simp [SMap.find, h]
    · split
      · rename_i h2; subst h2; simp [SMap.find, h]
      · simp only [SMap.find]; split <;> simp [ih]

theorem SMap.find_filter_of_false (m : SMap α) (q : Nat → Bool) {j : Nat} (h : q j = false) :
    SMap.find (m.filter (fun p => q p.1)) j = none := by
  induction m with
  | nil => rfl
  | cons p r ih =>
    obtain ⟨k', v'⟩ := p
    simp only [List.filter]
    split
    · rename_i hq
      have : j ≠ k' := by rintro rfl; simp_all
      simp [SMap.find, this, ih]
    · exact ih

theorem SMap.find_filter_of_true (m : SMap α) (q : Nat → Bool) {j : Nat} (h : q j = true) :
    SMap.find (m.filter (fun p => q p.1)) j = m.find j := by
  induction m with
  | nil => rfl
  | cons p r ih =>
    obtain ⟨k', v'⟩ := p
    simp only [List.filter]
    split
    · simp only [SMap.find]; split <;> simp [ih]
    · rename_i hq
      have : j ≠ k' := by rintro rfl; simp_all
      simp [SMap.find, this, ih]

@[simp] theorem SMap.find_del_self (m : SMap α) (k : Nat) : (m.del k).find k = none :=
  SMap.find_filter_of_false m (fun j => decide (j ≠ k)) (by simp)

theorem SMap.find_del_ne (m : SMap α) {k j : Nat} (h : j ≠ k) : (m.del k).find j = m.find j :=
  SMap.find_filter_of_true m (fun i => decide (i ≠ k)) (by simpa using h)

@[simp] theorem SMap.get_set_self [DecidableEq α] (d : α) (m : SMap α) (k : Nat) (v : α) :
    SMap.get d (SMap.set d m k v) k = v := by
  simp only [SMap.set, SMap.get]
  split
  · simp_all
  · simp

theorem SMap.get_set_ne [DecidableEq α] (d : α) (m : SMap α) {k j : Nat} (v : α) (h : j ≠ k) :
    SMap.get d (SMap.set d m k v) j = SMap.get d m j := by
  simp only [SMap.set, SMap.get]
  split
  · simp [SMap.find_del_ne m h]
  · simp [SMap.find_put_ne m v h]

theorem SMap.sorted_filter (m : SMap α) (q : Nat × α → Bool) (h : m.sorted = true) :
    SMap.sorted (m.filter q) = true := by
  induction m with
  | nil => rfl
  | cons p r ih =>
    obtain ⟨k, v⟩ := p
    simp only [SMap.sorted, Bool.and_eq_true, List.all_eq_true] at h
    simp only [List.filter]
    split
    · simp only [SMap.sorted, Bool.and_eq_true, List.all_eq_true]
      exact ⟨fun x hx => h.1 x (List.mem_of_mem_filter hx), ih h.2⟩
    · exact ih h.2

theorem SMap.mem_put {m : SMap α} {k : Nat} {v : α} {p : Nat × α} (h : p ∈ m.put k v) : p = (k, v) ∨ p ∈ m := by
  induction m with
  | nil => simp [SMap.put] at h; exact .inl h
  | cons q r ih =>
    obtain ⟨k', v'⟩ := q
    simp only [SMap.put] at h
    split at h
    · simp at h ⊢; tauto
    · split at h
      · simp at h ⊢; tauto
      · simp at h ⊢
        rcases h with h | h
        · tauto
        · rcases ih h with h | h <;> tauto

theorem SMap.sorted_put (m : SMap α) (k : Nat) (v : α) (h : m.sorted = true) : (m.put k v).sorted = true := by
  induction m with
  | nil => simp [SMap.put, SMap.sorted]
  | cons q r ih =>
    obtain ⟨k', v'⟩ := q
    simp only [SMap.sorted, Bool.and_eq_true, List.all_eq_true, decide_eq_true_eq] at h
    simp only [SMap.put]
    split
    · rename_i hlt
      simp only [SMap.sorted, Bool.and_eq_true, List.all_eq_true, decide_eq_true_eq, List.mem_cons, forall_eq_or_imp]
      exact ⟨⟨hlt, fun x hx => lt_trans hlt (h.1 x hx)⟩, h⟩
    · split
      · rename_i he; subst he
        simp only [SMap.sorted, Bool.and_eq_true, List.all_eq_true, decide_eq_true_eq]; exact h
      · rename_i h1 h2
        simp only [SMap.sorted, Bool.and_eq_true, List.all_eq_true, decide_eq_true_eq]
        refine ⟨fun x hx => ?_, ih h.2⟩
        rcases SMap.mem_put hx with rfl | hx
        · simp; omega
        · exact h.1 x hx

theorem SMap.sorted_set [DecidableEq α] (d : α) (m : SMap α) (k : Nat) (v : α) (h : m.sorted = true) :
    (SMap.set d m k v).sorted = true := by
  simp only [SMap.set]; split
  · exact SMap.sorted_filter m _ h
  · exact SMap.sorted_put m k v h

/-- A byte just written reads as written. -/
@[simp] theorem Memory.read_write_self (m : Memory) (a : Nat) (b : Byte) : (m.write a b).read a = b :=
  SMap.get_set_self _ m a b

/-- A write leaves every other byte alone. -/
theorem Memory.read_write_ne (m : Memory) {a j : Nat} (b : Byte) (h : j ≠ a) : (m.write a b).read j = m.read j :=
  SMap.get_set_ne _ m b h

/-- A write keeps the canonical form. -/
theorem Memory.wf_write (m : Memory) (a : Nat) (b : Byte) (h : m.wf = true) : (m.write a b).wf = true := by
  simp only [Memory.wf, Bool.and_eq_true] at h ⊢
  refine ⟨SMap.sorted_set _ m a b h.1, ?_⟩
  have h2 := h.2
  rw [List.all_eq_true] at h2 ⊢
  intro p hp
  simp only [Memory.write, SMap.set] at hp
  split at hp
  · exact h2 p (List.mem_of_mem_filter hp)
  · rcases SMap.mem_put hp with rfl | hp
    · simpa using ‹¬ b = 0›
    · exact h2 p hp

/-- Writing a list of bytes keeps the canonical form. -/
theorem Memory.wf_writeBytes (l : List Byte) (m : Memory) (a : Nat) (h : m.wf = true) :
    (m.writeBytes a l).wf = true := by
  induction l generalizing m a with
  | nil => exact h
  | cons b r ih => exact ih _ _ (Memory.wf_write m a b h)

/-- Removing entries keeps the canonical form. -/
theorem Memory.wf_filter (m : Memory) (q : Host.Cell → Bool) (h : m.wf = true) : Memory.wf (m.filter q) = true := by
  simp only [Memory.wf, Bool.and_eq_true] at h ⊢
  refine ⟨SMap.sorted_filter m q h.1, ?_⟩
  have h2 := h.2
  rw [List.all_eq_true] at h2 ⊢
  exact fun p hp => h2 p (List.mem_of_mem_filter hp)

/-- Zeroing a range keeps the canonical form. -/
theorem Memory.wf_zero (m : Memory) (a n : Nat) (h : m.wf = true) : (m.zero a n).wf = true :=
  Memory.wf_filter m _ h

/-- A zeroed byte reads 0. -/
theorem Memory.read_zero_in (m : Memory) {a n j : Nat} (h1 : a ≤ j) (h2 : j < a + n) : (m.zero a n).read j = 0 := by
  have : SMap.find (m.zero a n) j = none :=
    SMap.find_filter_of_false m (fun k => decide (k < a) || decide (a + n ≤ k)) (by simp; omega)
  simp [Memory.read, SMap.get, this]

/-- Zeroing leaves the bytes outside its range alone. -/
theorem Memory.read_zero_out (m : Memory) {a n j : Nat} (h : j < a ∨ a + n ≤ j) : (m.zero a n).read j = m.read j := by
  have : SMap.find (m.zero a n) j = SMap.find m j :=
    SMap.find_filter_of_true m (fun k => decide (k < a) || decide (a + n ≤ k)) (by simp; omega)
  simp [Memory.read, SMap.get, this]

/-- A list of bytes written leaves every byte outside it alone. -/
theorem Memory.read_writeBytes_out (l : List Byte) (m : Memory) {a j : Nat} (h : j < a ∨ a + l.length ≤ j) :
    (m.writeBytes a l).read j = m.read j := by
  induction l generalizing m a with
  | nil => rfl
  | cons b r ih =>
    simp only [List.length_cons] at h
    rw [Memory.writeBytes, ih _ (by omega), Memory.read_write_ne _ _ (by omega)]

@[simp] theorem Memory.read_nil (a : Nat) : Memory.read [] a = 0 := rfl

end Sys2Proof.Machine
end

