-- ==== Sys2Proof/Laws/State.lean ====
section
/-! SUPPORT. What the shared updates of the state leave alone, field by field, and what a register reads after a write. -/

namespace Sys2Proof.Machine

open Sys2Proof

variable (s : State)

/-! ### wr -/

@[simp] theorem State.wr_shadow (f : Field) (i j v : Nat) : (s.wr f i j v).shadow = s.shadow := rfl
@[simp] theorem State.wr_marks (f : Field) (i j v : Nat) : (s.wr f i j v).marks = s.marks := rfl
@[simp] theorem State.wr_latches (f : Field) (i j v : Nat) : (s.wr f i j v).latches = s.latches := rfl
@[simp] theorem State.wr_pins (f : Field) (i j v : Nat) : (s.wr f i j v).pins = s.pins := rfl
@[simp] theorem State.wr_boot (f : Field) (i j v : Nat) : (s.wr f i j v).boot = s.boot := rfl
@[simp] theorem State.wr_timeUs (f : Field) (i j v : Nat) : (s.wr f i j v).timeUs = s.timeUs := rfl
@[simp] theorem State.wr_flash (f : Field) (i j v : Nat) : (s.wr f i j v).flash = s.flash := rfl
@[simp] theorem State.wr_soh (f : Field) (i j v : Nat) : (s.wr f i j v).soh = s.soh := rfl
@[simp] theorem State.wr_sec (f : Field) (i j v : Nat) : (s.wr f i j v).sec = s.sec := rfl
@[simp] theorem State.wr_coll (f : Field) (i j v : Nat) : (s.wr f i j v).coll = s.coll := rfl
@[simp] theorem State.wr_hearth (f : Field) (i j v : Nat) : (s.wr f i j v).hearth = s.hearth := rfl
@[simp] theorem State.wr_lanes (f : Field) (i j v : Nat) : (s.wr f i j v).lanes = s.lanes := rfl
@[simp] theorem State.wr_watch (f : Field) (i j v : Nat) : (s.wr f i j v).watch = s.watch := rfl
@[simp] theorem State.wr_sess (f : Field) (i j v : Nat) : (s.wr f i j v).sess = s.sess := rfl
@[simp] theorem State.wr_xfers (f : Field) (i j v : Nat) : (s.wr f i j v).xfers = s.xfers := rfl
@[simp] theorem State.wr_xeRest (f : Field) (i j v : Nat) : (s.wr f i j v).xeRest = s.xeRest := rfl
@[simp] theorem State.wr_hdark (f : Field) (i j v : Nat) : (s.wr f i j v).hdark = s.hdark := rfl
@[simp] theorem State.wr_ctxs (f : Field) (i j v : Nat) : (s.wr f i j v).ctxs = s.ctxs := rfl
@[simp] theorem State.wr_hostOut (f : Field) (i j v : Nat) : (s.wr f i j v).hostOut = s.hostOut := rfl
@[simp] theorem State.wr_larder (f : Field) (i j v : Nat) : (s.wr f i j v).larder = s.larder := rfl
@[simp] theorem State.wr_pantry (f : Field) (i j v : Nat) : (s.wr f i j v).pantry = s.pantry := rfl
@[simp] theorem State.wr_lerr (f : Field) (i j v : Nat) : (s.wr f i j v).lerr = s.lerr := rfl
@[simp] theorem State.wr_perr (f : Field) (i j v : Nat) : (s.wr f i j v).perr = s.perr := rfl
@[simp] theorem State.wr_imem (f : Field) (i j v : Nat) : (s.wr f i j v).imem = s.imem := rfl
@[simp] theorem State.wr_tiles (f : Field) (i j v : Nat) : (s.wr f i j v).tiles = s.tiles := rfl
@[simp] theorem State.wr_moves (f : Field) (i j v : Nat) : (s.wr f i j v).moves = s.moves := rfl
@[simp] theorem State.wr_lostReqs (f : Field) (i j v : Nat) : (s.wr f i j v).lostReqs = s.lostReqs := rfl
@[simp] theorem State.wr_posts (f : Field) (i j v : Nat) : (s.wr f i j v).posts = s.posts := rfl
@[simp] theorem State.wr_foldMarks (f : Field) (i j v : Nat) : (s.wr f i j v).foldMarks = s.foldMarks := rfl
@[simp] theorem State.wr_feeds (f : Field) (i j v : Nat) : (s.wr f i j v).feeds = s.feeds := rfl
@[simp] theorem State.wr_bridges (f : Field) (i j v : Nat) : (s.wr f i j v).bridges = s.bridges := rfl
@[simp] theorem State.wr_lands (f : Field) (i j v : Nat) : (s.wr f i j v).lands = s.lands := rfl
@[simp] theorem State.wr_landQ (f : Field) (i j v : Nat) : (s.wr f i j v).landQ = s.landQ := rfl
@[simp] theorem State.wr_folds (f : Field) (i j v : Nat) : (s.wr f i j v).folds = s.folds := rfl
@[simp] theorem State.wr_starch (f : Field) (i j v : Nat) : (s.wr f i j v).starch = s.starch := rfl
@[simp] theorem State.wr_stk (f : Field) (i j v : Nat) : (s.wr f i j v).stk = s.stk := rfl
@[simp] theorem State.wr_fenced (f : Field) (i j v : Nat) : (s.wr f i j v).fenced = s.fenced := rfl
@[simp] theorem State.wr_ports (f : Field) (i j v : Nat) : (s.wr f i j v).ports = s.ports := rfl
@[simp] theorem State.wr_circs (f : Field) (i j v : Nat) : (s.wr f i j v).circs = s.circs := rfl
@[simp] theorem State.wr_evq (f : Field) (i j v : Nat) : (s.wr f i j v).evq = s.evq := rfl
@[simp] theorem State.wr_evLost (f : Field) (i j v : Nat) : (s.wr f i j v).evLost = s.evLost := rfl
@[simp] theorem State.wr_slots (f : Field) (i j v : Nat) : (s.wr f i j v).slots = s.slots := rfl
@[simp] theorem State.wr_collWait (f : Field) (i j v : Nat) : (s.wr f i j v).collWait = s.collWait := rfl
@[simp] theorem State.wr_rooms (f : Field) (i j v : Nat) : (s.wr f i j v).rooms = s.rooms := rfl
@[simp] theorem State.wr_doneKeys (f : Field) (i j v : Nat) : (s.wr f i j v).doneKeys = s.doneKeys := rfl
@[simp] theorem State.wr_wires (f : Field) (i j v : Nat) : (s.wr f i j v).wires = s.wires := rfl
@[simp] theorem State.wr_staging (f : Field) (i j v : Nat) : (s.wr f i j v).staging = s.staging := rfl
@[simp] theorem State.wr_due (f : Field) (i j v : Nat) : (s.wr f i j v).due = s.due := rfl
@[simp] theorem State.wr_free (f : Field) (i j v : Nat) : (s.wr f i j v).free = s.free := rfl
@[simp] theorem State.wr_pending (f : Field) (i j v : Nat) : (s.wr f i j v).pending = s.pending := rfl

/-! ### setTile -/

@[simp] theorem State.setTile_regs (t : Nat) (x : Tile) : (s.setTile t x).regs = s.regs := rfl
@[simp] theorem State.setTile_shadow (t : Nat) (x : Tile) : (s.setTile t x).shadow = s.shadow := rfl
@[simp] theorem State.setTile_marks (t : Nat) (x : Tile) : (s.setTile t x).marks = s.marks := rfl
@[simp] theorem State.setTile_latches (t : Nat) (x : Tile) : (s.setTile t x).latches = s.latches := rfl
@[simp] theorem State.setTile_pins (t : Nat) (x : Tile) : (s.setTile t x).pins = s.pins := rfl
@[simp] theorem State.setTile_boot (t : Nat) (x : Tile) : (s.setTile t x).boot = s.boot := rfl
@[simp] theorem State.setTile_timeUs (t : Nat) (x : Tile) : (s.setTile t x).timeUs = s.timeUs := rfl
@[simp] theorem State.setTile_flash (t : Nat) (x : Tile) : (s.setTile t x).flash = s.flash := rfl
@[simp] theorem State.setTile_soh (t : Nat) (x : Tile) : (s.setTile t x).soh = s.soh := rfl
@[simp] theorem State.setTile_sec (t : Nat) (x : Tile) : (s.setTile t x).sec = s.sec := rfl
@[simp] theorem State.setTile_coll (t : Nat) (x : Tile) : (s.setTile t x).coll = s.coll := rfl
@[simp] theorem State.setTile_hearth (t : Nat) (x : Tile) : (s.setTile t x).hearth = s.hearth := rfl
@[simp] theorem State.setTile_lanes (t : Nat) (x : Tile) : (s.setTile t x).lanes = s.lanes := rfl
@[simp] theorem State.setTile_watch (t : Nat) (x : Tile) : (s.setTile t x).watch = s.watch := rfl
@[simp] theorem State.setTile_sess (t : Nat) (x : Tile) : (s.setTile t x).sess = s.sess := rfl
@[simp] theorem State.setTile_xfers (t : Nat) (x : Tile) : (s.setTile t x).xfers = s.xfers := rfl
@[simp] theorem State.setTile_xeRest (t : Nat) (x : Tile) : (s.setTile t x).xeRest = s.xeRest := rfl
@[simp] theorem State.setTile_hdark (t : Nat) (x : Tile) : (s.setTile t x).hdark = s.hdark := rfl
@[simp] theorem State.setTile_ctxs (t : Nat) (x : Tile) : (s.setTile t x).ctxs = s.ctxs := rfl
@[simp] theorem State.setTile_hostOut (t : Nat) (x : Tile) : (s.setTile t x).hostOut = s.hostOut := rfl
@[simp] theorem State.setTile_larder (t : Nat) (x : Tile) : (s.setTile t x).larder = s.larder := rfl
@[simp] theorem State.setTile_pantry (t : Nat) (x : Tile) : (s.setTile t x).pantry = s.pantry := rfl
@[simp] theorem State.setTile_lerr (t : Nat) (x : Tile) : (s.setTile t x).lerr = s.lerr := rfl
@[simp] theorem State.setTile_perr (t : Nat) (x : Tile) : (s.setTile t x).perr = s.perr := rfl
@[simp] theorem State.setTile_imem (t : Nat) (x : Tile) : (s.setTile t x).imem = s.imem := rfl
@[simp] theorem State.setTile_moves (t : Nat) (x : Tile) : (s.setTile t x).moves = s.moves := rfl
@[simp] theorem State.setTile_lostReqs (t : Nat) (x : Tile) : (s.setTile t x).lostReqs = s.lostReqs := rfl
@[simp] theorem State.setTile_posts (t : Nat) (x : Tile) : (s.setTile t x).posts = s.posts := rfl
@[simp] theorem State.setTile_foldMarks (t : Nat) (x : Tile) : (s.setTile t x).foldMarks = s.foldMarks := rfl
@[simp] theorem State.setTile_feeds (t : Nat) (x : Tile) : (s.setTile t x).feeds = s.feeds := rfl
@[simp] theorem State.setTile_bridges (t : Nat) (x : Tile) : (s.setTile t x).bridges = s.bridges := rfl
@[simp] theorem State.setTile_lands (t : Nat) (x : Tile) : (s.setTile t x).lands = s.lands := rfl
@[simp] theorem State.setTile_landQ (t : Nat) (x : Tile) : (s.setTile t x).landQ = s.landQ := rfl
@[simp] theorem State.setTile_folds (t : Nat) (x : Tile) : (s.setTile t x).folds = s.folds := rfl
@[simp] theorem State.setTile_starch (t : Nat) (x : Tile) : (s.setTile t x).starch = s.starch := rfl
@[simp] theorem State.setTile_stk (t : Nat) (x : Tile) : (s.setTile t x).stk = s.stk := rfl
@[simp] theorem State.setTile_fenced (t : Nat) (x : Tile) : (s.setTile t x).fenced = s.fenced := rfl
@[simp] theorem State.setTile_ports (t : Nat) (x : Tile) : (s.setTile t x).ports = s.ports := rfl
@[simp] theorem State.setTile_circs (t : Nat) (x : Tile) : (s.setTile t x).circs = s.circs := rfl
@[simp] theorem State.setTile_evq (t : Nat) (x : Tile) : (s.setTile t x).evq = s.evq := rfl
@[simp] theorem State.setTile_evLost (t : Nat) (x : Tile) : (s.setTile t x).evLost = s.evLost := rfl
@[simp] theorem State.setTile_slots (t : Nat) (x : Tile) : (s.setTile t x).slots = s.slots := rfl
@[simp] theorem State.setTile_collWait (t : Nat) (x : Tile) : (s.setTile t x).collWait = s.collWait := rfl
@[simp] theorem State.setTile_rooms (t : Nat) (x : Tile) : (s.setTile t x).rooms = s.rooms := rfl
@[simp] theorem State.setTile_doneKeys (t : Nat) (x : Tile) : (s.setTile t x).doneKeys = s.doneKeys := rfl
@[simp] theorem State.setTile_wires (t : Nat) (x : Tile) : (s.setTile t x).wires = s.wires := rfl
@[simp] theorem State.setTile_staging (t : Nat) (x : Tile) : (s.setTile t x).staging = s.staging := rfl
@[simp] theorem State.setTile_due (t : Nat) (x : Tile) : (s.setTile t x).due = s.due := rfl
@[simp] theorem State.setTile_free (t : Nat) (x : Tile) : (s.setTile t x).free = s.free := rfl
@[simp] theorem State.setTile_pending (t : Nat) (x : Tile) : (s.setTile t x).pending = s.pending := rfl
@[simp] theorem State.setTile_rd (t : Nat) (x : Tile) (g : Field) (k n : Nat) : (s.setTile t x).rd g k n = s.rd g k n := rfl

/-! ### setCtx -/

@[simp] theorem State.setCtx_regs (c : Nat) (x : Ctx) : (s.setCtx c x).regs = s.regs := rfl
@[simp] theorem State.setCtx_shadow (c : Nat) (x : Ctx) : (s.setCtx c x).shadow = s.shadow := rfl
@[simp] theorem State.setCtx_marks (c : Nat) (x : Ctx) : (s.setCtx c x).marks = s.marks := rfl
@[simp] theorem State.setCtx_latches (c : Nat) (x : Ctx) : (s.setCtx c x).latches = s.latches := rfl
@[simp] theorem State.setCtx_pins (c : Nat) (x : Ctx) : (s.setCtx c x).pins = s.pins := rfl
@[simp] theorem State.setCtx_boot (c : Nat) (x : Ctx) : (s.setCtx c x).boot = s.boot := rfl
@[simp] theorem State.setCtx_timeUs (c : Nat) (x : Ctx) : (s.setCtx c x).timeUs = s.timeUs := rfl
@[simp] theorem State.setCtx_flash (c : Nat) (x : Ctx) : (s.setCtx c x).flash = s.flash := rfl
@[simp] theorem State.setCtx_soh (c : Nat) (x : Ctx) : (s.setCtx c x).soh = s.soh := rfl
@[simp] theorem State.setCtx_sec (c : Nat) (x : Ctx) : (s.setCtx c x).sec = s.sec := rfl
@[simp] theorem State.setCtx_coll (c : Nat) (x : Ctx) : (s.setCtx c x).coll = s.coll := rfl
@[simp] theorem State.setCtx_hearth (c : Nat) (x : Ctx) : (s.setCtx c x).hearth = s.hearth := rfl
@[simp] theorem State.setCtx_lanes (c : Nat) (x : Ctx) : (s.setCtx c x).lanes = s.lanes := rfl
@[simp] theorem State.setCtx_watch (c : Nat) (x : Ctx) : (s.setCtx c x).watch = s.watch := rfl
@[simp] theorem State.setCtx_sess (c : Nat) (x : Ctx) : (s.setCtx c x).sess = s.sess := rfl
@[simp] theorem State.setCtx_xfers (c : Nat) (x : Ctx) : (s.setCtx c x).xfers = s.xfers := rfl
@[simp] theorem State.setCtx_xeRest (c : Nat) (x : Ctx) : (s.setCtx c x).xeRest = s.xeRest := rfl
@[simp] theorem State.setCtx_hdark (c : Nat) (x : Ctx) : (s.setCtx c x).hdark = s.hdark := rfl
@[simp] theorem State.setCtx_hostOut (c : Nat) (x : Ctx) : (s.setCtx c x).hostOut = s.hostOut := rfl
@[simp] theorem State.setCtx_larder (c : Nat) (x : Ctx) : (s.setCtx c x).larder = s.larder := rfl
@[simp] theorem State.setCtx_pantry (c : Nat) (x : Ctx) : (s.setCtx c x).pantry = s.pantry := rfl
@[simp] theorem State.setCtx_lerr (c : Nat) (x : Ctx) : (s.setCtx c x).lerr = s.lerr := rfl
@[simp] theorem State.setCtx_perr (c : Nat) (x : Ctx) : (s.setCtx c x).perr = s.perr := rfl
@[simp] theorem State.setCtx_imem (c : Nat) (x : Ctx) : (s.setCtx c x).imem = s.imem := rfl
@[simp] theorem State.setCtx_tiles (c : Nat) (x : Ctx) : (s.setCtx c x).tiles = s.tiles := rfl
@[simp] theorem State.setCtx_moves (c : Nat) (x : Ctx) : (s.setCtx c x).moves = s.moves := rfl
@[simp] theorem State.setCtx_lostReqs (c : Nat) (x : Ctx) : (s.setCtx c x).lostReqs = s.lostReqs := rfl
@[simp] theorem State.setCtx_posts (c : Nat) (x : Ctx) : (s.setCtx c x).posts = s.posts := rfl
@[simp] theorem State.setCtx_foldMarks (c : Nat) (x : Ctx) : (s.setCtx c x).foldMarks = s.foldMarks := rfl
@[simp] theorem State.setCtx_feeds (c : Nat) (x : Ctx) : (s.setCtx c x).feeds = s.feeds := rfl
@[simp] theorem State.setCtx_bridges (c : Nat) (x : Ctx) : (s.setCtx c x).bridges = s.bridges := rfl
@[simp] theorem State.setCtx_lands (c : Nat) (x : Ctx) : (s.setCtx c x).lands = s.lands := rfl
@[simp] theorem State.setCtx_landQ (c : Nat) (x : Ctx) : (s.setCtx c x).landQ = s.landQ := rfl
@[simp] theorem State.setCtx_folds (c : Nat) (x : Ctx) : (s.setCtx c x).folds = s.folds := rfl
@[simp] theorem State.setCtx_starch (c : Nat) (x : Ctx) : (s.setCtx c x).starch = s.starch := rfl
@[simp] theorem State.setCtx_stk (c : Nat) (x : Ctx) : (s.setCtx c x).stk = s.stk := rfl
@[simp] theorem State.setCtx_fenced (c : Nat) (x : Ctx) : (s.setCtx c x).fenced = s.fenced := rfl
@[simp] theorem State.setCtx_ports (c : Nat) (x : Ctx) : (s.setCtx c x).ports = s.ports := rfl
@[simp] theorem State.setCtx_circs (c : Nat) (x : Ctx) : (s.setCtx c x).circs = s.circs := rfl
@[simp] theorem State.setCtx_evq (c : Nat) (x : Ctx) : (s.setCtx c x).evq = s.evq := rfl
@[simp] theorem State.setCtx_evLost (c : Nat) (x : Ctx) : (s.setCtx c x).evLost = s.evLost := rfl
@[simp] theorem State.setCtx_slots (c : Nat) (x : Ctx) : (s.setCtx c x).slots = s.slots := rfl
@[simp] theorem State.setCtx_collWait (c : Nat) (x : Ctx) : (s.setCtx c x).collWait = s.collWait := rfl
@[simp] theorem State.setCtx_rooms (c : Nat) (x : Ctx) : (s.setCtx c x).rooms = s.rooms := rfl
@[simp] theorem State.setCtx_doneKeys (c : Nat) (x : Ctx) : (s.setCtx c x).doneKeys = s.doneKeys := rfl
@[simp] theorem State.setCtx_wires (c : Nat) (x : Ctx) : (s.setCtx c x).wires = s.wires := rfl
@[simp] theorem State.setCtx_staging (c : Nat) (x : Ctx) : (s.setCtx c x).staging = s.staging := rfl
@[simp] theorem State.setCtx_due (c : Nat) (x : Ctx) : (s.setCtx c x).due = s.due := rfl
@[simp] theorem State.setCtx_free (c : Nat) (x : Ctx) : (s.setCtx c x).free = s.free := rfl
@[simp] theorem State.setCtx_pending (c : Nat) (x : Ctx) : (s.setCtx c x).pending = s.pending := rfl
@[simp] theorem State.setCtx_rd (c : Nat) (x : Ctx) (g : Field) (k n : Nat) : (s.setCtx c x).rd g k n = s.rd g k n := rfl

/-! ### setStack -/

@[simp] theorem State.setStack_regs (n : Nat) (x : Stack) : (s.setStack n x).regs = s.regs := rfl
@[simp] theorem State.setStack_shadow (n : Nat) (x : Stack) : (s.setStack n x).shadow = s.shadow := rfl
@[simp] theorem State.setStack_marks (n : Nat) (x : Stack) : (s.setStack n x).marks = s.marks := rfl
@[simp] theorem State.setStack_latches (n : Nat) (x : Stack) : (s.setStack n x).latches = s.latches := rfl
@[simp] theorem State.setStack_pins (n : Nat) (x : Stack) : (s.setStack n x).pins = s.pins := rfl
@[simp] theorem State.setStack_boot (n : Nat) (x : Stack) : (s.setStack n x).boot = s.boot := rfl
@[simp] theorem State.setStack_timeUs (n : Nat) (x : Stack) : (s.setStack n x).timeUs = s.timeUs := rfl
@[simp] theorem State.setStack_flash (n : Nat) (x : Stack) : (s.setStack n x).flash = s.flash := rfl
@[simp] theorem State.setStack_soh (n : Nat) (x : Stack) : (s.setStack n x).soh = s.soh := rfl
@[simp] theorem State.setStack_sec (n : Nat) (x : Stack) : (s.setStack n x).sec = s.sec := rfl
@[simp] theorem State.setStack_coll (n : Nat) (x : Stack) : (s.setStack n x).coll = s.coll := rfl
@[simp] theorem State.setStack_hearth (n : Nat) (x : Stack) : (s.setStack n x).hearth = s.hearth := rfl
@[simp] theorem State.setStack_lanes (n : Nat) (x : Stack) : (s.setStack n x).lanes = s.lanes := rfl
@[simp] theorem State.setStack_watch (n : Nat) (x : Stack) : (s.setStack n x).watch = s.watch := rfl
@[simp] theorem State.setStack_sess (n : Nat) (x : Stack) : (s.setStack n x).sess = s.sess := rfl
@[simp] theorem State.setStack_xfers (n : Nat) (x : Stack) : (s.setStack n x).xfers = s.xfers := rfl
@[simp] theorem State.setStack_xeRest (n : Nat) (x : Stack) : (s.setStack n x).xeRest = s.xeRest := rfl
@[simp] theorem State.setStack_hdark (n : Nat) (x : Stack) : (s.setStack n x).hdark = s.hdark := rfl
@[simp] theorem State.setStack_ctxs (n : Nat) (x : Stack) : (s.setStack n x).ctxs = s.ctxs := rfl
@[simp] theorem State.setStack_hostOut (n : Nat) (x : Stack) : (s.setStack n x).hostOut = s.hostOut := rfl
@[simp] theorem State.setStack_larder (n : Nat) (x : Stack) : (s.setStack n x).larder = s.larder := rfl
@[simp] theorem State.setStack_pantry (n : Nat) (x : Stack) : (s.setStack n x).pantry = s.pantry := rfl
@[simp] theorem State.setStack_lerr (n : Nat) (x : Stack) : (s.setStack n x).lerr = s.lerr := rfl
@[simp] theorem State.setStack_perr (n : Nat) (x : Stack) : (s.setStack n x).perr = s.perr := rfl
@[simp] theorem State.setStack_imem (n : Nat) (x : Stack) : (s.setStack n x).imem = s.imem := rfl
@[simp] theorem State.setStack_tiles (n : Nat) (x : Stack) : (s.setStack n x).tiles = s.tiles := rfl
@[simp] theorem State.setStack_moves (n : Nat) (x : Stack) : (s.setStack n x).moves = s.moves := rfl
@[simp] theorem State.setStack_lostReqs (n : Nat) (x : Stack) : (s.setStack n x).lostReqs = s.lostReqs := rfl
@[simp] theorem State.setStack_posts (n : Nat) (x : Stack) : (s.setStack n x).posts = s.posts := rfl
@[simp] theorem State.setStack_foldMarks (n : Nat) (x : Stack) : (s.setStack n x).foldMarks = s.foldMarks := rfl
@[simp] theorem State.setStack_feeds (n : Nat) (x : Stack) : (s.setStack n x).feeds = s.feeds := rfl
@[simp] theorem State.setStack_bridges (n : Nat) (x : Stack) : (s.setStack n x).bridges = s.bridges := rfl
@[simp] theorem State.setStack_lands (n : Nat) (x : Stack) : (s.setStack n x).lands = s.lands := rfl
@[simp] theorem State.setStack_landQ (n : Nat) (x : Stack) : (s.setStack n x).landQ = s.landQ := rfl
@[simp] theorem State.setStack_folds (n : Nat) (x : Stack) : (s.setStack n x).folds = s.folds := rfl
@[simp] theorem State.setStack_starch (n : Nat) (x : Stack) : (s.setStack n x).starch = s.starch := rfl
@[simp] theorem State.setStack_fenced (n : Nat) (x : Stack) : (s.setStack n x).fenced = s.fenced := rfl
@[simp] theorem State.setStack_ports (n : Nat) (x : Stack) : (s.setStack n x).ports = s.ports := rfl
@[simp] theorem State.setStack_circs (n : Nat) (x : Stack) : (s.setStack n x).circs = s.circs := rfl
@[simp] theorem State.setStack_evq (n : Nat) (x : Stack) : (s.setStack n x).evq = s.evq := rfl
@[simp] theorem State.setStack_evLost (n : Nat) (x : Stack) : (s.setStack n x).evLost = s.evLost := rfl
@[simp] theorem State.setStack_slots (n : Nat) (x : Stack) : (s.setStack n x).slots = s.slots := rfl
@[simp] theorem State.setStack_collWait (n : Nat) (x : Stack) : (s.setStack n x).collWait = s.collWait := rfl
@[simp] theorem State.setStack_rooms (n : Nat) (x : Stack) : (s.setStack n x).rooms = s.rooms := rfl
@[simp] theorem State.setStack_doneKeys (n : Nat) (x : Stack) : (s.setStack n x).doneKeys = s.doneKeys := rfl
@[simp] theorem State.setStack_wires (n : Nat) (x : Stack) : (s.setStack n x).wires = s.wires := rfl
@[simp] theorem State.setStack_staging (n : Nat) (x : Stack) : (s.setStack n x).staging = s.staging := rfl
@[simp] theorem State.setStack_due (n : Nat) (x : Stack) : (s.setStack n x).due = s.due := rfl
@[simp] theorem State.setStack_free (n : Nat) (x : Stack) : (s.setStack n x).free = s.free := rfl
@[simp] theorem State.setStack_pending (n : Nat) (x : Stack) : (s.setStack n x).pending = s.pending := rfl
@[simp] theorem State.setStack_rd (n : Nat) (x : Stack) (g : Field) (k j : Nat) : (s.setStack n x).rd g k j = s.rd g k j := rfl

/-! ### tick -/

@[simp] theorem State.tick_regs : (s.tick).regs = s.regs := rfl
@[simp] theorem State.tick_shadow : (s.tick).shadow = s.shadow := rfl
@[simp] theorem State.tick_marks : (s.tick).marks = s.marks := rfl
@[simp] theorem State.tick_latches : (s.tick).latches = s.latches := rfl
@[simp] theorem State.tick_pins : (s.tick).pins = s.pins := rfl
@[simp] theorem State.tick_boot : (s.tick).boot = s.boot := rfl
@[simp] theorem State.tick_timeUs : (s.tick).timeUs = s.timeUs := rfl
@[simp] theorem State.tick_flash : (s.tick).flash = s.flash := rfl
@[simp] theorem State.tick_soh : (s.tick).soh = s.soh := rfl
@[simp] theorem State.tick_sec : (s.tick).sec = s.sec := rfl
@[simp] theorem State.tick_coll : (s.tick).coll = s.coll := rfl
@[simp] theorem State.tick_hearth : (s.tick).hearth = s.hearth := rfl
@[simp] theorem State.tick_lanes : (s.tick).lanes = s.lanes := rfl
@[simp] theorem State.tick_watch : (s.tick).watch = s.watch := rfl
@[simp] theorem State.tick_sess : (s.tick).sess = s.sess := rfl
@[simp] theorem State.tick_xfers : (s.tick).xfers = s.xfers := rfl
@[simp] theorem State.tick_xeRest : (s.tick).xeRest = s.xeRest := rfl
@[simp] theorem State.tick_hdark : (s.tick).hdark = s.hdark := rfl
@[simp] theorem State.tick_ctxs : (s.tick).ctxs = s.ctxs := rfl
@[simp] theorem State.tick_hostOut : (s.tick).hostOut = s.hostOut := rfl
@[simp] theorem State.tick_larder : (s.tick).larder = s.larder := rfl
@[simp] theorem State.tick_pantry : (s.tick).pantry = s.pantry := rfl
@[simp] theorem State.tick_lerr : (s.tick).lerr = s.lerr := rfl
@[simp] theorem State.tick_perr : (s.tick).perr = s.perr := rfl
@[simp] theorem State.tick_imem : (s.tick).imem = s.imem := rfl
@[simp] theorem State.tick_tiles : (s.tick).tiles = s.tiles := rfl
@[simp] theorem State.tick_moves : (s.tick).moves = s.moves := rfl
@[simp] theorem State.tick_lostReqs : (s.tick).lostReqs = s.lostReqs := rfl
@[simp] theorem State.tick_posts : (s.tick).posts = s.posts := rfl
@[simp] theorem State.tick_foldMarks : (s.tick).foldMarks = s.foldMarks := rfl
@[simp] theorem State.tick_feeds : (s.tick).feeds = s.feeds := rfl
@[simp] theorem State.tick_bridges : (s.tick).bridges = s.bridges := rfl
@[simp] theorem State.tick_lands : (s.tick).lands = s.lands := rfl
@[simp] theorem State.tick_landQ : (s.tick).landQ = s.landQ := rfl
@[simp] theorem State.tick_folds : (s.tick).folds = s.folds := rfl
@[simp] theorem State.tick_starch : (s.tick).starch = s.starch := rfl
@[simp] theorem State.tick_stk : (s.tick).stk = s.stk := rfl
@[simp] theorem State.tick_fenced : (s.tick).fenced = s.fenced := rfl
@[simp] theorem State.tick_ports : (s.tick).ports = s.ports := rfl
@[simp] theorem State.tick_circs : (s.tick).circs = s.circs := rfl
@[simp] theorem State.tick_evq : (s.tick).evq = s.evq := rfl
@[simp] theorem State.tick_evLost : (s.tick).evLost = s.evLost := rfl
@[simp] theorem State.tick_slots : (s.tick).slots = s.slots := rfl
@[simp] theorem State.tick_collWait : (s.tick).collWait = s.collWait := rfl
@[simp] theorem State.tick_rooms : (s.tick).rooms = s.rooms := rfl
@[simp] theorem State.tick_doneKeys : (s.tick).doneKeys = s.doneKeys := rfl
@[simp] theorem State.tick_wires : (s.tick).wires = s.wires := rfl
@[simp] theorem State.tick_staging : (s.tick).staging = s.staging := rfl
@[simp] theorem State.tick_due : (s.tick).due = s.due := rfl
@[simp] theorem State.tick_pending : (s.tick).pending = s.pending := rfl
@[simp] theorem State.tick_rd (g : Field) (k n : Nat) : (s.tick).rd g k n = s.rd g k n := rfl

/-! ### dropLatch -/

@[simp] theorem State.dropLatch_regs (ag : Agent) : (s.dropLatch ag).regs = s.regs := rfl
@[simp] theorem State.dropLatch_shadow (ag : Agent) : (s.dropLatch ag).shadow = s.shadow := rfl
@[simp] theorem State.dropLatch_marks (ag : Agent) : (s.dropLatch ag).marks = s.marks := rfl
@[simp] theorem State.dropLatch_pins (ag : Agent) : (s.dropLatch ag).pins = s.pins := rfl
@[simp] theorem State.dropLatch_boot (ag : Agent) : (s.dropLatch ag).boot = s.boot := rfl
@[simp] theorem State.dropLatch_timeUs (ag : Agent) : (s.dropLatch ag).timeUs = s.timeUs := rfl
@[simp] theorem State.dropLatch_flash (ag : Agent) : (s.dropLatch ag).flash = s.flash := rfl
@[simp] theorem State.dropLatch_soh (ag : Agent) : (s.dropLatch ag).soh = s.soh := rfl
@[simp] theorem State.dropLatch_sec (ag : Agent) : (s.dropLatch ag).sec = s.sec := rfl
@[simp] theorem State.dropLatch_coll (ag : Agent) : (s.dropLatch ag).coll = s.coll := rfl
@[simp] theorem State.dropLatch_hearth (ag : Agent) : (s.dropLatch ag).hearth = s.hearth := rfl
@[simp] theorem State.dropLatch_lanes (ag : Agent) : (s.dropLatch ag).lanes = s.lanes := rfl
@[simp] theorem State.dropLatch_watch (ag : Agent) : (s.dropLatch ag).watch = s.watch := rfl
@[simp] theorem State.dropLatch_sess (ag : Agent) : (s.dropLatch ag).sess = s.sess := rfl
@[simp] theorem State.dropLatch_xfers (ag : Agent) : (s.dropLatch ag).xfers = s.xfers := rfl
@[simp] theorem State.dropLatch_xeRest (ag : Agent) : (s.dropLatch ag).xeRest = s.xeRest := rfl
@[simp] theorem State.dropLatch_hdark (ag : Agent) : (s.dropLatch ag).hdark = s.hdark := rfl
@[simp] theorem State.dropLatch_ctxs (ag : Agent) : (s.dropLatch ag).ctxs = s.ctxs := rfl
@[simp] theorem State.dropLatch_hostOut (ag : Agent) : (s.dropLatch ag).hostOut = s.hostOut := rfl
@[simp] theorem State.dropLatch_larder (ag : Agent) : (s.dropLatch ag).larder = s.larder := rfl
@[simp] theorem State.dropLatch_pantry (ag : Agent) : (s.dropLatch ag).pantry = s.pantry := rfl
@[simp] theorem State.dropLatch_lerr (ag : Agent) : (s.dropLatch ag).lerr = s.lerr := rfl
@[simp] theorem State.dropLatch_perr (ag : Agent) : (s.dropLatch ag).perr = s.perr := rfl
@[simp] theorem State.dropLatch_imem (ag : Agent) : (s.dropLatch ag).imem = s.imem := rfl
@[simp] theorem State.dropLatch_tiles (ag : Agent) : (s.dropLatch ag).tiles = s.tiles := rfl
@[simp] theorem State.dropLatch_moves (ag : Agent) : (s.dropLatch ag).moves = s.moves := rfl
@[simp] theorem State.dropLatch_lostReqs (ag : Agent) : (s.dropLatch ag).lostReqs = s.lostReqs := rfl
@[simp] theorem State.dropLatch_posts (ag : Agent) : (s.dropLatch ag).posts = s.posts := rfl
@[simp] theorem State.dropLatch_foldMarks (ag : Agent) : (s.dropLatch ag).foldMarks = s.foldMarks := rfl
@[simp] theorem State.dropLatch_feeds (ag : Agent) : (s.dropLatch ag).feeds = s.feeds := rfl
@[simp] theorem State.dropLatch_bridges (ag : Agent) : (s.dropLatch ag).bridges = s.bridges := rfl
@[simp] theorem State.dropLatch_lands (ag : Agent) : (s.dropLatch ag).lands = s.lands := rfl
@[simp] theorem State.dropLatch_landQ (ag : Agent) : (s.dropLatch ag).landQ = s.landQ := rfl
@[simp] theorem State.dropLatch_folds (ag : Agent) : (s.dropLatch ag).folds = s.folds := rfl
@[simp] theorem State.dropLatch_starch (ag : Agent) : (s.dropLatch ag).starch = s.starch := rfl
@[simp] theorem State.dropLatch_stk (ag : Agent) : (s.dropLatch ag).stk = s.stk := rfl
@[simp] theorem State.dropLatch_fenced (ag : Agent) : (s.dropLatch ag).fenced = s.fenced := rfl
@[simp] theorem State.dropLatch_ports (ag : Agent) : (s.dropLatch ag).ports = s.ports := rfl
@[simp] theorem State.dropLatch_circs (ag : Agent) : (s.dropLatch ag).circs = s.circs := rfl
@[simp] theorem State.dropLatch_evq (ag : Agent) : (s.dropLatch ag).evq = s.evq := rfl
@[simp] theorem State.dropLatch_evLost (ag : Agent) : (s.dropLatch ag).evLost = s.evLost := rfl
@[simp] theorem State.dropLatch_slots (ag : Agent) : (s.dropLatch ag).slots = s.slots := rfl
@[simp] theorem State.dropLatch_collWait (ag : Agent) : (s.dropLatch ag).collWait = s.collWait := rfl
@[simp] theorem State.dropLatch_rooms (ag : Agent) : (s.dropLatch ag).rooms = s.rooms := rfl
@[simp] theorem State.dropLatch_doneKeys (ag : Agent) : (s.dropLatch ag).doneKeys = s.doneKeys := rfl
@[simp] theorem State.dropLatch_wires (ag : Agent) : (s.dropLatch ag).wires = s.wires := rfl
@[simp] theorem State.dropLatch_staging (ag : Agent) : (s.dropLatch ag).staging = s.staging := rfl
@[simp] theorem State.dropLatch_due (ag : Agent) : (s.dropLatch ag).due = s.due := rfl
@[simp] theorem State.dropLatch_free (ag : Agent) : (s.dropLatch ag).free = s.free := rfl
@[simp] theorem State.dropLatch_pending (ag : Agent) : (s.dropLatch ag).pending = s.pending := rfl
@[simp] theorem State.dropLatch_rd (ag : Agent) (g : Field) (k n : Nat) : (s.dropLatch ag).rd g k n = s.rd g k n := rfl

/-! ### raise -/

@[simp] theorem State.raise_regs (p b : Nat) (c : Option Nat) (d : Nat) : (s.raise p b c d).regs = s.regs := rfl
@[simp] theorem State.raise_shadow (p b : Nat) (c : Option Nat) (d : Nat) : (s.raise p b c d).shadow = s.shadow := rfl
@[simp] theorem State.raise_marks (p b : Nat) (c : Option Nat) (d : Nat) : (s.raise p b c d).marks = s.marks := rfl
@[simp] theorem State.raise_latches (p b : Nat) (c : Option Nat) (d : Nat) : (s.raise p b c d).latches = s.latches := rfl
@[simp] theorem State.raise_pins (p b : Nat) (c : Option Nat) (d : Nat) : (s.raise p b c d).pins = s.pins := rfl
@[simp] theorem State.raise_boot (p b : Nat) (c : Option Nat) (d : Nat) : (s.raise p b c d).boot = s.boot := rfl
@[simp] theorem State.raise_timeUs (p b : Nat) (c : Option Nat) (d : Nat) : (s.raise p b c d).timeUs = s.timeUs := rfl
@[simp] theorem State.raise_flash (p b : Nat) (c : Option Nat) (d : Nat) : (s.raise p b c d).flash = s.flash := rfl
@[simp] theorem State.raise_soh (p b : Nat) (c : Option Nat) (d : Nat) : (s.raise p b c d).soh = s.soh := rfl
@[simp] theorem State.raise_sec (p b : Nat) (c : Option Nat) (d : Nat) : (s.raise p b c d).sec = s.sec := rfl
@[simp] theorem State.raise_coll (p b : Nat) (c : Option Nat) (d : Nat) : (s.raise p b c d).coll = s.coll := rfl
@[simp] theorem State.raise_hearth (p b : Nat) (c : Option Nat) (d : Nat) : (s.raise p b c d).hearth = s.hearth := rfl
@[simp] theorem State.raise_lanes (p b : Nat) (c : Option Nat) (d : Nat) : (s.raise p b c d).lanes = s.lanes := rfl
@[simp] theorem State.raise_watch (p b : Nat) (c : Option Nat) (d : Nat) : (s.raise p b c d).watch = s.watch := rfl
@[simp] theorem State.raise_sess (p b : Nat) (c : Option Nat) (d : Nat) : (s.raise p b c d).sess = s.sess := rfl
@[simp] theorem State.raise_xfers (p b : Nat) (c : Option Nat) (d : Nat) : (s.raise p b c d).xfers = s.xfers := rfl
@[simp] theorem State.raise_xeRest (p b : Nat) (c : Option Nat) (d : Nat) : (s.raise p b c d).xeRest = s.xeRest := rfl
@[simp] theorem State.raise_hdark (p b : Nat) (c : Option Nat) (d : Nat) : (s.raise p b c d).hdark = s.hdark := rfl
@[simp] theorem State.raise_ctxs (p b : Nat) (c : Option Nat) (d : Nat) : (s.raise p b c d).ctxs = s.ctxs := rfl
@[simp] theorem State.raise_hostOut (p b : Nat) (c : Option Nat) (d : Nat) : (s.raise p b c d).hostOut = s.hostOut := rfl
@[simp] theorem State.raise_larder (p b : Nat) (c : Option Nat) (d : Nat) : (s.raise p b c d).larder = s.larder := rfl
@[simp] theorem State.raise_pantry (p b : Nat) (c : Option Nat) (d : Nat) : (s.raise p b c d).pantry = s.pantry := rfl
@[simp] theorem State.raise_lerr (p b : Nat) (c : Option Nat) (d : Nat) : (s.raise p b c d).lerr = s.lerr := rfl
@[simp] theorem State.raise_perr (p b : Nat) (c : Option Nat) (d : Nat) : (s.raise p b c d).perr = s.perr := rfl
@[simp] theorem State.raise_imem (p b : Nat) (c : Option Nat) (d : Nat) : (s.raise p b c d).imem = s.imem := rfl
@[simp] theorem State.raise_tiles (p b : Nat) (c : Option Nat) (d : Nat) : (s.raise p b c d).tiles = s.tiles := rfl
@[simp] theorem State.raise_moves (p b : Nat) (c : Option Nat) (d : Nat) : (s.raise p b c d).moves = s.moves := rfl
@[simp] theorem State.raise_lostReqs (p b : Nat) (c : Option Nat) (d : Nat) : (s.raise p b c d).lostReqs = s.lostReqs := rfl
@[simp] theorem State.raise_posts (p b : Nat) (c : Option Nat) (d : Nat) : (s.raise p b c d).posts = s.posts := rfl
@[simp] theorem State.raise_foldMarks (p b : Nat) (c : Option Nat) (d : Nat) : (s.raise p b c d).foldMarks = s.foldMarks := rfl
@[simp] theorem State.raise_feeds (p b : Nat) (c : Option Nat) (d : Nat) : (s.raise p b c d).feeds = s.feeds := rfl
@[simp] theorem State.raise_bridges (p b : Nat) (c : Option Nat) (d : Nat) : (s.raise p b c d).bridges = s.bridges := rfl
@[simp] theorem State.raise_lands (p b : Nat) (c : Option Nat) (d : Nat) : (s.raise p b c d).lands = s.lands := rfl
@[simp] theorem State.raise_landQ (p b : Nat) (c : Option Nat) (d : Nat) : (s.raise p b c d).landQ = s.landQ := rfl
@[simp] theorem State.raise_folds (p b : Nat) (c : Option Nat) (d : Nat) : (s.raise p b c d).folds = s.folds := rfl
@[simp] theorem State.raise_starch (p b : Nat) (c : Option Nat) (d : Nat) : (s.raise p b c d).starch = s.starch := rfl
@[simp] theorem State.raise_stk (p b : Nat) (c : Option Nat) (d : Nat) : (s.raise p b c d).stk = s.stk := rfl
@[simp] theorem State.raise_fenced (p b : Nat) (c : Option Nat) (d : Nat) : (s.raise p b c d).fenced = s.fenced := rfl
@[simp] theorem State.raise_ports (p b : Nat) (c : Option Nat) (d : Nat) : (s.raise p b c d).ports = s.ports := rfl
@[simp] theorem State.raise_circs (p b : Nat) (c : Option Nat) (d : Nat) : (s.raise p b c d).circs = s.circs := rfl
@[simp] theorem State.raise_evq (p b : Nat) (c : Option Nat) (d : Nat) : (s.raise p b c d).evq = s.evq := rfl
@[simp] theorem State.raise_evLost (p b : Nat) (c : Option Nat) (d : Nat) : (s.raise p b c d).evLost = s.evLost := rfl
@[simp] theorem State.raise_slots (p b : Nat) (c : Option Nat) (d : Nat) : (s.raise p b c d).slots = s.slots := rfl
@[simp] theorem State.raise_collWait (p b : Nat) (c : Option Nat) (d : Nat) : (s.raise p b c d).collWait = s.collWait := rfl
@[simp] theorem State.raise_rooms (p b : Nat) (c : Option Nat) (d : Nat) : (s.raise p b c d).rooms = s.rooms := rfl
@[simp] theorem State.raise_doneKeys (p b : Nat) (c : Option Nat) (d : Nat) : (s.raise p b c d).doneKeys = s.doneKeys := rfl
@[simp] theorem State.raise_wires (p b : Nat) (c : Option Nat) (d : Nat) : (s.raise p b c d).wires = s.wires := rfl
@[simp] theorem State.raise_staging (p b : Nat) (c : Option Nat) (d : Nat) : (s.raise p b c d).staging = s.staging := rfl
@[simp] theorem State.raise_free (p b : Nat) (c : Option Nat) (d : Nat) : (s.raise p b c d).free = s.free := rfl
@[simp] theorem State.raise_pending (p b : Nat) (c : Option Nat) (d : Nat) : (s.raise p b c d).pending = s.pending := rfl
@[simp] theorem State.raise_rd (p b : Nat) (c : Option Nat) (d : Nat) (g : Field) (k n : Nat) : (s.raise p b c d).rd g k n = s.rd g k n := rfl

/-! ### Registers -/

@[simp] theorem State.wr0_eq (f : Field) (v : Nat) : s.wr0 f v = s.wr f 0 0 v := rfl

@[simp] theorem State.wrB_eq (f : Field) (i j : Nat) (b : Bool) : s.wrB f i j b = s.wr f i j (if b then 1 else 0) := rfl

@[simp] theorem State.addF_eq (f : Field) (i j n : Nat) : s.addF f i j n = s.wr f i j (s.rd f i j + n) := rfl

@[simp] theorem State.rdB_eq (f : Field) (i j : Nat) : s.rdB f i j = (s.rd f i j == 1) := rfl

/-- A register field reads as written, cut to its width. -/
@[simp] theorem State.rd_wr_self (f : Field) (i j v : Nat) : (s.wr f i j v).rd f i j = v % 2 ^ f.width := by
  simp [State.rd, State.wr]

/-- A write of one field leaves every field at another place alone. -/
theorem State.rd_wr_ne {f g : Field} {i j k n : Nat} (v : Nat) (h : g.key k n ≠ f.key i j) :
    (s.wr f i j v).rd g k n = s.rd g k n := by
  simp only [State.rd, State.wr, SMap.set, SMap.get]
  split
  · rw [SMap.find_del_ne _ h]
  · rw [SMap.find_put_ne _ _ h]

/-- A read depends on the register file alone. -/
theorem State.rd_congr {s t : State} (h : s.regs = t.regs) (f : Field) (i j : Nat) : s.rd f i j = t.rd f i j := by
  simp [State.rd, h]

/-- A counter of a page changes the register file alone. -/
theorem State.countF_eq (p : Nat) (f : Field) (i j n : Nat) :
    s.countF p f i j n = { s with regs := (s.countF p f i j n).regs } := by
  unfold State.countF; split <;> rfl

/-- A counter leaves every field at another place alone. -/
theorem State.rd_count_ne {p n k : Nat} {g : Field} {i j : Nat} (h : g.key i j ≠ Reg.CNT_N.key p n) :
    (s.count p n k).rd g i j = s.rd g i j := by
  unfold State.count State.countF; split
  · exact State.rd_wr_ne s _ h
  · rfl

/-! ### Tiles, contexts and stacks -/

@[simp] theorem State.tile_setTile_self (t : Nat) (x : Tile) : (s.setTile t x).tile t = x := by
  simp [State.tile, State.setTile]

theorem State.tile_setTile_ne {t u : Nat} (x : Tile) (h : u ≠ t) : (s.setTile t x).tile u = s.tile u := by
  simp [State.tile, State.setTile, SMap.get_set_ne _ _ _ h]

@[simp] theorem State.ctx_setCtx_self (c : Nat) (x : Ctx) : (s.setCtx c x).ctx c = x := by
  simp [State.ctx, State.setCtx]

theorem State.ctx_setCtx_ne {c d : Nat} (x : Ctx) (h : d ≠ c) : (s.setCtx c x).ctx d = s.ctx d := by
  simp [State.ctx, State.setCtx, SMap.get_set_ne _ _ _ h]

@[simp] theorem State.stack_setStack_self (n : Nat) (x : Stack) : (s.setStack n x).stack n = x := by
  simp [State.stack, State.setStack]

@[simp] theorem State.tile_wr (f : Field) (i j v t : Nat) : (s.wr f i j v).tile t = s.tile t := rfl

@[simp] theorem State.ctx_wr (f : Field) (i j v c : Nat) : (s.wr f i j v).ctx c = s.ctx c := rfl

end Sys2Proof.Machine
end

