-- ==== Sys2Proof/Laws/Settle.lean ====
section
/-! SUPPORT. The end of a command: in a calm state nothing follows it, and what a served command answers. -/

namespace Sys2Proof.Machine

open Sys2Proof

/-- A fold that changes nothing at any element. -/
theorem foldl_fixed {α : Type} (g : State → α → State) (l : List α) (s : State) (h : ∀ x ∈ l, g s x = s) : l.foldl g s = s := by
  induction l with
  | nil => rfl
  | cons a r ih =>
    rw [List.foldl_cons, h a (by simp)]
    exact ih (fun x hx => h x (by simp [hx]))

theorem State.takeFaults_none (s : State) (done : List Nat) (n : Nat) (h : s.due = []) : s.takeFaults done n = s := by
  cases n with
  | zero => rfl
  | succ n => rw [State.takeFaults]; simp [h]

theorem State.calm_due {s : State} (h : s.calm = true) : s.due = [] := by
  simp only [State.calm, Bool.and_eq_true, List.isEmpty_iff] at h
  exact h.1.1.1.1

/-- A calm state is settled. -/
theorem State.settle_of_calm (s : State) (h : s.calm = true) : s.settle = s := by
  have hd := State.calm_due h
  simp only [State.calm, Bool.and_eq_true, List.all_eq_true, Bool.not_eq_true', List.isEmpty_iff] at h
  obtain ⟨⟨⟨⟨-, hc⟩, hl⟩, hf⟩, hs⟩ := h
  have hfail : s.failSteps = s := by
    unfold State.failSteps
    refine foldl_fixed _ _ _ (fun x hx => ?_)
    have := (hc x hx).1
    simp only [Option.isNone_iff_eq_none] at this
    simp [this]
  have hturn : (List.range 5).foldl State.turnCheck s = s := by
    refine foldl_fixed _ _ _ (fun l hl' => ?_)
    have := hl l hl'
    unfold State.turnCheck
    rw [if_pos]
    simp only [Bool.or_eq_true, bne_iff_ne] at this
    exact this
  have htear : s.teardowns = s := by
    unfold State.teardowns
    refine foldl_fixed _ _ _ (fun x hx => ?_)
    have := (hc x hx).2
    simp only [bne_iff_ne] at this
    simp [this]
  have hhalt : s.haltCheck = s := by
    unfold State.haltCheck
    rw [if_neg]
    rintro ⟨a, b⟩
    simp [a, b] at hf
  unfold State.settle
  simp only [State.takeFaults_none s _ _ hd, hfail, hturn, htear, hhalt, hs, Bool.false_and, Bool.false_eq_true, if_false]
  show { s with due := [] } = s
  rw [← hd]

/-- What a command answers that is served while the package is out of power-on reset. -/
theorem State.serve_of_ready (s : State) (c : Instr) (g : State → State) (hp : s.boot.por = false) (hw : c.wellFormed = true) :
    s.serve c g = .next { (g s).settle with pending := s.pending } := by
  simp [State.serve, hp, hw]

/-- A command that leaves the package calm answers what it does, with the queue as it was. -/
theorem State.serve_calm (s : State) (c : Instr) (g : State → State) (hp : s.boot.por = false) (hw : c.wellFormed = true)
    (hc : (g s).calm = true) : s.serve c g = .next { g s with pending := s.pending } := by
  rw [State.serve_of_ready s c g hp hw, State.settle_of_calm _ hc]

theorem State.serveAlways_calm (s : State) (c : Instr) (g : State → State) (hw : c.wellFormed = true)
    (hc : (g s).calm = true) : s.serveAlways c g = .next { g s with pending := s.pending } := by
  simp [State.serveAlways, hw, State.settle_of_calm _ hc]

/-- Calmness depends on faults due, contexts, the fields it names and the supplies alone. -/
theorem State.calm_congr {s t : State} (h : s.calm = true) (hd : t.due = s.due) (hc : t.ctxs = s.ctxs) (hb : t.boot.supplyHalt = s.boot.supplyHalt)
    (hr : ∀ l < 5, t.rd Reg.HNG_RUNG 0 l = s.rd Reg.HNG_RUNG 0 l ∧ t.rd Reg.HNG_PHASE 0 l = s.rd Reg.HNG_PHASE 0 l)
    (hf : t.rd Reg.FLT_FT_LATCH = s.rd Reg.FLT_FT_LATCH ∧ t.rd Reg.FLT_HALTED = s.rd Reg.FLT_HALTED) : t.calm = true := by
  simp only [State.calm, Bool.and_eq_true, List.all_eq_true, hd, hc, hb, hf.1, hf.2, List.mem_range] at h ⊢
  refine ⟨⟨⟨h.1.1.1, fun l hl => ?_⟩, h.1.2⟩, h.2⟩
  rw [(hr l hl).1, (hr l hl).2]
  exact h.1.1.2 l hl

/-- A write of a field other than RUNG and PHASE of a lane, FT_LATCH and HALTED keeps a state calm. -/
theorem State.calm_wr {s : State} (h : s.calm = true) (f : Field) (i j v : Nat)
    (h1 : ∀ l < 5, Reg.HNG_RUNG.key 0 l ≠ f.key i j ∧ Reg.HNG_PHASE.key 0 l ≠ f.key i j)
    (h2 : Reg.FLT_FT_LATCH.key 0 0 ≠ f.key i j ∧ Reg.FLT_HALTED.key 0 0 ≠ f.key i j) : (s.wr f i j v).calm = true :=
  State.calm_congr h rfl rfl rfl
    (fun l hl => ⟨State.rd_wr_ne s v (h1 l hl).1, State.rd_wr_ne s v (h1 l hl).2⟩)
    ⟨State.rd_wr_ne s v h2.1, State.rd_wr_ne s v h2.2⟩

end Sys2Proof.Machine
end

