-- ==== Sys2Proof/Laws/Ops.lean ====
section
/-! SUPPORT. What each shared operation can do: the parts of the state that it may change, all others being as they were, and the
registers that it leaves alone. -/

namespace Sys2Proof.Machine

open Sys2Proof

/-! ### The extents of change -/

/-- At most registers, sessions and the messages sent differ. -/
def SendsOnly (s t : State) : Prop := ∃ r x h, t = { s with regs := r, sess := x, hostOut := h }

/-- At most what `SendsOnly` names, flash and what Soholt holds differ. -/
def LogsOnly (s t : State) : Prop := ∃ r x h f o, t = { s with regs := r, sess := x, hostOut := h, flash := f, soh := o }

/-- At most what `LogsOnly` names and the lands differ. -/
def OccursOnly (s t : State) : Prop := ∃ r x h f o p, t = { s with regs := r, sess := x, hostOut := h, flash := f, soh := o, pins := p }

/-- At most what `OccursOnly` names and the contexts differ. -/
def ReportsOnly (s t : State) : Prop :=
  ∃ r x h f o p c, t = { s with regs := r, sess := x, hostOut := h, flash := f, soh := o, pins := p, ctxs := c }

theorem SendsOnly.trans {s t u : State} (a : SendsOnly s t) (b : SendsOnly t u) : SendsOnly s u := by
  obtain ⟨_, _, _, rfl⟩ := a
  obtain ⟨_, _, _, rfl⟩ := b
  exact ⟨_, _, _, rfl⟩

theorem LogsOnly.trans {s t u : State} (a : LogsOnly s t) (b : LogsOnly t u) : LogsOnly s u := by
  obtain ⟨_, _, _, _, _, rfl⟩ := a
  obtain ⟨_, _, _, _, _, rfl⟩ := b
  exact ⟨_, _, _, _, _, rfl⟩

theorem OccursOnly.trans {s t u : State} (a : OccursOnly s t) (b : OccursOnly t u) : OccursOnly s u := by
  obtain ⟨_, _, _, _, _, _, rfl⟩ := a
  obtain ⟨_, _, _, _, _, _, rfl⟩ := b
  exact ⟨_, _, _, _, _, _, rfl⟩

theorem ReportsOnly.trans {s t u : State} (a : ReportsOnly s t) (b : ReportsOnly t u) : ReportsOnly s u := by
  obtain ⟨_, _, _, _, _, _, _, rfl⟩ := a
  obtain ⟨_, _, _, _, _, _, _, rfl⟩ := b
  exact ⟨_, _, _, _, _, _, _, rfl⟩

theorem SendsOnly.refl (s : State) : SendsOnly s s := ⟨_, _, _, rfl⟩

theorem OccursOnly.refl (s : State) : OccursOnly s s := ⟨_, _, _, _, _, _, rfl⟩

theorem SendsOnly.logs {s t : State} (a : SendsOnly s t) : LogsOnly s t := by
  obtain ⟨_, _, _, rfl⟩ := a
  exact ⟨_, _, _, _, _, rfl⟩

theorem LogsOnly.occurs {s t : State} (a : LogsOnly s t) : OccursOnly s t := by
  obtain ⟨_, _, _, _, _, rfl⟩ := a
  exact ⟨_, _, _, _, _, _, rfl⟩

theorem OccursOnly.reports {s t : State} (a : OccursOnly s t) : ReportsOnly s t := by
  obtain ⟨_, _, _, _, _, _, rfl⟩ := a
  exact ⟨_, _, _, _, _, _, _, rfl⟩

/-! ### Messages to the host -/

theorem State.wr_sends (s : State) (f : Field) (i j v : Nat) : SendsOnly s (s.wr f i j v) := ⟨_, _, _, rfl⟩

theorem State.count_sends (s : State) (p n k : Nat) : SendsOnly s (s.count p n k) := by
  unfold State.count State.countF
  split
  · exact State.wr_sends ..
  · exact SendsOnly.refl s

/-- One message leaves a session. -/
theorem State.flushOut_step (s : State) (p n f : Nat) : s.flushOut p n (f + 1) = s ∨
    ∃ x h v, s.flushOut p n (f + 1) =
      ((State.wr { s with sess := x, hostOut := h } Reg.HST_S_TXSEQ p n v).count (0x10 + p) 1 1).flushOut p n f := by
  rw [State.flushOut]
  cases s.session p n with
  | none => exact Or.inl rfl
  | some x =>
    cases hx : x.outq with
    | nil => exact Or.inl (by simp only [hx])
    | cons b r =>
      simp only [hx]
      by_cases hw : x.window < (s.rd Reg.HST_S_TXSEQ p n + 2 ^ 32 - x.peerAck) % 2 ^ 32
      · rw [if_pos hw]; exact Or.inl rfl
      · rw [if_neg hw]; exact Or.inr ⟨_, _, _, rfl⟩

theorem State.flushOut_sends (f p n : Nat) : ∀ s : State, SendsOnly s (s.flushOut p n f) := by
  induction f with
  | zero => exact fun s => SendsOnly.refl s
  | succ f ih =>
    intro s
    obtain h | ⟨x, h, v, e⟩ := State.flushOut_step s p n f
    · rw [h]; exact SendsOnly.refl s
    · rw [e]
      refine SendsOnly.trans ?_ (ih _)
      refine SendsOnly.trans ?_ (State.count_sends ..)
      exact ⟨_, _, _, rfl⟩

/-- Sending a numbered message. -/
theorem State.sendNum_sends (s : State) (p n : Nat) (b : NBody) : SendsOnly s (s.sendNum p n b) := by
  unfold State.sendNum
  split
  · exact SendsOnly.refl s
  · exact SendsOnly.trans ⟨_, _, _, rfl⟩ (State.flushOut_sends ..)

/-- A register that is not the session's TXSEQ and not the port's count of messages sent keeps its value. -/
theorem State.flushOut_rd (f p n : Nat) {g : Field} {i j : Nat} (h1 : g.key i j ≠ Reg.HST_S_TXSEQ.key p n)
    (h2 : g.key i j ≠ Reg.CNT_N.key (0x10 + p) 1) : ∀ s : State, (s.flushOut p n f).rd g i j = s.rd g i j := by
  induction f with
  | zero => exact fun s => rfl
  | succ f ih =>
    intro s
    obtain h | ⟨x, h, v, e⟩ := State.flushOut_step s p n f
    · rw [h]
    · rw [e, ih, State.rd_count_ne _ h2, State.rd_wr_ne _ _ h1]
      rfl

theorem State.sendNum_rd (s : State) (p n : Nat) (b : NBody) {g : Field} {i j : Nat} (h1 : g.key i j ≠ Reg.HST_S_TXSEQ.key p n)
    (h2 : g.key i j ≠ Reg.CNT_N.key (0x10 + p) 1) : (s.sendNum p n b).rd g i j = s.rd g i j := by
  unfold State.sendNum
  split
  · rfl
  · rw [State.flushOut_rd _ _ _ h1 h2]
    rfl

/-- Sending an event record to the open sessions. -/
theorem State.sendEvt_sends (s : State) (e : EventRec) : SendsOnly s (s.sendEvt e) := by
  unfold State.sendEvt
  generalize s.openSessions = l
  induction l generalizing s with
  | nil => exact SendsOnly.refl s
  | cons x r ih =>
    rw [List.foldl_cons]
    refine SendsOnly.trans ?_ (ih _)
    split
    · exact State.sendNum_sends ..
    · exact SendsOnly.refl s

/-- A register that is no TXSEQ of a session and no count of a host port keeps its value when an event record is sent. -/
theorem State.sendEvt_rd (s : State) (e : EventRec) {g : Field} {i j : Nat} (h1 : ∀ p n, g.key i j ≠ Reg.HST_S_TXSEQ.key p n)
    (h2 : ∀ p n, g.key i j ≠ Reg.CNT_N.key p n) : (s.sendEvt e).rd g i j = s.rd g i j := by
  unfold State.sendEvt
  generalize s.openSessions = l
  induction l generalizing s with
  | nil => rfl
  | cons x r ih =>
    rw [List.foldl_cons, ih]
    split
    · exact State.sendNum_rd _ _ _ _ (h1 _ _) (h2 _ _)
    · rfl

/-! ### Event records -/

theorem State.logNow_logs (s : State) (e : EventRec) : LogsOnly s (s.logNow e) := by
  unfold State.logNow
  split
  · exact LogsOnly.trans ⟨_, _, _, _, _, rfl⟩ (State.count_sends ..).logs
  · refine LogsOnly.trans ?_ (State.sendEvt_sends ..).logs
    refine LogsOnly.trans ?_ (State.count_sends ..).logs
    refine LogsOnly.trans ?_ (State.count_sends ..).logs
    exact ⟨_, _, _, _, _, rfl⟩

/-- Logging a record. -/
theorem State.log_logs (s : State) (e : EventRec) : LogsOnly s (s.log e) := by
  unfold State.log
  split
  · split <;> exact ⟨_, _, _, _, _, rfl⟩
  · exact State.logNow_logs s e

theorem State.event_logs (s : State) (code cls page data : Nat) : LogsOnly s (s.event code cls page data) := State.log_logs s _

theorem State.eventCtx_logs (s : State) (c st : Nat) : LogsOnly s (s.eventCtx c st) := State.log_logs s _

/-- A register that is no counter and no TXSEQ keeps its value when a record is logged. -/
theorem State.log_rd (s : State) (e : EventRec) {g : Field} {i j : Nat} (h1 : ∀ p n, g.key i j ≠ Reg.HST_S_TXSEQ.key p n)
    (h2 : ∀ p n, g.key i j ≠ Reg.CNT_N.key p n) : (s.log e).rd g i j = s.rd g i j := by
  unfold State.log
  split
  · split <;> rfl
  · unfold State.logNow
    split
    · rw [State.rd_count_ne _ (h2 _ _)]
      exact State.rd_congr rfl g i j
    · dsimp only
      rw [State.sendEvt_rd _ _ h1 h2, State.rd_count_ne (n := 3) _ (h2 _ _), State.rd_count_ne (n := 0) _ (h2 _ _)]
      simp only [State.rd]

theorem State.event_rd (s : State) (code cls page data : Nat) {g : Field} {i j : Nat} (h1 : ∀ p n, g.key i j ≠ Reg.HST_S_TXSEQ.key p n)
    (h2 : ∀ p n, g.key i j ≠ Reg.CNT_N.key p n) : (s.event code cls page data).rd g i j = s.rd g i j :=
  State.log_rd s _ h1 h2

/-- Noting the tray's status changes what Soholt holds and the lands. -/
theorem State.trayNote_occurs (s : State) : OccursOnly s s.trayNote := ⟨_, _, _, _, _, _, rfl⟩

/-- Forming a compat action record changes what Soholt holds. -/
theorem State.protect_logs (s : State) (a : Nat) : LogsOnly s (s.protect a) := by
  unfold State.protect
  split <;> exact ⟨_, _, _, _, _, rfl⟩

/-! ### Faults -/

/-- Raising a fault adds it to the faults that await their reaction, and nothing else. -/
theorem State.raise_eq (s : State) (p b : Nat) (c : Option Nat) (d : Nat) :
    s.raise p b c d = { s with due := s.due ++ [⟨p, b, c, d⟩] } := rfl

/-- Latching FT. -/
theorem State.latchFt_occurs (s : State) (p b : Nat) : OccursOnly s (s.latchFt p b) := by
  unfold State.latchFt
  split
  · exact OccursOnly.refl s
  · dsimp only
    split <;> exact ⟨_, _, _, _, _, _, rfl⟩

/-- An occurrence with its class settled. -/
theorem State.occurAs_logs (s : State) (p b cls : Nat) (c : Option Nat) (d : Nat) : LogsOnly s (s.occurAs p b cls c d) := by
  unfold State.occurAs
  dsimp only
  split
  · split
    · exact LogsOnly.trans (SendsOnly.logs ⟨_, _, _, rfl⟩) (State.count_sends ..).logs
    · refine LogsOnly.trans ?_ (State.log_logs ..)
      exact LogsOnly.trans (SendsOnly.logs ⟨_, _, _, rfl⟩) (State.count_sends ..).logs
  · split
    · exact LogsOnly.trans (SendsOnly.logs ⟨_, _, _, rfl⟩) (State.count_sends ..).logs
    · refine LogsOnly.trans ?_ (State.log_logs ..)
      exact LogsOnly.trans (SendsOnly.logs ⟨_, _, _, rfl⟩) (State.count_sends ..).logs

/-- An occurrence. -/
theorem State.occur_occurs (s : State) (p b : Nat) (c : Option Nat) (d : Nat) : OccursOnly s (s.occur p b c d) := by
  have h : ∀ (x : State) (q : Prop) [Decidable q] (y : State), LogsOnly s x → LogsOnly x y → LogsOnly s (if q then y else x) := by
    intro x q _ y a b'
    split
    · exact a.trans b'
    · exact a
  have l : ∀ (x : State) (q : Prop) [Decidable q], LogsOnly s x → OccursOnly s (if q then x.latchFt p b else x) := by
    intro x q _ a
    split
    · exact a.occurs.trans (State.latchFt_occurs ..)
    · exact a.occurs
  unfold State.occur
  dsimp only
  apply l
  apply h
  · apply h
    · exact State.occurAs_logs ..
    · exact (State.count_sends ..).logs
  · exact State.occurAs_logs ..

/-- An occurrence leaves every register alone that is not of the page's fault group, a counter or a TXSEQ. -/
theorem State.occurAs_rd (s : State) (p b cls : Nat) (c : Option Nat) (d : Nat) {g : Field} {i j : Nat}
    (h1 : ∀ q n, g.key i j ≠ Reg.HST_S_TXSEQ.key q n) (h2 : ∀ q n, g.key i j ≠ Reg.CNT_N.key q n)
    (h3 : ∀ f ∈ [Reg.FLT_FIRST_BIT, Reg.FLT_FIRST_VALID, Reg.FLT_FIRST_CTX, Reg.FLT_FIRST_CTXV, Reg.FLT_FIRST_DETAIL, Reg.FLT_STAT,
      Reg.FLT_COUNT], g.key i j ≠ f.key p 0) : (s.occurAs p b cls c d).rd g i j = s.rd g i j := by
  simp only [List.forall_mem_cons, List.not_mem_nil, false_implies, implies_true, and_true] at h3
  obtain ⟨a1, a2, a3, a4, a5, a6, a7⟩ := h3
  unfold State.occurAs
  dsimp only
  split <;> split <;>
    simp only [State.log_rd _ _ h1 h2, State.rd_count_ne _ (h2 _ _), State.wrB, State.rd_wr_ne _ _ a1, State.rd_wr_ne _ _ a2,
      State.rd_wr_ne _ _ a3, State.rd_wr_ne _ _ a4, State.rd_wr_ne _ _ a5, State.rd_wr_ne _ _ a6, State.rd_wr_ne _ _ a7]

/-- REPLACE_REQ. -/
theorem State.replaceReq_occurs (s : State) (p b : Nat) : OccursOnly s (s.replaceReq p b) := by
  unfold State.replaceReq
  dsimp only
  split
  · exact (State.wr_sends ..).logs.occurs
  · refine OccursOnly.trans ?_ (State.trayNote_occurs _)
    refine OccursOnly.trans ?_ (State.event_logs ..).occurs
    refine OccursOnly.trans ?_ (State.occur_occurs ..)
    exact ⟨_, _, _, _, _, _, rfl⟩

/-! ### Completion records -/

/-- Writing a record into its slot. -/
theorem State.putRec_sends (s : State) (c : Nat) (r : Rec) : SendsOnly s (s.putRec c r) := by
  unfold State.putRec
  dsimp only
  split
  · exact SendsOnly.trans ⟨_, _, _, rfl⟩ (State.sendNum_sends ..)
  · exact ⟨_, _, _, rfl⟩

/-- The effect of a record. -/
theorem State.recEffect_reports (s : State) (c : Nat) (e : RecEvent) : ReportsOnly s (s.recEffect c e) := by
  unfold State.recEffect
  dsimp only
  split <;> split <;>
    first
    | exact ReportsOnly.trans ⟨_, _, _, _, _, _, _, rfl⟩ (State.count_sends ..).logs.occurs.reports
    | exact ⟨_, _, _, _, _, _, _, rfl⟩

/-- Reporting the head waiting event. -/
theorem State.recordWrite_reports (s : State) (c : Nat) : ReportsOnly s (s.recordWrite c) := by
  unfold State.recordWrite
  dsimp only
  split
  · exact ⟨_, _, _, _, _, _, _, rfl⟩
  · split
    · exact ReportsOnly.trans ⟨_, _, _, _, _, _, _, rfl⟩
        ((State.recEffect_reports ..).trans (State.putRec_sends ..).logs.occurs.reports)
    · exact ⟨_, _, _, _, _, _, _, rfl⟩

/-- Reporting the waiting events in turn. -/
theorem State.recordWrites_reports (c : Nat) (l : List RecEvent) :
    ∀ s : State, ReportsOnly s (l.foldl (fun s _ => s.recordWrite c) s) := by
  induction l with
  | nil => exact fun s => ⟨_, _, _, _, _, _, _, rfl⟩
  | cons _ _ ih => exact fun s => (s.recordWrite_reports c).trans (ih _)

/-- Reporting an event. -/
theorem State.report_reports (s : State) (c : Nat) (e : RecEvent) : ReportsOnly s (s.report c e) := by
  unfold State.report
  dsimp only
  have h := State.recordWrites_reports c (s.ctx c).waiting s
  generalize (s.ctx c).waiting.foldl (fun s _ => s.recordWrite c) s = t at h ⊢
  refine h.trans ?_
  split
  · exact (State.recEffect_reports ..).trans (State.putRec_sends ..).logs.occurs.reports
  · exact ReportsOnly.trans ⟨_, _, _, _, _, _, _, rfl⟩ (State.occur_occurs ..).reports

/-! ### Bits -/

theorem bit_lt (v i : Nat) : bit v i < 2 := Nat.mod_lt _ (by decide)

theorem bit_eq_testBit (v i : Nat) : (bit v i = 1) ↔ v.testBit i = true := by
  simp [bit, Nat.testBit_eq_decide_div_mod_eq]

/-- Setting a bit is the bitwise or with its place. -/
theorem setBit_eq (v i : Nat) : setBit v i = v ||| 2 ^ i := by
  unfold setBit
  apply Nat.eq_of_testBit_eq
  intro j
  split
  · rename_i h
    rw [bit_eq_testBit] at h
    by_cases hj : i = j <;> simp_all [Nat.testBit_or]
  · rename_i h
    have hb : v / 2 ^ i % 2 = 0 := by unfold bit at h; omega
    have hv : v = 2 ^ i * (2 * (v / 2 ^ i / 2)) + v % 2 ^ i := by
      rw [Nat.mul_div_cancel' (Nat.dvd_of_mod_eq_zero hb), Nat.div_add_mod]
    have hl : v % 2 ^ i < 2 ^ i := Nat.mod_lt _ (Nat.two_pow_pos i)
    generalize v / 2 ^ i / 2 = a at hv
    generalize v % 2 ^ i = r at hv hl
    have hw : v + 2 ^ i = 2 ^ i * (2 * a + 1) + r := by rw [hv]; ring
    rw [hw, Nat.testBit_or, hv, Nat.testBit_two_pow_mul_add _ hl, Nat.testBit_two_pow_mul_add _ hl, Nat.testBit_two_pow]
    by_cases h1 : j < i
    · simp [h1, show i ≠ j by omega]
    · rw [if_neg h1, if_neg h1]
      by_cases h2 : i = j
      · subst h2; simp
      · obtain ⟨k, hk⟩ : ∃ k, j - i = k + 1 := ⟨j - i - 1, by omega⟩
        have hd : (2 * a + 1) / 2 = a := by omega
        simp [hk, h2, Nat.testBit_succ, hd]

theorem bit_setBit_self (v i : Nat) : bit (setBit v i) i = 1 := by
  rw [bit_eq_testBit, setBit_eq, Nat.testBit_or, Nat.testBit_two_pow_self, Bool.or_true]

theorem bit_setBit_ne (v : Nat) {i j : Nat} (h : j ≠ i) : bit (setBit v i) j = bit v j := by
  have e : (setBit v i).testBit j = v.testBit j := by
    rw [setBit_eq, Nat.testBit_or, Nat.testBit_two_pow]
    simp [Ne.symm h]
  have h1 := bit_eq_testBit (setBit v i) j
  have h2 := bit_eq_testBit v j
  have b1 := bit_lt (setBit v i) j
  have b2 := bit_lt v j
  rw [e] at h1
  cases hb : v.testBit j <;> simp [hb] at h1 h2 <;> omega

end Sys2Proof.Machine
end

