-- ==== Sys2Proof/Laws/Serve.lean ====
section
/-! SUPPORT. How every command is served: the cases of serving, and that each command is served in one of the two ways. -/

namespace Sys2Proof.Machine

open Sys2Proof

/-- Serving answers a next state, which leaves the queue as it was. -/
theorem State.serve_next (s : State) (c : Instr) (g : State → State) :
    ∃ t, s.serve c g = .next t ∧ t.pending = s.pending := by
  unfold State.serve
  split
  · exact ⟨s, rfl, rfl⟩
  · exact ⟨_, rfl, rfl⟩

theorem State.serveAlways_next (s : State) (c : Instr) (g : State → State) :
    ∃ t, s.serveAlways c g = .next t ∧ t.pending = s.pending := by
  unfold State.serveAlways
  split
  · exact ⟨s, rfl, rfl⟩
  · exact ⟨_, rfl, rfl⟩

/-- In power-on reset a command that does not reach lands, supplies or clocks changes nothing. -/
theorem State.serve_por (s : State) (c : Instr) (g : State → State) (h : s.boot.por = true) : s.serve c g = .next s := by
  simp [State.serve, h]

/-- A command that names no unit of the package changes nothing. -/
theorem State.serve_ill (s : State) (c : Instr) (g : State → State) (h : c.wellFormed = false) : s.serve c g = .next s := by
  simp [State.serve, h]

theorem State.serveAlways_ill (s : State) (c : Instr) (g : State → State) (h : c.wellFormed = false) :
    s.serveAlways c g = .next s := by
  simp [State.serveAlways, h]

/-- Every command is served in one of the two ways. -/
theorem exec_serves (c : Instr) (s : State) : (∃ g, exec c s = s.serve c g) ∨ (∃ g, exec c s = s.serveAlways c g) := by
  unfold exec
  cases c <;> first | exact Or.inl ⟨_, rfl⟩ | exact Or.inr ⟨_, rfl⟩

end Sys2Proof.Machine
end

