-- ==== Sys2Proof/Tests/Slice0.lean ====
section
/-! SUPPORT. Tests: small runs of single commands, ill-formed commands, and for each statement a state and operands that meet its
hypotheses together. -/

namespace Sys2Proof.Tests

open Sys2Proof Sys2Proof.Machine

set_option Elab.async false

/-! ### States to test on -/

/-- The state `s` with fields of registers set: field, instance, index, value. -/
def withRegs (s : State) (l : List (Field × Nat × Nat × Nat)) : State := l.foldl (fun s x => s.wr x.1 x.2.1 x.2.2.1 x.2.2.2) s

/-- Supplies good, power-on reset over, READY, every domain on. -/
def live : State :=
  withRegs { State.reset with
    boot := { State.reset.boot with por := false, refHeld := true, fltUp := true }
    pins := { State.reset.pins with
      vin12In := true, vaux33In := true, vio18In := true, vin12Good := true, vaux33Good := true, vio18Good := true, porstLow := false, pgOut := true }
    hearth := { Hearth.reset with bringUp := false }
    timeUs := 5000123 }
  [(Reg.GLB_PHASE, 0, 0, 5), (Reg.PWR_PD_ON, 0, 0, 2 ^ 80 - 1), (Reg.CLK_ROOT_LOCK, 0, 0, 1), (Reg.CLK_REF_OK, 0, 0, 1)]

/-- Logical tiles 0 to 5 on the physical tiles of the same numbers; group 0 is tiles 1 and 2 of context 3. -/
def mapped : State :=
  withRegs live ((List.range 6).flatMap (fun l => [(Reg.DARN_PRESENT, 0, l, 1), (Reg.DARN_PHYS, 0, l, l)])
    ++ [(Reg.CTX_CSTATE, 3, 0, 1), (Reg.CFG_SG_FIRST, 0, 0, 1), (Reg.CFG_SG_SIZE, 0, 0, 2), (Reg.CTX_SG_MASK, 3, 0, 1),
      (Reg.CTX_EXEC_NSEQ, 3, 0, 1), (Reg.CTX_LOAD_STATE, 3, 0, 2), (Reg.CS_VALID, 1, 0, 1), (Reg.CS_CTX, 1, 0, 3), (Reg.CS_VALID, 2, 5, 1),
      (Reg.CS_CTX, 2, 5, 3), (Reg.CS_IMEM_SIZE, 1, 0, 1), (Reg.CS_IMEM_SIZE, 2, 5, 2), (Reg.CTX_RSER_NEXT, 3, 0, 66),
      (Reg.CTX_CPL_ACKED, 3, 0, 60)])

/-- Transaction `u` of Soholt is in a state. -/
def txnIn (u st : Nat) : State := withRegs mapped [(Reg.CFG_TXN_STATE, 0, u, st), (Reg.CFG_TXN_OWNER_SOH, 0, u, 1)]

/-- A command of 32 words for context 3. -/
def cmdOf (opc : Nat) : Cmd := ⟨opc :: List.replicate 31 0, 7, 0, 0, 9⟩

/-- The queue of context 3 holds one command. -/
def queued (opc : Nat) : State := mapped.setCtx 3 { mapped.ctx 3 with queue := [cmdOf opc] }

/-- Little-endian words. -/
def le4 (w : List Nat) : List Byte := w.flatMap (leBytes 4)

/-- A curve image of one segment. -/
def curveImage : List Byte := (List.replicate 64 0).set 2 1 ++ List.replicate 32 3

/-! ### Ill-formed commands -/

/-- A message, a request, a packet and lanes whose fields fit, and the first three with one that does not. -/
def okMsg : Msg := ⟨0, 0, false, 0, 0, 0, 0, 0, 0, 0, 1, 1, 0, 0, 0, 0, 0, 0, 0, 0, 0, 0, []⟩
def badMsg : Msg := { okMsg with port := 2 }
def okAsk : Ask := ⟨1, 0, 0, 0, 0⟩
def badAsk : Ask := { okAsk with kind := 4 }
def okPacket : Packet := ⟨List.replicate 7 0, []⟩
def badPacket : Packet := ⟨List.replicate 6 0, []⟩
def okLanes : List LaneWord := List.replicate 8 ⟨[], List.replicate 608 0, []⟩

theorem wellFormed_refuses_1 : ∀ i ∈ ([
    .registerWrite .soholt 16777216 0, .registerWrite (.session 2 0) 0 0, .fltClear .soholt 4096 0, .fltClear (.session 2 0) 0 0,
    .counterLatch .soholt 16777216, .counterLatch (.session 2 0) 0, .powerOnResetEnd 262144, .supplyGood 3, .supplyFault 3, .supplyFault 1,
    .target .soholt 16, .target (.session 2 0) 0, .phaseEnd 16 [], .begin .soholt 8, .begin (.session 2 0) 0, .commit (.session 2 0), .apply 5,
    .rollback (.session 2 0), .txnTmo 5, .pdReq .soholt 3 0, .pdReq .soholt 0 4294967296, .pdReq (.session 2 0) 0 0, .pdSwitchDone 80,
    .step 64 false, .stepComplete 64, .mark 64, .coll 64, .dispatch 64 false, .pxissue 176, .pressCommandComplete 176, .pxwait 176, .vadd 176,
    .vsub 176, .vmul 176, .vfma 176, .vmax 176, .vmin 176, .vabs 176, .vneg 176, .vcmp 176, .vsel 176, .vbcast 176, .vrsum 176, .vrmax 176,
    .vperm 176, .vcurve 176, .vexp2 176, .vlog2 176, .vrcp 176, .vrsqrt 176, .vcvt 176, .vunp 176, .vand 176, .vor 176, .vxor 176, .vshl 176,
    .vshr 176, .vsra 176, .vitof 176, .vftoi 176] : List Instr), i.wellFormed = false := by decide +kernel
theorem wellFormed_refuses_2 : ∀ i ∈ ([
    .vmov 176, .vld 176, .vst 176, .fetch 176, .fetchComplete 176 0, .fold 176, .foldComplete 12 0, .foldComplete 0 64, .send 176,
    .slabWrite 176 0 0, .sendComplete 176 0, .ptake 176, .pwait 176, .pegWaitEnd 176, .ppost 176, .ppostr 176, .xwait 176, .sadd 176, .saddr 176,
    .ssubr 176, .smulr 176, .sandr 176, .sorr 176, .sshl 176, .sshr 176, .sli 176, .slui 176, .vtos 176, .srd 176, .br 176, .beq 176, .bne 176,
    .blt 176, .bge 176, .endStage 176, .stageBoundary 176, .stageOpen 176, .load .soholt 64, .load (.session 2 0) 0, .loadDone 64 [],
    .curve .soholt 64, .curve (.session 2 0) 0, .curveDone 64 [], .pantryScrub 176 0 [], .pantryScrub 0 12582912 [], .recordStart 8,
    .mangleDeliver 8 false, .recordRetire 8, .flitArrive false 176 0 [] false ⟨none, none⟩, .flitArrive false 0 5 [] false ⟨none, none⟩,
    .bridgeWeak 4 1, .bridgeWeak 0 5, .bridgeWeak 0 0, .larderAccess 64 0 [] 0 [], .larderRefresh 12 0, .laneRepair 12 0 0, .laneRepair 0 8 0,
    .channelDown 12 0, .channelDown 0 8, .landingWrite 64 0 0 [] (.coll 0 0)] : List Instr), i.wellFormed = false := by decide +kernel
theorem wellFormed_refuses_3 : ∀ i ∈ ([
    .tagReadOpen 176 0, .ingestMatch 12 0, .ingestMatch 0 64, .starchTrigger 12 0 0, .starchTrigger 0 64 0, .starchBatch 12, .ruleLoad .soholt 12,
    .ruleLoad (.session 2 0) 0, .ruleLoadDone 12 false, .laserMeasure 16 0, .laserMeasure 0 1024, .laserLoss 16, .laserRestore 16,
    .frameReceive 16 okLanes, .frameReceive 0 (okLanes.drop 1), .frameReceive 0 (⟨[], [], []⟩ :: okLanes.drop 1), .replayTimeout 16 false,
    .errorWindow 16, .lossOfSignal 16 [], .signalDetect 16 [], .lnkEn .soholt 16 0, .lnkEn .soholt 0 2, .lnkEn (.session 2 0) 0 0, .retry .soholt 16,
    .retry (.session 2 0) 0, .retrain .soholt 16, .retrain (.session 2 0) 0, .loop .soholt 16 0, .loop .soholt 0 2, .loop (.session 2 0) 0 0,
    .txPreset 16, .txPattern 16, .waitLock 16 0, .waitLock 0 256, .adapt 16, .checkBer 16 [], .fecLock 16 [], .peerSync 16 0, .rtt 16 0,
    .ident 16 [] [] [], .goto 16, .delay 16, .seqStepTimeout 16, .trainTimeout 16, .packetForward 16 okPacket, .packetForward 0 badPacket,
    .packetReceive 16 okPacket, .packetReceive 0 badPacket, .packetDeliver 1024 false, .openCircuit 1024 0 0, .openCircuit 0 2 0, .openResend 1024,
    .openTmo 1024, .closeGo .soholt 1024, .closeGo (.session 2 0) 0, .close 1024, .quiet 1024 0, .quiet 0 2, .quietTmo 1024, .resetNotice 1024] : List Instr), i.wellFormed = false := by decide +kernel
theorem wellFormed_refuses_4 : ∀ i ∈ ([
    .pathDown 1024 0 0, .pathDown 0 2 0, .rejoin 1024 0 0, .rejoin 0 2 0, .rejoinResend 1024 0, .rejoinResend 0 2, .allReduce 4, .reduceScatter 4,
    .allGather 4, .allToAll 4, .allToAllv 4, .broadcast 4, .circulate 4, .collTrigger 4 0, .collTrigger 0 16, .start 1024 0, .startResend 4 0,
    .startResend 0 16, .credit 1024 0 0 0, .chunkSend 4 0 0 0, .chunkSend 0 16 0 0, .chunkSend 0 0 1024 0, .chunkReceive 1024 0 0 0 [] [] 0,
    .resend 1024 0 0 0, .abort 1024 0 0, .other 1024 0, .pace 1024 0, .paceSend 4, .orderStall 4 0 0, .orderStall 0 16 0, .orderStall 0 0 1024,
    .collComplete 4 0, .collComplete 0 16, .circuitBreakReport 1024, .sessionOpen badMsg, .sessionClose badMsg, .cmd badMsg, .reg badMsg,
    .wdesc badMsg, .wdata badMsg, .rreq badMsg, .ack badMsg, .ackSend 2 0, .ackSend 0 32, .rto 2 0 0, .rto 0 32 0, .sessTmo 2 0, .sessTmo 0 32,
    .transferStart 2, .transferComplete 2 0 0, .transferComplete 0 32 0, .transferComplete 0 0 65536, .recordWrite 64, .cplBind .soholt 64,
    .cplBind (.session 2 0) 0, .cplAcked .soholt 64 0, .cplAcked .soholt 0 4294967296, .cplAcked (.session 2 0) 0 0, .ctxOpen .soholt 64,
    .ctxOpen (.session 2 0) 0] : List Instr), i.wellFormed = false := by decide +kernel
theorem wellFormed_refuses_5 : ∀ i ∈ ([
    .teardown .soholt 64, .teardown (.session 2 0) 0, .hstLinkDown 2 0, .hstLinkDown 0 2, .split .soholt 2 0, .split .soholt 0 2,
    .split (.session 2 0) 0 0, .hostLaserLow 2 0, .hostLaserLow 0 1024, .droop 4, .droopRelease 4, .sensorDisagree 32, .sensorFail 106 0,
    .sensClr (.session 2 0), .thermalTrip 32, .sohRestart 3, .logSel .soholt 4294967296, .logSel (.session 2 0) 0, .dumpExport (.session 2 0),
    .pcGo (.session 2 0), .calExport (.session 2 0), .calLock .soholt 2, .calLock (.session 2 0) 0, .cfgSave (.session 2 0), .updOpen (.session 2 0),
    .check (.session 2 0), .verify (.session 2 0), .svnRaise .soholt 65536, .svnRaise (.session 2 0) 0, .lcReturn (.session 2 0) 0 0 false,
    .attCert (.session 2 0), .attGo (.session 2 0), .sealGo (.session 2 0) false, .unsealGo (.session 2 0), .ftLatch (.session 2 0),
    .fenceGo (.session 2 0), .replayTurnEnd 5, .rungFailed 5, .contextScrub .soholt 64, .contextScrub (.session 2 0) 0, .engineScrub 5 false,
    .scrub .soholt 4096, .scrub (.session 2 0) 0, .partitionReset 4 [], .drain .soholt 4096 0, .drain .soholt 0 2, .drain (.session 2 0) 0 0,
    .clrGo .soholt 1024 0 false, .clrGo .soholt 0 256 false, .clrGo (.session 2 0) 0 0 false, .run .soholt 2, .run (.session 2 0) 0,
    .snapRsel .soholt 4294967296, .snapRsel (.session 2 0) 0, .foldPartialLanded 176 0, .hstLinkUp 2 0, .hstLinkUp 0 2, .hostLaserRestore 2 0,
    .hostLaserRestore 0 1024, .hstEn .soholt 2 0] : List Instr), i.wellFormed = false := by decide +kernel
theorem wellFormed_refuses_6 : ∀ i ∈ ([
    .hstEn .soholt 0 2, .hstEn (.session 2 0) 0 0, .trayWrite 256 0, .trayWrite 0 65536, .i3cCcc 4 0 0, .i3cCcc 0 128 0, .i3cCcc 0 0 128,
    .arpNdEcho 2 0 okAsk, .arpNdEcho 0 2 okAsk, .arpNdEcho 0 0 badAsk] : List Instr), i.wellFormed = false := by decide +kernel
theorem wellFormed_refuses_fields : ∀ m ∈ [{ okMsg with sub := 2 }, { okMsg with addr := 2 ^ 128 }, { okMsg with udp := 2 ^ 16 },
    { okMsg with mac := 2 ^ 48 }, { okMsg with vlan := 2 ^ 16 }, { okMsg with dmac := 2 ^ 48 }, { okMsg with dip := 2 ^ 128 },
    { okMsg with dport := 2 ^ 16 }, { okMsg with ver := 16 }, { okMsg with typ := 16 }, { okMsg with session := 256 }, { okMsg with len := 2 ^ 16 },
    { okMsg with seq := 2 ^ 32 }, { okMsg with ack := 2 ^ 32 }, { okMsg with sack := 2 ^ 32 }, { okMsg with window := 2 ^ 16 },
    { okMsg with resv := 2 ^ 16 }, { okMsg with argA := 2 ^ 32 }, { okMsg with argB := 2 ^ 32 }, { okMsg with bcrc := 2 ^ 32 }],
    Instr.wellFormed (.cmd m) = false := by decide
theorem wellFormed_refuses_ask : ∀ a ∈ [{ okAsk with asked := 2 ^ 128 }, { okAsk with mac := 2 ^ 48 }, { okAsk with vlan := 2 ^ 16 },
    { okAsk with ip := 2 ^ 128 }], Instr.wellFormed (.arpNdEcho 0 0 a) = false := by decide
theorem wellFormed_refuses_session : Instr.wellFormed (.commit (.session 0 32)) = false ∧
    Instr.wellFormed (.packetForward 0 ⟨List.replicate 7 (2 ^ 32), []⟩) = false := by decide
theorem wellFormed_refuses_long (l : List Byte) (h : 65536 < l.length) : Instr.wellFormed (.landingWrite 0 0 0 l (.coll 0 0)) = false ∧
    Instr.wellFormed (.chunkReceive 0 0 0 0 l [] 0) = false := by
  simp [Instr.wellFormed, Nat.not_le.mpr h]
theorem wellFormed_admits : okMsg.wellFormed = true ∧ okPacket.wellFormed = true ∧ ∀ i ∈ ([.frameReceive 0 okLanes, .supplyFault 2, .bridgeWeak 0 1,
    .registerWrite .soholt 16777212 5, .packetForward 15 okPacket, .cmd okMsg] : List Instr), i.wellFormed = true := by decide +kernel

/-! ### The hypotheses of the statements can be met -/

theorem hyps_RegisterWriteOfSgMask : live.ready = true ∧ live.mayWrite .soholt (0x300 + 15) = true := by decide

theorem hyps_FaultBitsClear : live.ready = true ∧ live.mayWrite .soholt 5 = true ∧ ∀ b < 32, live.heldNow 5 b = false := by decide

/-- HB_LOST lasts while PWR shows it. -/
def heldState : State := withRegs live [(Reg.PWR_HB_LOST, 0, 0, 1), (Reg.FLT_STAT, 4, 0, 31), (Reg.FLT_MASK, 4, 0, 31)]
theorem hyps_HeldFaultStays : heldState.ready = true ∧ heldState.mayWrite .soholt 4 = true ∧ (catEntry 4 4).any (fun e => e.held) = true ∧
    heldState.effClass 4 4 ≠ 2 ∧ heldState.heldNow 4 4 = true ∧ bit (heldState.rd Reg.FLT_STAT 4) 4 = 1 ∧
    bit (heldState.rd Reg.FLT_MASK 4) 4 = 1 := by decide

theorem hyps_CounterLatchHoldsHighWord : live.ready = true ∧ Agent.soholt.wellFormed = true ∧ (Block.ofPage 0x33F).isSome = true ∧
    live.reaches .soholt 0x33F false = true := by decide

theorem hyps_BeginOpensTransaction : live.ready = true ∧ live.mayWrite .soholt 1 = true ∧ live.mayTxn .soholt = true ∧
    (∀ t < 5, live.rd Reg.CFG_TXN_STATE 0 t = 0) ∧ live.partPresent 0 = true := by decide

theorem hyps_PackageTransactionExcludes : (txnIn 4 1).ready = true ∧ (txnIn 4 1).mayWrite .soholt 1 = true ∧
    (txnIn 4 1).rd Reg.CFG_TXN_STATE 0 4 ≠ 0 := by decide

/-- The package transaction shadows a stage group that passes, and one that no package has. -/
def shadowed (size : Nat) : State := { txnIn 4 1 with shadow := [(1024 + (0x100 + 4 * 1) / 4, (4, 3 + 256 * size))] }
theorem hyps_CommitChecks : (shadowed 2).ready = true ∧ (shadowed 2).mayWrite .soholt 1 = true ∧ (shadowed 2).txnOf .soholt = some 4 ∧
    (shadowed 2).marks = [] ∧ (shadowed 2).outOfScope 4 = [] ∧ (shadowed 2).failPages 4 = [] ∧
    (shadowed 63).failPages 4 ≠ [] ∧ (shadowed 63).outOfScope 4 = [] ∧ (shadowed 63).entriesBad 4 = none ∧
    (shadowed 63).wantsCal 4 = false := by decide

theorem hyps_ApplyTakesShadow : let s := withRegs (shadowed 2) [(Reg.CFG_TXN_STATE, 0, 4, 3)]
    s.ready = true ∧ 2 ≤ s.rd Reg.CFG_TXN_STATE 0 4 ∧ s.shadow = [(1024 + (0x100 + 4 * 1) / 4, (4, 3 + 256 * 2))] := by decide

theorem hyps_RollbackDiscardsShadow : (shadowed 2).ready = true ∧ (shadowed 2).rd Reg.CFG_TXN_STATE 0 4 = 1 ∧
    (shadowed 2).mayWrite .soholt 1 = true ∧ (shadowed 2).txnOf .soholt = some 4 := by decide

theorem hyps_CollectorAndCounters : let s := withRegs live [(Reg.CNT_SEL_VALID, 0, 63, 1)]
    s.ready = true ∧ s.mayWrite .soholt 0x00A = true ∧ (Block.ofPage 0x33F).isSome = true ∧ s.rd Reg.CNT_SEL_VALID 0 63 = 1 ∧
    s.mayWrite .soholt 0x008 = true ∧ Block.ofPage 0x100 = some .tile ∧ Block.tile.isEngine = true ∧ s.mayWrite .soholt 0x100 = true := by decide

theorem hyps_CollectorCaptureStores : let s : State := { withRegs live [(Reg.CNT_RUN, 0, 0, 1), (Reg.CNT_SNAP_NEXT, 0, 0, 2 ^ 32 - 1)] with coll := ⟨[(3, 99)]⟩ }
    s.ready = true ∧ s.rd Reg.CNT_RUN = 1 ∧ s.coll.recs.length < 1023 ∧ s.rd Reg.CNT_SNAP_NEXT < 2 ^ 32 := by decide

/-- In power-on reset with all supplies good. -/
def inPor : State := { State.reset with pins := { live.pins with porstLow := true } }
theorem hyps_PowerOnResetEndLatchesStraps : inPor.boot.por = true ∧ inPor.calm = true ∧ inPor.pins.allGood = true ∧ inPor.boot.running = 0 ∧
    inPor.rd Reg.GLB_PHASE = 0 ∧ inPor.rd Reg.GLB_FAIL = 0 ∧ inPor.rd Reg.GLB_BUSY = 0 ∧ State.reset.pins.allGood = false := by decide

theorem hyps_SupplyBecomesGood : State.reset.calm = true ∧ State.reset.pins.porstLow = true := by decide

theorem hyps_SupplyFaultIsRaisedOrKept : live.boot.por = false ∧ live.boot.fltUp = true ∧ live.calm = true := by decide

/-- In phase HUB with the root PLL not locked. -/
def inHub : State := { withRegs live [(Reg.CLK_ROOT_LOCK, 0, 0, 0), (Reg.GLB_BUSY, 0, 0, 1), (Reg.GLB_PHASE, 0, 0, 0)] with
  boot := { live.boot with running := 1, fltUp := false } }
theorem hyps_ClockLostFailsOrRaises : inHub.ready = true ∧ inHub.rd Reg.CLK_ROOT_LOCK = 0 ∧ inHub.boot.running = 1 ∧
    (∀ p < 2, inHub.rd Reg.HST_UP_A p = 0 ∧ inHub.rd Reg.HST_UP_B p = 0) ∧ live.rd Reg.CLK_ROOT_LOCK = 1 := by decide

/-- Phase `n` runs. -/
def inPhase (n : Nat) : State := { withRegs live [(Reg.GLB_PHASE, 0, 0, n - 1), (Reg.GLB_BUSY, 0, 0, 1)] with boot := { live.boot with running := n } }
theorem hyps_BringUpPhasesAdvance : (inPhase 0).ready = true ∧ (inPhase 0).boot.running = 0 ∧ (inPhase 0).rd Reg.GLB_PHASE = 0 ∧
    (inPhase 0).rd Reg.GLB_FAIL = 0 ∧ live.mayWrite .soholt 0 = true ∧ (∀ n < 6, (inPhase n).boot.running = n ∧ (inPhase n).ready = true) ∧
    (inPhase 5).rd Reg.GLB_WARM = 0 := by decide

/-- Domain 1 is coming on and domain 2 going off. -/
def switching : State := { live with hearth := { live.hearth with moving := [(1, 1), (2, 2)] } }
theorem hyps_PowerDomainsSwitch : (inPhase 0).mayWrite .soholt 4 = true ∧ (inPhase 0).rd Reg.PWR_PD_REQ < 2 ^ 80 ∧ switching.ready = true ∧
    switching.rd Reg.PWR_PD_ON < 2 ^ 80 ∧ SMap.get 0 switching.hearth.moving 1 = 1 ∧ SMap.get 0 switching.hearth.moving 2 = 2 ∧
    ({ mapped with hearth := switching.hearth } : State).columnIdle 1 = false := by decide

theorem hyps_WarmResetStartsAndEnds : live.ready = true ∧ live.mayWarm = true ∧ inHub.mayWarm = false ∧
    (let s := withRegs live [(Reg.GLB_WARM, 0, 0, 1)]
     s.ready = true ∧ s.rd Reg.GLB_WARM = 1 ∧ s.boot.wrstHold = false ∧
       ({ s with boot := { s.boot with wrstHold := true } } : State).ready = true) := by decide

theorem hyps_HeadCommandIsDispatched : ∀ o ∈ [1, 2, 3], (queued o).ready = true ∧ ((queued o).ctx 3).queue = [cmdOf o] ∧
    (queued o).headWait 3 = false ∧ cmdReserved (cmdOf o).words = false ∧ wfield (cmdOf o).words 0 7 0 = o := by decide

theorem hyps_MarkWritesRecord : (queued 3).ringFree 3 = true ∧ ((queued 3).ctx 3).waiting = [] ∧ (queued 3).rd Reg.CTX_CPL_BIND 3 = 0 ∧
    (queued 3).rd Reg.CTX_RSER_NEXT 3 < 2 ^ 32 := by decide

/-- An INFER step whose two tiles have reported, or not. -/
def stepping (done : Bool) : State :=
  let s := withRegs mapped [(Reg.CTX_EXEC_STEP_BUSY, 3, 0, 1), (Reg.CTX_EXEC_MODE, 3, 0, 1), (Reg.CTX_STEP_NUM, 3, 0, 2 ^ 32 - 1)]
  (s.setTile 1 { s.tile 1 with slots := [(0, { SlotRun.empty with reported := done })] }).setTile 2
    { s.tile 2 with slots := [(5, { SlotRun.empty with reported := done })] }
theorem hyps_StepCompletes : (stepping true).ready = true ∧ (stepping true).rd Reg.CTX_EXEC_STEP_BUSY 3 = 1 ∧
    (stepping true).rd Reg.CTX_EXEC_MODE 3 ≠ 0 ∧ ((stepping true).tilesOfCtx 3).all (fun k => (stepping true).tileReported k 3) = true ∧
    ((stepping true).ctx 3).collOpen = [] ∧ ((stepping true).ctx 3).collFail = none ∧ (stepping true).ringFree 3 = true ∧
    ((stepping true).ctx 3).waiting = [] ∧ (stepping true).rd Reg.CTX_CPL_BIND 3 = 0 ∧ (stepping false).ready = true ∧
    ((stepping false).tilesOfCtx 3).all (fun k => (stepping false).tileReported k 3) = false := by decide

/-- A program image of one bundle without curves, staged for context 3. -/
def image : List Byte := le4 ([0x50534E46, 1 + 65536] ++ List.replicate 14 0 ++ List.replicate 4 0x07070707)
def staged : State :=
  { withRegs mapped [(Reg.CTX_LOAD_LEN, 3, 0, 80), (Reg.CTX_LOAD_STATE, 3, 0, 0), (Reg.CTX_LOAD_SRC, 3, 0, stagePart 0 / 64)] with
    staging := Memory.writeBytes [] (stagePart 0) image }
theorem hyps_LoadIsTakenOrRefused : staged.ready = true ∧ staged.mayWrite .soholt (0x300 + 3) = true ∧ staged.cstate 3 = 1 ∧
    staged.rd Reg.CTX_EXEC_STEP_BUSY 3 = 0 ∧ staged.rd Reg.CTX_LOAD_STATE 3 ≠ 1 ∧ staged.rd Reg.CTX_SG_MASK 3 ≠ 0 ∧
    (staged.groupsOf 3).all (fun g => (staged.groupTiles g).all staged.present) = true ∧ (∀ t ∈ staged.tilesOfCtx 3, t < 176) ∧
    staged.slotOf 1 3 = some 0 ∧ staged.slotOf 2 3 = some 5 ∧ imgBundles (staged.staged 3) = 1 ∧
    inStagePart (partOfCtx 3) (staged.rd Reg.CTX_LOAD_SRC 3 * 64) (staged.rd Reg.CTX_LOAD_LEN 3) = true ∧ imageOk (staged.staged 3) = true := by decide +kernel

/-- A load of an image under way, with the digest expected of it. -/
def loading (img : List Byte) (dig : Nat) : State :=
  (withRegs mapped [(Reg.CTX_LOAD_STATE, 3, 0, 1)]).setCtx 3 { mapped.ctx 3 with loadImg := img, loadDig := dig, loadTiles := [1, 2] }
theorem hyps_LoadBecomesActiveOrFails : (loading image 5).ready = true ∧ (loading image 5).rd Reg.CTX_LOAD_STATE 3 = 1 ∧
    (∀ t ∈ ((loading image 5).ctx 3).loadTiles, t < 176) ∧ imgCurves ((loading image 5).ctx 3).loadImg = 0 ∧
    digNat (sha256 ((loading image 5).ctx 3).loadImg) ≠ ((loading image 5).ctx 3).loadDig ∧ ((loading image 5).ctx 3).loadTiles ≠ [] := by decide +kernel
theorem hyps_LoadBecomesActive : let s := loading image (digNat (sha256 image))
    digNat (sha256 (s.ctx 3).loadImg) = (s.ctx 3).loadDig := by decide +kernel

def curveStaged : State :=
  { withRegs staged [(Reg.CTX_LOAD_LEN, 3, 0, 64 + 16 * curveSegs curveImage)] with staging := Memory.writeBytes [] (stagePart 0) curveImage }
theorem hyps_CurveLoads : curveStaged.ready = true ∧ curveStaged.mayWrite .soholt (0x300 + 3) = true ∧ curveStaged.cstate 3 = 1 ∧
    curveStaged.rd Reg.CTX_LOAD_STATE 3 ≠ 1 ∧ curveStaged.rd Reg.CTX_LOAD_CURVE_STATE 3 ≠ 1 ∧ curveStaged.rd Reg.CTX_SG_MASK 3 ≠ 0 ∧
    inStagePart (partOfCtx 3) (curveStaged.rd Reg.CTX_LOAD_SRC 3 * 64) (curveStaged.rd Reg.CTX_LOAD_LEN 3) = true ∧
    curveStaged.rd Reg.CTX_LOAD_LEN 3 = 64 + 16 * curveSegs (curveStaged.staged 3) := by decide +kernel

/-- An event waits for a ring with room. -/
def recordWaits : State := mapped.setCtx 3 { mapped.ctx 3 with waiting := [⟨⟨3, 0, 5, 0, 0, 0, 0, 0⟩, 0⟩] }
theorem hyps_CompletionRing : recordWaits.ready = true ∧ recordWaits.ringFree 3 = true ∧ (recordWaits.ctx 3).waiting ≠ [] ∧
    recordWaits.rd Reg.CTX_CPL_BIND 3 = 0 ∧ recordWaits.mayWrite .soholt (0x300 + 3) = true ∧
    (recordWaits.rd Reg.CTX_RSER_NEXT 3 + 2 ^ 32 - recordWaits.rd Reg.CTX_CPL_ACKED 3) % 2 ^ 32 = 6 := by decide

theorem hyps_ContextOpensAndCloses : live.ready = true ∧ live.mayWrite .soholt (0x300 + 3) = true ∧ live.ctxAssigned 3 = true ∧
    live.cstate 3 = 0 ∧ live.sec.sealing = none ∧ mapped.ready = true ∧ mapped.cstate 3 = 1 := by decide

/-! ### Slots V, C and M -/

/-- An open stage of context 3 in slot 5, every vector register 0. -/
def stage3 : Stage :=
  { ctx := 3, slot := 5, ix := 1, run := 0, last := false, lastRun := false, fmts := (List.range 16).map (live.fmt 0), vreg := [], mreg := []
    sreg := [(4, 2), (6, 1), (7, 9)], takes := [], posts := [], deferred := [.post 3 4 5], slabs := [], prev := none, mangle := false
    marked := false, ended := false }

/-- Physical tile 2 runs the stage, with the bundle `w` at its PC 17, pegs 10 and 11 at 7 and 3, and one curve of code 0. -/
def running (w : Nat) : State :=
  let s := withRegs mapped [(Reg.CS_IMEM_BASE, 2, 5, 2), (Reg.FN_STAT_PC, 2, 0, 17), (Reg.FN_STAT_WAIT, 2, 0, 3), (Reg.FN_STAT_RUNNING, 2, 0, 1),
    (Reg.PN_BASE, 2, 5, 0), (Reg.PN_SIZE, 2, 5, 2), (Reg.PN_ACT, 2, 5, 1), (Reg.PN_RING, 2, 5, 1), (Reg.CS_PEG_BASE, 2, 5, 8),
    (Reg.CS_PEG_N, 2, 5, 8), (Reg.PEG_COUNT, 2, 10, 7), (Reg.PEG_COUNT, 2, 11, 3), (Reg.CS_PEG_BASE, 1, 0, 1), (Reg.CS_PEG_N, 1, 0, 10),
    (Reg.LR_VALID, 0, 0, 1), (Reg.LR_BASE, 0, 0, 0), (Reg.LR_SIZE, 0, 0, 2), (Reg.LR_CTX, 0, 0, 3), (Reg.LR_WRITE, 0, 0, 1),
    (Reg.SQ_VALID, 2, 1, 1), (Reg.SQ_CTX, 2, 1, 3), (Reg.SQ_QSLOTS, 2, 1, 4), (Reg.SQ_QHEAD, 2, 1, 3), (Reg.SQ_DEST, 2, 1, 1),
    (Reg.SQ_DEST_Q, 2, 1, 7), (Reg.RQ_VALID, 1, 7, 1), (Reg.RQ_CTX, 1, 7, 3), (Reg.RQ_PRODUCER, 1, 7, 2), (Reg.RQ_QSLOTS, 1, 7, 4),
    (Reg.RQ_SLOT_SZ, 1, 7, 1), (Reg.RQ_BASE, 1, 7, 64)]
  let s := s.setTile 2 { Tile.empty with
    stage := some stage3, slots := [(5, { SlotRun.empty with curves := [4] })], curves := [(4, curveImage)] }
  { s with imem := Memory.writeNat [] (2 * 2 ^ 18 + 2 * 4096 + 16 * 17) 16 w }

/-- A bundle of slot V alone: operation, VD, VA, VB, type and modifier. -/
def bundleV (op d a b ty md : Nat) : Nat := 1 + 16 * (op + 2 ^ 8 * d + 2 ^ 14 * a + 2 ^ 20 * b + 2 ^ 35 * ty + 2 ^ 38 * md)
/-- A bundle of slot M alone: operation, register, SA, offset or amount, peg and size. -/
def bundleM (op reg sa off peg : Nat) : Nat := 2 + 2 ^ 52 * (op + 2 ^ 6 * reg + 2 ^ 12 * sa + 2 ^ 17 * off + 2 ^ 32 * peg)
/-- A bundle of slot C alone: operation, SD, SA and immediate. -/
def bundleC (op d a imm : Nat) : Nat := 4 + 2 ^ 92 * (op + 2 ^ 6 * d + 2 ^ 11 * a + 2 ^ 16 * imm)

/-- The bundle at the PC of tile 2, decoded. -/
def bundle (w : Nat) : Bundle := ((running w).bundleAt 2 stage3).getD ⟨false, false, false, 0, 0, 0, 0⟩

/-- The parts of `AtBundle` that depend on the bundle. -/
def at17 (w : Nat) : Bool :=
  let s := running w
  s.ready && s.tileRuns 2 && decide ((s.tile 2).stage = some stage3) && decide (s.bundleAt 2 stage3 = some (bundle w)) && (bundle w).legal stage3.fmts
    && decide (s.rd Reg.FN_STAT_PC 2 + 1 < s.rd Reg.CS_IMEM_SIZE 2 5 * 256)

theorem stage3_lanes (r : Nat) : (stage3.v r).length = 256 := by
  rw [show stage3.v r = List.replicate 256 0 from rfl, List.length_replicate]

theorem hyps_VectorOps : ∀ x ∈ [(1, 0), (2, 1), (3, 2), (4, 0), (5, 0), (6, 1), (7, 1), (8, 0), (0x0A, 0), (0x0B, 0), (0x0C, 0), (0x0D, 0), (0x0E, 0),
      (0x18, 0), (0x19, 0), (0x20, 2), (0x21, 2), (0x22, 2), (0x23, 2), (0x24, 2), (0x25, 2), (0x28, 2), (0x29, 0), (0x2A, 0)],
    let w := bundleV x.1 63 1 2 x.2 0
    at17 w = true ∧ (bundle w).vOp = x.1 ∧ (bundle w).vEn = true ∧ (bundle w).mEn = false ∧ (bundle w).cEn = false ∧
      bits (bundle w).v 13 8 = 63 := by decide +kernel

theorem hyps_VectorCompare : let w := bundleV 9 7 1 2 0 5
    at17 w = true ∧ (bundle w).vOp = 9 ∧ (bundle w).vEn = true ∧ (bundle w).mEn = false ∧ (bundle w).cEn = false := by decide +kernel

theorem hyps_VectorCurves : ∀ op ∈ [0x10, 0x11, 0x12, 0x13, 0x14], let w := bundleV op 63 1 2 0 0
    at17 w = true ∧ (bundle w).vOp = op ∧ ((running w).tile 2).curveImg 5 (bits (bundle w).v 40 38) = some curveImage := by decide +kernel

theorem hyps_ScalarOps : ∀ op ∈ [1, 2, 3, 4, 5, 6, 7, 8, 9, 10, 11, 0x1F], let w := bundleC op 31 4 0x20
    at17 w = true ∧ (bundle w).cOp = op ∧ (bundle w).cEn = true ∧ (bundle w).vEn = false ∧ (bundle w).mEn = false := by decide +kernel

theorem hyps_ScalarRegisterRead : let w := bundleC 12 31 0 0x100
    at17 w = true ∧ (bundle w).cOp = 12 ∧ bits (bundle w).c 27 16 < 0x128 ∧ bits (bundle w).c 27 16 ≠ 0x110 ∧ (running w).tileWord 2 (bits (bundle w).c 27 16) < 2 ^ 32 := by
  decide +kernel

theorem hyps_BranchesAndEnd : ∀ op ∈ [0x10, 0x11, 0x12, 0x13, 0x14], let w := bundleC op 4 6 (2 ^ 20 - 17)
    at17 w = true ∧ (bundle w).cOp = op ∧ ((running w).rd Reg.FN_STAT_PC 2 : Int) + immOf (bundle w).c = 0 := by decide +kernel

theorem hyps_FinisherLoadsAndStores : ∀ op ∈ [1, 2], let w := bundleM op 9 4 1 0
    at17 w = true ∧ (bundle w).mOp = op ∧ (bundle w).mEn = true ∧ (bundle w).vEn = false ∧ (bundle w).cEn = false ∧ (running w).perr = [] ∧
      (running w).inAlloc 2 5 (mAddr stage3 (bundle w).m) (mSize (bundle w).m) = true ∧
      (let w := bundleM op 9 4 32767 0
       at17 w = true ∧ (running w).inAlloc 2 5 (mAddr stage3 (bundle w).m) (mSize (bundle w).m) = false) := by decide +kernel

theorem hyps_FinisherPegs : ∀ x ∈ [(9, 7, 2), (9, 8, 2), (10, 0, 2), (11, 255, 3)], let w := bundleM x.1 0 4 x.2.1 x.2.2
    at17 w = true ∧ (bundle w).mOp = x.1 ∧ (running w).pegOf 2 5 (bits (bundle w).m 37 32) = some (8 + x.2.2) ∧
      bits (bundle w).m 24 17 = x.2.1 ∧ (running w).slotOf 2 3 = some 5 := by decide +kernel
theorem hyps_FinisherPostsToAnotherTile : let w := bundleM 12 0 6 7 4
    at17 w = true ∧ (bundle w).mOp = 12 ∧ (running w).present (stage3.s (bits (bundle w).m 16 12)) = true ∧
      ((running w).slotOf ((running w).phys (stage3.s (bits (bundle w).m 16 12))) 3).isSome = true ∧ stage3.deferred.length < 64 := by
  decide +kernel

/-- A Press command of one vector and a transfer of tile 2. -/
def pressCmd : PxCmd := ⟨3, [2 ^ 12], Fmt.absent, Fmt.absent, Fmt.absent, 0, [], 0⟩
def fetchMove (op : Bool) : Move := ⟨2, 3, 0, [0, 4, 32, 1, 3], op, [], 0, []⟩
theorem hyps_FinisherWaits : let w := bundleM 5 0 0 0 0
    let v := bundleM 13 0 0 0 0
    at17 w = true ∧ (bundle w).mOp = 5 ∧ ((running w).tile 2).press.length ≤ bits (bundle w).m 33 32 ∧ at17 v = true ∧ (bundle v).mOp = 13 ∧
      (∀ m ∈ (running v).moves, m.tile ≠ 2) ∧
      (let s := (running w).setTile 2 { (running w).tile 2 with press := [pressCmd] }
       s.tileRuns 2 = true ∧ s.bundleAt 2 stage3 = some (bundle w) ∧ bits (bundle w).m 33 32 < (s.tile 2).press.length) := by decide +kernel

/-- The descriptor words `d` stand in Pantry at 64, where the bundle of slot M points. -/
def issuing (op : Nat) (d : List Nat) : State :=
  let s := running (bundleM op 0 31 1 0)
  { s with pantry := Memory.writeBytes [] (pantryAddr 2 64) (le4 d) }
def dPress : List Nat := [2 ^ 12 + 2 ^ 15 + 2 ^ 18, 96 + 2 ^ 16, 2 + 2 ^ 9 * 3, 16, 2 ^ 18 / 256 + 2 ^ 16 * 32] ++ List.replicate 3 0x3F800000 ++ List.replicate 8 0
def dFetch : List Nat := [0, 4, 32, 1, 3] ++ List.replicate 11 0
def dFold : List Nat := [9, 3, 0, 16, 20, 8, 5] ++ List.replicate 9 0
def dSend : List Nat := [1, 2, 8, 1] ++ List.replicate 12 0
theorem hyps_FinisherIssues : ∀ x ∈ [(4, dPress), (6, dFetch), (7, dFold), (8, dSend)], let s := issuing x.1 x.2
    let b := bundle (bundleM x.1 0 31 1 0)
    s.ready = true ∧ s.tileRuns 2 = true ∧ s.bundleAt 2 stage3 = some b ∧ b.mOp = x.1 ∧ s.perr = [] ∧
      s.inAlloc 2 5 (mAddr stage3 b.m) 64 = true ∧ toWords 16 (s.pantry.readBytes (pantryAddr 2 (mAddr stage3 b.m)) 64) = x.2 := by decide +kernel
theorem hyps_FinisherIssuesPress : let s := issuing 4 dPress
    let c := fun w => (⟨3, w, s.fmt 0 0, s.fmt 0 0, s.fmt 0 0, 0, [], 0⟩ : PxCmd)
    (s.tile 2).press.length < 2 ∧ (s.tile 2).mbuf = [] ∧ s.skewed 2 = false ∧ s.pxRefused 2 5 none (c dPress) = false ∧
      s.pxRefused 2 5 none (c (dPress.set 2 0)) = true := by decide +kernel
theorem hyps_FinisherIssuesTransfers : let s := issuing 6 dFetch
    fetchOk stage3.fmts dFetch = true ∧ wfield dFetch 0 1 1 = 0 ∧ wfield dFetch 4 15 0 = 3 ∧
      (∀ r < 3, s.larderCut 2 (fetchLarder dFetch r) = false ∧
        s.inAlloc 2 5 (fetchPantry stage3.fmts dFetch r) (fetchPantryLen stage3.fmts dFetch) = true ∧
        s.larderCheck 3 0 80 (fetchLarder dFetch r) (fetchLarderLen stage3.fmts dFetch) = none) ∧
      (((((issuing 7 dFold).wr Reg.FN_STAT_WAIT 2 0 0).count (tilePage 2) 4 1).foldStart 2 5 3 dFold).2) =
        some (.mark (stackOf (dFold.getD 3 0 * 256)) 9 2) ∧
      sendOk dSend = true ∧ s.rdB Reg.SQ_VALID 2 1 = true ∧ s.rd Reg.SQ_CTX 2 1 = 3 ∧
      (∀ i < 2, s.inAlloc 2 5 (sendSrc dSend i) (1 * 256) = true) := by decide +kernel

theorem hyps_PressCommandEnds : let s := (running 0).setTile 2 { (running 0).tile 2 with press := [{ pressCmd with words := dPress }] }
    s.ready = true ∧ s.tileRuns 2 = true ∧ (s.tile 2).press = [{ pressCmd with words := dPress }] ∧ wfield dPress 0 12 12 = 1 ∧ s.perr = [] := by
  decide +kernel

/-- Tile 2 is idle with a record ready in slot 5, and its context in a step. -/
def ready2 : State :=
  let s := withRegs (running 0) [(Reg.CTX_EXEC_STEP_BUSY, 3, 0, 1), (Reg.CS_SLIST, 2, 5, 4), (Reg.CTX_STEP_NUM, 3, 0, 88), (Reg.FN_STAT_RUNNING, 2, 0, 0)]
  { s.setTile 2 { s.tile 2 with stage := none, slots := [(5, { SlotRun.empty with active := true, ix := 2, run := 3 })] } with
    pantry := Memory.writeBytes [] (pantryAddr 2 (1024 + 32)) (le4 [12 + 2 ^ 16 * 2, 3, 7 + 2 ^ 16 * 3, 1]) }
theorem hyps_StageOpens : ready2.ready = true ∧ ready2.tileRuns 2 = true ∧ (ready2.tile 2).stage = none ∧ ready2.rd Reg.PAGE_DRAIN (tilePage 2) ≠ 1 ∧
    ready2.perr = [] ∧ ((List.range 16).map (fun i => ((ready2.tile 2).lastSlot + 1 + i) % 16)).find? (ready2.slotReady 2) = some 5 ∧
    ready2.inAlloc 2 5 (ready2.rd Reg.CS_SLIST 2 5 * 256 + 16 * 2) 16 = true ∧
    recordOk (ready2.nextRecord 2 5) (ready2.rd Reg.CS_IMEM_SIZE 2 5 * 256) = true ∧
    (ready2.pegOf 2 5 (wfield (ready2.nextRecord 2 5) 0 21 16)).isSome = true := by decide +kernel

theorem hyps_StageBoundaryCommits : let s := (running 0).setTile 2 { (running 0).tile 2 with stage := some { stage3 with ended := true } }
    s.ready = true ∧ s.tileRuns 2 = true ∧ (s.tile 2).stage = some { stage3 with ended := true } ∧ (s.tile 2).press = [] ∧ s.moves = [] ∧
      (stage3.last && stage3.lastRun && stage3.deferred.length == 64) = false ∧ ((running 0).tile 2).stage = some stage3 := by decide +kernel

/-- A released post from tile 2 to tile 1, and a SEND of two slabs. -/
def sending (done : List Nat) : State :=
  { running 0 with moves := [⟨2, 3, 2, dSend, true, [], 3, done⟩], posts := [⟨3, 2, 1, 4, 6⟩] }
theorem hyps_PostsAndSlabsArrive : let s := sending []
    s.ready = true ∧ s.posts[0]? = some ⟨3, 2, 1, 4, 6⟩ ∧ s.present 1 = true ∧ s.phys 1 = 1 ∧ s.bridgeDown (dieOfTile 2) (dieOfTile 1) = false ∧
      s.slotOf 1 3 = some 0 ∧ s.pegOf 1 0 4 = some 5 ∧ s.rd Reg.PEG_COUNT 1 5 + 6 < 2 ^ 24 ∧ s.moveAt 2 2 0 = some (0, ⟨2, 3, 2, dSend, true, [], 3, []⟩) ∧
      wfield dSend 1 10 0 = 2 ∧ s.perr = [] ∧ s.rd Reg.SQ_DEST 2 1 = 1 ∧ s.slabOk 2 1 ⟨2, 3, 2, dSend, true, [], 3, []⟩ 1 = true ∧
      (sending [0, 1]).ready = true := by decide +kernel

/-- A FETCH and a FOLD of tile 2 under way, the fold of key 9 in slot 5 with a mark of member 2. -/
def openFold (added : List Nat) : Fold := ⟨3, 9, dFold, [], [], added, [], 0, none⟩
def moving (added : List Nat) : State :=
  { running 0 with
    moves := [⟨2, 3, 0, dFetch, true, [], 0, []⟩, ⟨2, 3, 1, dFold, true, [], 0, []⟩], folds := [(5, openFold added)], foldMarks := [⟨3, 0, 9, 2⟩] }
theorem hyps_TransfersComplete : let s := moving []
    s.ready = true ∧ s.moveAt 2 0 0 = some (0, ⟨2, 3, 0, dFetch, true, [], 0, []⟩) ∧
      s.moveAt 2 1 0 = some (1, ⟨2, 3, 1, dFold, true, [], 0, []⟩) ∧ s.perr = [] ∧ wfield dFold 2 7 0 = 0 ∧ s.foldMarks[0]? = some ⟨3, 0, 9, 2⟩ ∧
      (withRegs s [(Reg.FS_OPEN, 0, 5, 1)]).ready = true := by decide +kernel

theorem hyps_FoldCompletes : let s := moving [0, 1, 2]
    s.ready = true ∧ SMap.find s.folds (64 * 0 + 5) = some (openFold [0, 1, 2]) ∧ wfield dFold 1 5 0 ≤ 3 ∧ s.lerr = [] ∧
      s.larderCheck 3 1 80 (dFold.getD 3 0 * 256) 20 = none ∧ (openFold []).added.length < wfield dFold 1 5 0 := by decide +kernel

/-! ### Mangle, Larder and Starch -/

/-- Group 0 with a channel, a feed record at 16 of stack 0 and two tiles that wait for vectors of context 3. -/
def feeding : State :=
  let s := withRegs (running 0) [(Reg.CFG_SGM_MEN, 0, 0, 1), (Reg.CFG_SGM_CH, 0, 0, 2), (Reg.CFG_SGM_RCH, 0, 0, 5), (Reg.CTX_MFEED, 3, 0, 4),
    (Reg.CTX_MPOS, 3, 0, 1)]
  let c : PxCmd := { pressCmd with words := [0, 2 ^ 16, 2] }
  let s := (s.setTile 2 { s.tile 2 with press := [c], stage := none }).setTile 1 { s.tile 1 with press := [c] }
  { s with larder := Memory.writeBytes [] 1040 (le4 [8, 2 + 2 ^ 24 * 64, 0, 0]) }
def feedOf (done : List Nat) : Feed := ⟨3, 1, [8, 2 + 2 ^ 24 * 64, 0, 0], 0, 0, [], done, false, []⟩
theorem hyps_MangleFeeds : let s := feeding
    s.ready = true ∧ s.groupDies 0 = (0, 0) ∧ s.groupTiles 0 = [1, 2] ∧ s.rd Reg.CFG_SGM_MEN 0 0 ≠ 0 ∧ SMap.find s.feeds 0 = none ∧
      s.rd Reg.FLT_HALTED ≠ 1 ∧ s.lerr = [] ∧ (∀ l ∈ [1, 2], s.credit (s.phys l) = some 3) ∧
      toWords 4 (s.larder.readBytes (s.rd Reg.CTX_MFEED 3 0 * 256 + 16 * s.rd Reg.CTX_MPOS 3 0) 16) = [8, 2 + 2 ^ 24 * 64, 0, 0] ∧
      s.dieCut 0 1040 = false ∧ s.dieCut 0 2048 = false ∧ s.larderCheck 3 0 80 1040 16 = none ∧ s.larderCheck 3 0 80 2048 512 = none ∧
      wfield [8, 2 + 2 ^ 24 * 64, 0, 0] 1 23 0 = 2 ∧ wfield [8, 2 + 2 ^ 24 * 64, 0, 0] 1 31 24 = 64 ∧
      ({ s with feeds := [(0, feedOf [])] } : State).targetSet 0 (feedOf []) ≠ [] ∧
      ({ s with feeds := [(0, feedOf [1, 2])] } : State).targetSet 0 (feedOf [1, 2]) = [] := by decide +kernel

theorem hyps_ScrubAndBridges :
    let c := (rsDecode false [(3, 7)]).elim [] (·.1)
    let s : State := { withRegs live [(Reg.BE_UP, 1, 2, 1)] with perr := [(pantryAddr 2 0 / 32, [(3, 7)])], bridges := [(10, ⟨2, 2 ^ 20⟩)] }
    s.ready = true ∧ s.powered (tilePage 2) = true ∧ SMap.find s.perr (pantryAddr 2 0 / 32) = some [(3, 7)] ∧ c ≠ [] ∧ s.rd Reg.BE_UP 1 2 = 1 ∧
      rsDecode false [(3, 7), (4, 9), (5, 1), (6, 6)] = none ∧ SMap.find s.perr (pantryAddr 2 32 / 32) = none ∧
      s.rd Reg.BR_CE_LIM 1 2 < (SMap.get ⟨0, 0⟩ s.bridges 10).corr ∧ (SMap.get ⟨0, 0⟩ s.bridges 11).corr ≤ s.rd Reg.BR_CE_LIM 1 3 := by
  decide +kernel

theorem hyps_LarderAccesses : let s := running 0
    s.ready = true ∧ s.lerr = [] ∧ s.larderCheck 3 1 80 (2 * 2 ^ 20 - 3) 3 = none ∧ s.larderCheck 3 0 80 0 4 = none ∧
      badAddr (2 * 2 ^ 20) = false ∧ s.larderCheck 3 0 80 (2 * 2 ^ 20) 4 ≠ none := by decide +kernel

/-- Stack 0 with corrections in the last 60 s past the limits on one pin and one row. -/
def worn (out : Bool) : State :=
  live.setStack 0 { Stack.empty with
    out := out, pins := [(1 * 512 + 3, List.replicate 2000 5000000), (3, [1])], rows := [(rowKey 4096, List.replicate 900 5000000)] }
theorem hyps_LarderUpkeep : let s := worn false
    s.ready = true ∧ (s.stack 0).out = false ∧ ((worn true).stack 0).out = true ∧ badAddr 4096 = false ∧ stackOf 4096 = 0 ∧ s.lerr = [] ∧
      s.rd Reg.MEM_LANE_LIM 0 < (lastMinute s.timeUs (SMap.get [] (s.stack 0).pins (1 * 512 + 3))).length ∧ s.spareUsed 0 true 1 < 2 ∧
      (lastMinute s.timeUs (SMap.get [] (s.stack 0).pins 3)).length ≤ s.rd Reg.MEM_LANE_LIM 0 ∧
      s.rd Reg.MEM_ROW_LIM 0 < (lastMinute s.timeUs (SMap.get [] (s.stack 0).rows (rowKey 4096))).length ∧
      s.spareUsed 0 false (layerOf 4096 * 16 + bankOf 4096) < 4 := by decide +kernel

/-- Region 1 of stack 0 is TAGGED, in a state and with a tag. -/
def tagged (st tag : Nat) : State :=
  withRegs (running 0) [(Reg.LR_VALID, 0, 1, 1), (Reg.LR_BASE, 0, 1, 4), (Reg.LR_SIZE, 0, 1, 2), (Reg.LR_CTX, 0, 1, 3), (Reg.LR_TAGGED, 0, 1, 1),
    (Reg.LR_LLEN, 0, 1, 3), (Reg.LR_STATE, 0, 1, st), (Reg.LR_TAG, 0, 1, tag)]
theorem hyps_LandingWrites : let a := 4 * 2 ^ 20 + 65536
    (tagged 0 0).ready = true ∧ (tagged 0 0).lerr = [] ∧ (tagged 0 0).landRegion 3 a = .ok 1 ∧ stackOf a = 0 ∧ (tagged 0 0).rd Reg.LR_STATE 0 1 = 0 ∧
      (tagged 0 0).rd Reg.LR_HASH 0 1 = 0 ∧ 1 < (tagged 0 0).rd Reg.LR_LLEN 0 1 ∧ (tagged 2 5).landRegion 3 a = .ok 1 ∧
      (tagged 2 5).rd Reg.LR_STATE 0 1 = 2 ∧ (tagged 2 5).rd Reg.LR_TAG 0 1 = 5 ∧
      newer 6 5 = true ∧ (withRegs (tagged 2 5) [(Reg.LR_READERS, 0, 1, 2)]).rd Reg.LR_READERS 0 1 ≠ 0 := by decide +kernel

/-- A landing write of tag 6 that waits, and a FETCH with a tag check that has not opened. -/
def waitingLand : State := { tagged 2 5 with landQ := [⟨3, 4 * 2 ^ 20 + 65536, 6, [1, 2, 3], .coll 1 2⟩] }
def waitingFetch : State :=
  { withRegs (tagged 2 5) [(Reg.CTX_STEP_NUM, 3, 0, 5)] with moves := [⟨2, 3, 0, [2, 2 ^ 14, 32, 1, 3], false, [], 0, []⟩] }
/-- A full landing that R152 holds, in a partition with a seal. -/
def heldLanding (dig : Nat) : State :=
  let s := withRegs ((tagged 1 5).setLanding 1 ⟨[0, 1, 2], 77, true, none, false⟩) [(Reg.CFG_PART_SEALED, 0, 0, 1)]
  { s with sec := { s.sec with sealed := [(0, ⟨[], 0, 0, [], [], [⟨0, 0, dig⟩]⟩)] } }
theorem hyps_LandingsProceed : let s := waitingLand
    s.ready = true ∧ s.landQ[0]? = some ⟨3, 4 * 2 ^ 20 + 65536, 6, [1, 2, 3], .coll 1 2⟩ ∧ s.slot 1 2 = none ∧ s.lerr = [] ∧
      s.landRegion 3 (4 * 2 ^ 20 + 65536) = .ok 1 ∧ s.rd Reg.LR_STATE 0 1 = 2 ∧ newer 6 (s.rd Reg.LR_TAG 0 1) = true ∧ s.rd Reg.LR_READERS 0 1 = 0 ∧
      (withRegs s [(Reg.LR_READERS, 0, 1, 2)]).rd Reg.LR_READERS 0 1 ≠ 0 ∧ waitingFetch.ready = true ∧
      waitingFetch.moveAt 2 0 0 = some (0, ⟨2, 3, 0, [2, 2 ^ 14, 32, 1, 3], false, [], 0, []⟩) ∧
      waitingFetch.tagReady 3 (fetchRanges stage3.fmts [2, 2 ^ 14, 32, 1, 3]) = some [1] ∧
      (heldLanding 77).ready = true ∧ ((heldLanding 77).landing (64 * 0 + 1)).held = true ∧ (heldLanding 77).isSealed ((heldLanding 77).partOfStack 0) = true := by
  decide +kernel

/-- A Starch record of context 3 over 20 elements whose gradient region has landed at step 7. -/
def record (rule : Nat) : List Nat := [rule + 8, 20, 64, 256, 512, 1 + 2 ^ 8 * 2, 0, 0, 768, 0, 0, 0, 0, 0, 0, 0]
def starchState (rule : Nat) (busy : Bool) : State :=
  let s := withRegs (tagged 2 7) [(Reg.LR_VALID, 0, 2, 1), (Reg.LR_BASE, 0, 2, 6), (Reg.LR_SIZE, 0, 2, 2), (Reg.LR_CTX, 0, 2, 3),
    (Reg.LR_TAGGED, 0, 2, 1), (Reg.LR_LLEN, 0, 2, 1), (Reg.LR_LLEN, 0, 1, 1), (Reg.CTX_STEP_NUM, 3, 0, 7), (Reg.CTX_EXEC_STEP_BUSY, 3, 0, 1),
    (Reg.CTX_EXEC_MODE, 3, 0, 0), (Reg.STC_NREC, 0, 3, 1), (Reg.STC_LIST, 0, 3, 4)]
  let s : State := { s with larder := Memory.writeBytes [] 1024 (le4 (record rule)) }
  if busy then s.setStarch 0 { Starch.empty with run := some ⟨4, 9, [], 0, [], 0, [], [], [], 0⟩ } else s
theorem hyps_StarchTriggers : let s := starchState 0 true
    s.ready = true ∧ s.triggers 0 3 0 = true ∧ s.partOfStack 0 = partOfCtx 3 ∧ 0 < s.rd Reg.STC_NREC 0 (3 % 16) ∧ (s.stack 0).out = false ∧
      s.trigSet 0 3 0 = [0] ∧ s.lerr = [] ∧ s.larderCheck 3 1 80 (s.recAddr 0 3 0) 64 = none ∧ s.recOk 0 3 (s.recWords 0 3 0) = true ∧
      wfield (s.recWords 0 3 0) 15 31 31 = 0 ∧ (s.starchAt 0).run.isSome = true ∧ s.triggers 0 3 1 = false := by decide +kernel

/-- The record runs. -/
def batching : State :=
  let s := starchState 0 false
  s.setStarch 0 { Starch.empty with run := some ⟨3, 0, record 0, 7, List.replicate 16 0x3F800000, 0, [], [], [], 0⟩ }
theorem hyps_StarchBatches : let s := batching
    let m := (s.ruleMasks 0 (wfield (record 0) 0 2 0)).getD (0, 0)
    s.ready = true ∧ (s.starchAt 0).run.isSome = true ∧ s.isFenced (0x50 + 0) 0 = false ∧ s.starchHeld 0 = false ∧ (s.stack 0).out = false ∧
      s.rd Reg.FLT_HALTED ≠ 1 ∧ s.mayWork (0x50 + 0) 0 3 = true ∧ ((live.starchAt 0).run.isNone && (live.starchAt 0).queue.isEmpty) = true ∧
      (s.getAll 3 ([0, 1, 2].map (fun i => ((record 0).getD (2 + i) 0 * 256, if bit m.1 i = 1 then 80 else 0))
        ++ [(s.regionBase 0 1, if bit m.1 3 = 1 then 20 * recGsize (record 0) else 0)])).2.isSome = true := by decide +kernel

/-- A user rule of one instruction, staged for slot 5 of stack 0. -/
def ruleImage : List Byte := le4 [0x4C525453, 1 + 2 ^ 8 + 2 ^ 12, 0, 0, 0, 0, 0, 0, 1]
def ruleStaged : State :=
  { withRegs (starchState 0 false) [(Reg.STC_SLOT, 0, 0, 5), (Reg.STC_RULE_SRC, 0, 0, stagePart 0 / 64), (Reg.STC_RULE_LEN, 0, 0, 36)] with
    staging := Memory.writeBytes [] (stagePart 0) ruleImage }
theorem hyps_RuleLoads : let s := ruleStaged
    s.ready = true ∧ s.mayWrite .soholt 0x50 = true ∧ 4 ≤ s.rd Reg.STC_SLOT 0 ∧
      inStagePart (s.partOfStack 0) (s.rd Reg.STC_RULE_SRC 0 * 64) (s.rd Reg.STC_RULE_LEN 0) = true ∧
      ruleOk (s.staging.readBytes (s.rd Reg.STC_RULE_SRC 0 * 64) (s.rd Reg.STC_RULE_LEN 0)) = true ∧ s.ruleInUse 0 5 = false ∧
      (withRegs s [(Reg.STC_SLOT, 0, 0, 3)]).rd Reg.STC_SLOT 0 < 4 ∧ (withRegs s [(Reg.STC_STATE, 0, 0, 1)]).rd Reg.STC_STATE 0 = 1 ∧
      (s.starchAt 0).target < 8 := by decide +kernel

/-! ### Links and circuits -/

/-- Port 3 is enabled and in a state, with laser power. -/
def link (st : Nat) : State := withRegs live [(Reg.LNK_EN, 3, 0, 1), (Reg.LNK_STATE, 3, 0, st), (Reg.LNK_LP, 3, 0, 200)]
/-- A training table with one step of each operation. -/
def trainTable : SeqTable :=
  ⟨7, 0, 11, [⟨1, 255, 1, 5⟩, ⟨2, 0, 1, 1⟩, ⟨3, 255, 1, 0⟩, ⟨4, 2, 1, 0⟩, ⟨5, 3, 1, 65536 * 9⟩, ⟨6, 255, 1, 0⟩, ⟨7, 3, 1, 0⟩, ⟨8, 3, 1, 1500⟩,
    ⟨9, 4, 1, 0⟩, ⟨10, 255, 1, 256 + 4⟩, ⟨11, 255, 1, 0⟩, ⟨1, 2, 3, 4⟩]⟩
/-- Port 3 trains at a step of the table. -/
def training (st step : Nat) : State :=
  let s := withRegs (link st) [(Reg.LNK_STEP, 3, 0, step)]
  s.setPort 3 { s.port 3 with table := trainTable }

theorem hyps_LaserLight : (link 4).ready = true ∧ (link 4).powered (lnkPage 3) = true ∧
    toSigned 10 ((link 4).rd Reg.LNK_LP_WARN 3) ≤ toSigned 10 220 ∧ toSigned 10 1000 < toSigned 10 ((link 4).rd Reg.LNK_LP_WARN 3) ∧
    (withRegs (link 4) [(Reg.LNK_LP, 3, 0, 1000)]).lpLow 3 = true ∧ (link 4).lnk 3 ≠ 0 ∧ (link 4).lnk 3 ≠ 10 ∧ (link 4).lpLow 3 = false ∧
    (link 10).lnk 3 = 10 ∧ toSigned 10 ((link 10).rd Reg.LNK_LP_WARN 3) ≤ toSigned 10 ((link 10).rd Reg.LNK_LP 3) := by decide +kernel

/-- Endpoint 7 on port 3, and on port 4 as its path B, in a state, with the sides up or not. -/
def endpoint (st a b twin : Nat) : State :=
  withRegs (link 4) [(Reg.LNK_STATE, 4, 0, 4), (Reg.CT_VALID, 0, 7, 1), (Reg.CT_KIND, 0, 7, 1), (Reg.CT_PORT_A, 0, 7, 3), (Reg.CT_PORT_B, 0, 7, 4),
    (Reg.CT_RUN_STATE, 0, 7, st), (Reg.CT_RUN_A_UP, 0, 7, a), (Reg.CT_RUN_B_UP, 0, 7, b), (Reg.CT_TWIN, 0, 7, twin), (Reg.CT_CTX, 0, 7, 3),
    (Reg.CT_FAR_PKG, 0, 7, 9), (Reg.CT_CNAME, 0, 7, 77), (Reg.CT_GEN, 0, 7, 2), (Reg.CT_CLAIM_A, 0, 7, 1), (Reg.CT_PEER_CID_A, 0, 7, 5),
    (Reg.CT_VALID, 0, 8, 1), (Reg.CT_PORT_A, 0, 8, 3), (Reg.CT_PORT_B, 0, 8, 4), (Reg.CT_RUN_A_UP, 0, 8, 1), (Reg.CT_RUN_B_UP, 0, 8, 1),
    (Reg.CT_PEER_CID_B, 0, 8, 33), (Reg.CT_RUN_STATE, 0, 8, 7)]

theorem hyps_LinkControls : (link 0).ready = true ∧ (link 0).mayWrite .soholt (0x30 + 3) = true ∧ (link 0).powered (lnkPage 3) = true ∧
    (link 0).lnk 3 = 0 ∧ (endpoint 2 1 0 0).portOpen 3 = true ∧ (link 7).portOpen 3 = false ∧ (link 7).lnk 3 ≠ 4 ∧
    (let s : State := { link 7 with fenced := [(8 * 0x33, 1)] }
     s.ready = true ∧ s.isFenced (lnkPage 3) 0 = true ∧ s.mayWrite .soholt (0x30 + 3) = true) ∧
    (link 7).isFenced (lnkPage 3) 0 = false ∧ (link 4).lnk 3 = 4 ∧
    (((link 4).port 3).retrains.filter (fun t => decide ((link 4).timeUs < t + 60000000))).length < (link 4).rd Reg.LNK_RETRAIN_LIM 3 := by
  decide +kernel
theorem hyps_LinkControlsTable : StepOk (link 4).seqTable (link 4).seqTable.retrain :=
  ⟨by decide +kernel, (link 4).seqTable.steps.getD (link 4).seqTable.retrain ⟨0, 0, 0, 0⟩, by decide +kernel, by decide +kernel, by decide +kernel⟩

theorem hyps_ReceivedLight : (link 1).ready = true ∧ (link 1).lnk 3 = 1 ∧ (List.replicate 8 1000).length = 8 ∧
    (∀ v ∈ List.replicate 8 1000, v < 1024 ∧ -120 < toSigned 10 v) ∧ (∀ v ∈ List.replicate 8 800, v < 1024 ∧ toSigned 10 v < -140) ∧
    (link 2).lnk 3 = 2 ∧ (link 9).lnk 3 = 9 ∧ (link 9).ready = true := by decide +kernel
theorem hyps_ReceivedLightTable : StepOk (link 1).seqTable (link 1).seqTable.train :=
  ⟨by decide +kernel, (link 1).seqTable.steps.getD (link 1).seqTable.train ⟨0, 0, 0, 0⟩, by decide +kernel, by decide +kernel, by decide +kernel⟩

theorem hyps_TrainingSteps : ∀ st ∈ [2, 5], ∀ n < 11, let s := training st n
    s.ready = true ∧ (s.lnk 3 = 2 ∨ s.lnk 3 = 5) ∧
      (s.port 3).table.steps[s.rd Reg.LNK_STEP 3]? = some (trainTable.steps.getD n ⟨0, 0, 0, 0⟩) ∧ (trainTable.steps.getD n ⟨0, 0, 0, 0⟩).op = n + 1 ∧
      1 ≤ (trainTable.steps.getD (n + 1) ⟨0, 0, 0, 0⟩).op := by decide +kernel

/-- Port 3 in the identity exchange, with an expectation of package 5 port 2, and the identity words that fit it. -/
def identifying (st : Nat) : State :=
  withRegs (training st 8) [(Reg.LNK_EXP_VALID, 3, 0, 1), (Reg.LNK_EXP_PKG, 3, 0, 5), (Reg.LNK_EXP_PORT, 3, 0, 2)]
theorem hyps_IdentityDecides : ∀ st ∈ [2, 5], let s := identifying st
    let lo := 5 + 2 ^ 17
    let b := List.replicate 3 (lo, s.ownIdHi, s.ownIdLo 3)
    s.ready = true ∧ s.lnk 3 = st ∧ identAccepted b = some (lo, s.ownIdHi) ∧ s.ownIdHi < 2 ^ 32 ∧ s.entriesOn 3 = [] ∧ s.ownIdLo 3 < 2 ^ 32 ∧
      s.ownIdLo 3 ≠ 0 ∧ s.rd Reg.LNK_LOOP 3 ≠ 1 ∧ bits lo 21 20 = s.rd Reg.GLB_STRAP_VAR ∧ s.rd Reg.LNK_EXP_VALID 3 = 1 ∧ s.rd Reg.GLB_STRAP_VAR ≠ 1 ∧
      s.expMatches 3 lo = true ∧ s.expMatches 3 6 = false ∧ (settleVersion s.ownIdHi s.ownIdHi).isSome = true ∧
      settleVersion s.ownIdHi (s.ownIdHi + 2) = none := by decide +kernel

/-- Eight lanes of a frame, and the same with the lane number 3 missing. -/
def frame (bad : Bool) : List LaneWord := (List.range 8).map (fun n =>
  ⟨[], List.replicate 608 0x11, [if bad && n == 3 then 0 else n, 0xAAAAAAAA, 42 + 2 ^ 6 * 152, 0, 0, 0, 0, 0, 0]⟩)
theorem hyps_Frames : (link 4).ready = true ∧ (∀ b ∈ [false, true], (frame b).length = 8 ∧ (∀ l ∈ frame b, l.wellFormed = true)) := by
  decide +kernel
theorem hyps_FramesGood : frameLost (goodLanes (frame false)) = false ∧ (sharedLane (goodLanes (frame false))).isSome = true := by
  decide +kernel
theorem hyps_FramesLost : frameLost (goodLanes (frame true)) = true := by decide +kernel
theorem hyps_FrameErrors : ((link 4).frameErrors 3 (frame false)).lnk 3 = 4 := by decide +kernel
theorem hyps_Replay : (link 1).lnk 3 < 2 ∧
    (let s := (link 4).setPort 3 { (link 4).port 3 with ctl := { LinkClass.fresh 512 with restart := some 0 }, syms := [(2, 2 ^ 40)] }
     s.ready = true ∧ (s.port 3).ctl.restart.isSome = true ∧ s.rd Reg.LNK_SYM_WARN 3 < SMap.get 0 (s.port 3).syms 2) := by decide +kernel

/-- A sealed packet of a circuit, type and sequence number, and endpoint 7 with held ones. -/
def packet (cid typ seq : Nat) : Packet :=
  let p : Packet := ⟨[cid + 4096 * typ, seq, 0, 1 + 65536 * 2, 1 + 2 ^ 12 * 5, 9, 0], if typ = 8 then List.replicate 256 3 else []⟩
  if typ = 8 then p else p.sealEchk
def holding (s : State) : State := s.setCirc 7 { s.circ 7 with heldC := [⟨3, packet 7 0 1⟩], heldD := [⟨3, packet 7 8 1⟩] }
theorem hyps_CircuitPackets : let s := endpoint 2 1 0 0
    let p := packet 8 8 1
    let q := packet 7 0 1
    s.ready = true ∧ p.wellFormed = true ∧ p.typ = 8 ∧ s.isForward p.cid = true ∧ s.sidePort p.cid 0 = 3 ∧ s.sidePort p.cid 1 = 4 ∧
      s.sideUp p.cid 0 = true ∧ s.sideUp p.cid 1 = true ∧ s.bridgeDown (dieOfPort 3) (dieOfPort 4) = false ∧ s.lnk 4 = 4 ∧
      s.isEndpoint 9 = false ∧ s.isForward 9 = false ∧ q.wellFormed = true ∧ s.isEndpoint q.cid = true ∧ q.typ = 0 ∧ q.path ∈ s.pathsOf q.cid ∧
      s.sidePort q.cid q.path = 3 ∧ s.sideUp q.cid q.path = true ∧ ((s.circ q.cid).path' q.path).rejoin = false ∧ q.gen = s.rd Reg.CT_GEN 0 q.cid ∧
      q.claim = s.sideClaim q.cid q.path ∧ s.cirState q.cid = 2 ∧ s.rd Reg.CT_SEALED 0 q.cid ≠ 1 ∧ q.echk = q.echkOf ∧
      newer q.seq (s.lastTaken q.cid q.isData) = true ∧ s.mayDeliver 7 false = none ∧ ((holding s).mayDeliver 7 false).isSome = true ∧
      ((holding s).mayDeliver 7 true).isSome = true := by decide +kernel

theorem hyps_CircuitsOpenAndClose : let pay := (endpoint 1 1 0 0).openPay 7 0
    (∀ st < 8, (endpoint st 1 0 0).ready = true ∧ (endpoint st 1 0 0).cirState 7 = st ∧ (endpoint st 1 0 0).isEndpoint 7 = true ∧
      (endpoint st 1 0 0).evq.length < 256 ∧ (endpoint st 1 0 0).rd Reg.CT_TWIN 0 7 ≠ 1) ∧ pay % 2 ^ 45 = pay ∧
      (pay + 1) % 2 ^ 45 ≠ (endpoint 1 1 0 0).openPay 7 0 ∧ bit (pay + 2 ^ 45) 45 = 1 ∧ (endpoint 2 1 0 0).mayWrite .soholt 0x00C = true := by
  decide +kernel

/-- Path B of endpoint 7 in REJOIN. -/
def rejoining : State :=
  let s := endpoint 3 1 0 1
  s.setCirc 7 { s.circ 7 with b := { (s.circ 7).b with rejoin := true, s0 := 5, ctl0 := 3, dat0 := 4 } }
theorem hyps_PathsAndEvents : let s := endpoint 2 1 1 1
    s.ready = true ∧ s.sideUp 7 0 = true ∧ 1 ∈ s.pathsOf 7 ∧ s.sideUp 7 1 = true ∧ s.cirState 7 = 2 ∧ ((s.circ 7).path' 0).rejoin = false ∧
      (endpoint 2 1 0 0).sideUp 7 1 = false ∧ rejoining.ready = true ∧ 1 ∈ rejoining.pathsOf 7 ∧ ((rejoining.circ 7).path' 1).rejoin = true ∧
      ((rejoining.circ 7).path' 0).marks = none ∧ rejoining.evq.length < 256 ∧ newer 0 (rejoining.rd Reg.CT_RUN_CLAST 0 7) = false ∧
      newer 5 (rejoining.rd Reg.CT_RUN_CLAST 0 7) = true ∧ rejoining.isEndpoint 7 = true ∧ 0 < ((rejoining.circ 7).path' 1).s0 ∧
      ((rejoining.circ 7).path' 1).heard = false ∧ s.powered 0x00C = true ∧
      ({ s with evq := [⟨7, 1, 0, false⟩] } : State).ready = true := by decide +kernel

/-! ### Collectives -/

/-- Circuit 7 carries collectives of context 3; the group record and region 0 of stack 0 are theirs. -/
def grouped : State :=
  let s := withRegs (endpoint 2 1 0 0) [(Reg.CT_COLL, 0, 7, 1), (Reg.LR_VALID, 0, 0, 1), (Reg.LR_SIZE, 0, 0, 2), (Reg.LR_CTX, 0, 0, 3),
    (Reg.LR_WRITE, 0, 0, 1)]
  { s with larder := Memory.writeBytes [] 0x10000 (le4 ([40 + 3 * 2 ^ 20, 0, 0, 0, 0, 0, 0, 0, 2, 7, 7] ++ List.replicate 53 0)) }
/-- A command of collective operation `op` on group 40. -/
def collCmd (op dt size : Nat) : CollWait :=
  ⟨0, 3, 50, [op + 16 * dt + 2 ^ 13 + 2 ^ 16 * 40, 1, 0, 0x100, 0x200, 0x400, 0, size, 0, 5, 0, 0, 0, 0, 0, 0]⟩
def waitingColl (op dt size : Nat) : State := { grouped with collWait := [collCmd op dt size] }
/-- What the engine makes of the command. -/
def planned (op dt size : Nat) : Option (Slot × List Nat × List Nat) := ((waitingColl op dt size).collPlan 0 3 50 (collCmd op dt size).words).2

theorem hyps_CollectiveCommands : let s := waitingColl 3 0 2
    let w := collCmd 3 0 2
    let y := (s.collPlan 0 3 50 w.words).1
    s.ready = true ∧ s.collHead 0 = some w ∧ s.isFenced (cePage 0) 0 = false ∧ s.rd Reg.PAGE_DRAIN (cePage 0) ≠ 1 ∧ s.mayWork (cePage 0) 0 3 = true ∧
      (List.range 16).find? (fun n => (s.slot 0 n).isNone) = some 0 ∧ s.lerr = [] ∧ y.collWait = [w] ∧
      (planned 3 0 2).any (fun p => y.collOk p.1 p.2.1 p.2.2 && !p.1.bind && p.1.fwait && y.inRegions 3 true 80 (p.1.group + 4) 2
        && (y.larderCheck 3 1 80 (p.1.group + 4) 2).isNone && !y.dieCut 0 (p.1.group + 4) && decide (stackOf p.1.src < 12)
        && y.rd Reg.MEM_FDONE (stackOf p.1.src) 3 != p.1.words.getD 9 0 && !newer (y.rd Reg.MEM_FDONE (stackOf p.1.src) 3) (p.1.words.getD 9 0)) = true ∧
      y.rooms = [] ∧ (planned 3 1 2).any (fun p => !y.collOk p.1 p.2.1 p.2.2) = true := by decide +kernel

/-- The key of the collective. -/
def ckey : Nat := 40 + 65536
/-- A chunk with no data that passes its check, and one that does not. -/
def chunk (i : Nat) : Chunk := ⟨i, [], leBytes 8 (crc64 [])⟩
def badChunk (i : Nat) : Chunk := ⟨i, [1], leBytes 8 (crc64 [])⟩
/-- Slot 0 of engine 0 gathers; the slot and its state. -/
def gathering : Slot :=
  ((planned 3 0 2).map (·.1)).getD (newSlot 0 3 50 [] [] 0)
def slotIn (x : Slot) (st : Nat) : State := withRegs { grouped with slots := SMap.put [] 0 x } [(Reg.SL_STATE, 0, 0, st)]
/-- It has credit and holds its own chunk and one that it has sent. -/
def credited : Slot := { gathering with credit := SMap.put [] 56 16, got := [chunk 0], kept := [⟨7, 0, chunk 5, 1⟩] }
/-- The slot without the wait for its fold. -/
def ungated : Slot := { gathering with words := gathering.words.set 0 (3 + 2 ^ 16 * 40) }

theorem hyps_CollectiveStart : let s := slotIn gathering 1
    s.ready = true ∧ s.slot 0 0 = some gathering ∧ s.rd Reg.SL_STATE 0 0 = 1 ∧ s.mayWork (cePage 0) 0 gathering.ctx = true ∧
      ungated.stagchk = false ∧ ungated.fwait = false ∧ (slotIn ungated 1).slot 0 0 = some ungated ∧ (slotIn gathering 3).rd Reg.SL_STATE 0 0 ≠ 1 ∧ s.slotOfKey (s.dieOfCir 7) (s.cirCtx 7) 99 = none ∧
      s.doneKeys.contains (s.dieOfCir 7, s.cirCtx 7, 99) = false ∧ s.rooms = [] ∧
      ({ s with doneKeys := [(s.dieOfCir 7, s.cirCtx 7, 99)] } : State).doneKeys.contains (s.dieOfCir 7, s.cirCtx 7, 99) = true ∧
      (∀ i < 64, (SMap.find ({ s with rooms := (List.range 64).map (fun i => (i, ⟨3, 5, none, 9, false, 0, 0, 0⟩)) } : State).rooms (64 * 0 + i)).isSome = true) ∧
      s.slotOfKey (s.dieOfCir 7) (s.cirCtx 7) ckey = some 0 ∧ s.dieOfCir 7 = 0 ∧ gathering.inStage 7 = some 0 := by decide +kernel

theorem hyps_CollectiveChunks : let s := slotIn credited 3
    s.ready = true ∧ s.slot 0 0 = some credited ∧ s.rd Reg.SL_STAGE 0 0 = 0 ∧ SMap.get 0 gathering.credit 56 = 0 ∧ SMap.get 0 credited.credit 56 ≠ 0 ∧
      (7, 0) ∈ credited.sends 0 ∧ (7, 0) ∉ credited.sent ∧ credited.sendReady 0 0 = true ∧ s.cirReady 7 = true ∧
      s.isFenced (cePage 0) 0 = false ∧ s.slotMoves 0 0 credited = true ∧ (s.sendData 0 credited 0 7 0).2.isSome = true ∧
      (badChunk 1).checks = false ∧ (chunk 1).checks = true ∧ 1 ≤ s.rd Reg.CE_RESEND_LIM 0 ∧
      (withRegs s [(Reg.CE_RESEND_LIM, 0, 0, 0)]).rd Reg.CE_RESEND_LIM 0 < 1 ∧ (7, 1) ∈ credited.recvs 0 ∧ (7, 1) ∉ credited.used ∧
      credited.mayUse 0 0 7 (chunk 1) = true ∧ (slotIn credited 1).slotMoves 0 0 credited = false ∧
      (slotIn { credited with used := [(7, 1)] } 3).ready = true ∧ credited.kept.find? (fun q => q.entry == 7 && q.stage == 0 && q.chunk.cidx == 5) ≠ none := by
  decide +kernel

/-- The slot has done its stage. -/
def gathered : Slot := { gathering with sent := gathering.sends 0, used := gathering.recvs 0, wrote := true }
theorem hyps_CollectivesEnd : let s := slotIn gathered 3
    s.ready = true ∧ s.slotOfKey (s.dieOfCir 7) (s.cirCtx 7) ckey = some 0 ∧
      (withRegs s [(Reg.NB_VALID, 0, 3, 1), (Reg.NB_PKG, 0, 3, 9)]).nbOf 0 (s.rd Reg.CT_FAR_PKG 0 7) = some 3 ∧ s.dieOfCir 7 = 0 ∧
      (slotIn gathering 3).waitsCredit 0 0 7 gathering = true ∧ (slotIn gathered 3).waitsCredit 0 0 7 gathered = false ∧
      (slotIn gathered 3).waitsChunk 0 0 7 gathered = false ∧ s.rooms = [] ∧
      (let z := withRegs (slotIn { gathering with since := 0 } 3) [(Reg.CE_OSTALL_MS, 0, 0, 1)]
       max 0 0 + 1000 * z.rd Reg.CE_OSTALL_MS 0 ≤ z.timeUs) ∧
      (let y := s.collGo 0 0
       y.slot 0 0 = some gathered ∧ y.rd Reg.SL_STATE 0 0 = 3 ∧ gathered.op ≠ 5 ∧ gathered.stages ≤ y.rd Reg.SL_STAGE 0 0 + 1 ∧
         gathered.stageDone (y.rd Reg.SL_STAGE 0 0) = true ∧ gathered.kept = []) ∧
      ((slotIn gathering 1).collGo 0 0).rd Reg.SL_STATE 0 0 ≠ 3 ∧ s.cirState 7 ≠ 5 ∧ s.cirState 7 ≠ 6 ∧ (endpoint 5 1 0 0).isEndpoint 7 = true ∧
      (endpoint 5 1 0 0).cirState 7 = 5 := by decide +kernel

/-! ### Host ports -/

/-- Port 0 up, session 4 of it open with scope 0, peer SEQ 20, context 3 ASSIGNED, region 0 of stack 0 its own. -/
def hosted : State :=
  let s := withRegs mapped [(Reg.HST_EN, 0, 0, 1), (Reg.HST_UP_A, 0, 0, 1), (Reg.HST_UDP_PORT, 0, 0, 47808), (Reg.HST_S_OPEN, 0, 4, 1),
    (Reg.HST_S_SCOPE, 0, 4, 7), (Reg.HST_S_UDP, 0, 4, 700), (Reg.HST_S_ADDR, 0, 4, 99), (Reg.HST_S_RXACK, 0, 4, 20), (Reg.HST_S_TXSEQ, 0, 4, 80),
    (Reg.LR_VALID, 0, 0, 1), (Reg.LR_SIZE, 0, 0, 2), (Reg.LR_CTX, 0, 0, 3), (Reg.LR_WRITE, 0, 0, 1), (Reg.CTX_CSER_NEXT, 3, 0, 11)]
  { s with sess := SMap.put [] 4 { firstRx := 1, firstTx := 1, peerAck := 80, window := 8, outq := [], v6 := true, mac := 5, vlan := 0, ip := 99,
                                   unacked := [], inbox := [], ackDue := false } }
/-- A message of a type from that session's peer, with its BCRC. -/
def message (typ argA argB : Nat) (payload : List Byte) : Msg :=
  let m : Msg := { port := 0, sub := 0, v6 := true, addr := 99, udp := 700, mac := 6, vlan := 0, dmac := hosted.macOf 0
                   dip := linkLocal (hosted.macOf 0), dport := 47808, ver := 1, typ := typ, session := 4, len := payload.length, seq := 20, ack := 80
                   sack := 0, window := 8, resv := 0, argA := argA, argB := argB, bcrc := 0, payload := payload }
  { m with bcrc := m.crc }
/-- A first message from a peer of another address. -/
def opening : Msg := let m := { message 1 (1 + 16 * 7) 0 [] with addr := 98 }; { m with bcrc := m.crc }

theorem hyps_SessionsOpen : let s := hosted
    s.ready = true ∧ opening.wellFormed = true ∧ s.msgHeard opening = true ∧ s.msgValid opening = true ∧ opening.opens = true ∧
      s.sessOf opening = none ∧ s.noImage = false ∧ s.allows 0 true 98 7 = true ∧ (List.range 32).find? (fun n => !s.sessOpen 0 n) = some 0 ∧
      (withRegs s [(Reg.HST_ALLOW_EN, 0, 0, 1)]).allows 0 true 98 7 = false ∧
      (List.range 32).find? (fun n => !(withRegs s ((List.range 32).map (fun n => (Reg.HST_S_OPEN, 0, n, 1)))).sessOpen 0 n) = none := by decide +kernel

theorem hyps_InvalidMessages : let s := hosted
    s.msgHeard { message 2 3 0 [] with dport := 1 } = false ∧ s.msgValid (message 5 0 0 []) = false ∧ (message 5 0 0 []).wellFormed = true ∧
      s.msgHeard (message 5 0 0 []) = true ∧ (message 5 0 0 []).crc = (message 5 0 0 []).bcrc ∧
      ({ message 2 3 0 [] with bcrc := 1 } : Msg).crc ≠ 1 ∧ s.msgHeard { message 2 3 0 [] with bcrc := 1 } = true := by decide +kernel

/-- A descriptor of a transfer into Larder of context 3. -/
def descriptor : List Byte := le4 ([16 * 3, 1024, 0, 4] ++ List.replicate 12 0)
def xferIn (engine : Option Nat) (served : List (Nat × Nat)) : Xfer :=
  { toXfer (message 4 (2 ^ 16 + 9) 0 descriptor) 4 with write := true, engine := engine, served := served }
def carrying (x : Xfer) : State := { hosted with xfers := [x] }

theorem hyps_SessionsEnd : let s := hosted
    let due := { s with sess := s.sess.map (fun (q : Nat × Session) => (q.1, { q.2 with ackDue := true, unacked := [⟨70, .regResp 1 [], 16, 0⟩, ⟨71, .regResp 1 [], 2, 0⟩] })) }
    s.ready = true ∧ (message 1 3 0 []).skind = 3 ∧ s.xfers = [] ∧ (∀ c < 64, ¬ (s.rd Reg.CTX_CPL_SESS c = 4 ∧ s.rd Reg.CTX_CPL_PORT c = 0)) ∧
      (∀ u < 5, s.owns (.session 0 4) u = false) ∧ s.sessOpen 0 4 = true ∧ s.sessOpen 0 5 = false ∧ s.session 0 5 = none ∧
      due.ready = true ∧ (due.session 0 4).any (fun x => x.ackDue && (x.unacked.find? (fun v => v.seq == 70)).any (fun u => decide (16 ≤ u.sends))
        && (x.unacked.find? (fun v => v.seq == 71)).any (fun u => decide (u.sends < 16))) = true := by decide +kernel
theorem hyps_Heard : Heard hosted (message 1 3 0 []) 1 ((hosted.session 0 4).getD ⟨0, 0, 0, 0, [], true, 0, 0, 0, [], [], false⟩) ∧
    Heard hosted { message 7 0 0 [] with seq := 0, bcrc := ({ message 7 0 0 [] with seq := 0 } : Msg).crc } 7
      ((hosted.session 0 4).getD ⟨0, 0, 0, 0, [], true, 0, 0, 0, [], [], false⟩) := by
  unfold Heard; decide +kernel

theorem hyps_MessagesInOrder : let s := hosted
    let x := (s.session 0 4).getD ⟨0, 0, 0, 0, [], true, 0, 0, 0, [], [], false⟩
    let cmd := message 2 3 11 (List.replicate 128 0)
    let reg := message 3 0 0 (le4 [0x303 * 4096 + 0x108 + 2 ^ 25, 6, 0, 0])
    let desc := message 4 (2 ^ 16 + 9) 0 descriptor
    let read := message 4 (3 * 2 ^ 16 + 9) 0 descriptor
    Arrives s cmd 2 x ∧ Arrives s reg 3 x ∧ Arrives s desc 4 x ∧ Arrives s read 4 x := by
  unfold Arrives Heard; decide +kernel
theorem hyps_MessagesInOrderState : let s := hosted
    let reg := message 3 0 0 (le4 [0x303 * 4096 + 0x108 + 2 ^ 25, 6, 0, 0])
    let desc := message 4 (2 ^ 16 + 9) 0 descriptor
    s.ready = true ∧ s.sessMayCtx 0 4 3 = true ∧ s.cstate 3 = 1 ∧ s.rd Reg.CTX_CSER_NEXT 3 = 11 ∧ s.qfree 3 ≠ 0 ∧
      reg.regOps = [((0x300 + 3) * 4096 + 0x108, 2, 6)] ∧ s.mayWrite (.session 0 4) (0x300 + 3) = true ∧ s.rd Reg.CTX_EXEC_STEP_BUSY 3 = 0 ∧
      (s.rd Reg.HST_S_TXSEQ 0 4 + 2 ^ 32 - 80) % 2 ^ 32 ≤ reg.window ∧ s.noImage = false ∧ s.descOk desc (toXfer desc 4) = true ∧
      (toXfer desc 4).ctx = 3 ∧ s.xfer 0 4 9 = none ∧ s.xferInRange (toXfer desc 4) = true ∧ desc.bkind = 1 ∧
      (message 4 (3 * 2 ^ 16 + 9) 0 descriptor).bkind = 3 ∧ s.isSealed (partOfCtx 3) = false := by decide +kernel

theorem hyps_WriteDataIsPlaced : let data := message 4 (2 * 2 ^ 16 + 9) 0 [1, 2, 3, 4]
    let s := carrying (xferIn (some 2) [])
    let y := xferIn (some 2) []
    Arrives s data 4 ((s.session 0 4).getD ⟨0, 0, 0, 0, [], true, 0, 0, 0, [], [], false⟩) ∧ data.bkind = 2 ∧ s.ready = true ∧
      s.xfer 0 4 9 = some y ∧ y.write = true ∧ y.tgt = 0 ∧ y.tagged = false ∧ y.isSealed = false ∧ y.held = [] ∧ s.xferHeld y = false ∧ s.lerr = [] ∧
      0 + data.payload.length ≤ y.len ∧ s.bridgeDown (dieOfStack (stackOf y.addr)) 4 = false ∧ s.larderCheck y.ctx 1 80 y.addr 4 = none ∧
      (carrying (xferIn none [])).xfer 0 4 9 = some (xferIn none []) ∧ hosted.xfer 0 4 9 = none := by
  unfold Arrives Heard; decide +kernel

theorem hyps_TransfersRun : let s := carrying (xferIn none [])
    let done := xferIn (some 2) [(0, 4)]
    s.ready = true ∧ (List.range 8).find? (fun e => !(s.xfers.any (fun x => x.port == 0 && x.engine == some e)) && !s.xeFenced 0 e
        && (s.recLane (hstPage 0) e).isNone) = some 0 ∧ s.rd Reg.PAGE_DRAIN (hstPage 0) ≠ 1 ∧ s.powered (hstPage 0) = true ∧
      s.xfers.find? (fun x => x.port == 0 && x.engine.isNone) = some (xferIn none []) ∧ (xferIn none []).held = [] ∧ (xferIn none []).placed = [] ∧
      (carrying done).xfer 0 4 9 = some done ∧ covers done.served 0 done.len (done.served.length + 1) = true ∧
      covers [] 0 done.len 1 = false ∧ s.rdataOpen done = false ∧ s.present 2 = true ∧
      (List.range 8).find? (fun e => !(((List.range 8).map (fun e => xferIn (some e) [])).any (fun x => x.port == 0 && x.engine == some e))) = none := by
  decide +kernel

theorem hyps_HostPorts : let s := hosted
    let dark : State := { s with hdark := SMap.put [] 0 2 }
    s.ready = true ∧ s.rd Reg.HST_EN 0 = 1 ∧ s.domainOn 74 = true ∧ SMap.find s.hdark 0 = none ∧ s.boot.refHeld = true ∧ s.rd Reg.HST_EN 1 ≠ 1 ∧
      s.rd Reg.HST_UP_A 0 = 1 ∧ s.rd Reg.HST_UP_B 0 ≠ 1 ∧ s.rd Reg.HST_UP_A 1 ≠ 1 ∧ s.mayWrite .soholt (hstPage 0) = true ∧
      s.rd Reg.HST_SPLIT 1 = 0 ∧ (∀ n < 32, s.sessOpen 1 n = false) ∧ s.powered (hstPage 0) = true ∧ 160 ≤ toSigned 10 200 ∧
      toSigned 10 100 < 160 ∧ SMap.find dark.hdark 0 = some 2 ∧ 175 ≤ toSigned 10 200 ∧ s.hstUp 0 0 = true ∧
      s.answersAt 0 true (linkLocal (s.macOf 0)) = true ∧ Ask.wellFormed ⟨1, linkLocal (s.macOf 0), 5, 0, 99⟩ = true ∧ s.answersAt 0 true 5 = false := by decide +kernel

/-! ### Hearth -/

/-- Only the cap controller holds the place in force. -/
def capped (p : Nat) (regs : List (Field × Nat × Nat × Nat)) : State :=
  withRegs { live with hearth := { live.hearth with place := p, capPlace := p } } regs
theorem hyps_CapController : let s := capped 7 [(Reg.PWR_MODE, 0, 0, 1), (Reg.PWR_PACE_FOLLOW, 0, 0, 0), (Reg.PWR_P_EST, 0, 0, 9000)]
    s.ready = true ∧ OnlyCap s ∧ s.hearth.thermal = 0 ∧ s.hearth.peak = 0 ∧ s.rd Reg.PWR_MODE ≠ 0 ∧ s.rd Reg.PWR_PACE_FOLLOW = 0 ∧
      s.hearth.overRun < 99 := by
  unfold OnlyCap; decide +kernel

theorem hyps_PeakAndDroop : let s := capped 7 [(Reg.CLK_DROOP_LIM, 0, 0, 3)]
    let past : State := { s with hearth := { s.hearth with droops := SMap.put [] 1 (List.replicate 12 s.timeUs) } }
    s.ready = true ∧ OnlyCap s ∧ s.occurClass 4 2 ≠ 2 ∧ s.occurClass 4 1 ≠ 2 ∧ s.hearth.storm = false ∧
      ¬ s.rd Reg.CLK_DROOP_LIM < (s.droopsIn 1).length + 1 ∧ past.rd Reg.CLK_DROOP_LIM < (past.droopsIn 1).length + 1 ∧
      s.rd Reg.PWR_GAIN ≠ 12288 ∧ s.rd Reg.PWR_GAIN ≠ 20480 ∧
      (capped 7 [(Reg.PWR_GAIN, 0, 0, 12288), (Reg.PWR_CLAMPED, 0, 0, 1)]).rd Reg.PWR_CLAMPED = 1 := by
  unfold OnlyCap; decide +kernel

/-- Readings of one temperature, in quarters of a degree, of every sensor. -/
def temps (t : Nat) : List Nat := List.replicate 106 t
theorem hyps_TemperatureLimits : let s := capped 7 []
    let hot := fun (t : Nat) => (s.storeTemps (temps t)).hottest.any (fun (y : Int × Nat) => decide (380 ≤ y.1))
    s.ready = true ∧ OnlyCap s ∧ s.hearth.peak = 0 ∧ s.rd Reg.THM_THROTTLE ≠ 1 ∧ s.rd Reg.THM_SD_REQ ≠ 1 ∧ s.occurClass 6 0 ≠ 2 ∧ s.occurClass 6 1 ≠ 2 ∧
      s.hearth.sdHot = false ∧ hot 384 = true ∧ hot 200 = false ∧ (s.storeTemps (temps 200)).opticalAt 320 = false ∧
      (s.storeTemps (temps 200)).singleHot = false ∧
      (s.storeTemps (temps 424)).hottest.all (fun (y : Int × Nat) => decide (y.1 < 420)) = false ∧
      (s.storeTemps (temps 200)).hottest.all (fun (y : Int × Nat) => decide (y.1 < 400)) = true ∧
      (withRegs s [(Reg.THM_THROTTLE, 0, 0, 1), (Reg.THM_SD_REQ, 0, 0, 1)]).rd Reg.THM_SD_REQ = 1 := by
  unfold OnlyCap; decide +kernel

theorem hyps_SensorsFailAndReturn : let s := withRegs live [(Reg.THM_TA, 0, 3, 200), (Reg.THM_TB, 0, 3, 100), (Reg.THM_TA, 0, 4, 600), (Reg.THM_TA, 0, 6, 100)]
    s.ready = true ∧ 16 < (s.sensor 6 - s.sensor 7).natAbs ∧ (s.sensor 4 - s.sensor 5).natAbs ≤ 16 ∧ s.rd Reg.THM_DISAGREE 0 3 ≠ 1 ∧
      (withRegs s [(Reg.THM_DISAGREE, 0, 3, 1)]).rd Reg.THM_DISAGREE 0 3 = 1 ∧ s.occurClass 6 3 ≠ 2 ∧ s.occurClass 6 4 ≠ 2 ∧
      s.implausible 8 0 = true ∧ s.implausible 12 0 = false ∧ s.sensorFailed 8 = false ∧ s.sensorFailed (twinOf 8) = false ∧
      (withRegs s [(Reg.THM_FAIL_A, 0, 4, 1)]).sensorFailed 8 = true ∧ s.mayWrite .soholt 6 = true := by decide +kernel

theorem hyps_CoolantLimits : let s := live
    let tray : State := { live with soh := { live.soh with daValid := true, trayPend := [(0x10, 100), (0x11, 140), (0x12, 60)] } }
    let warm := withRegs live [(Reg.THM_T_IN, 0, 0, 100), (Reg.THM_T_OUT, 0, 0, 140), (Reg.THM_COOL_CP, 0, 0, 4), (Reg.THM_FLOW, 0, 0, 9)]
    s.ready = true ∧ s.i3cUp = false ∧ tray.i3cUp = true ∧ s.hearth.outHist = [] ∧ s.rd Reg.PWR_HB_LOST ≠ 1 ∧ s.occurClass 4 4 ≠ 2 ∧
      s.impliedFlow = none ∧ warm.impliedFlow = some 0 ∧ 13 * 0 < 10 * warm.rd Reg.THM_FLOW ∧ warm.rd Reg.THM_IMPLAUS ≠ 1 ∧ s.occurClass 6 6 ≠ 2 ∧
      (let y := withRegs live [(Reg.THM_SUDDEN, 0, 0, 1), (Reg.THM_NOM_FLOW, 0, 0, 100), (Reg.THM_FLOW_USED, 0, 0, 50)]
       y.rd Reg.THM_SUDDEN = 1 ∧ 40 * y.rd Reg.THM_NOM_FLOW ≤ 100 * y.rd Reg.THM_FLOW_USED ∧ y.rd Reg.THM_LEAK = 0 ∧
         stableOutlet y.hearth.outHist = true) := by decide +kernel
theorem hyps_CoolantFlow : let y := (((live.wr0 Reg.THM_T_IN 100).wr0 Reg.THM_T_OUT 140).wr0 Reg.THM_FLOW 60).wr0 Reg.THM_LEAK 0
    live.rd Reg.THM_NOM_FLOW ≤ 5 * y.impliedFlow.elim (y.rd Reg.THM_FLOW) (fun q => min (y.rd Reg.THM_FLOW) q) ∨
      (withRegs y [(Reg.THM_NOM_FLOW, 0, 0, 0)]).rd Reg.THM_NOM_FLOW = 0 := by decide +kernel

/-! ### Soholt -/

/-- Soholt without open transactions or verification; its flash with a component and dumps; a capture waits. -/
def soholt : State := { live with
  flash := { live.flash with active := [(1, ⟨3, 2, 5, 7, [1]⟩)] }
  soh := { live.soh with capture := some ⟨3, false, 0, []⟩ } }
theorem hyps_SohFree : SohFree live ∧ live.ready = true ∧ live.occurClass 8 0 ≠ 2 ∧ live.occurClass 8 1 ≠ 2 ∧ live.occurClass 8 2 ≠ 2 ∧
    live.occurClass 8 3 ≠ 2 ∧ live.occurClass 9 0 ≠ 2 ∧ live.occurClass 9 1 ≠ 2 ∧ live.rd Reg.SOH_RESTARTING ≠ 1 ∧ live.soh.heldLost = 0 ∧
    (withRegs live [(Reg.SOH_RESTARTING, 0, 0, 1)]).rd Reg.SOH_RESTARTING = 1 ∧ live.soh.selfCheck = false ∧
    SohFree { live with soh := { live.soh with selfCheck := true } } := by
  unfold SohFree; decide +kernel

theorem hyps_LogsDumpsAndStores : soholt.ready = true ∧ soholt.mayWrite .soholt 8 = true ∧ soholt.soh.exporting = none ∧
    ({ soholt with soh := { soholt.soh with exporting := some [5] } } : State).soh.exporting ≠ none ∧ soholt.soh.capture.isSome = true ∧
    live.soh.capture = none ∧ oldestUnpinned soholt.flash.dumps = some 0 ∧ oldestUnpinned [⟨true, true, false, 0, 0, 0, 0, 0, []⟩] = none := by
  decide +kernel

/-- A staged image of a component of one byte, and the states of its update. -/
def updBody : List Byte := [9]
def updImage : List Byte := le4 [0x474D4946, 1 + 65536 * 3, 7, 1] ++ List.replicate 16 0 ++ sha256 updBody ++ List.replicate 64 0 ++ updBody
def updating (st missing : Nat) (image : List Byte) : State :=
  { withRegs soholt [(Reg.UPD_STATE, 0, 0, st), (Reg.UPD_MISSING, 0, 0, missing), (Reg.UPD_LEN, 0, 0, 129 + imageSigLen)] with staging := Memory.writeBytes [] 0 image }
theorem hyps_UpdatesAreVerified : soholt.mayWrite .soholt 9 = true ∧ (updating 1 0 []).ready = true ∧ (updating 2 0 []).rd Reg.UPD_STATE = 2 ∧
    (updating 1 1 []).rd Reg.UPD_MISSING ≠ 0 ∧ soholt.rd Reg.UPD_STATE ≠ 2 ∧ soholt.flash.minSvn < 1 ∧
    (∀ x ∈ soholt.flash.active ++ soholt.flash.pend, 1 ≤ x.2.svn) ∧ ¬ (∀ x ∈ soholt.flash.active ++ soholt.flash.pend, 9 ≤ x.2.svn) := by
  decide +kernel
theorem hyps_UpdatesAreVerifiedCode : imageCode (updating 2 0 updImage) true true 0 = 0 ∧ imageCode (updating 2 0 []) true true 0 ≠ 0 ∧
    imageCode (updating 2 0 updImage) true true 1 = 0 := by decide +kernel

/-- Soholt answers on I3C, with no record, or one queued and one due. -/
def onTray (l due : List (List Nat)) : State := { live with soh := { live.soh with daValid := true, compat := l, compatDue := due } }
theorem hyps_TrayInterface : (onTray [] []).ready = true ∧ (onTray [] []).i3cUp = true ∧ live.i3cUp = false ∧
    (onTray [] []).rd Reg.SOH_RESTARTING ≠ 1 ∧ (onTray [] []).pins.vaux33Good = true ∧ (onTray [[1, 2]] []).soh.compat = (1 :: [2]) :: [] ∧
    (onTray [[1]] [[3, 4]]).soh.compatDue = [3, 4] :: [] ∧ (onTray [] []).staticAddr < 128 ∧ (onTray [] []).soh.daValid = true := by decide +kernel

/-! ### Attestation and seals -/

/-- SEAL_PART 2 is asked for, with a length and what is gathered. -/
def sealing (len : Nat) (x : Option Sealing) : State :=
  { withRegs live [(Reg.SEC_SEAL_PART, 0, 0, 2), (Reg.SEC_SEAL_LEN, 0, 0, len)] with sec := { live.sec with sealing := x } }
theorem hyps_SealsAreTaken : (sealing 64 none).ready = true ∧ (sealing 64 none).occurClass 7 0 ≠ 2 ∧ (sealing 64 none).mayWrite .soholt 7 = true ∧
    (sealing 64 none).rd Reg.SEC_SEAL_LEN = 64 ∧ (sealing 0 none).rd Reg.SEC_SEAL_LEN = 0 ∧ (sealing 64 none).rd Reg.SEC_SEAL_PART = 2 ∧
    (sealing 64 none).shadowMapTouches 2 = false ∧ ({ sealing 64 none with shadow := [(1024 + 0x180 / 4, (4, 5))] } : State).shadowMapTouches 2 = true ∧
    (sealing 64 (some ⟨2, [1], false⟩)).sec.sealing = some ⟨2, [1], false⟩ ∧ (sealing 64 none).partsOpen = false ∧
    (sealing 64 (some ⟨2, [1], false⟩)).partsOpen = true ∧ manifestCode live 2 [1] true [] ≠ 0 := by decide +kernel

/-- The entry's clear part and tag of a manifest for this device alone, and the manifest. -/
def manifestTag : List Byte := gcmTag (List.replicate 32 1) (List.replicate 12 0) (List.replicate 16 0 ++ leBytes 16 live.flash.deviceId) (List.replicate 32 0)
def manifest : List Byte :=
  (le4 [0x4E414D53, 1, 0, 1, 1] ++ List.replicate 108 0) ++ (leBytes 16 live.flash.deviceId ++ List.replicate 1600 0 ++ manifestTag)
    ++ List.replicate 17136 0
/-- The life cycle in which seals are taken. -/
def inService : State := { live with flash := { live.flash with lifecycle := 1 } }
theorem manifest_length : manifest.length = 18896 := by
  have h : manifestTag.length = 16 := by decide +kernel
  have h' : (leBytes 16 live.flash.deviceId).length = 16 := by decide +kernel
  have h'' : (le4 [0x4E414D53, 1, 0, 1, 1]).length = 20 := by decide +kernel
  simp only [manifest, List.length_append, List.length_replicate, h, h', h'']
theorem manifest_ok : manifestOk manifest = true := by
  simp only [manifestOk, manifest_length]; decide +kernel
theorem hyps_SealTaken : manifestCode inService 2 manifest true (List.replicate 32 1) = 0 := by
  simp only [manifestCode, manifest_ok]; decide +kernel

theorem hyps_UnsealsAndLifecycle : live.ready = true ∧ live.mayWrite .soholt 7 = true ∧ live.sec.sealing = none ∧ mapped.nOpen (partOfCtx 3) ≠ 0 ∧
    live.nOpen 0 = 0 ∧ live.sec.unsealing = [] ∧ live.occurClass 7 3 ≠ 2 ∧ inService.flash.lifecycle = 1 ∧
    (withRegs mapped [(Reg.SEC_SEAL_PART, 0, 0, partOfCtx 3)]).rd Reg.SEC_SEAL_PART = partOfCtx 3 ∧
    ({ live with sec := { live.sec with unsealing := [2] } } : State).sec.unsealing = 2 :: [] := by decide +kernel

theorem hyps_ReportsAreSigned : let s := withRegs live [(Reg.SEC_ATT_SCOPE, 0, 0, 7), (Reg.SEC_ATT_DST, 0, 0, 0x3000000 / 64)]
    s.ready = true ∧ s.mayWrite .soholt 7 = true ∧ s.occurClass 7 2 ≠ 2 ∧ s.flash.lifecycle ≠ 3 ∧
      (attArea (s.rd Reg.SEC_ATT_SCOPE)).1 ≤ 64 * s.rd Reg.SEC_ATT_DST ∧
      64 * s.rd Reg.SEC_ATT_DST < (attArea (s.rd Reg.SEC_ATT_SCOPE)).1 + (attArea (s.rd Reg.SEC_ATT_SCOPE)).2 ∧ s.agentPart .soholt = none ∧
      s.sec.report = none ∧ 64 * live.rd Reg.SEC_ATT_DST < (attArea (live.rd Reg.SEC_ATT_SCOPE)).1 := by decide +kernel

/-! ### Faults, fences and recovery -/

/-- A unit is named for FENCE_GO. -/
def naming (page sub : Nat) : State := withRegs mapped [(Reg.FLT_FENCE_PAGE, 0, 0, page), (Reg.FLT_FENCE_SUB, 0, 0, sub)]
/-- FT_LATCH is set and the package halted. -/
def latched : State := withRegs mapped [(Reg.FLT_FT_LATCH, 0, 0, 1), (Reg.FLT_HALTED, 0, 0, 1)]
theorem hyps_LatchAndFences : (naming 0x61 4).ready = true ∧ (naming 0x61 4).mayWrite .soholt 2 = true ∧ (naming 0x61 4).rd Reg.FLT_FENCE_SUB = 4 ∧
    (naming 0x61 4).rd Reg.FLT_FENCE_PAGE = 0x60 + 1 ∧ (naming 0x61 4).isFenced 0x61 4 = false ∧ (naming 0x61 4).soh.capture = none ∧
    fenceable 2 0 = false ∧ (naming 0x103 0).rd Reg.FLT_FENCE_PAGE = 0x100 + 3 ∧ (naming 0x103 0).isFenced 0x103 0 = false ∧
    (naming 0x103 0).ctxsOnTile 3 = [] ∧ (naming 0x103 0).logicalOf 3 = some 3 ∧ latched.rd Reg.FLT_FT_LATCH = 1 ∧
    latched.ready = true ∧ latched.mayWrite .soholt 2 = true := by decide +kernel
theorem hyps_LatchHeld : latched.pagesOfClass 2 = 0 ∧ (withRegs latched [(Reg.FLT_STAT, 5, 0, 2 ^ 32 - 1)]).pagesOfClass 2 ≠ 0 := by
  decide +kernel

/-- Stage 3 on tile 2 is pending since before its window; lane `l` is in a rung and phase. -/
def hanging : State := let s := withRegs (running 0) [(Reg.HNG_HANG_EN, 0, 0, 1)]; { s with watch := [(8 * tilePage 2, 1)], timeUs := 10 ^ 9 }
def atRung (l rung phase page : Nat) : State :=
  withRegs mapped [(Reg.HNG_RUNG, 0, l, rung), (Reg.HNG_PHASE, 0, l, phase), (Reg.HNG_ENGINE, 0, l, page), (Reg.HNG_TURN_VALID, 0, l, 1), (Reg.HNG_LADDER_MAX, 0, 0, 4)]
theorem hyps_HangsAndTurns : hanging.ready = true ∧ hanging.rd Reg.HNG_HANG_EN ≠ 0 ∧ hanging.rd Reg.FLT_HALTED ≠ 1 ∧
    SMap.get hanging.timeUs hanging.watch (8 * tilePage 2) + 1000 * hanging.rd Reg.PROG_WIN (tilePage 2) ≤ hanging.timeUs ∧
    hanging.laneOpen 0 = false ∧ hanging.laneDrains 0 = false ∧ (atRung 0 1 0 (tilePage 2)).rd Reg.HNG_RUNG 0 0 = 1 ∧
    (atRung 0 1 0 (tilePage 2)).rd Reg.HNG_TURN_VALID 0 0 ≠ 0 ∧ Lane.empty.passing = false ∧
    (atRung 0 1 0 (tilePage 2)).progCount (tilePage 2) 0 = Lane.empty.prog := by decide +kernel
theorem hyps_HangPending : (((List.range 5).flatMap (fun l => (hanging.laneEngines l).map (fun e => (l, e)))).filter
      (fun e => !(hanging.pendingFor e.2.1 e.2.2).isEmpty && !hanging.isFenced e.2.1 e.2.2)) = [(0, (tilePage 2, 0))] ∧
    (((List.range 5).flatMap (fun l => (live.laneEngines l).map (fun e => (l, e)))).filter
      (fun e => !(live.pendingFor e.2.1 e.2.2).isEmpty && !live.isFenced e.2.1 e.2.2)) = [] := by decide +kernel

theorem hyps_RungsOfTheLadder : (atRung 0 2 3 (tilePage 2)).ready = true ∧ (atRung 0 2 3 (tilePage 2)).rd Reg.HNG_RUNG 0 0 = 2 ∧
    (atRung 0 2 3 (tilePage 2)).rd Reg.HNG_PHASE 0 0 = 3 ∧ Block.ofPage (tilePage 2) = some .tile ∧
    3 ≤ (atRung 0 2 3 (tilePage 2)).rd Reg.HNG_LADDER_MAX ∧ (withRegs (atRung 0 2 3 (tilePage 2)) [(Reg.HNG_LADDER_MAX, 0, 0, 2)]).rd Reg.HNG_LADDER_MAX < 3 ∧
    (atRung 1 3 4 (tilePage 2)).rd Reg.HNG_RUNG 0 1 = 3 ∧ (atRung 1 3 4 (tilePage 2)).rd Reg.HNG_PHASE 0 1 = 4 ∧
    (atRung 1 3 4 (tilePage 2)).ready = true ∧ live.rd Reg.HNG_RUNG 0 0 = 0 := by decide +kernel

theorem hyps_RecoveryOnRequest : mapped.ready = true ∧ mapped.mayWrite .soholt 3 = true ∧ mapped.ctxAssigned 3 = true ∧ mapped.cstate 3 ≠ 2 ∧
    mapped.agentPart .soholt = none ∧ mapped.laneOpen (partOfCtx 3) = false ∧ (atRung 0 2 3 (tilePage 2)).laneOpen 0 = true ∧ mapped.cstate 4 = 0 ∧
    mapped.ctxAssigned 4 = true ∧ mapped.mayWrite .soholt 0x102 = true ∧ (Block.ofPage 0x102).any Block.isEngine = true ∧ Block.ofPage 0x102 ≠ some .hst ∧
    Block.ofPage 0x010 = some .hst ∧ (atRung 0 2 3 (tilePage 2)).rd Reg.HNG_PHASE 0 0 ≠ 5 ∧ mapped.soh.capture = none ∧ soholt.soh.capture ≠ none ∧
    mapped.occurClass 8 2 ≠ 2 ∧ mapped.partOfTile 2 = 0 := by decide +kernel

/-! ### The queue, time, register accesses and effects -/

theorem hyps_Steps : ({ live with pending := [.sohInService] } : State).pending = [.sohInService] ∧ live.pending = [] ∧ live.boot.por = false ∧
    State.reset.boot.por = true ∧ FromLands .sohInService = false ∧ Instr.wellFormed (.commit (.session 2 0)) = false ∧ NothingWaits live := by
  refine ⟨by decide, by decide, by decide, by decide, by decide, by decide, by decide, by decide, by decide, by decide, by decide, by decide,
    by decide, by decide, ?_, by decide +kernel⟩
  intro d e
  have h : live.posts = [] := by decide
  simp [State.onBridge, h]
theorem hyps_HaltsOnLatch : State.reset.HaltsOnLatch := by unfold State.HaltsOnLatch; decide +kernel
theorem hyps_ProgressWindow : live.mayWrite .soholt (tilePage 2) = true ∧ (Block.ofPage (tilePage 2)).any Block.isEngine = true := by decide +kernel
theorem hyps_Pages : ¬ MappedPage 0xD ∧ live.reaches .soholt 0xD true = true ∧ (withRegs live [(Reg.PWR_PD_ON, 0, 0, 0)]).powered (tilePage 2) = false ∧
    (withRegs live [(Reg.PWR_PD_ON, 0, 0, 0)]).ready = true := by
  unfold MappedPage; decide +kernel
theorem hyps_SealedPressFlags : let s := withRegs live [(Reg.CFG_PART_SEALED, 0, live.partOfTile 2, 1)]
    s.isSealed (s.partOfTile 2) = true ∧ s.latches = [] := by decide +kernel
theorem hyps_CommandFaults : ∃ e, catEntry (hstPage 0) 5 = some e ∧ e.org = 2 := by
  refine ⟨_, rfl, ?_⟩; decide
theorem hyps_AccessesAreConfined : let s := withRegs hosted [(Reg.HST_S_SCOPE, 0, 4, 1)]
    Agent.wellFormed (.session 0 4) = true ∧ s.reaches (.session 0 4) (0x300 + 3) true = false ∧ s.agentLive (.session 0 4) = true ∧
      s.rd Reg.HST_S_SCOPE 0 4 < 4 ∧ s.agentLive (.session 0 5) = false ∧ s.reaches (.session 0 5) (0x300 + 3) true = false := by decide +kernel
theorem hyps_Effects : live.ready = true ∧ live.mayWrite .soholt (Block.cfg.base + 0) = true ∧ 0 < Block.cfg.pages ∧
    Instr.wellFormed (.begin .soholt 7) = true ∧ Instr.wellFormed (.stageOpen 3) = true := by decide +kernel

/-! ### Small effects; the expected values are the spec's -/

/-- The worked example of one MXFP8 block, Table 3-15: a code of each operand and its value. -/
theorem test_e4m3_codes : (Fmt.decode (live.fmt 0 1) 0x44).cmp (.fin false 3 0) = some .eq ∧ (Fmt.decode (live.fmt 0 1) 0x05).cmp (.fin false 5 (-9)) = some .eq ∧
    (Fmt.decode (live.fmt 0 1) 0x7E).cmp (.fin false 448 0) = some .eq ∧ (Fmt.decode (live.fmt 0 1) 0xD5).cmp (.fin true 13 0) = some .eq := by decide
/-- Its drained result −1,127 · 2^−8 in FP32 and in BF16. -/
theorem test_drained_codes : toF32 (.fin true 1127 (-8)) = 0xC08CE000 ∧ toBf (.fin true 1127 (-8)) = 0xC08D := by decide +kernel
/-- The worked example of one SIGNMOM element: master and moment as FP32 codes. -/
theorem test_signmom_codes : toF32 (.fin false 196669 (-18)) = 0x3F400F40 ∧ toF32 (.fin true 59 (-10)) = 0xBD6C0000 := by decide +kernel
/-- FIPS 180-4's digest of "abc" begins BA7816BF. -/
theorem test_sha256_abc : (sha256 [0x61, 0x62, 0x63]).take 4 = [0xBA, 0x78, 0x16, 0xBF] := by decide +kernel
/-- R335: ELAPSED counts whole milliseconds; TIME every µs. -/
theorem test_elapsed : (match step { live with timeUs := 5000999 } with
    | .next t => t.timeUs == 5001000 && t.rd Reg.GLB_ELAPSED == 1
    | _ => false) = true := by decide +kernel
/-- R5: PROG_WIN takes 1 to 10,000 and discards 0. -/
theorem test_prog_win : (match exec (.registerWrite .soholt (0x102 * 4096 + 0x28) 0) live, exec (.registerWrite .soholt (0x102 * 4096 + 0x28) 7) live with
    | .next s, .next t => s.rd Reg.PROG_WIN 0x102 == 100 && t.rd Reg.PROG_WIN 0x102 == 7
    | _, _ => false) = true := by decide +kernel
/-- R393: in power-on reset a command opens nothing. -/
theorem test_held_in_reset : (match exec (.begin .soholt 7) State.reset with
    | .next t => t.rd Reg.CFG_TXN_STATE 0 4 == 0
    | _ => false) = true := by decide +kernel
/-- R206: BEGIN of the package scope opens transaction 4 for Soholt. -/
theorem test_begin : (match exec (.begin .soholt 7) live with
    | .next t => t.rd Reg.CFG_TXN_STATE 0 4 == 1 && t.rd Reg.CFG_TXN_OWNER_SOH 0 4 == 1
    | _ => false) = true := by decide +kernel
/-- R410: COMMIT takes the front of the queue and leaves its rest. -/
theorem test_front : (match step { live with pending := [.commit .soholt, .sohInService] } with
    | .next t => t.pending == [.sohInService]
    | _ => false) = true := by decide +kernel
theorem test_no_words : decodeTableWord 64 5 = none ∧ State.reset.withFetchWord 64 5 = State.reset := by decide +kernel

end Sys2Proof.Tests
end

section
namespace Sys2Proof.Machine

open Sys2Proof

/-! PROOFS. Slot M of the Finisher: how a bundle that holds slot M alone is executed, and what its loads, stores and waits do. -/

/-! ### Bytes of a memory -/

@[simp] theorem leBytes_length (n v : Nat) : (leBytes n v).length = n := by
  induction n generalizing v with
  | zero => rfl
  | succ n ih => simp [leBytes, ih]

/-- The bytes of a number are its digits to base 256. -/
theorem leBytes_getElem (n v i : Nat) (h : i < (leBytes n v).length) : (leBytes n v)[i] = BitVec.ofNat 8 (v / 256 ^ i) := by
  induction n generalizing v i with
  | zero => simp at h
  | succ n ih =>
    cases i with
    | zero => simp [leBytes]
    | succ i => simp only [leBytes, List.getElem_cons_succ, ih, Nat.div_div_eq_div_mul, Nat.pow_succ']

/-- A list of bytes written reads back. -/
theorem Memory.read_writeBytes_in (l : List Byte) (m : Memory) (a i : Nat) (h : i < l.length) :
    (m.writeBytes a l).read (a + i) = l[i] := by
  induction l generalizing m a i with
  | nil => simp at h
  | cons b r ih =>
    cases i with
    | zero => rw [Memory.writeBytes, Memory.read_writeBytes_out _ _ (by omega)]; simp
    | succ i =>
      rw [Memory.writeBytes, show a + (i + 1) = a + 1 + i by omega]
      exact ih _ _ _ _

theorem bits_lt (v hi lo : Nat) : bits v hi lo < 2 ^ (hi + 1 - lo) := Nat.mod_lt _ (Nat.two_pow_pos _)

/-! ### A bundle of slot M -/

/-- The state in which the slots of a bundle of tile `t` act: WAIT is 0 and the bundle is counted. -/
def State.starts (s : State) (t : Nat) : State := (s.wr Reg.FN_STAT_WAIT t 0 0).count (tilePage t) 4 1

theorem State.starts_eq (s : State) (t : Nat) : s.starts t = { s with regs := (s.starts t).regs } := by
  unfold State.starts State.count
  rw [State.countF_eq]
  rfl

theorem State.starts_rd_ne (s : State) {t : Nat} {f : Field} {i j : Nat} (hw : f.key i j ≠ Reg.FN_STAT_WAIT.key t 0)
    (hc : f.key i j ≠ Reg.CNT_N.key (tilePage t) 4) : (s.starts t).rd f i j = s.rd f i j := by
  rw [State.starts, State.rd_count_ne _ hc, State.rd_wr_ne _ _ hw]

/-- A field of a tile page that does not begin at bit 1, where WAIT does, is not touched at the start of a bundle. -/
theorem State.starts_rd (s : State) {t : Nat} {f : Field} {j : Nat} (hl : f.lo < 32 ∧ f.lo ≠ 1 ∧ 0x100 ≤ f.off) (hb : f.block = .tile) :
    (s.starts t).rd f t j = s.rd f t j := by
  apply State.starts_rd_ne <;> simp only [Field.key, Reg.FN_STAT_WAIT, Reg.CNT_N, tilePage, hb, Block.base] <;> omega

theorem State.starts_keeps (s : State) (t : Nat) : RegsKeep s (s.starts t) [Reg.FN_STAT_WAIT.key t 0] :=
  fun _ _ _ hk hc => State.starts_rd_ne s (by simpa using hk) (hc _ 4 (by decide))

@[simp] theorem State.starts_wait (s : State) (t : Nat) : (s.starts t).rd Reg.FN_STAT_WAIT t = 0 := by
  have h : Reg.FN_STAT_WAIT.key t 0 ≠ Reg.CNT_N.key (tilePage t) 4 := by
    simp only [Field.key, Reg.FN_STAT_WAIT, Reg.CNT_N]; omega
  rw [State.starts, State.rd_count_ne _ h, State.rd_wr_self, Nat.zero_mod]

@[simp] theorem State.starts_inAlloc (s : State) (t n a l : Nat) : (s.starts t).inAlloc t n a l = s.inAlloc t n a l := by
  have hb : (s.starts t).rd Reg.PN_BASE t n = s.rd Reg.PN_BASE t n := s.starts_rd (by decide) rfl
  have hs : (s.starts t).rd Reg.PN_SIZE t n = s.rd Reg.PN_SIZE t n := s.starts_rd (by decide) rfl
  rw [State.inAlloc, State.allocOf, hb, hs]; rfl

theorem State.pantryGet_of_no_errors {s : State} (h : s.perr = []) (t a n : Nat) :
    s.pantryGet t a n = (s, some (s.pantry.readBytes (pantryAddr t a) n)) := by
  simp [State.pantryGet, h]

theorem State.ready_iff (s : State) : s.ready = true ↔ s.boot.por = false ∧ s.calm = true := by
  simp [State.ready]

/-- A state that differs from a calm one by registers of pages after HNG (page 3) and by nothing else that calmness reads is calm. -/
theorem State.calm_of_keeps {s u : State} {ks : List Nat} (hc : s.calm = true) (hk : RegsKeep s u ks) (hks : ∀ k ∈ ks, 4 * 4096 * 32 ≤ k)
    (hd : u.due = s.due) (hx : u.ctxs = s.ctxs) (hb : u.boot = s.boot) : u.calm = true := by
  have keep : ∀ (f : Field) (l : Nat), f.key 0 l < 4 * 4096 * 32 → (∀ p, ∀ n < 8, f.key 0 l ≠ Reg.CNT_N.key p n) → u.rd f 0 l = s.rd f 0 l :=
    fun f l hf hn => hk f 0 l (fun hm => absurd (hks _ hm) (by omega)) hn
  refine State.calm_congr hc hd hx (by rw [hb]) (fun l hl => ⟨keep _ l ?_ ?_, keep _ l ?_ ?_⟩) ⟨keep _ 0 ?_ ?_, keep _ 0 ?_ ?_⟩ <;>
    simp only [Field.key, Reg.HNG_RUNG, Reg.HNG_PHASE, Reg.FLT_FT_LATCH, Reg.FLT_HALTED, Reg.CNT_N, Block.base] <;> omega

@[simp] theorem State.setStage_rd (s : State) (t : Nat) (st : Stage) (f : Field) (i j : Nat) : (s.setStage t st).rd f i j = s.rd f i j := rfl

@[simp] theorem State.tile_setStage_self (s : State) (t : Nat) (st : Stage) :
    (s.setStage t st).tile t = { s.tile t with stage := some st } := State.tile_setTile_self ..

theorem State.tile_setStage_ne (s : State) {t k : Nat} (st : Stage) (h : k ≠ t) : (s.setStage t st).tile k = s.tile k :=
  State.tile_setTile_ne _ _ h

/-- What a command answers that leaves the package calm and the queue as it was. -/
theorem State.answer_of_calm {s x : State} (hc : x.calm = true) (hp : x.pending = s.pending) : s.answer x = x := by
  rw [State.answer, State.settle_of_calm x hc, ← hp]

@[simp] theorem State.starts_pantry (s : State) (t : Nat) : (s.starts t).pantry = s.pantry := by rw [s.starts_eq]

@[simp] theorem State.starts_perr (s : State) (t : Nat) : (s.starts t).perr = s.perr := by rw [s.starts_eq]

@[simp] theorem State.starts_due (s : State) (t : Nat) : (s.starts t).due = s.due := by rw [s.starts_eq]

@[simp] theorem State.starts_moves (s : State) (t : Nat) : (s.starts t).moves = s.moves := by rw [s.starts_eq]

@[simp] theorem State.starts_tile (s : State) (t k : Nat) : (s.starts t).tile k = s.tile k := by rw [s.starts_eq]; rfl

/-! ### What slot M does -/

theorem Stage.v_setV_self (st : Stage) {r : Nat} (l : List Nat) : (st.setV r l).v r = l := SMap.get_set_self ..

theorem Stage.v_setV_ne (st : Stage) {r k : Nat} (l : List Nat) (hk : k < 64) (hr : r < 64) (h : k ≠ r) :
    (st.setV r l).v k = st.v k :=
  SMap.get_set_ne _ _ _ (by omega)

/-- VLD and VST outside the allocation. -/
theorem State.mExec_of_outside (s : State) (t : Nat) (st : Stage) (m : Nat) (hop : bits m 5 0 = 1 ∨ bits m 5 0 = 2)
    (ha : s.inAlloc t st.slot (mAddr st m) (mSize m) = false) : s.mExec t st m = (s.raise (tilePage t) 9 (some st.ctx) 0, none) := by
  rcases hop with hop | hop <;> simp [State.mExec, hop, ha]

theorem State.mExec_vld {s : State} {t : Nat} {st : Stage} {m : Nat} (hop : bits m 5 0 = 1) (hp : s.perr = [])
    (ha : s.inAlloc t st.slot (mAddr st m) (mSize m) = true) :
    s.mExec t st m = (s, some (bits m 11 6, natV (leNat (s.pantry.readBytes (pantryAddr t (mAddr st m)) (mSize m))))) := by
  simp [State.mExec, hop, ha, State.pantryGet_of_no_errors hp]

theorem State.mExec_vst {s : State} {t : Nat} {st : Stage} {m : Nat} (hop : bits m 5 0 = 2)
    (ha : s.inAlloc t st.slot (mAddr st m) (mSize m) = true) :
    s.mExec t st m = (s.pantryPut t (mAddr st m) (leBytes (mSize m) (vNat (st.v (bits m 11 6)))), none) := by
  simp [State.mExec, hop, ha]

theorem State.mExec_wait (s : State) (t : Nat) (st : Stage) (m : Nat) (hop : bits m 5 0 = 5 ∨ bits m 5 0 = 13) :
    s.mExec t st m = (s, none) := by
  rcases hop with hop | hop <;> simp [State.mExec, hop]

theorem State.mWaits_move (s : State) (t : Nat) (st : Stage) (m : Nat) (hop : bits m 5 0 = 1 ∨ bits m 5 0 = 2) : s.mWaits t st m = 0 := by
  rcases hop with hop | hop <;> simp [State.mWaits, hop]

theorem State.mWaits_pxwait (s : State) (t : Nat) (st : Stage) (m : Nat) (hop : bits m 5 0 = 5) :
    s.mWaits t st m = if bits m 33 32 < (s.tile t).press.length then 2 else 0 := by
  simp [State.mWaits, hop]

theorem State.mWaits_xwait (s : State) (t : Nat) (st : Stage) (m : Nat) (hop : bits m 5 0 = 13) :
    s.mWaits t st m = if ∃ x ∈ s.moves, x.tile = t then 3 else 0 := by
  simp [State.mWaits, hop]

end Sys2Proof.Machine
end

section
open Sys2Proof Sys2Proof.Machine

/-- A command of slot M: it is served by executing its operation on the tile. -/
def IssuesM (i : Instr) (t op : Nat) : Prop :=
  i.wellFormed = decide (t < 176) ∧ ∀ s, exec i s = s.serve i (fun s => s.finish t 1 op)

/-- What slot M leaves where it raises nothing: the state `y`, which differs from the start of the bundle by the registers at `ks`, by
Pantry, by tile `t` (but for its Press queue) and by the transfers at most, with the stage `now` on the tile. -/
structure ActsM (s y : State) (t : Nat) (st now : Stage) (ks : List Nat) : Prop where
  rest : y = { s with regs := y.regs, pantry := y.pantry, perr := y.perr, tiles := y.tiles, moves := y.moves }
  regs : RegsKeep (s.starts t) y ks
  pages : ∀ k ∈ ks, 4 * 4096 * 32 ≤ k
  wait : Reg.FN_STAT_WAIT.key t 0 ∉ ks
  size : Reg.CS_IMEM_SIZE.key t st.slot ∉ ks
  others : ∀ k, k ≠ t → y.tile k = s.tile k
  stage : (y.tile t).stage = some now
  vreg : now.vreg = st.vreg
  mreg : now.mreg = st.mreg
  press : (y.tile t).press = (s.tile t).press

variable {s : State} {t : Nat} {st : Stage} {b : Bundle} {op : Nat}

/-- Slot M leaves the tile's stage as it was, and of the state it changes Pantry at most. -/
theorem ActsM.of_pantry (hst : (s.tile t).stage = some st) (p : Memory) (e : SMap (List (Nat × Nat))) :
    ActsM s { s.starts t with pantry := p, perr := e } t st st [] where
  rest := by rw [s.starts_eq]
  regs := fun _ _ _ _ _ => rfl
  pages := by simp
  wait := by simp
  size := by simp
  others := fun k _ => s.starts_tile t k
  stage := (congrArg Tile.stage (s.starts_tile t t)).trans hst
  vreg := rfl
  mreg := rfl
  press := congrArg Tile.press (s.starts_tile t t)

theorem SlotM.tile_lt (h : SlotM s t st b op) : t < 176 := by
  obtain ⟨⟨hrun, -⟩, -⟩ := h
  simp only [State.tileRuns, Bool.and_eq_true, decide_eq_true_eq] at hrun
  exact hrun.1.1.1

theorem SlotM.bits_m (h : SlotM s t st b op) : bits b.m 5 0 = op := by
  obtain ⟨-, hop, hm, -⟩ := h
  simpa [Bundle.mOp, hm] using hop

theorem SlotM.perr (h : SlotM s t st b op) : s.perr = [] := by
  obtain ⟨-, -, -, -, -, hp⟩ := h
  exact hp

theorem SlotM.finisher (h : SlotM s t st b op) : s.finisher t 1 op = s.runBundle t st b := by
  obtain ⟨⟨hrun, hst, hend, hb, -⟩, hop, -⟩ := h
  simp [State.finisher, hrun, hst, hend, hb, hop]

/-- A bundle that waits changes WAIT alone. -/
theorem SlotM.runBundle_of_waits (h : SlotM s t st b op) (hw : s.mWaits t st b.m ≠ 0) :
    s.runBundle t st b = s.wr Reg.FN_STAT_WAIT t 0 (s.mWaits t st b.m) := by
  obtain ⟨⟨-, -, -, -, hlegal, -⟩, -, hm, hv, -⟩ := h
  simp [State.runBundle, hlegal, Bundle.vOp, hv, hm, usesCurve, hw]

/-- A fault of slot M other than a corrected word ends the bundle. -/
theorem SlotM.runBundle_of_fault (h : SlotM s t st b op) (hw : s.mWaits t st b.m = 0) {bt : Nat} {c : Option Nat} {d : Nat} (hb : bt ≠ 0)
    (hx : (s.starts t).mExec t st b.m = ((s.starts t).raise (tilePage t) bt c d, none)) :
    s.runBundle t st b = (s.starts t).raise (tilePage t) bt c d := by
  obtain ⟨⟨-, -, -, -, hlegal, -⟩, -, hm, hv, -⟩ := h
  have hdue := s.starts_due t
  rw [State.starts] at hx hdue
  simp [State.runBundle, hlegal, Bundle.vOp, hv, hm, usesCurve, hw, hx, State.raise_eq, hdue, hb, State.starts]

/-- A bundle whose slot M acts without a fault writes the stage that slot M leaves, with what it loads, and advances PC. -/
theorem SlotM.runBundle_of_acts (h : SlotM s t st b op) (hw : s.mWaits t st b.m = 0) {y : State} {ld : Option (Nat × List Nat)} {now : Stage}
    (hx : (s.starts t).mExec t st b.m = (y, ld)) (hd : y.due = s.due) (hs : (y.tile t).stage = some now) (hv : now.vreg = st.vreg)
    (hm : now.mreg = st.mreg) (hz : y.rd Reg.CS_IMEM_SIZE t st.slot = s.rd Reg.CS_IMEM_SIZE t st.slot) :
    s.runBundle t st b =
      (y.setStage t (ld.elim now (fun x => now.setV x.1 x.2))).wr Reg.FN_STAT_PC t 0 (s.rd Reg.FN_STAT_PC t + 1) := by
  obtain ⟨⟨-, -, -, -, hlegal, hlast, -⟩, -, hmEn, hvEn, hcEn, -⟩ := h
  have hpc : (s.starts t).rd Reg.FN_STAT_PC t = s.rd Reg.FN_STAT_PC t := s.starts_rd (by decide) rfl
  have hlo : ¬ (s.rd Reg.FN_STAT_PC t : Int) + 1 < 0 := by omega
  have hhi : ¬ (s.rd Reg.CS_IMEM_SIZE t st.slot : Int) * 256 ≤ (s.rd Reg.FN_STAT_PC t : Int) + 1 := by omega
  have hnow : { now with vreg := st.vreg, mreg := st.mreg } = now := by rw [← hv, ← hm]
  have hnat : ((s.rd Reg.FN_STAT_PC t : Int) + 1).toNat = s.rd Reg.FN_STAT_PC t + 1 := by omega
  have hdue := s.starts_due t
  rw [State.starts] at hx hpc hdue
  simp [State.runBundle, hlegal, Bundle.vOp, Bundle.cOp, hvEn, hcEn, hmEn, usesCurve, hw, hx, hd, hdue, hs, hnow, hpc, hz, hnat,
    eq_false hlo, eq_false hhi]

theorem SlotM.exec_eq (h : SlotM s t st b op) {i : Instr} (hi : IssuesM i t op) (hr : s.ready = true)
    (hp : ((s.runBundle t st b).tile t).press.length ≤ (s.tile t).press.length) : exec i s = .next (s.answer (s.runBundle t st b)) := by
  obtain ⟨hpor, -⟩ := s.ready_iff.mp hr
  obtain ⟨hwf, hexec⟩ := hi
  have hfin : s.finish t 1 op = s.runBundle t st b := by simp [State.finish, h.finisher, hp]
  rw [hexec, State.serve_of_ready s i _ hpor (by simp [hwf, h.tile_lt]), hfin, State.answer]

/-- A waiting command of slot M. -/
theorem SlotM.completes_of_waits (h : SlotM s t st b op) {i : Instr} (hi : IssuesM i t op) (hr : s.ready = true) {w : Nat}
    (hw : s.mWaits t st b.m = w) (h0 : w ≠ 0) (h8 : w < 8) : Completes i s (fun u => WaitsFor s u t w) := by
  have hrun : s.runBundle t st b = s.wr Reg.FN_STAT_WAIT t 0 w := by rw [h.runBundle_of_waits (by omega), hw]
  have hkeep : RegsKeep s (s.wr Reg.FN_STAT_WAIT t 0 w) [Reg.FN_STAT_WAIT.key t 0] :=
    fun f i j hk _ => State.rd_wr_ne _ _ (by simpa using hk)
  have hcalm : (s.wr Reg.FN_STAT_WAIT t 0 w).calm = true :=
    State.calm_of_keeps (s.ready_iff.mp hr).2 hkeep (by simp [Field.key, Reg.FN_STAT_WAIT, Block.base]; omega) rfl rfl rfl
  refine ⟨s.wr Reg.FN_STAT_WAIT t 0 w, ?_, ?_, fun f i j hk => State.rd_wr_ne _ _ (by simpa using hk), rfl⟩
  · rw [h.exec_eq hi hr (by rw [hrun]; rfl), hrun, State.answer_of_calm (s := s) hcalm rfl]
  · rw [State.rd_wr_self]; exact Nat.mod_eq_of_lt h8

/-- A command of slot M that raises nothing leaves what the slot left, with what it loads in the stage, WAIT 0 and PC advanced. -/
theorem SlotM.completes_of_acts (h : SlotM s t st b op) {i : Instr} (hi : IssuesM i t op) (hr : s.ready = true)
    (hw : s.mWaits t st b.m = 0) {y : State} {ld : Option (Nat × List Nat)} {now : Stage} {ks : List Nat}
    (hx : (s.starts t).mExec t st b.m = (y, ld)) (ha : ActsM s y t st now ks) :
    Completes i s (fun u => Advances s u t ks ∧ u.pantry = y.pantry ∧ u.moves = y.moves ∧
      u.tile t = { y.tile t with stage := some (ld.elim now (fun x => now.setV x.1 x.2)) } ∧
      ∀ (f : Field) (i j : Nat), f.key i j ≠ Reg.FN_STAT_PC.key t 0 → u.rd f i j = y.rd f i j) := by
  obtain ⟨⟨-, -, -, -, -, -, hlast, -⟩, -⟩ := id h
  obtain ⟨hy, hk, hks, hkw, hkz, ht, hst, hv, hm, hp⟩ := ha
  have hwait : y.rd Reg.FN_STAT_WAIT t = 0 := by
    rw [hk _ _ _ hkw (fun p n _ => by simp only [Field.key, Reg.FN_STAT_WAIT, Reg.CNT_N]; omega)]
    exact s.starts_wait t
  have hsize : y.rd Reg.CS_IMEM_SIZE t st.slot = s.rd Reg.CS_IMEM_SIZE t st.slot := by
    rw [hk _ _ _ hkz (fun p n _ => by simp only [Field.key, Reg.CS_IMEM_SIZE, Reg.CNT_N]; omega)]
    exact s.starts_rd (by decide) rfl
  have hrun := h.runBundle_of_acts hw hx (by rw [hy]) hst hv hm hsize
  generalize ld.elim now (fun x => now.setV x.1 x.2) = now' at hrun ⊢
  set u := s.runBundle t st b with hu
  have hrd : ∀ (f : Field) (i j : Nat), f.key i j ≠ Reg.FN_STAT_PC.key t 0 → u.rd f i j = y.rd f i j := by
    intro f i j hne
    rw [hrun, State.rd_wr_ne _ _ hne, State.setStage_rd]
  have hkeep : RegsKeep s u ([Reg.FN_STAT_WAIT.key t 0, Reg.FN_STAT_PC.key t 0] ++ ks) := by
    intro f i j hmem hn
    simp only [List.cons_append, List.nil_append, List.mem_cons, not_or] at hmem
    obtain ⟨hnw, hnpc, hnk⟩ := hmem
    rw [hrd f i j hnpc, hk f i j hnk hn, s.starts_keeps t f i j (by simpa using hnw) hn]
  have htile : u.tile t = { y.tile t with stage := some now' } := by
    rw [hrun, State.tile_wr, State.tile_setStage_self]
  have hcalm : u.calm = true := by
    refine State.calm_of_keeps (s.ready_iff.mp hr).2 hkeep ?_ ?_ ?_ ?_
    · simp only [List.cons_append, List.nil_append, List.forall_mem_cons]
      refine ⟨?_, ?_, hks⟩ <;> simp only [Field.key, Reg.FN_STAT_WAIT, Reg.FN_STAT_PC, Block.base] <;> omega
    all_goals rw [hrun, hy]; rfl
  refine ⟨u, ?_, ⟨?_, ?_, ?_, ?_, ?_, ?_, hkeep⟩, ?_, ?_, htile, hrd⟩
  · rw [h.exec_eq hi hr (by rw [← hu, htile, hp]), ← hu, State.answer_of_calm hcalm]
    rw [hrun, hy]; rfl
  · rw [hrun, State.rd_wr_self]; exact Nat.mod_eq_of_lt hlast
  · rw [hrd _ _ _ (by simp [Field.key, Reg.FN_STAT_WAIT, Reg.FN_STAT_PC]), hwait]
  · rw [hrun, hy]; rfl
  · rw [hrun, hy]; rfl
  · rw [hrun, hy]; rfl
  · intro k hne
    rw [hrun, State.tile_wr, State.tile_setStage_ne _ _ hne, ht k hne]
  · rw [hrun]; rfl
  · rw [hrun]; rfl

/-- A command of slot M that changes Pantry at most, and loads what `ld` names. -/
theorem SlotM.completes_of_pantry (h : SlotM s t st b op) {i : Instr} (hi : IssuesM i t op) (hr : s.ready = true)
    (hw : s.mWaits t st b.m = 0) {p : Memory} {e : SMap (List (Nat × Nat))} {ld : Option (Nat × List Nat)}
    (hx : (s.starts t).mExec t st b.m = ({ s.starts t with pantry := p, perr := e }, ld)) :
    Completes i s (fun u => Advances s u t [] ∧ u.pantry = p ∧ u.moves = s.moves ∧
      (u.tile t).stage = some (ld.elim st (fun x => st.setV x.1 x.2))) := by
  obtain ⟨⟨-, hst, -⟩, -⟩ := id h
  obtain ⟨u, hu, hadv, hpan, hmov, htile, -⟩ := h.completes_of_acts hi hr hw hx (.of_pantry hst p e)
  exact ⟨u, hu, hadv, hpan, hmov.trans (s.starts_moves t), by rw [htile]⟩

/-- The fault of a command of slot M whose range leaves the allocation. -/
theorem SlotM.exec_of_fault (h : SlotM s t st b op) {i : Instr} (hi : IssuesM i t op) (hr : s.ready = true)
    (hw : s.mWaits t st b.m = 0) {bt : Nat} {c : Option Nat} {d : Nat} (hb : bt ≠ 0)
    (hx : (s.starts t).mExec t st b.m = ((s.starts t).raise (tilePage t) bt c d, none)) :
    exec i s = .next (s.answer ((s.starts t).raise (tilePage t) bt c d)) := by
  have hrun := h.runBundle_of_fault hw hb hx
  rw [h.exec_eq hi hr (by rw [hrun, s.starts_eq]; rfl), hrun]

theorem finisherLoadsAndStores : Clause.FinisherLoadsAndStores := by
  intro t st b s hr a n
  refine ⟨fun h ha => ?_, fun h ha => ?_, fun i hi h ha => ?_⟩
  · have hx := State.mExec_vld (s := s.starts t) h.bits_m (by simpa using h.perr) ((s.starts_inAlloc ..).trans ha)
    rw [s.starts_pantry] at hx
    obtain ⟨u, hu, hadv, hpan, -, hst⟩ := h.completes_of_pantry (i := .vld t) ⟨rfl, fun _ => rfl⟩ hr (s.mWaits_move t st b.m (.inl h.bits_m))
      (p := (s.starts t).pantry) (e := (s.starts t).perr) hx
    refine ⟨u, hu, hadv, hpan.trans (s.starts_pantry t), _, hst, rfl, rfl, fun r hlt hne =>
      Stage.v_setV_ne _ _ hlt (bits_lt b.m 11 6) hne, Stage.v_setV_self ..⟩
  · have hx := State.mExec_vst (s := s.starts t) h.bits_m ((s.starts_inAlloc ..).trans ha)
    obtain ⟨u, hu, hadv, hpan, -, hst⟩ := h.completes_of_pantry (i := .vst t) ⟨rfl, fun _ => rfl⟩ hr (s.mWaits_move t st b.m (.inr h.bits_m)) hx
    rw [s.starts_pantry] at hpan
    refine ⟨u, hu, hadv, hst, fun x hout => ?_, fun i hlt => ?_⟩
    · rw [hpan, Memory.read_writeBytes_out _ _ (by rwa [leBytes_length])]
    · rw [hpan, Memory.read_writeBytes_in _ _ _ _ (by rwa [leBytes_length]), leBytes_getElem]
  · have key : ∀ op, SlotM s t st b op → (op = 1 ∨ op = 2) → ∀ c, IssuesM c t op →
        exec c s = .next (s.answer ((s.starts t).raise (tilePage t) 9 (some st.ctx) 0)) := by
      rintro op h hop c hc
      rw [← h.bits_m] at hop
      exact h.exec_of_fault hc hr (s.mWaits_move t st b.m hop) (by decide) (State.mExec_of_outside _ t st b.m hop ((s.starts_inAlloc ..).trans ha))
    simp only [List.mem_cons, List.not_mem_nil, or_false] at hi
    rcases hi with rfl | rfl
    · exact key 1 h (.inl rfl) _ ⟨rfl, fun _ => rfl⟩
    · exact key 2 h (.inr rfl) _ ⟨rfl, fun _ => rfl⟩

theorem finisherWaits : Clause.FinisherWaits := by
  intro t st b s hr goes
  have acts : ∀ op, SlotM s t st b op → (op = 5 ∨ op = 13) → ∀ c, IssuesM c t op → s.mWaits t st b.m = 0 → Completes c s goes := by
    intro op h hop c hc hw
    rw [← h.bits_m] at hop
    exact h.completes_of_pantry hc hr hw (by rw [State.mExec_wait _ t st b.m hop, s.starts_eq])
  refine ⟨fun h => ⟨fun hle => ?_, fun hlt => ?_⟩, fun h => ⟨fun hno => ?_, fun hex => ?_⟩⟩
  · exact acts 5 h (.inl rfl) _ ⟨rfl, fun _ => rfl⟩ (by rw [s.mWaits_pxwait t st b.m h.bits_m, if_neg (by omega)])
  · exact h.completes_of_waits ⟨rfl, fun _ => rfl⟩ hr (by rw [s.mWaits_pxwait t st b.m h.bits_m, if_pos hlt]) (by decide) (by decide)
  · exact acts 13 h (.inr rfl) _ ⟨rfl, fun _ => rfl⟩ (by rw [s.mWaits_xwait t st b.m h.bits_m, if_neg (by simpa using hno)])
  · exact h.completes_of_waits ⟨rfl, fun _ => rfl⟩ hr (by rw [s.mWaits_xwait t st b.m h.bits_m, if_pos hex]) (by decide) (by decide)

end

section
open Sys2Proof Sys2Proof.Machine

/-- Settles O17: slot M acts in the state in which WAIT is 0, and what it leaves differs from there by Pantry and the stage at most. -/
theorem finisherMemoryAndWaits : Obligations.FinisherMemoryAndWaits :=
  ⟨finisherLoadsAndStores, finisherWaits⟩

end

section
namespace Sys2Proof.Machine

open Sys2Proof

/-! PROOFS. A Press command issued on a tile whose channel register holds more than its field can. -/

/-- Stage open on physical tile 1, in context 0 and slot 0. -/
def strayStage : Stage :=
  { ctx := 0, slot := 0, ix := 0, run := 0, last := false, lastRun := false, fmts := [], vreg := [], mreg := [], sreg := [], takes := []
    posts := [], deferred := [], slabs := [], prev := none, mangle := false, marked := false, ended := false }

/-- PXISSUE alone in its bundle, with its descriptor at S0. -/
def strayBundle : Bundle := ⟨false, true, false, 0, 0, 4, 0⟩

/-- The counterexample to O18. Out of power-on reset, with every domain on. Logical tile 1 lies on physical tile 1 and is all of group 0,
whose feed is enabled. The tile has 256 KiB of Pantry, with a Press command that takes its moving operand from Mangle described at 0, and
PXISSUE at PC 0. Its channel, CFG_SGM_CH, holds 8: one more than the field of 3 bits can. -/
def strayChannel : State :=
  let s : State := { State.reset with
    boot := { State.reset.boot with por := false }
    imem := [(2 ^ 18, 2), (2 ^ 18 + 6, 64)]
    pantry := [(2 ^ 24 + 6, 1), (2 ^ 24 + 8, 1), (2 ^ 24 + 9, 2)]
    tiles := [(1, { Tile.empty with stage := some strayStage })] }
  let s := ((s.wr Reg.PWR_PD_ON 0 0 (2 ^ 80 - 1)).wr Reg.DARN_PRESENT 0 1 1).wr Reg.DARN_PHYS 0 1 1
  let s := ((s.wr Reg.CFG_SG_FIRST 0 0 1).wr Reg.CFG_SG_SIZE 0 0 1).wr Reg.CFG_SGM_MEN 0 0 1
  let s := (s.wr Reg.CS_IMEM_SIZE 1 0 1).wr Reg.PN_SIZE 1 0 1
  { s with regs := SMap.put s.regs (Reg.CFG_SGM_CH.key 0 0) 8 }

/-- A register of the state that an outcome ends in. -/
def rdAfter (o : Host.Outcome State Fault Refusal) (f : Field) (i j : Nat) : Option Nat :=
  match o with
  | .next u => some (u.rd f i j)
  | _ => none

theorem strayChannel_ready : strayChannel.ready = true := by decide +kernel

theorem strayStage_lanes (r : Nat) : (strayStage.v r).length = 256 := by
  rw [show strayStage.v r = List.replicate 256 0 from rfl, List.length_replicate]

theorem strayChannel_atBundle : AtBundle strayChannel 1 strayStage strayBundle :=
  ⟨by decide +kernel, by decide +kernel, rfl, by decide +kernel, by decide +kernel, by decide +kernel, by decide +kernel, strayStage_lanes⟩

theorem strayChannel_slotM : SlotM strayChannel 1 strayStage strayBundle 4 :=
  ⟨strayChannel_atBundle, by decide, rfl, rfl, rfl, rfl⟩

/-- The tile is the last of its group to grant a credit, and channel 8 of die 0 notes it, R117. -/
theorem strayChannel_pxissue : rdAfter (exec (.pxissue 1) strayChannel) Reg.MCH_LAGGARD 0 8 = some 1 := by decide +kernel

theorem strayChannel_laggard : strayChannel.rd Reg.MCH_LAGGARD 0 8 = 0 := by decide +kernel

/-- Refutes O18: no hypothesis keeps a register within its width, and PXISSUE notes its tile in LAGGARD of the channel that CFG_SGM_CH
names, R117, Table 5-10. With 8 there it is a ninth register, which the clause of an accepted Press command says is kept; the values 0 to 7
of the field of 3 bits name registers that the clause lets change. -/
theorem not_finisherIssues : ¬ Obligations.FinisherIssues := by
  intro h
  obtain ⟨press, -, -, -⟩ := h 1 strayStage strayBundle strayChannel strayChannel_ready (by decide +kernel)
  obtain ⟨accepted, -⟩ := press strayChannel_slotM (by decide +kernel) (by decide +kernel) (by decide +kernel) (fun _ => rfl) (by decide +kernel)
  obtain ⟨u, hu, ⟨-, -, -, -, -, -, hregs⟩, -⟩ := accepted (by decide +kernel)
  have hkey : ∀ p, ∀ n < 8, Reg.MCH_LAGGARD.key 0 8 ≠ Reg.CNT_N.key p n := by
    intro p n _; simp only [Field.key, Reg.MCH_LAGGARD, Reg.CNT_N]; omega
  have hkeep := hregs Reg.MCH_LAGGARD 0 8 (by decide) hkey
  have hread := strayChannel_pxissue
  rw [hu, rdAfter, hkeep, strayChannel_laggard] at hread
  exact absurd hread (by decide)
end Sys2Proof.Machine
end

section
namespace Sys2Proof.Machine

open Sys2Proof

/-! PROOFS. Slots V and C of the Finisher: how a bundle without slot M is executed, what each vector operation computes lane by lane, and
what slot C writes and where it goes. -/

/-! ### Registers of a stage -/

@[simp] theorem Stage.s_setS_self (st : Stage) (r v : Nat) : (st.setS r v).s r = v % 2 ^ 32 := SMap.get_set_self ..

theorem Stage.s_setS_ne (st : Stage) {r k : Nat} (v : Nat) (h : k ≠ r) : (st.setS r v).s k = st.s k := SMap.get_set_ne _ _ _ h

/-- M0 reads as all ones, whatever a mask register is set to. -/
theorem Stage.m_setM_zero (st : Stage) (r v : Nat) : (st.setM r v).m 0 = 2 ^ 256 - 1 := if_pos rfl

theorem Stage.m_setM_self (st : Stage) {r : Nat} (v : Nat) (h : r ≠ 0) : (st.setM r v).m r = v := by
  simp [Stage.m, Stage.setM, h]

theorem Stage.m_setM_ne (st : Stage) {r k : Nat} (v : Nat) (h : k ≠ r) : (st.setM r v).m k = st.m k := by
  by_cases hr : r = 0
  · simp [Stage.setM, hr]
  · simp [Stage.m, Stage.setM, hr, SMap.get_set_ne _ _ _ h]

/-- Slot V writes vector and mask registers alone. -/
theorem vWrite_stage (st : Stage) (img : List Byte) (g : Gen) (v : Nat) :
    (vWrite st img g v).1 = { st with vreg := (vWrite st img g v).1.vreg, mreg := (vWrite st img g v).1.mreg } := by
  unfold vWrite Stage.setM Stage.setV
  dsimp only
  split
  · split <;> rfl
  · split
    · split <;> rfl
    · rfl

/-- FP_NAN and FP_SAT of a tile as slot V leaves them. -/
def State.flagged (s : State) (t : Nat) (nan sat : Bool) : State :=
  let s := if nan then s.wr Reg.FN_FP_NAN t 0 1 else s
  if sat then s.wr Reg.FN_FP_SAT t 0 1 else s

theorem State.flagged_rd_ne (s : State) {t : Nat} (nan sat : Bool) {f : Field} {i j : Nat} (hn : f.key i j ≠ Reg.FN_FP_NAN.key t 0)
    (hs : f.key i j ≠ Reg.FN_FP_SAT.key t 0) : (s.flagged t nan sat).rd f i j = s.rd f i j := by
  cases nan <;> cases sat <;> simp [State.flagged, State.rd_wr_ne _ _ hn, State.rd_wr_ne _ _ hs]

/-! ### The end of a bundle without slot M -/

theorem State.starts_rest (s : State) (t : Nat) : s.starts t = { s with regs := (s.starts t).regs, tiles := (s.starts t).tiles } := by
  rw [s.starts_eq]

/-- A command of a slot of the bundle: it is served by executing its operation on the tile. -/
def Issues (i : Instr) (t slot op : Nat) : Prop :=
  i.wellFormed = decide (t < 176) ∧ ∀ s, exec i s = s.serve i (fun s => s.finish t slot op)

/-- The state `u` in which a bundle without slot M ends, with the stage `now` on the tile. -/
structure BundleEnds (s u : State) (t : Nat) (now : Stage) : Prop where
  rest : u = { s with regs := u.regs, tiles := u.tiles }
  regs : ∀ (f : Field) (i j : Nat), f.key i j ∉ [Reg.FN_STAT_WAIT.key t 0, Reg.FN_STAT_PC.key t 0, Reg.FN_FP_NAN.key t 0,
    Reg.FN_FP_SAT.key t 0, Reg.CNT_N.key (tilePage t) 4] → u.rd f i j = s.rd f i j
  others : ∀ k, k ≠ t → u.tile k = s.tile k
  here : u.tile t = { s.tile t with stage := some now }

/-- The slots leave a stage on the tile: nothing else but WAIT and the bundle counter has changed since the bundle. -/
theorem BundleEnds.of_setStage {s y : State} {t : Nat} (now : Stage) (hy : y = { s with regs := (s.starts t).regs, tiles := y.tiles })
    (ht : ∀ k, y.tile k = s.tile k) : BundleEnds s (y.setStage t now) t now where
  rest := by rw [hy]; rfl
  regs f i j hk := by
    simp only [List.mem_cons, not_or] at hk
    obtain ⟨hw, -, -, -, hc, -⟩ := hk
    have hr : y.regs = (s.starts t).regs := by rw [hy]
    rw [State.setStage_rd, State.rd_congr hr, s.starts_rd_ne hw hc]
  others k hk := by rw [State.tile_setStage_ne _ _ hk, ht]
  here := by rw [State.tile_setStage_self, ht]

/-- PC, WAIT and the two flags of slot V may be written. -/
theorem BundleEnds.wr {s u : State} {t : Nat} {now : Stage} (h : BundleEnds s u t now) {f : Field} (v : Nat)
    (hf : f ∈ [Reg.FN_STAT_WAIT, Reg.FN_STAT_PC, Reg.FN_FP_NAN, Reg.FN_FP_SAT]) : BundleEnds s (u.wr f t 0 v) t now where
  rest := by rw [h.rest]; rfl
  regs g i j hk := by
    have hne : g.key i j ≠ f.key t 0 := by
      rintro he
      rw [he] at hk
      simp only [List.mem_cons, List.not_mem_nil, or_false] at hf
      rcases hf with rfl | rfl | rfl | rfl <;> simp at hk
    rw [State.rd_wr_ne _ _ hne, h.regs g i j hk]
  others := h.others
  here := h.here

theorem BundleEnds.setStage {s u : State} {t : Nat} {now : Stage} (h : BundleEnds s u t now) (next : Stage) :
    BundleEnds s (u.setStage t next) t next where
  rest := by rw [h.rest]; rfl
  regs := h.regs
  others k hk := by rw [State.tile_setStage_ne _ _ hk, h.others k hk]
  here := by rw [State.tile_setStage_self, h.here]

theorem BundleEnds.flagged {s u : State} {t : Nat} {now : Stage} (h : BundleEnds s u t now) (nan sat : Bool) :
    BundleEnds s (u.flagged t nan sat) t now := by
  cases nan <;> cases sat
  · exact h
  · exact h.wr 1 (by simp)
  · exact h.wr 1 (by simp)
  · exact (h.wr 1 (by simp)).wr 1 (by simp)

theorem BundleEnds.frame {s u : State} {t : Nat} {now : Stage} (h : BundleEnds s u t now) : BundleFrame s u t := by
  refine ⟨?_, ?_, ?_, ?_, h.others, h.regs⟩ <;> rw [h.rest]

theorem BundleEnds.stage {s u : State} {t : Nat} {now : Stage} (h : BundleEnds s u t now) : (u.tile t).stage = some now := by
  rw [h.here]

theorem BundleEnds.calm {s u : State} {t : Nat} {now : Stage} (h : BundleEnds s u t now) (hc : s.calm = true) : u.calm = true := by
  refine State.calm_of_keeps (ks := [Reg.FN_STAT_WAIT.key t 0, Reg.FN_STAT_PC.key t 0, Reg.FN_FP_NAN.key t 0, Reg.FN_FP_SAT.key t 0,
    Reg.CNT_N.key (tilePage t) 4]) hc (fun f i j hk _ => h.regs f i j hk) ?_ ?_ ?_ ?_
  · simp only [List.forall_mem_cons, List.not_mem_nil, false_implies, implies_true, and_true]
    refine ⟨?_, ?_, ?_, ?_, ?_⟩ <;>
      simp only [Field.key, Reg.FN_STAT_WAIT, Reg.FN_STAT_PC, Reg.FN_FP_NAN, Reg.FN_FP_SAT, Reg.CNT_N, Block.base, tilePage] <;> omega
  all_goals rw [h.rest]

end Sys2Proof.Machine
end

section
open Sys2Proof Sys2Proof.Machine

variable {s : State} {t : Nat} {st : Stage} {b : Bundle}

theorem AtBundle.tile_lt (h : AtBundle s t st b) : t < 176 := by
  obtain ⟨hrun, -⟩ := h
  simp only [State.tileRuns, Bool.and_eq_true, decide_eq_true_eq] at hrun
  exact hrun.1.1.1

theorem AtBundle.lanes (h : AtBundle s t st b) (r : Nat) : (st.v r).length = 256 := by
  obtain ⟨-, -, -, -, -, -, -, hv⟩ := h
  exact hv r

/-- A command of slot V or C whose bundle it is executes the bundle. -/
theorem AtBundle.finisher (h : AtBundle s t st b) {slot op : Nat} (hop : slot = 0 ∧ b.vOp = op ∨ slot = 2 ∧ b.cOp = op) :
    s.finisher t slot op = s.runBundle t st b := by
  obtain ⟨hrun, hst, hend, hb, -⟩ := h
  rcases hop with ⟨rfl, hop⟩ | ⟨rfl, hop⟩ <;> simp [State.finisher, hrun, hst, hend, hb, hop]

theorem AtBundle.exec_eq (h : AtBundle s t st b) {i : Instr} {slot op : Nat} (hi : Issues i t slot op)
    (hop : slot = 0 ∧ b.vOp = op ∨ slot = 2 ∧ b.cOp = op) (hr : s.ready = true) {now : Stage}
    (he : BundleEnds s (s.runBundle t st b) t now) : exec i s = .next (s.runBundle t st b) := by
  obtain ⟨hpor, hcalm⟩ := s.ready_iff.mp hr
  obtain ⟨hwf, hexec⟩ := hi
  have hfin : s.finish t slot op = s.runBundle t st b := by simp [State.finish, h.finisher hop, he.here]
  rw [hexec, State.serve_of_ready s i _ hpor (by simp [hwf, h.tile_lt]), hfin, ← State.answer,
    State.answer_of_calm (he.calm hcalm) (by rw [he.rest])]

/-- A bundle of slot V alone writes what the slot gives, with its flags, and advances PC. -/
theorem AtBundle.runBundle_vector (h : AtBundle s t st b) (hv : b.vEn = true) (hm : b.mEn = false) (hc : b.cEn = false)
    {img : Option (List Byte)} (hi : (s.tile t).curveImg st.slot (bits b.v 40 38) = img) (hu : usesCurve b.vOp = true → img.isSome = true)
    {g : Gen} (hg : (s.starts t).gen st.ctx ((s.starts t).rd Reg.CTX_STEP_NUM st.ctx) (st.s 30 % 2 ^ 16) (st.s 30 / 2 ^ 16) = g) :
    s.runBundle t st b = (((s.starts t).setStage t (vWrite st (img.getD []) g b.v).1).flagged t (vWrite st (img.getD []) g b.v).2.1
      (vWrite st (img.getD []) g b.v).2.2).wr Reg.FN_STAT_PC t 0 (s.rd Reg.FN_STAT_PC t + 1) := by
  obtain ⟨-, hst, -, -, hlegal, hlast, -⟩ := h
  have hpc : (s.starts t).rd Reg.FN_STAT_PC t = s.rd Reg.FN_STAT_PC t := s.starts_rd (by decide) rfl
  have hstage : ((s.starts t).tile t).stage = some st := (congrArg Tile.stage (s.starts_tile t t)).trans hst
  have hno : (usesCurve b.vOp && img.isNone) = false := by
    cases hc : usesCurve b.vOp
    · rfl
    · simpa [← Option.not_isSome] using hu hc
  have hsize : ∀ (now : Stage) (nan sat : Bool),
      (((s.starts t).setStage t now).flagged t nan sat).rd Reg.CS_IMEM_SIZE t st.slot = s.rd Reg.CS_IMEM_SIZE t st.slot := by
    intro now nan sat
    rw [State.flagged_rd_ne, State.setStage_rd]
    · exact s.starts_rd (by decide) rfl
    all_goals simp only [Field.key, Reg.CS_IMEM_SIZE, Reg.FN_FP_NAN, Reg.FN_FP_SAT]; omega
  have hnat : ((s.rd Reg.FN_STAT_PC t : Int) + 1).toNat = s.rd Reg.FN_STAT_PC t + 1 := by omega
  have hlo : ¬ (s.rd Reg.FN_STAT_PC t : Int) + 1 < 0 := by omega
  have hhi : ¬ (s.rd Reg.CS_IMEM_SIZE t st.slot : Int) * 256 ≤ (s.rd Reg.FN_STAT_PC t : Int) + 1 := by omega
  have hw := vWrite_stage st (img.getD []) g b.v
  rw [State.starts] at hpc hstage hsize hg ⊢
  simp only [State.flagged, Nat.reducePow] at hsize hg ⊢
  simp [State.runBundle, hlegal, hno, hm, hv, Bundle.cOp, hc, hi, hg, hstage, hpc, ← hw, hsize, hnat, eq_false hlo, eq_false hhi]

/-- What a bundle of slot C alone leaves in the stage, where `value` is what SRD reads: SD written by operations 1 to 12. -/
def slotCStage (st : Stage) (value c : Nat) : Stage :=
  if 1 ≤ bits c 5 0 ∧ bits c 5 0 ≤ 12 then st.setS (bits c 10 6) (cValue st value c) else st

/-- A bundle of slot C alone that does not end the stage writes SD and goes to its target. -/
theorem AtBundle.runBundle_scalar (h : AtBundle s t st b) (hv : b.vEn = false) (hm : b.mEn = false) (hc : b.cEn = true)
    (hend : bits b.c 5 0 ≠ 0x1F) {y : State} {value : Nat}
    (hy : (if bits b.c 5 0 = 12 then (((s.starts t).srd t st (bits b.c 27 16)).1,
      (s.starts t).setTile t { (s.starts t).tile t with latch := ((s.starts t).srd t st (bits b.c 27 16)).2 }) else (0, s.starts t)) = (value, y))
    {pc : Nat} (hpc : (pc : Int) = (s.rd Reg.FN_STAT_PC t : Int) + if cTaken st b.c = true then immOf b.c else 1)
    (hin : pc < s.rd Reg.CS_IMEM_SIZE t st.slot * 256) :
    s.runBundle t st b = (y.setStage t (slotCStage st value b.c)).wr Reg.FN_STAT_PC t 0 pc := by
  obtain ⟨-, hst, -, -, hlegal, -⟩ := h
  have hrd : (s.starts t).rd Reg.FN_STAT_PC t = s.rd Reg.FN_STAT_PC t := s.starts_rd (by decide) rfl
  have hsize : (s.starts t).rd Reg.CS_IMEM_SIZE t st.slot = s.rd Reg.CS_IMEM_SIZE t st.slot := s.starts_rd (by decide) rfl
  have hstage : ((s.starts t).tile t).stage = some st := (congrArg Tile.stage (s.starts_tile t t)).trans hst
  have htarget : (if cTaken st b.c = true then (s.rd Reg.FN_STAT_PC t : Int) + immOf b.c else (s.rd Reg.FN_STAT_PC t : Int) + 1) = pc := by
    rw [hpc]; split <;> rfl
  have hlo : ¬ (pc : Int) < 0 := by omega
  have hhi : ¬ (s.rd Reg.CS_IMEM_SIZE t st.slot : Int) * 256 ≤ (pc : Int) := by omega
  rw [State.starts] at hrd hsize hstage hy
  by_cases hsrd : bits b.c 5 0 = 12
  · rw [if_pos hsrd] at hy
    obtain ⟨rfl, rfl⟩ := hy
    simp [State.runBundle, hlegal, hm, hv, Bundle.cOp, Bundle.vOp, hc, hstage, hrd, hsrd, usesCurve, hsize, htarget, slotCStage, hlo, hhi]
  · rw [if_neg hsrd] at hy
    obtain ⟨rfl, rfl⟩ := hy
    simp [State.runBundle, hlegal, hm, hv, Bundle.cOp, Bundle.vOp, hc, hend, hstage, hrd, hsrd, usesCurve, hsize, htarget, slotCStage, hlo, hhi]

/-- A bundle with END alone ends the stage, which waits for its boundary. -/
theorem AtBundle.runBundle_end (h : AtBundle s t st b) (hv : b.vEn = false) (hm : b.mEn = false) (hc : b.cEn = true)
    (hop : bits b.c 5 0 = 0x1F) :
    s.runBundle t st b = ((s.starts t).setStage t { st with ended := true }).wr Reg.FN_STAT_WAIT t 0 5 := by
  obtain ⟨-, hst, -, -, hlegal, -⟩ := h
  have hstage : ((s.starts t).tile t).stage = some st := (congrArg Tile.stage (s.starts_tile t t)).trans hst
  rw [State.starts] at hstage ⊢
  simp [State.runBundle, hlegal, hm, hv, Bundle.cOp, Bundle.vOp, hc, hop, hstage, usesCurve]

/-- A bundle with one operation of slot C alone completes as it executes. -/
theorem AtBundle.completes_scalar (h : AtBundle s t st b) (hr : s.ready = true) (hv : b.vEn = false) (hm : b.mEn = false)
    (hc : b.cEn = true) (hend : bits b.c 5 0 ≠ 0x1F) {i : Instr} (hi : Issues i t 2 (bits b.c 5 0)) {value pc : Nat}
    (hsrd : bits b.c 5 0 = 12 → (s.starts t).srd t st (bits b.c 27 16) = (value, ((s.starts t).tile t).latch))
    (hvalue : bits b.c 5 0 ≠ 12 → value = 0)
    (hpc : (pc : Int) = (s.rd Reg.FN_STAT_PC t : Int) + if cTaken st b.c = true then immOf b.c else 1)
    (hin : pc < s.rd Reg.CS_IMEM_SIZE t st.slot * 256) (hlt : pc < 2 ^ 14) :
    Completes i s (fun u => u.rd Reg.FN_STAT_PC t = pc ∧ BundleFrame s u t ∧ (u.tile t).stage = some (slotCStage st value b.c)) := by
  obtain ⟨y, hy, hrest, htile⟩ : ∃ y, (if bits b.c 5 0 = 12 then (((s.starts t).srd t st (bits b.c 27 16)).1,
        (s.starts t).setTile t { (s.starts t).tile t with latch := ((s.starts t).srd t st (bits b.c 27 16)).2 })
      else (0, s.starts t)) = (value, y) ∧ y = { s with regs := (s.starts t).regs, tiles := y.tiles } ∧ ∀ k, y.tile k = s.tile k := by
    by_cases h12 : bits b.c 5 0 = 12
    · refine ⟨_, by rw [if_pos h12, hsrd h12], by rw [s.starts_eq]; rfl, fun k => ?_⟩
      by_cases hk : k = t
      · rw [hk, State.tile_setTile_self, ← s.starts_tile t t]
      · rw [State.tile_setTile_ne _ _ hk, s.starts_tile]
    · exact ⟨_, by rw [if_neg h12, hvalue h12], s.starts_rest t, s.starts_tile t⟩
  have hrun := h.runBundle_scalar hv hm hc hend hy hpc hin
  have he : BundleEnds s (s.runBundle t st b) t (slotCStage st value b.c) := by
    rw [hrun]; exact (BundleEnds.of_setStage _ hrest htile).wr _ (by simp)
  refine ⟨_, h.exec_eq hi (.inr ⟨rfl, by simp [Bundle.cOp, hc]⟩) hr he, ?_, he.frame, he.stage⟩
  rw [hrun, State.rd_wr_self]
  exact Nat.mod_eq_of_lt hlt

end

section
namespace Sys2Proof.Machine

open Sys2Proof

theorem cTaken_of_not_branch (st : Stage) {c : Nat} (h : bits c 5 0 ≤ 12) : cTaken st c = false := by
  unfold cTaken
  generalize bits c 5 0 = op at h ⊢
  interval_cases op <;> rfl

end Sys2Proof.Machine
end

section
open Sys2Proof Sys2Proof.Machine

/-- An operation of slot C that writes SD: what the slot computes is what SD takes. -/
theorem scalarOp_of_value {cmd : Nat → Instr} {op : Nat} {f : Stage → Nat → Nat} (hi : ∀ t, Issues (cmd t) t 2 op)
    (hop : 1 ≤ op ∧ op ≤ 11) (hf : ∀ st c, bits c 5 0 = op → cValue st 0 c % 2 ^ 32 = f st c % 2 ^ 32) : ScalarOp cmd op f := by
  intro t st b s hr h hb hc hv hm
  have hb' : bits b.c 5 0 = op := by simpa [Bundle.cOp, hc] using hb
  obtain ⟨-, -, hrun, -, -, hlast, hlt, -⟩ := id h
  obtain ⟨u, hu, hpc, hframe, hst⟩ := h.completes_scalar hr hv hm hc (by omega) (hb' ▸ hi t) (value := 0) (pc := s.rd Reg.FN_STAT_PC t + 1)
    (fun h12 => by omega) (fun _ => rfl) (by simp [cTaken_of_not_branch st (c := b.c) (by omega)]) hlast hlt
  rw [slotCStage, if_pos (by omega)] at hst
  exact ⟨u, hu, hpc, hframe, _, hst, rfl, rfl, hrun, fun r hne => Stage.s_setS_ne _ _ hne, by rw [Stage.s_setS_self, hf st b.c hb']⟩

theorem scalarArithmetic : Clause.ScalarArithmetic := by
  refine ⟨?_, ?_, ?_, ?_, ?_, ?_⟩ <;> refine scalarOp_of_value (fun _ => ⟨rfl, fun _ => rfl⟩) (by decide) (fun st c hop => ?_) <;>
    simp [cValue, hop, regA, regB, cut, ofSigned]

theorem scalarShiftsAndLoads : Clause.ScalarShiftsAndLoads := by
  refine ⟨?_, ?_, ?_, ?_, ?_⟩ <;> refine scalarOp_of_value (fun _ => ⟨rfl, fun _ => rfl⟩) (by decide) (fun st c hop => ?_) <;>
    simp [cValue, hop, regA, cut, ofSigned]

/-- A branch goes where the slot says. -/
theorem branchOp_of_taken {cmd : Nat → Instr} {op : Nat} {taken : Stage → Nat → Bool} (hi : ∀ t, Issues (cmd t) t 2 op)
    (hop : 0x10 ≤ op ∧ op ≤ 0x14) (ht : ∀ st c, bits c 5 0 = op → cTaken st c = taken st c) : BranchOp cmd op taken := by
  intro t st b s hr h hb hc hv hm hlo hhi
  have hb' : bits b.c 5 0 = op := by simpa [Bundle.cOp, hc] using hb
  obtain ⟨-, -, -, -, -, hlast, hlt, -⟩ := id h
  have hpc : ∃ pc : Nat, (pc : Int) = (s.rd Reg.FN_STAT_PC t : Int) + (if cTaken st b.c = true then immOf b.c else 1) ∧
      pc < s.rd Reg.CS_IMEM_SIZE t st.slot * 256 ∧ pc < 2 ^ 14 := by
    by_cases htk : cTaken st b.c = true
    · rw [if_pos htk]
      exact ⟨((s.rd Reg.FN_STAT_PC t : Int) + immOf b.c).toNat, by omega, by omega, by omega⟩
    · rw [if_neg htk]
      exact ⟨s.rd Reg.FN_STAT_PC t + 1, by omega, hlast, hlt⟩
  obtain ⟨pc, hpc, hin, hlt'⟩ := hpc
  obtain ⟨u, hu, hrd, hframe, hst⟩ := h.completes_scalar hr hv hm hc (by omega) (hb' ▸ hi t) (value := 0) (fun h12 => by omega) (fun _ => rfl)
    hpc hin hlt'
  rw [slotCStage, if_neg (by omega)] at hst
  exact ⟨u, hu, hframe, hst, by rw [hrd, hpc, ht st b.c hb']⟩

/-- Settles O15: a branch goes to its target where slot C takes it, and END leaves PC and the registers of the stage as they were. -/
theorem branches : Obligations.Branches := by
  refine ⟨?_, ?_, ?_, ?_, ?_, fun t st b s hr h hb hc hv hm => ?_⟩
  case refine_6 =>
    have hb' : bits b.c 5 0 = 0x1F := by simpa [Bundle.cOp, hc] using hb
    have hrun := h.runBundle_end hv hm hc hb'
    have he : BundleEnds s (s.runBundle t st b) t { st with ended := true } := by
      rw [hrun]; exact (BundleEnds.of_setStage _ (s.starts_rest t) (s.starts_tile t)).wr _ (by simp)
    refine ⟨_, h.exec_eq ⟨rfl, fun _ => rfl⟩ (.inr ⟨rfl, hb⟩) hr he, he.frame, he.stage, ?_, ?_⟩
    · rw [hrun, State.rd_wr_self]; rfl
    · rw [hrun, State.rd_wr_ne _ _ (by simp [Field.key, Reg.FN_STAT_WAIT, Reg.FN_STAT_PC]), State.setStage_rd]
      exact s.starts_rd (by decide) rfl
  all_goals exact branchOp_of_taken (fun _ => ⟨rfl, fun _ => rfl⟩) (by decide) (fun st c hop => by unfold cTaken; simp only [hop] <;> rfl)

end

section
namespace Sys2Proof.Machine

open Sys2Proof

/-- The fields of a tile page that begin at bit 1 of a word end within it. -/
theorem tile_field_at_bit_one : ∀ f ∈ Reg.all, f.block = .tile → f.lo % 32 = 1 → f.lo = 1 ∧ f.width ≤ 31 := by decide +kernel

/-- WAIT lies in no other word of a tile page than that of FN_STAT. -/
theorem wordFields_key_ne_wait {off t : Nat} {x : Field × Nat × Nat} (hx : x ∈ wordFields .tile off) (h4 : off % 4 = 0)
    (hoff : off ≠ 0x110) : x.1.key t x.2.1 ≠ Reg.FN_STAT_WAIT.key t 0 := by
  simp only [wordFields, List.mem_filterMap] at hx
  obtain ⟨f, hf, hx⟩ := hx
  split at hx
  · cases hx
  next hin =>
    simp only [not_or, not_not, not_lt] at hin
    obtain ⟨hblock, hle⟩ := hin
    generalize hi : (if f.stride = 0 then 0 else (off - f.off) / f.stride) = i at hx
    split at hx
    next hk =>
      cases hx
      intro he
      have hle' : f.stride * i ≤ off - f.off := by
        rw [← hi]
        split
        · simp
        · exact Nat.mul_div_le ..
      simp only [Field.key, Reg.FN_STAT_WAIT, hblock] at he
      obtain ⟨hlo, hw⟩ := tile_field_at_bit_one f hf hblock (by omega)
      omega
    · cases hx

/-- At the start of a bundle no word of the tile page but that of FN_STAT changes, where the page counts nothing. -/
theorem State.starts_tileWord (s : State) {t off : Nat} (hen : s.rd Reg.PAGE_CNT_EN (tilePage t) = 0) (h4 : off % 4 = 0)
    (hoff : off ≠ 0x110) : (s.starts t).tileWord t off = s.tileWord t off := by
  have hno : (s.wr Reg.FN_STAT_WAIT t 0 0).rd Reg.PAGE_CNT_EN (tilePage t) = 0 := by
    rw [State.rd_wr_ne _ _ (by simp only [Field.key, Reg.PAGE_CNT_EN, Reg.FN_STAT_WAIT]; omega), hen]
  have hstarts : s.starts t = s.wr Reg.FN_STAT_WAIT t 0 0 := by
    rw [State.starts, State.count, State.countF, if_neg (by rw [hno]; decide)]
  rw [State.tileWord, hstarts]
  exact List.foldl_ext _ _ _ (fun v x hx => by rw [State.rd_wr_ne _ _ (wordFields_key_ne_wait hx h4 hoff)])

/-- SRD outside the context's counter view reads the word and leaves the latch. -/
theorem State.srd_of_not_view (s : State) (t : Nat) (st : Stage) {off : Nat} (h : off < 0x128 ∨ 0x400 ≤ off) :
    s.srd t st off = (s.tileWord t off, (s.tile t).latch) := by
  unfold State.srd
  rw [if_neg (by omega), if_neg (by omega), if_neg (by omega)]

end Sys2Proof.Machine
end

section
open Sys2Proof Sys2Proof.Machine

theorem scalarRegisterRead : Clause.ScalarRegisterRead := by
  intro t st b s hr h hb hc hv hm hoff hword hen hstat
  have hb' : bits b.c 5 0 = 12 := by simpa [Bundle.cOp, hc] using hb
  obtain ⟨-, -, -, -, hlegal, hlast, hlt, -⟩ := id h
  have h4 : bits b.c 27 16 % 4 = 0 := by
    simp only [Bundle.legal, hc, cLegal, hb', Bool.and_eq_true] at hlegal
    simp at hlegal
    omega
  have hsrd : (s.starts t).srd t st (bits b.c 27 16) = (s.tileWord t (bits b.c 27 16), ((s.starts t).tile t).latch) := by
    rw [State.srd_of_not_view _ _ _ hoff, s.starts_tileWord hen h4 hstat]
  obtain ⟨u, hu, hpc, hframe, hst⟩ := h.completes_scalar hr hv hm hc (by omega) (hb' ▸ ⟨rfl, fun _ => rfl⟩) (i := .srd t)
    (pc := s.rd Reg.FN_STAT_PC t + 1) (fun _ => hsrd) (fun hne => absurd hb' hne)
    (by simp [cTaken_of_not_branch st (c := b.c) (by omega)]) hlast hlt
  rw [slotCStage, if_pos (by omega)] at hst
  refine ⟨u, hu, hpc, hframe, _, hst, ?_, fun r hne => Stage.s_setS_ne _ _ hne, rfl, rfl⟩
  simp only [Stage.s_setS_self, cValue, hb']
  exact Nat.mod_eq_of_lt hword

/-- Settles O14: slot C writes SD from the registers before the bundle; SRD outside the counter view reads a word that the start of the
bundle does not change. -/
theorem scalarOperations : Obligations.ScalarOperations := ⟨scalarArithmetic, scalarShiftsAndLoads, scalarRegisterRead⟩

end

section
namespace Sys2Proof.Machine

open Sys2Proof

/-! ### Slot V lane by lane -/

theorem words_map {a : List Nat} (ha : a.length = 256) (f : Nat → Nat × Bool) :
    (a.map f).map Prod.fst = (List.range 256).map (fun i => (f (a.getD i 0)).1) := by
  refine List.ext_getElem (by simp [ha]) (fun i h1 h2 => ?_)
  simp only [List.length_map] at h1
  simp [h1]

theorem words_zipWith {a b : List Nat} (ha : a.length = 256) (hb : b.length = 256) (f : Nat → Nat → Nat × Bool) :
    (List.zipWith f a b).map Prod.fst = (List.range 256).map (fun i => (f (a.getD i 0) (b.getD i 0)).1) := by
  refine List.ext_getElem (by simp [ha, hb]) (fun i h1 h2 => ?_)
  have hi : i < 256 := by simpa using h2
  simp [ha, hb, hi]

theorem words_zipWith_zip {a b c : List Nat} (ha : a.length = 256) (hb : b.length = 256) (hc : c.length = 256)
    (f : Nat → Nat × Nat → Nat × Bool) :
    (List.zipWith f a (b.zip c)).map Prod.fst = (List.range 256).map (fun i => (f (a.getD i 0) (b.getD i 0, c.getD i 0)).1) := by
  refine List.ext_getElem (by simp [ha, hb, hc]) (fun i h1 h2 => ?_)
  have hi : i < 256 := by simpa using h2
  simp [ha, hb, hc, hi]

theorem words_mapIdx_zip {a b : List Nat} (ha : a.length = 256) (hb : b.length = 256) (f : Nat → Nat × Nat → Nat × Bool) :
    ((a.zip b).mapIdx f).map Prod.fst = (List.range 256).map (fun i => (f i (a.getD i 0, b.getD i 0)).1) := by
  refine List.ext_getElem (by simp [ha, hb]) (fun i h1 h2 => ?_)
  have hi : i < 256 := by simpa using h2
  simp [ha, hb, hi]

theorem words_replicate (x : Nat) (n : Bool) :
    (List.replicate 256 (x, n)).map Prod.fst = (List.range 256).map (fun _ => x) := by
  rw [List.map_replicate, List.map_const', List.length_range]

/-- Bit `i` of packed bits is element `i`. -/
theorem bit_packElems_one (l : List Nat) (i : Nat) : bit (packElems 1 l) i = l.getD i 0 % 2 := by
  induction l generalizing i with
  | nil => simp [packElems, bit]
  | cons c r ih =>
    cases i with
    | zero => simp [packElems, bit]
    | succ i =>
      have hd : packElems 1 (c :: r) / 2 = packElems 1 r := by simp only [packElems]; omega
      rw [List.getD_cons_succ, ← ih, bit, bit, Nat.pow_succ', ← Nat.div_div_eq_div_mul, hd]

/-- An operation of slot V other than VCMP and VCVT writes, in each lane, its result where the mask selects the lane, and keeps the lane
elsewhere; VSEL writes every lane. -/
theorem vWrite_lane {st : Stage} {img : List Byte} {g : Gen} {v : Nat} {f : Nat → Nat} (h9 : bits v 7 0 ≠ 9) (h18 : bits v 7 0 ≠ 0x18)
    (hw : (vLanes st img v).map Prod.fst = (List.range 256).map f) :
    ∃ new, (vWrite st img g v).1 = st.setV (bits v 13 8) new ∧
      ∀ i < 256, new.getD i 0 =
        if (bits v 7 0 == 0x0A) || bit (st.m (bits v 34 32)) i == 1 then f i else (st.v (bits v 13 8)).getD i 0 := by
  have hl : (vLanes st img v).length = 256 := by simpa using congrArg List.length hw
  refine ⟨_, by simp only [vWrite, if_neg h9, if_neg h18]; rfl, fun i hi => ?_⟩
  have hf : ((vLanes st img v)[i]'(by omega)).1 = f i := by
    have := List.getElem_of_eq hw (i := i) (by simpa [hl] using hi)
    simpa using this
  rw [List.getD_eq_getElem _ _ (by simpa [hl] using hi), List.getElem_mapIdx, hf]

end Sys2Proof.Machine
end

section
open Sys2Proof Sys2Proof.Machine

/-- A bundle with one operation of slot V alone completes with what the slot writes. -/
theorem AtBundle.completes_vector {s : State} {t : Nat} {st : Stage} {b : Bundle} (h : AtBundle s t st b) (hr : s.ready = true)
    (hv : b.vEn = true) (hm : b.mEn = false) (hc : b.cEn = false) {i : Instr} (hi : Issues i t 0 b.vOp) {img : Option (List Byte)}
    (himg : (s.tile t).curveImg st.slot (bits b.v 40 38) = img) (hu : usesCurve b.vOp = true → img.isSome = true) :
    Completes i s (fun u => u.rd Reg.FN_STAT_PC t = s.rd Reg.FN_STAT_PC t + 1 ∧ BundleFrame s u t ∧
      (u.tile t).stage = some (vWrite st (img.getD [])
        (s.gen st.ctx (s.rd Reg.CTX_STEP_NUM st.ctx) (st.s 30 % 2 ^ 16) (st.s 30 / 2 ^ 16)) b.v).1) := by
  have hctx : ∀ f ∈ [Reg.CTX_STEP_NUM, Reg.CTX_SEED_LO, Reg.CTX_SEED_HI], (s.starts t).rd f st.ctx = s.rd f st.ctx := by
    intro f hf
    simp only [List.mem_cons, List.not_mem_nil, or_false] at hf
    rcases hf with rfl | rfl | rfl <;>
      exact s.starts_rd_ne (by simp only [Field.key, Reg.CTX_STEP_NUM, Reg.CTX_SEED_LO, Reg.CTX_SEED_HI, Reg.FN_STAT_WAIT]; omega)
        (by simp only [Field.key, Reg.CTX_STEP_NUM, Reg.CTX_SEED_LO, Reg.CTX_SEED_HI, Reg.CNT_N]; omega)
  have hgen : (s.starts t).gen st.ctx ((s.starts t).rd Reg.CTX_STEP_NUM st.ctx) (st.s 30 % 2 ^ 16) (st.s 30 / 2 ^ 16) =
      s.gen st.ctx (s.rd Reg.CTX_STEP_NUM st.ctx) (st.s 30 % 2 ^ 16) (st.s 30 / 2 ^ 16) := by
    simp only [State.gen, hctx Reg.CTX_STEP_NUM (by simp), hctx Reg.CTX_SEED_LO (by simp), hctx Reg.CTX_SEED_HI (by simp)]
  obtain ⟨-, -, -, -, -, -, hlt, -⟩ := id h
  have hrun := h.runBundle_vector hv hm hc himg hu hgen
  generalize vWrite st (img.getD []) _ b.v = r at hrun ⊢
  have he : BundleEnds s (s.runBundle t st b) t r.1 := by
    rw [hrun]; exact ((BundleEnds.of_setStage _ (s.starts_rest t) (s.starts_tile t)).flagged _ _).wr _ (by simp)
  refine ⟨_, h.exec_eq hi (.inl ⟨rfl, rfl⟩) hr he, ?_, he.frame, he.stage⟩
  rw [hrun, State.rd_wr_self]
  exact Nat.mod_eq_of_lt hlt

/-- A vector operation is what slot V computes in each lane. -/
theorem vectorOp_of_words {cmd : Nat → Instr} {op : Nat} {all : Bool} {f : Stage → List Byte → Nat → Nat → Nat}
    (hi : ∀ t, Issues (cmd t) t 0 op) (hop : op ≠ 9 ∧ op ≠ 0x18 ∧ (op == 0x0A) = all)
    (hw : ∀ st img img' v, bits v 7 0 = op → (usesCurve op = true → img' = img) → (∀ r, (st.v r).length = 256) →
      (vLanes st img' v).map Prod.fst = (List.range 256).map (f st img v)) : VectorOp cmd op all f := by
  intro t st b img s hr h hb hv hm hc himg
  have hb' : bits b.v 7 0 = op := by simpa [Bundle.vOp, hv] using hb
  obtain ⟨h9, h18, hall⟩ := hop
  obtain ⟨-, -, hrun, -, -, -, -, hlanes⟩ := id h
  obtain ⟨u, hu, hpc, hframe, hst⟩ := h.completes_vector hr hv hm hc (hb ▸ hi t) rfl (fun hc => by rw [himg (hb ▸ hc)]; rfl)
  obtain ⟨new, hnew, hval⟩ := vWrite_lane (g := s.gen st.ctx (s.rd Reg.CTX_STEP_NUM st.ctx) (st.s 30 % 2 ^ 16) (st.s 30 / 2 ^ 16))
    (hb' ▸ h9) (hb' ▸ h18) (hw st img (((s.tile t).curveImg st.slot (bits b.v 40 38)).getD []) b.v hb' (fun hc => by rw [himg hc]; rfl) hlanes)
  refine ⟨u, hu, hpc, hframe, _, hst.trans (congrArg some hnew), rfl, rfl, hrun, fun r hlt hne =>
    Stage.v_setV_ne _ _ hlt (bits_lt b.v 13 8) hne, fun i hlt => ?_⟩
  rw [Stage.v_setV_self, hval i hlt, hb', hall]

theorem vectorArithmetic : Clause.VectorArithmetic := by
  refine ⟨?_, ?_, ?_, ?_⟩ <;> refine vectorOp_of_words (fun _ => ⟨rfl, fun _ => rfl⟩) (by decide) (fun st img img' v hop _ hl => ?_) <;>
    simp only [vLanes, hop]
  case refine_4 => exact words_zipWith_zip (hl _) (hl _) (hl _) _
  all_goals exact words_zipWith (hl _) (hl _) _

theorem vectorExtremesAndSigns : Clause.VectorExtremesAndSigns := by
  refine ⟨?_, ?_, ?_, ?_⟩ <;> refine vectorOp_of_words (fun _ => ⟨rfl, fun _ => rfl⟩) (by decide) (fun st img img' v hop _ hl => ?_) <;>
    simp only [vLanes, hop]
  case refine_1 | refine_2 => exact words_zipWith (hl _) (hl _) _
  all_goals exact words_map (hl _) _

theorem vectorMoves : Clause.VectorMoves := by
  refine ⟨?_, ?_, ?_, ?_⟩ <;> refine vectorOp_of_words (fun _ => ⟨rfl, fun _ => rfl⟩) (by decide) (fun st img img' v hop _ hl => ?_) <;>
    simp only [vLanes, hop]
  · exact words_mapIdx_zip (hl _) (hl _) _
  · exact words_replicate _ _
  · exact words_map (hl _) _
  · exact words_map (hl _) _

theorem vectorReductions : Clause.VectorReductions := by
  refine ⟨?_, ?_⟩ <;> refine vectorOp_of_words (fun _ => ⟨rfl, fun _ => rfl⟩) (by decide) (fun st img img' v hop _ hl => ?_) <;>
    simp only [vLanes, hop] <;> exact words_replicate _ _

theorem vectorLogic : Clause.VectorLogic := by
  refine ⟨?_, ?_, ?_, ?_, ?_, ?_⟩ <;>
    refine vectorOp_of_words (fun _ => ⟨rfl, fun _ => rfl⟩) (by decide) (fun st img img' v hop _ hl => ?_) <;>
    simp only [vLanes, hop] <;> exact words_zipWith (hl _) (hl _) _

/-- Settles O12: the slot's results are its operation lane by lane, and the lanes of the mask take them. -/
theorem vectorRegisterOperations : Obligations.VectorRegisterOperations :=
  ⟨vectorArithmetic, vectorExtremesAndSigns, vectorMoves, vectorReductions, vectorLogic⟩

theorem vectorCurves : Clause.VectorCurves := by
  refine ⟨?_, ?_, ?_, ?_, ?_⟩ <;> refine vectorOp_of_words (fun _ => ⟨rfl, fun _ => rfl⟩) (by decide) (fun st img img' v hop hc hl => ?_) <;>
    obtain rfl := hc rfl <;> simp only [vLanes, hop] <;> exact words_map (hl _) _

theorem vectorConversions : Clause.VectorConversions := by
  refine ⟨?_, ?_, ?_⟩ <;> refine vectorOp_of_words (fun _ => ⟨rfl, fun _ => rfl⟩) (by decide) (fun st img img' v hop _ hl => ?_) <;>
    simp only [vLanes, hop]
  case refine_3 => simp
  all_goals exact words_map (hl _) _

theorem vectorCompareAndPack : Clause.VectorCompareAndPack := by
  intro t st b s hr h hv hm hc
  obtain ⟨-, -, -, -, hlegal, -, -, hl⟩ := id h
  refine ⟨fun hop => ?_, fun hop hmx => ?_⟩
  · have hop' : bits b.v 7 0 = 9 := by simpa [Bundle.vOp, hv] using hop
    have hd : bits b.v 13 8 % 8 ≠ 0 := by
      have hlow : bits b.v 13 8 % 8 = bits b.v 10 8 := Nat.mod_mod_of_dvd _ (by decide)
      simp [Bundle.legal, hv, vLegal, hop'] at hlegal
      omega
    obtain ⟨u, hu, hpc, hframe, hst⟩ := h.completes_vector (i := .vcmp t) hr hv hm hc (hop ▸ ⟨rfl, fun _ => rfl⟩) rfl
      (fun hc => absurd (hop ▸ hc) (by decide))
    simp only [vWrite, if_pos hop'] at hst
    refine ⟨u, hu, hpc, hframe, _, hst, ?_, ?_, st.m_setM_zero _ _, fun r hlt hne => st.m_setM_ne _ hne, fun i hi => ?_⟩
    · unfold Stage.setM; rw [if_neg hd]
    · unfold Stage.setM; rw [if_neg hd]
    · rw [st.m_setM_self _ hd, bit_packElems_one, List.getD_eq_getElem _ _ (by simp [hl, hi]), List.getElem_mapIdx, List.getElem_zip]
      have hlane : ∀ r, (st.v r).getD i 0 = (st.v r)[i]'(by rw [hl]; exact hi) := fun r => List.getD_eq_getElem _ _ _
      simp only [laneA, laneB, typeOf, hlane]
      have := bit_lt (st.m (bits b.v 13 8 % 8)) i
      split
      · split <;> rfl
      · omega
  · have hop' : bits b.v 7 0 = 0x18 := by simpa [Bundle.vOp, hv] using hop
    obtain ⟨u, hu, hpc, hframe, hst⟩ := h.completes_vector (i := .vcvt t) hr hv hm hc (hop ▸ ⟨rfl, fun _ => rfl⟩) rfl
      (fun hc => absurd (hop ▸ hc) (by decide))
    simp only [vWrite, hop', hmx] at hst
    refine ⟨u, hu, hpc, hframe, _, hst, rfl, rfl, fun r hlt hne => Stage.v_setV_ne _ _ hlt (bits_lt b.v 13 8) hne, Stage.v_setV_self ..⟩

/-- Settles O13: the curve that the bundle names is the one evaluated, VCMP packs its bits into the mask register, and VCVT packs VD. -/
theorem vectorCurvesAndFormats : Obligations.VectorCurvesAndFormats := ⟨vectorCurves, vectorConversions, vectorCompareAndPack⟩

end

section
namespace Sys2Proof.Machine

open Sys2Proof

/-! PROOFS. Pegs: what a bundle reads of them at its start, what a post to a peg leaves alone, and what the four operations of slot M do. -/

@[simp] theorem State.starts_pegOf (s : State) (t n p : Nat) : (s.starts t).pegOf t n p = s.pegOf t n p := by
  have hn : (s.starts t).rd Reg.CS_PEG_N t n = s.rd Reg.CS_PEG_N t n := s.starts_rd (by decide) rfl
  have hb : (s.starts t).rd Reg.CS_PEG_BASE t n = s.rd Reg.CS_PEG_BASE t n := s.starts_rd (by decide) rfl
  rw [State.pegOf, hn, hb, State.pegOf]

@[simp] theorem State.starts_pegCount (s : State) (t g : Nat) : (s.starts t).rd Reg.PEG_COUNT t g = s.rd Reg.PEG_COUNT t g :=
  s.starts_rd (by decide) rfl

/-- The slots of a tile depend on VALID and CTX of its sixteen slots alone. -/
theorem State.slotOf_congr {s u : State} {k : Nat} (c : Nat) (h : ∀ n < 16, u.rd Reg.CS_VALID k n = s.rd Reg.CS_VALID k n ∧
    u.rd Reg.CS_CTX k n = s.rd Reg.CS_CTX k n) : u.slotOf k c = s.slotOf k c := by
  refine List.find?_congr (fun n hn => ?_)
  obtain ⟨hv, hc⟩ := h n (by simpa using hn)
  rw [State.rdB_eq, State.rdB_eq, hv, hc]

@[simp] theorem State.starts_slotOf (s : State) (t k c : Nat) : (s.starts t).slotOf k c = s.slotOf k c := by
  refine State.slotOf_congr c (fun n hn => ⟨s.starts_rd_ne ?_ ?_, s.starts_rd_ne ?_ ?_⟩) <;>
    simp only [Field.key, Reg.CS_VALID, Reg.CS_CTX, Reg.FN_STAT_WAIT, Reg.CNT_N, Block.base, tilePage] <;> omega

/-- The darn map of a logical tile stands on its own page. -/
theorem State.starts_darn (s : State) {t l : Nat} {f : Field} (hf : f ∈ [Reg.DARN_PHYS, Reg.DARN_PRESENT]) (hl : l < 160) :
    (s.starts t).rd f 0 l = s.rd f 0 l := by
  simp only [List.mem_cons, List.not_mem_nil, or_false] at hf
  rcases hf with rfl | rfl <;> apply s.starts_rd_ne <;>
    simp only [Field.key, Reg.DARN_PHYS, Reg.DARN_PRESENT, Reg.FN_STAT_WAIT, Reg.CNT_N, Block.base, tilePage] <;> omega

theorem State.lt_of_slotOf {s : State} {t c n : Nat} (h : s.slotOf t c = some n) : n < 16 := by
  simpa using List.mem_of_find?_eq_some h

/-! ### HIWATER and posts -/

theorem State.highWater_eq (s : State) (t slot p : Nat) : s.highWater t slot p = { s with regs := (s.highWater t slot p).regs } := by
  refine List.foldlRecOn (motive := fun u : State => u = { s with regs := u.regs }) _ _ rfl (fun u hu q _ => ?_)
  split
  · rw [hu]; rfl
  · exact hu

theorem State.highWater_rd_ne (s : State) {t slot p : Nat} {f : Field} {i j : Nat} (h : ∀ q < 16, f.key i j ≠ Reg.RQ_HIWATER.key t q) :
    (s.highWater t slot p).rd f i j = s.rd f i j := by
  refine List.foldlRecOn (motive := fun u : State => u.rd f i j = s.rd f i j) _ _ rfl (fun u hu q hq => ?_)
  split
  · rw [State.rd_wr_ne _ _ (h q (by simpa using hq)), hu]
  · exact hu

/-- What a post to a peg changes: the registers at these places. -/
def postKeys (t g : Nat) : List Nat := [Reg.PEG_COUNT.key t g, Reg.PEG_HELD.key t g] ++ (List.range 16).map (fun q => Reg.RQ_HIWATER.key t q)

/-- A post that finds its peg with room for it. -/
theorem State.postPeg_of_peg {s : State} {t c p n slot g : Nat} (hslot : s.slotOf t c = some slot) (hg : s.pegOf t slot p = some g)
    (hroom : s.rd Reg.PEG_COUNT t g + n < 2 ^ 24) :
    s.postPeg t c p n = (s.wr Reg.PEG_COUNT t g (s.rd Reg.PEG_COUNT t g + n)).highWater t slot p := by
  simp only [State.postPeg, hslot, hg]
  exact if_neg (by omega)

theorem State.rd_postPeg_ne {s : State} {t slot p g v : Nat} {f : Field} {i j : Nat} (h : f.key i j ∉ postKeys t g) :
    ((s.wr Reg.PEG_COUNT t g v).highWater t slot p).rd f i j = s.rd f i j := by
  simp only [postKeys, List.cons_append, List.nil_append, List.mem_cons, List.mem_map, List.mem_range, not_or, not_exists, not_and] at h
  obtain ⟨hc, -, hq⟩ := h
  rw [State.highWater_rd_ne _ (fun q hlt he => hq q hlt he.symm), State.rd_wr_ne _ _ hc]

/-- A field of a context slot is touched by no post. -/
theorem slotField_not_mem_postKeys {t g n : Nat} {f : Field} (hf : f ∈ [Reg.CS_VALID, Reg.CS_CTX, Reg.CS_PEG_N, Reg.CS_PEG_BASE]) (hn : n < 16) :
    f.key t n ∉ postKeys t g := by
  simp only [postKeys, List.cons_append, List.nil_append, List.mem_cons, List.mem_map, List.mem_range, not_or, not_exists, not_and]
  simp only [List.mem_cons, List.not_mem_nil, or_false] at hf
  rcases hf with rfl | rfl | rfl | rfl <;> refine ⟨?_, ?_, fun q hq => ?_⟩ <;>
    simp only [Field.key, Reg.CS_VALID, Reg.CS_CTX, Reg.CS_PEG_N, Reg.CS_PEG_BASE, Reg.PEG_COUNT, Reg.PEG_HELD, Reg.RQ_HIWATER] <;> omega

/-- A post by the open stage's own work is noted in the stage. -/
theorem State.postOwn_of_peg {s : State} {t p n g : Nat} {st : Stage} (hst : (s.tile t).stage = some st) (hslot : s.slotOf t st.ctx = some st.slot)
    (hg : s.pegOf t st.slot p = some g) (hn : n ≠ 0) (hroom : s.rd Reg.PEG_COUNT t g + n < 2 ^ 24) :
    s.postOwn t st.ctx p n = (((s.wr Reg.PEG_COUNT t g (s.rd Reg.PEG_COUNT t g + n)).highWater t st.slot p).setStage t
      { st with posts := (g, n) :: st.posts }).wr Reg.PEG_HELD t g 1 := by
  have hpost := State.postPeg_of_peg hslot hg hroom
  generalize hy : (s.wr Reg.PEG_COUNT t g (s.rd Reg.PEG_COUNT t g + n)).highWater t st.slot p = y at hpost ⊢
  have hrest : y = { s with regs := y.regs } := by
    have h := State.highWater_eq (s.wr Reg.PEG_COUNT t g (s.rd Reg.PEG_COUNT t g + n)) t st.slot p
    rw [hy] at h; exact h
  have hlt := State.lt_of_slotOf hslot
  have hrd : ∀ f ∈ [Reg.CS_VALID, Reg.CS_CTX, Reg.CS_PEG_N, Reg.CS_PEG_BASE], ∀ k < 16, y.rd f t k = s.rd f t k := by
    intro f hf k hk
    rw [← hy, State.rd_postPeg_ne (slotField_not_mem_postKeys hf hk)]
  have hslot' : y.slotOf t st.ctx = some st.slot :=
    (State.slotOf_congr _ (fun k hk => ⟨hrd _ (by simp) k hk, hrd _ (by simp) k hk⟩)).trans hslot
  have hg' : y.pegOf t st.slot p = some g := by
    rw [State.pegOf, hrd _ (by simp) _ hlt, hrd _ (by simp) _ hlt]; exact hg
  have htile : y.tile t = s.tile t := by rw [hrest]; rfl
  have hdue : y.due = s.due := by rw [hrest]
  simp [State.postOwn, hn, hpost, hdue, htile, hst, hslot', hg', State.setStage]

/-! ### What slot M does with pegs -/

theorem State.mExec_ptake {s : State} {t : Nat} {st : Stage} {m g : Nat} (hop : bits m 5 0 = 9) (hg : s.pegOf t st.slot (bits m 37 32) = some g) :
    s.mExec t st m = (((s.wr Reg.PEG_COUNT t g (s.rd Reg.PEG_COUNT t g - bits m 24 17)).wr Reg.PEG_HELD t g 1).setStage t
      { st with takes := (g, bits m 24 17) :: st.takes }, none) := by
  simp [State.mExec, hop, hg]

theorem State.mExec_pwait {s : State} {t : Nat} {st : Stage} {m g : Nat} (hop : bits m 5 0 = 10)
    (hg : s.pegOf t st.slot (bits m 37 32) = some g) : s.mExec t st m = (s, none) := by
  simp [State.mExec, hop, hg]

theorem State.mExec_ppost (s : State) (t : Nat) (st : Stage) {m : Nat} (hop : bits m 5 0 = 11) :
    s.mExec t st m = (s.postOwn t st.ctx (bits m 37 32) (bits m 24 17), none) := by
  simp [State.mExec, hop]

theorem State.mExec_ppostr {s : State} {t : Nat} {st : Stage} {m : Nat} (hop : bits m 5 0 = 12)
    (hp : s.present (st.s (bits m 16 12)) = true) (hs : (s.slotOf (s.phys (st.s (bits m 16 12))) st.ctx).isSome = true)
    (hd : st.deferred.length < 64) :
    s.mExec t st m = (s.setStage t { st with deferred := st.deferred ++ [.post (st.s (bits m 16 12)) (bits m 37 32) (bits m 24 17)] }, none) := by
  simp [State.mExec, hop, hp, Option.isSome_iff_ne_none.mp hs, Nat.not_le.mpr hd]

theorem State.mWaits_ptake {s : State} {t : Nat} {st : Stage} {m g : Nat} (hop : bits m 5 0 = 9) (hg : s.pegOf t st.slot (bits m 37 32) = some g) :
    s.mWaits t st m = if s.rd Reg.PEG_COUNT t g < bits m 24 17 then 1 else 0 := by
  simp [State.mWaits, hop, hg]

theorem State.mWaits_pwait {s : State} {t : Nat} {st : Stage} {m g : Nat} (hop : bits m 5 0 = 10)
    (hg : s.pegOf t st.slot (bits m 37 32) = some g) :
    s.mWaits t st m = if s.rd Reg.PEG_COUNT t g < st.s (bits m 16 12) then 1 else 0 := by
  simp [State.mWaits, hop, hg]

theorem State.mWaits_post (s : State) (t : Nat) (st : Stage) {m : Nat} (hop : bits m 5 0 = 11 ∨ bits m 5 0 = 12) : s.mWaits t st m = 0 := by
  rcases hop with hop | hop <;> simp [State.mWaits, hop]

end Sys2Proof.Machine
end

section
open Sys2Proof Sys2Proof.Machine

variable {s : State} {t : Nat} {st now : Stage} {b : Bundle} {op : Nat} {ks : List Nat}

/-- Slot M leaves registers of pegs and receive queues changed at most, and the stage `now`. -/
theorem ActsM.of_regs {z : State} {g : Nat} (hz : z = { s with regs := z.regs })
    (hk : RegsKeep (s.starts t) z ks) (hks : ∀ k ∈ ks, k ∈ postKeys t g) (hv : now.vreg = st.vreg) (hm : now.mreg = st.mreg) :
    ActsM s (z.setStage t now) t st now ks where
  rest := by rw [hz]; rfl
  regs := hk
  pages := by
    intro k hmem
    have hin := hks k hmem
    simp only [postKeys, List.cons_append, List.nil_append, List.mem_cons, List.mem_map] at hin
    rcases hin with rfl | rfl | ⟨q, -, rfl⟩ <;>
      simp only [Field.key, Reg.PEG_COUNT, Reg.PEG_HELD, Reg.RQ_HIWATER, Block.base] <;> omega
  wait := by
    intro hmem
    have hin := hks _ hmem
    simp only [postKeys, List.cons_append, List.nil_append, List.mem_cons, List.mem_map, Field.key, Reg.PEG_COUNT, Reg.PEG_HELD,
      Reg.RQ_HIWATER, Reg.FN_STAT_WAIT] at hin
    omega
  size := by
    intro hmem
    have hin := hks _ hmem
    simp only [postKeys, List.cons_append, List.nil_append, List.mem_cons, List.mem_map, Field.key, Reg.PEG_COUNT, Reg.PEG_HELD,
      Reg.RQ_HIWATER, Reg.CS_IMEM_SIZE] at hin
    omega
  others k hk := by rw [State.tile_setStage_ne _ _ hk, hz]; rfl
  stage := by rw [State.tile_setStage_self]
  vreg := hv
  mreg := hm
  press := by rw [State.tile_setStage_self, hz]; rfl

/-- A command of slot M with another operation than the bundle's executes nothing. -/
theorem SlotM.finisher_of_ne (h : SlotM s t st b op) {op' : Nat} (hne : op ≠ op') : s.finisher t 1 op' = s := by
  obtain ⟨⟨hrun, hst, hend, hb, hlegal, -⟩, hop, hm, -⟩ := h
  simp [State.finisher, hrun, hst, hend, hb, hlegal, hop, hm, hne]

/-- WAIT is no part of what a command of slot M looks at. -/
theorem SlotM.wr_wait (h : SlotM s t st b op) (w : Nat) : SlotM (s.wr Reg.FN_STAT_WAIT t 0 w) t st b op := by
  have hlt := h.tile_lt
  obtain ⟨⟨hrun, hst, hend, hb, hlegal, hlast, hin, hl⟩, hslot⟩ := h
  have hrd : ∀ f ∈ [Reg.FN_STAT_PC, Reg.CS_IMEM_SIZE, Reg.CS_IMEM_BASE], ∀ j,
      (s.wr Reg.FN_STAT_WAIT t 0 w).rd f t j = s.rd f t j := by
    intro f hf j
    simp only [List.mem_cons, List.not_mem_nil, or_false] at hf
    rcases hf with rfl | rfl | rfl <;> apply State.rd_wr_ne <;>
      simp only [Field.key, Reg.FN_STAT_PC, Reg.CS_IMEM_SIZE, Reg.CS_IMEM_BASE, Reg.FN_STAT_WAIT] <;> omega
  have hpow : ∀ f ∈ [Reg.PWR_PD_ON, Reg.FLT_HALTED, Reg.DARN_FUSE_LO, Reg.DARN_FUSE_HI, Reg.DARN_GROWN_LO, Reg.DARN_GROWN_HI], ∀ d,
      (s.wr Reg.FN_STAT_WAIT t 0 w).rd f 0 d = s.rd f 0 d := by
    intro f hf d
    simp only [List.mem_cons, List.not_mem_nil, or_false] at hf
    rcases hf with rfl | rfl | rfl | rfl | rfl | rfl <;> apply State.rd_wr_ne <;>
      simp only [Field.key, Reg.PWR_PD_ON, Reg.FLT_HALTED, Reg.DARN_FUSE_LO, Reg.DARN_FUSE_HI, Reg.DARN_GROWN_LO, Reg.DARN_GROWN_HI,
        Reg.FN_STAT_WAIT] <;> omega
  refine ⟨⟨?_, hst, hend, ?_, hlegal, ?_, ?_, hl⟩, hslot⟩
  · rw [← hrun]
    simp only [State.tileRuns, State.powered, State.domainOn, hpow _ (by simp : Reg.PWR_PD_ON ∈ _), hpow _ (by simp : Reg.FLT_HALTED ∈ _),
      hpow _ (by simp : Reg.DARN_FUSE_LO ∈ _), hpow _ (by simp : Reg.DARN_FUSE_HI ∈ _), hpow _ (by simp : Reg.DARN_GROWN_LO ∈ _),
      hpow _ (by simp : Reg.DARN_GROWN_HI ∈ _)]
    rfl
  · rw [← hb]
    simp only [State.bundleAt, hrd _ (by simp : Reg.FN_STAT_PC ∈ _), hrd _ (by simp : Reg.CS_IMEM_SIZE ∈ _),
      hrd _ (by simp : Reg.CS_IMEM_BASE ∈ _)]
    rfl
  · rw [hrd _ (by simp), hrd _ (by simp)]; exact hlast
  · rw [hrd _ (by simp)]; exact hin

/-- A bundle whose slot M acts no longer waits. -/
theorem SlotM.wait_of_acts (h : SlotM s t st b op) (hw : s.mWaits t st b.m = 0) {y : State}
    (hx : (s.starts t).mExec t st b.m = (y, none)) (ha : ActsM s y t st now ks) : (s.runBundle t st b).rd Reg.FN_STAT_WAIT t = 0 := by
  obtain ⟨hy, hk, -, hkw, hkz, -, hst, hv, hm, -⟩ := ha
  have hsize : y.rd Reg.CS_IMEM_SIZE t st.slot = s.rd Reg.CS_IMEM_SIZE t st.slot := by
    rw [hk _ _ _ hkz (fun p n _ => by simp only [Field.key, Reg.CS_IMEM_SIZE, Reg.CNT_N]; omega)]
    exact s.starts_rd (by decide) rfl
  rw [h.runBundle_of_acts hw hx (by rw [hy]) hst hv hm hsize, State.rd_wr_ne _ _ (by simp [Field.key, Reg.FN_STAT_WAIT, Reg.FN_STAT_PC]),
    State.setStage_rd, hk _ _ _ hkw (fun p n _ => by simp only [Field.key, Reg.FN_STAT_WAIT, Reg.CNT_N]; omega)]
  exact s.starts_wait t

/-- PEG_WAIT_END lets the waiting bundle do what its own command would, R82. -/
theorem SlotM.exec_pegWaitEnd (h : SlotM s t st b op) {i : Instr} (hi : IssuesM i t op) (hr : s.ready = true)
    (hwait : s.rd Reg.FN_STAT_WAIT t = 1)
    (hop : op = 9 ∧ ((s.runBundle t st b).rd Reg.FN_STAT_WAIT t = 0 ∨ s.mWaits t st b.m ≠ 0) ∨ op = 10) :
    exec (.pegWaitEnd t) s = exec i s := by
  have hend : s.pegWaitEnd t = s.finisher t 1 op := by
    rw [h.finisher]
    rcases hop with ⟨rfl, hgo | hgo⟩ | rfl
    · simp [State.pegWaitEnd, hwait, h.finisher, hgo]
    · rw [h.runBundle_of_waits hgo]
      simp [State.pegWaitEnd, hwait, h.finisher, h.runBundle_of_waits hgo, (h.wr_wait _).finisher_of_ne (show 9 ≠ 10 by decide)]
    · simp [State.pegWaitEnd, hwait, h.finisher_of_ne (show 10 ≠ 9 by decide), h.finisher]
  obtain ⟨hpor, -⟩ := s.ready_iff.mp hr
  obtain ⟨hwf, hexec⟩ := hi
  have hfin : s.pegEnd t = s.finish t 1 op := by simp only [State.pegEnd, State.finish, hend]
  have hserve : exec (.pegWaitEnd t) s = s.serve (.pegWaitEnd t) (fun s => s.pegEnd t) := rfl
  rw [hexec, hserve, State.serve_of_ready s i _ hpor (by simp [hwf, h.tile_lt]),
    State.serve_of_ready s _ _ hpor (by simp [Instr.wellFormed, h.tile_lt]), hfin]

end

section
open Sys2Proof Sys2Proof.Machine

theorem pegCount_key_ne_pc (t g : Nat) : Reg.PEG_COUNT.key t g ≠ Reg.FN_STAT_PC.key t 0 := by
  simp only [Field.key, Reg.PEG_COUNT, Reg.FN_STAT_PC]; omega

/-- PTAKE that finds enough. -/
theorem SlotM.acts_ptake {s : State} {t : Nat} {st : Stage} {b : Bundle} (h : SlotM s t st b 9) {g : Nat}
    (hg : s.pegOf t st.slot (bits b.m 37 32) = some g) :
    ∃ y, (s.starts t).mExec t st b.m = (y, none) ∧ y.rd Reg.PEG_COUNT t g = (s.rd Reg.PEG_COUNT t g - bits b.m 24 17) % 2 ^ 24 ∧
      y.pantry = s.pantry ∧ ActsM s y t st { st with takes := (g, bits b.m 24 17) :: st.takes } [Reg.PEG_COUNT.key t g, Reg.PEG_HELD.key t g] := by
  obtain ⟨⟨-, hst, -⟩, -⟩ := id h
  refine ⟨_, State.mExec_ptake h.bits_m ((s.starts_pegOf ..).trans hg), ?_, s.starts_pantry t, .of_regs (g := g) ?_ ?_ ?_ rfl rfl⟩
  · rw [State.setStage_rd, State.rd_wr_ne _ _ (by simp [Field.key, Reg.PEG_COUNT, Reg.PEG_HELD]), State.rd_wr_self, s.starts_pegCount]; rfl
  · rw [s.starts_eq]; rfl
  · intro f i j hk _
    simp only [List.mem_cons, List.not_mem_nil, or_false, not_or] at hk
    rw [State.rd_wr_ne _ _ hk.2, State.rd_wr_ne _ _ hk.1]
  · simp [postKeys]

/-- PPOST with room in its peg. -/
theorem SlotM.acts_ppost {s : State} {t : Nat} {st : Stage} {b : Bundle} (h : SlotM s t st b 11) {g : Nat} (hlt : g < 64)
    (hg : s.pegOf t st.slot (bits b.m 37 32) = some g) (hslot : s.slotOf t st.ctx = some st.slot)
    (hroom : s.rd Reg.PEG_COUNT t g + bits b.m 24 17 < 2 ^ 24) :
    ∃ y, (s.starts t).mExec t st b.m = (y, none) ∧ y.rd Reg.PEG_COUNT t g = s.rd Reg.PEG_COUNT t g + bits b.m 24 17 ∧
      y.pantry = s.pantry ∧ ActsM s y t st { st with posts := (g, bits b.m 24 17) :: st.posts } (postKeys t g) := by
  obtain ⟨⟨-, hst, -, -, hlegal, -⟩, -, hm, -⟩ := id h
  have hamt : bits b.m 24 17 ≠ 0 := by
    simp [Bundle.legal, hm, mLegal, h.bits_m] at hlegal
    exact hlegal.1.1.2
  have hx := State.mExec_ppost (s.starts t) t st h.bits_m
  rw [State.postOwn_of_peg (g := g) (by simpa using hst) (by simpa using hslot) (by simpa using hg) hamt (by simpa using hroom)] at hx
  generalize hz : ((s.starts t).wr Reg.PEG_COUNT t g ((s.starts t).rd Reg.PEG_COUNT t g + bits b.m 24 17)).highWater t st.slot
    (bits b.m 37 32) = z at hx
  have hrest : z = { s with regs := z.regs } := by
    have he := State.highWater_eq ((s.starts t).wr Reg.PEG_COUNT t g ((s.starts t).rd Reg.PEG_COUNT t g + bits b.m 24 17)) t st.slot
      (bits b.m 37 32)
    rw [hz] at he
    rw [he, s.starts_eq]; rfl
  have hcount : z.rd Reg.PEG_COUNT t g = s.rd Reg.PEG_COUNT t g + bits b.m 24 17 := by
    rw [← hz, State.highWater_rd_ne, State.rd_wr_self, s.starts_pegCount]
    · exact Nat.mod_eq_of_lt hroom
    · intro q hq; simp only [Field.key, Reg.PEG_COUNT, Reg.RQ_HIWATER]; omega
  refine ⟨_, hx, ?_, ?_, ActsM.of_regs (z := z.wr Reg.PEG_HELD t g 1) (g := g) ?_ ?_ (fun _ h => h) rfl rfl⟩
  · rw [State.rd_wr_ne _ _ (by simp [Field.key, Reg.PEG_COUNT, Reg.PEG_HELD]), State.setStage_rd, hcount]
  · rw [hrest]; rfl
  · rw [hrest]; rfl
  · intro f i j hk _
    have hheld : f.key i j ≠ Reg.PEG_HELD.key t g := by
      rintro he; exact hk (by simp [he, postKeys])
    rw [State.rd_wr_ne _ _ hheld, ← hz, State.rd_postPeg_ne hk]

/-- PPOSTR to a present tile that has a slot of the context. -/
theorem SlotM.acts_ppostr {s : State} {t : Nat} {st : Stage} {b : Bundle} (h : SlotM s t st b 12)
    (hp : s.present (st.s (bits b.m 16 12)) = true) (hs : (s.slotOf (s.phys (st.s (bits b.m 16 12))) st.ctx).isSome = true)
    (hd : st.deferred.length < 64) :
    (s.starts t).mExec t st b.m = ((s.starts t).setStage t { st with
        deferred := st.deferred ++ [.post (st.s (bits b.m 16 12)) (bits b.m 37 32) (bits b.m 24 17)] }, none) := by
  have hlt : st.s (bits b.m 16 12) < 160 := by
    simp only [State.present, Bool.and_eq_true, decide_eq_true_eq] at hp
    exact hp.1
  have hphys : (s.starts t).phys (st.s (bits b.m 16 12)) = s.phys (st.s (bits b.m 16 12)) := s.starts_darn (by simp) hlt
  refine State.mExec_ppostr h.bits_m ?_ (by rw [hphys, s.starts_slotOf]; exact hs) hd
  rw [State.present, State.rdB_eq, s.starts_darn (by simp) hlt]
  exact hp

/-- A bundle whose slot M notes something in the stage alone leaves the rest of the state. -/
theorem SlotM.bundleEnds_of_stage {s : State} {t op : Nat} {st now : Stage} {b : Bundle} (h : SlotM s t st b op) (hw : s.mWaits t st b.m = 0)
    (hx : (s.starts t).mExec t st b.m = ((s.starts t).setStage t now, none)) (hv : now.vreg = st.vreg) (hm : now.mreg = st.mreg) :
    BundleEnds s (s.runBundle t st b) t now := by
  have hsize : ((s.starts t).setStage t now).rd Reg.CS_IMEM_SIZE t st.slot = s.rd Reg.CS_IMEM_SIZE t st.slot := s.starts_rd (by decide) rfl
  rw [h.runBundle_of_acts hw hx (s.starts_due t) (by rw [State.tile_setStage_self]) hv hm hsize]
  exact ((BundleEnds.of_setStage now (s.starts_rest t) (s.starts_tile t)).setStage now).wr _ (by simp)

/-- Settles O16: what slot M does with a peg, it does once WAIT is 0 and the bundle is counted, and neither touches a peg; PEG_WAIT_END
serves the bundle as its own command does. -/
theorem finisherPegs : Obligations.FinisherPegs := by
  intro t st b s hr amt g hlt hg
  refine ⟨fun h hcount i hi hwait => ?_, fun h i hi hwait => ?_, fun h hslot hroom => ?_, fun h hp hs hd => ?_⟩
  · obtain ⟨y, hx, hy, hpan, ha⟩ := h.acts_ptake hg
    have hw := State.mWaits_ptake h.bits_m hg
    have hexec : exec i s = exec (.ptake t) s := by
      simp only [List.mem_cons, List.not_mem_nil, or_false] at hi
      rcases hi with rfl | rfl
      · rfl
      · refine h.exec_pegWaitEnd ⟨rfl, fun _ => rfl⟩ hr (hwait rfl) (.inl ⟨rfl, ?_⟩)
        by_cases h0 : s.mWaits t st b.m = 0
        · exact .inl (h.wait_of_acts h0 hx ha)
        · exact .inr h0
    refine ⟨fun hle => ?_, fun hless => ?_⟩
    · obtain ⟨u, hu, hadv, hpan', -, htile, hrd⟩ := h.completes_of_acts (i := .ptake t) ⟨rfl, fun _ => rfl⟩ hr
        (by rw [hw, if_neg (Nat.not_lt.mpr hle)]) hx ha
      refine ⟨u, hexec.trans hu, hadv, ?_, hpan'.trans hpan, by rw [htile]; rfl⟩
      rw [hrd _ _ _ (pegCount_key_ne_pc t g), hy]
      exact Nat.mod_eq_of_lt (by omega)
    · obtain ⟨u, hu, hwaits⟩ := h.completes_of_waits (i := .ptake t) ⟨rfl, fun _ => rfl⟩ hr (by rw [hw, if_pos hless])
        (by decide) (by decide)
      exact ⟨u, hexec.trans hu, hwaits⟩
  · have hw := State.mWaits_pwait h.bits_m hg
    have hexec : exec i s = exec (.pwait t) s := by
      simp only [List.mem_cons, List.not_mem_nil, or_false] at hi
      rcases hi with rfl | rfl
      · rfl
      · exact h.exec_pegWaitEnd ⟨rfl, fun _ => rfl⟩ hr (hwait rfl) (.inr rfl)
    refine ⟨fun hle => ?_, fun hless => ?_⟩
    · obtain ⟨u, hu, hadv, hpan, -, hst⟩ := h.completes_of_pantry (i := .pwait t) ⟨rfl, fun _ => rfl⟩ hr
        (by rw [hw, if_neg (Nat.not_lt.mpr hle)]) (p := s.pantry) (e := s.perr)
        (by rw [State.mExec_pwait h.bits_m ((s.starts_pegOf ..).trans hg), s.starts_eq])
      exact ⟨u, hexec.trans hu, hadv, hpan, hst⟩
    · obtain ⟨u, hu, hwaits⟩ := h.completes_of_waits (i := .pwait t) ⟨rfl, fun _ => rfl⟩ hr (by rw [hw, if_pos hless])
        (by decide) (by decide)
      exact ⟨u, hexec.trans hu, hwaits⟩
  · obtain ⟨y, hx, hy, hpan, ha⟩ := h.acts_ppost hlt hg hslot hroom
    obtain ⟨u, hu, hadv, hpan', -, htile, hrd⟩ := h.completes_of_acts (i := .ppost t) ⟨rfl, fun _ => rfl⟩ hr
      (s.mWaits_post t st (.inl h.bits_m)) hx ha
    refine ⟨u, hu, hadv, ?_, hpan'.trans hpan, by rw [htile]; rfl⟩
    rw [hrd _ _ _ (pegCount_key_ne_pc t g), hy]
  · have hw := s.mWaits_post t st (m := b.m) (.inr h.bits_m)
    have hx := h.acts_ppostr hp hs hd
    obtain ⟨u, hu, hadv, hpan, -, htile, -⟩ := h.completes_of_acts (i := .ppostr t) ⟨rfl, fun _ => rfl⟩ hr hw hx
      (.of_regs (g := g) (ks := []) (s.starts_eq t) (fun _ _ _ _ _ => rfl) (by simp) rfl rfl)
    have he := h.bundleEnds_of_stage hw hx rfl rfl
    have hexec := h.exec_eq (i := .ppostr t) ⟨rfl, fun _ => rfl⟩ hr (by rw [he.here])
    rw [State.answer_of_calm (he.calm (s.ready_iff.mp hr).2) (by rw [he.rest]), hu] at hexec
    injection hexec with hexec
    exact ⟨u, hu, hadv, hpan.trans (s.starts_pantry t), by rw [hexec, he.rest], by rw [htile]; rfl⟩

end

section
namespace Sys2Proof.Machine

open Sys2Proof

/-! PROOFS. What a state keeps outside a set of places of its register map, and what follows for the end of a command; how a stage opens
and how its boundary commits. -/

/-! ### Registers outside a set of places -/

/-- Every register at a place outside `K` keeps its value. -/
def KeepsOutside (K : Nat → Prop) (s u : State) : Prop := ∀ (f : Field) (i j : Nat), ¬ K (f.key i j) → u.rd f i j = s.rd f i j

/-- The pages from PWR on, in which no register stands that calmness reads. -/
def PastHng (k : Nat) : Prop := 4 * 4096 * 32 ≤ k

section
variable {K : Nat → Prop} {s u v : State}

theorem KeepsOutside.refl (K : Nat → Prop) (s : State) : KeepsOutside K s s := fun _ _ _ _ => rfl

theorem KeepsOutside.of_regs (h : u.regs = s.regs) : KeepsOutside K s u := fun f i j _ => State.rd_congr h f i j

theorem KeepsOutside.trans (h : KeepsOutside K s u) (h' : KeepsOutside K u v) : KeepsOutside K s v :=
  fun f i j hk => (h' f i j hk).trans (h f i j hk)

theorem KeepsOutside.mono {L : Nat → Prop} (h : KeepsOutside K s u) (hl : ∀ k, K k → L k) : KeepsOutside L s u :=
  fun f i j hk => h f i j (fun hin => hk (hl _ hin))

theorem KeepsOutside.wr (h : KeepsOutside K s u) {f : Field} {i j : Nat} (n : Nat) (hf : K (f.key i j)) : KeepsOutside K s (u.wr f i j n) := by
  intro g k l hk
  have hne : g.key k l ≠ f.key i j := by
    intro he; rw [he] at hk; exact hk hf
  rw [State.rd_wr_ne u n hne, h g k l hk]

theorem KeepsOutside.countF (h : KeepsOutside K s u) {p i j : Nat} {f : Field} (n : Nat) (hf : K (f.key i j)) :
    KeepsOutside K s (u.countF p f i j n) := by
  unfold State.countF
  split
  · exact h.wr _ hf
  · exact h

theorem KeepsOutside.foldl {α : Type} (g : State → α → State) (l : List α) (hg : ∀ u, ∀ x ∈ l, KeepsOutside K u (g u x)) (s : State) :
    KeepsOutside K s (l.foldl g s) :=
  List.foldlRecOn (motive := KeepsOutside K s) l g (.refl K s) (fun u hu x hx => hu.trans (hg u x hx))

/-- What happens past page HNG leaves a state calm. -/
theorem KeepsOutside.calm (h : KeepsOutside PastHng s u) (hc : s.calm = true) (hd : u.due = s.due) (hx : u.ctxs = s.ctxs)
    (hb : u.boot = s.boot) : u.calm = true := by
  refine State.calm_congr hc hd hx (by rw [hb]) (fun l hl => ⟨h _ _ _ ?_, h _ _ _ ?_⟩) ⟨h _ _ _ ?_, h _ _ _ ?_⟩ <;>
    simp only [PastHng, Field.key, Reg.HNG_RUNG, Reg.HNG_PHASE, Reg.FLT_FT_LATCH, Reg.FLT_HALTED, Block.base] <;> omega

end

/-- A command that leaves the package calm answers what it does. -/
theorem exec_eq_of_calm {s : State} {i : Instr} {g : State → State} (he : exec i s = s.serve i g) (hw : i.wellFormed = true)
    (hr : s.ready = true) (hc : (g s).calm = true) (hp : (g s).pending = s.pending) : exec i s = .next (g s) := by
  rw [he, State.serve_calm s i g (s.ready_iff.mp hr).1 hw hc, ← hp]

/-- A command that has nothing to do answers the state that it finds. -/
theorem exec_eq_self {s : State} {i : Instr} {g : State → State} (he : exec i s = s.serve i g) (hw : i.wellFormed = true)
    (hr : s.ready = true) (hg : g s = s) : exec i s = .next s := by
  have hc : (g s).calm = true := by rw [hg]; exact (s.ready_iff.mp hr).2
  rw [exec_eq_of_calm he hw hr hc (by rw [hg]), hg]

theorem State.count_eq (s : State) (p n k : Nat) : s.count p n k = { s with regs := (s.count p n k).regs } := s.countF_eq ..

/-! ### Opening -/

theorem SMap.find_eq_none_of_lt {α : Type} {m : SMap α} {k : Nat} (h : ∀ p ∈ m, k < p.1) : SMap.find m k = none := by
  induction m with
  | nil => rfl
  | cons p r ih =>
    obtain ⟨k', v⟩ := p
    have hk : k < k' := h (k', v) (by simp)
    rw [SMap.find, if_neg (by omega), ih (fun q hq => h q (by simp [hq]))]

/-- A map without its entries at 0 reads the same. -/
theorem SMap.get_filter_ne_zero {m : SMap Nat} (hs : m.sorted = true) (k : Nat) :
    SMap.get 0 (m.filter (fun p => p.2 != 0)) k = SMap.get 0 m k := by
  induction m with
  | nil => rfl
  | cons p r ih =>
    obtain ⟨k', v⟩ := p
    simp only [SMap.sorted, Bool.and_eq_true, List.all_eq_true, decide_eq_true_eq] at hs
    obtain ⟨hlt, hr⟩ := hs
    have hfind : ∀ q : SMap Nat, SMap.get 0 ((k', v) :: q) k = if k = k' then v else SMap.get 0 q k := by
      intro q; simp only [SMap.get, SMap.find]; split <;> rfl
    by_cases hv : v = 0
    · subst hv
      rw [List.filter_cons_of_neg (by simp), hfind, ih hr]
      split
      next he => rw [he, SMap.get, SMap.find_eq_none_of_lt hlt]; rfl
      · rfl
    · rw [List.filter_cons_of_pos (by simpa using hv), hfind, hfind, ih hr]

/-- The stage that opens from a slot's next record, R87, R88. -/
def State.openingStage (s : State) (t n : Nat) : Stage :=
  let c := s.rd Reg.CS_CTX t n
  let r := SMap.get SlotRun.empty (s.tile t).slots n
  let w := s.nextRecord t n
  let sreg : SMap Nat := [(0, r.run), (1, wfield w 2 15 0 * 256), (2, s.rd Reg.CTX_STEP_NUM c), (3, (s.logicalOf t).getD 0), (4, r.ix)]
  { ctx := c, slot := n, ix := r.ix, run := r.run, last := wfield w 3 0 0 == 1, lastRun := r.run == wfield w 2 31 16
    fmts := s.fmts (partOfCtx c), vreg := [], mreg := [], sreg := sreg.filter (fun p => p.2 != 0), takes := [], posts := []
    deferred := [], slabs := [], prev := none, mangle := false, marked := false, ended := false }

theorem State.openingStage_s (s : State) (t n k : Nat) : (s.openingStage t n).s k =
    SMap.get 0 [(0, (SMap.get SlotRun.empty (s.tile t).slots n).run), (1, wfield (s.nextRecord t n) 2 15 0 * 256),
      (2, s.rd Reg.CTX_STEP_NUM (s.rd Reg.CS_CTX t n)), (3, (s.logicalOf t).getD 0), (4, (SMap.get SlotRun.empty (s.tile t).slots n).ix)] k :=
  SMap.get_filter_ne_zero rfl k

/-- The registers that the opening of a stage writes. -/
def openKeys (t : Nat) : List Nat :=
  [Reg.FN_STAT_PC.key t 0, Reg.FN_STAT_RUNNING.key t 0, Reg.FN_STAT_WAIT.key t 0, Reg.FN_STAT_CTX.key t 0]

theorem State.stageOpen_eq {s : State} {t n : Nat} (hrun : s.tileRuns t = true) (hidle : (s.tile t).stage = none)
    (hdrain : s.rd Reg.PAGE_DRAIN (tilePage t) ≠ 1) (hp : s.perr = [])
    (hn : ((List.range 16).map (fun i => ((s.tile t).lastSlot + 1 + i) % 16)).find? (s.slotReady t) = some n)
    (ha : s.inAlloc t n (s.rd Reg.CS_SLIST t n * 256 + 16 * (SMap.get SlotRun.empty (s.tile t).slots n).ix) 16 = true)
    (hok : recordOk (s.nextRecord t n) (s.rd Reg.CS_IMEM_SIZE t n * 256) = true)
    (hpeg : wfield (s.nextRecord t n) 1 23 0 ≠ 0 → (s.pegOf t n (wfield (s.nextRecord t n) 0 21 16)).isSome = true) :
    s.stageOpen t = ((((s.setTile t { s.tile t with stage := some (s.openingStage t n), lastSlot := n }).wr Reg.FN_STAT_RUNNING t 0 1).wr
      Reg.FN_STAT_WAIT t 0 0).wr Reg.FN_STAT_CTX t 0 (s.rd Reg.CS_CTX t n)).wr Reg.FN_STAT_PC t 0 (wfield (s.nextRecord t n) 0 13 0) := by
  have hfault : ¬ (wfield (s.nextRecord t n) 1 23 0 ≠ 0 ∧ (s.pegOf t n (wfield (s.nextRecord t n) 0 21 16)).isNone = true) := by
    rintro ⟨h1, h2⟩
    rw [Option.isNone_iff_eq_none] at h2
    simpa [h2] using hpeg h1
  unfold State.stageOpen
  rw [if_neg (by simp [hrun, hidle, hdrain])]
  simp only [hn]
  unfold State.openStage
  simp only [ha, State.pantryGet_of_no_errors hp]
  rw [State.nextRecord] at hok hfault
  simp only [Bool.not_true, Bool.false_eq_true, if_false, hok, if_neg hfault]
  rfl

end Sys2Proof.Machine
end

section
open Sys2Proof Sys2Proof.Machine

theorem stageOpens : Clause.StageOpens := by
  intro t n s hr hrun hidle hdrain hp hn r w ha hok hpeg
  have heq := State.stageOpen_eq hrun hidle hdrain hp hn ha hok hpeg
  have hlt : t < 176 := by
    simp only [State.tileRuns, Bool.and_eq_true, decide_eq_true_eq] at hrun
    exact hrun.1.1.1
  have hkeep : KeepsOutside (· ∈ openKeys t) s (s.stageOpen t) := by
    rw [heq]
    exact ((((KeepsOutside.of_regs (by rfl)).wr _ (by simp [openKeys])).wr _ (by simp [openKeys])).wr _ (by simp [openKeys])).wr _
      (by simp [openKeys])
  have hpast : ∀ k ∈ openKeys t, PastHng k := by
    simp only [openKeys, List.forall_mem_cons, List.not_mem_nil, false_implies, implies_true, and_true]
    refine ⟨?_, ?_, ?_, ?_⟩ <;>
      simp only [PastHng, Field.key, Reg.FN_STAT_PC, Reg.FN_STAT_RUNNING, Reg.FN_STAT_WAIT, Reg.FN_STAT_CTX, Block.base] <;> omega
  have hcalm := (hkeep.mono hpast).calm (s.ready_iff.mp hr).2 (by rw [heq]; rfl) (by rw [heq]; rfl) (by rw [heq]; rfl)
  refine ⟨_, exec_eq_of_calm (g := fun s => s.stageOpen t) rfl (by simp [Instr.wellFormed, hlt]) hr hcalm (by rw [heq]; rfl), ?_⟩
  have htile : (s.stageOpen t).tile t = { s.tile t with stage := some (s.openingStage t n), lastSlot := n } := by
    rw [heq]; simp
  refine ⟨?_, ?_, ?_, ?_, by rw [htile], by rw [heq]; rfl,
    ⟨s.openingStage t n, by rw [htile], rfl, rfl, rfl, ?_, ?_, ?_, ?_, ?_, ?_, rfl, rfl⟩, hkeep⟩
  case refine_1 => rw [heq, State.rd_wr_self]; exact Nat.mod_eq_of_lt (bits_lt _ 13 0)
  case refine_2 =>
    rw [heq, State.rd_wr_ne, State.rd_wr_ne, State.rd_wr_ne, State.rd_wr_self]
    · rfl
    all_goals simp [Field.key, Reg.FN_STAT_PC, Reg.FN_STAT_RUNNING, Reg.FN_STAT_WAIT, Reg.FN_STAT_CTX]
  case refine_3 =>
    rw [heq, State.rd_wr_ne, State.rd_wr_ne, State.rd_wr_self]
    · rfl
    all_goals simp [Field.key, Reg.FN_STAT_PC, Reg.FN_STAT_WAIT, Reg.FN_STAT_CTX]
  case refine_4 =>
    rw [heq, State.rd_wr_ne, State.rd_wr_self]
    · rfl
    · simp [Field.key, Reg.FN_STAT_PC, Reg.FN_STAT_CTX]
  case refine_10 =>
    intro k hk
    rw [s.openingStage_s]
    simp only [SMap.get, SMap.find]
    rw [if_neg (by omega), if_neg (by omega), if_neg (by omega), if_neg (by omega), if_neg (by omega)]
    rfl
  all_goals rw [s.openingStage_s]; rfl

end

section
namespace Sys2Proof.Machine

open Sys2Proof

/-! ### Committing -/

/-- Where the release of a stage's effects may write: past HNG, and not in STAGE_SERIAL of its tile. -/
def NotSerial (t k : Nat) : Prop := PastHng k ∧ k ≠ Reg.FN_STAGE_SERIAL.key t 0

/-- Where the counting of a committed stage may write: past HNG, and in none of the registers that tell of the commit. -/
def NotStage (t k : Nat) : Prop :=
  PastHng k ∧ k ≠ Reg.FN_STAGE_SERIAL.key t 0 ∧ k ≠ Reg.FN_LAST_ABANDONED.key t 0 ∧ k ≠ Reg.FN_STAT_RUNNING.key t 0

theorem State.advanceQueues_eq (s : State) (t : Nat) (st : Stage) : ∃ r, s.advanceQueues t st = { s with regs := r } := by
  refine List.foldlRecOn (motive := fun u : State => ∃ r, u = { s with regs := r }) _ _ ?_ (fun u hu q _ => ?_)
  · exact List.foldlRecOn (motive := fun u : State => ∃ r, u = { s with regs := r }) _ _ ⟨_, rfl⟩
      (by rintro _ ⟨_, rfl⟩ _ _; exact ⟨_, rfl⟩)
  · obtain ⟨r, rfl⟩ := hu
    split
    · split <;> exact ⟨_, rfl⟩
    · exact ⟨_, rfl⟩

theorem State.advanceQueues_keeps (s : State) (t : Nat) (st : Stage) : KeepsOutside (NotSerial t) s (s.advanceQueues t st) := by
  refine KeepsOutside.trans (KeepsOutside.foldl _ _ (fun u x _ => ?_) s) (KeepsOutside.foldl _ _ (fun u q _ => ?_) _)
  · refine (KeepsOutside.refl _ u).wr _ ?_
    simp only [NotSerial, PastHng, Field.key, Reg.SQ_QHEAD, Reg.FN_STAGE_SERIAL, Block.base]; omega
  · split
    · split
      · exact .refl _ u
      · refine (KeepsOutside.refl _ u).wr _ ?_
        simp only [NotSerial, PastHng, Field.key, Reg.RQ_QTAIL, Reg.FN_STAGE_SERIAL, Block.base]; omega
    · exact .refl _ u

/-- The post that a deferred effect of a stage of context `c` on tile `t` is, if it is one. -/
def Defer.toPost (c t : Nat) : Defer → Option Post
  | .post dest peg amount => some ⟨c, t, dest, peg, amount⟩
  | .mark .. => none

/-- The completion mark that a deferred effect of a stage of context `c` is, if it is one. -/
def Defer.toMark (c : Nat) : Defer → Option FoldMark
  | .mark stack key member => some ⟨c, stack, key, member⟩
  | .post .. => none

theorem State.postLeaves_eq (s : State) (p : Post) : ∃ r, s.postLeaves p = { s with posts := s.posts ++ [p], regs := r } := by
  unfold State.postLeaves
  split
  · split
    · exact ⟨_, State.countF_eq ..⟩
    · exact ⟨_, rfl⟩
  · exact ⟨_, rfl⟩

theorem State.postLeaves_keeps (s : State) {t : Nat} (p : Post) (ht : t < 176) (hp : p.src = t) : KeepsOutside (NotSerial t) s (s.postLeaves p) := by
  have h0 : KeepsOutside (NotSerial t) s { s with posts := s.posts ++ [p] } := .of_regs rfl
  unfold State.postLeaves
  split
  next b hb =>
    have hd : b.1 = t / 44 := by
      rw [State.postBridge] at hb
      split at hb
      · cases hb
      · cases hb; rw [hp]; rfl
    split
    · refine h0.countF _ ?_
      rw [hd]
      simp only [NotSerial, PastHng, Field.key, Reg.BR_FLITS, Reg.FN_STAGE_SERIAL, Block.base]; omega
    · exact h0
  · exact h0

theorem State.release_keeps (s : State) {t : Nat} (st : Stage) (ht : t < 176) : KeepsOutside (NotSerial t) s (s.release t st) := by
  refine KeepsOutside.foldl _ _ (fun u d _ => ?_) s
  cases d with
  | post dest peg amount => exact u.postLeaves_keeps _ ht rfl
  | mark stack key member => exact .of_regs rfl

/-- The deferred effects join the posts and the marks on their way in program order. -/
theorem State.release_eq (s : State) (t : Nat) (st : Stage) : ∃ r, s.release t st =
    { s with posts := s.posts ++ st.deferred.filterMap (Defer.toPost st.ctx t)
             foldMarks := s.foldMarks ++ st.deferred.filterMap (Defer.toMark st.ctx), regs := r } := by
  unfold State.release
  generalize st.deferred = ds
  induction ds generalizing s with
  | nil => exact ⟨s.regs, by simp⟩
  | cons d ds ih =>
    cases d with
    | post dest peg amount =>
      obtain ⟨r, hleft⟩ := s.postLeaves_eq ⟨st.ctx, t, dest, peg, amount⟩
      obtain ⟨r', hrest⟩ := ih (s.postLeaves ⟨st.ctx, t, dest, peg, amount⟩)
      refine ⟨r', hrest.trans ?_⟩
      rw [hleft]
      simp [List.filterMap_cons, Defer.toPost, Defer.toMark]
    | mark stack key member =>
      obtain ⟨r, hrest⟩ := ih { s with foldMarks := s.foldMarks ++ [⟨st.ctx, stack, key, member⟩] }
      refine ⟨r, hrest.trans ?_⟩
      simp [List.filterMap_cons, Defer.toPost, Defer.toMark]

/-- The state once a stage's queues have advanced, its deferred effects are released and its pegs are no longer held. -/
def State.released (s : State) (t : Nat) (st : Stage) : State :=
  (st.takes ++ st.posts).foldl (fun s x => s.wr Reg.PEG_HELD t x.1 0) ((s.advanceQueues t st).release t st)

theorem State.released_eq (s : State) (t : Nat) (st : Stage) : ∃ r, s.released t st =
    { s with posts := s.posts ++ st.deferred.filterMap (Defer.toPost st.ctx t)
             foldMarks := s.foldMarks ++ st.deferred.filterMap (Defer.toMark st.ctx), regs := r } := by
  obtain ⟨q, hq⟩ := s.advanceQueues_eq t st
  obtain ⟨r, hr⟩ := (s.advanceQueues t st).release_eq t st
  rw [hq] at hr
  rw [State.released, hq, hr]
  exact List.foldlRecOn (motive := fun u : State => ∃ r, u = { s with posts := _, foldMarks := _, regs := r }) _ _ ⟨_, rfl⟩
    (by rintro _ ⟨_, rfl⟩ _ _; exact ⟨_, rfl⟩)

theorem State.released_keeps (s : State) {t : Nat} (st : Stage) (ht : t < 176) : KeepsOutside (NotSerial t) s (s.released t st) := by
  refine ((s.advanceQueues_keeps t st).trans (State.release_keeps _ st ht)).trans (KeepsOutside.foldl _ _ (fun u x _ => ?_) _)
  refine (KeepsOutside.refl _ u).wr _ ?_
  simp only [NotSerial, PastHng, Field.key, Reg.PEG_HELD, Reg.FN_STAGE_SERIAL, Block.base]; omega

/-- The place of a slot's next record run after the commit of a stage, R88. -/
def State.nextRun (s : State) (t : Nat) (st : Stage) : SlotRun :=
  let r := SMap.get SlotRun.empty (s.tile t).slots st.slot
  if st.lastRun then { r with ix := st.ix + 1, run := 0, reported := r.reported || st.last } else { r with run := st.run + 1 }

/-- The tile as its stage closes and its slot goes on to run `r`. -/
def Tile.closed (x : Tile) (st : Stage) (r : SlotRun) : Tile :=
  { x with stage := none, bankX := [], bankY := [], inex := 0, mbuf := [], slots := SMap.set SlotRun.empty x.slots st.slot r }

/-- The registers that tell of the commit. -/
def State.showCommit (s : State) (t c : Nat) : State :=
  let s := (s.addF Reg.FN_STAGE_SERIAL t 0 1).wr Reg.FN_BCTX t 0 c
  ((s.wr Reg.FN_LAST_ABANDONED t 0 0).wr Reg.FN_STAT_RUNNING t 0 0).wr Reg.FN_STAT_WAIT t 0 0

/-- The counts that a committed stage moves. -/
def State.countStage (s : State) (t c : Nat) : State := ((s.progress (tilePage t) 1).count (tilePage t) 7 1).count (0x300 + c) 3 1

/-- The state after a commit, without what it notes in the group's feed. -/
def State.committed (s : State) (t : Nat) (st : Stage) : State :=
  let u := s.released t st
  ((u.setTile t ((u.tile t).closed st (s.nextRun t st))).showCommit t st.ctx).countStage t st.ctx

/-- A tile that has committed a stage with a Mangle pass is noted in the feed of its group, R121. -/
def State.noteFeed (s : State) (t : Nat) (st : Stage) : State :=
  match (s.logicalOf t), (s.logicalOf t).bind s.groupOf with
  | some l, some g =>
    match SMap.find s.feeds g with
    | some f => if st.mangle && f.ctx == st.ctx && !f.done.contains l then
        { s with feeds := SMap.put s.feeds g { f with done := f.done ++ [l] } } else s
    | none => s
  | _, _ => s

theorem State.noteFeed_eq (s : State) (t : Nat) (st : Stage) : ∃ fd, s.noteFeed t st = { s with feeds := fd } := by
  unfold State.noteFeed
  split
  · split
    · split <;> exact ⟨_, rfl⟩
    · exact ⟨_, rfl⟩
  · exact ⟨_, rfl⟩

theorem State.advanced_eq (s : State) (p x : Nat) : ∃ w, s.advanced p x = { s with watch := w } := by
  unfold State.advanced
  split <;> exact ⟨_, rfl⟩

theorem State.progress_eq (s : State) (p n : Nat) : ∃ w, s.progress p n = { s.addF Reg.PROG_CNT p 0 n with watch := w } := by
  unfold State.progress
  split
  · exact State.advanced_eq ..
  · exact ⟨_, rfl⟩

theorem State.countStage_eq (s : State) (t c : Nat) : ∃ w r, s.countStage t c = { s with watch := w, regs := r } := by
  obtain ⟨w, hw⟩ := s.progress_eq (tilePage t) 1
  rw [State.countStage, hw, State.addF_eq, State.count_eq _ (0x300 + c), State.count_eq _ (tilePage t)]
  exact ⟨_, _, rfl⟩

theorem State.countStage_keeps (s : State) (t c : Nat) : KeepsOutside (NotStage t) s (s.countStage t c) := by
  obtain ⟨w, hw⟩ := s.progress_eq (tilePage t) 1
  have hprog : KeepsOutside (NotStage t) s (s.progress (tilePage t) 1) := by
    rw [hw]
    refine KeepsOutside.trans ((KeepsOutside.refl _ s).wr _ ?_) (.of_regs rfl)
    simp only [NotStage, PastHng, Field.key, Reg.PROG_CNT, Reg.FN_STAGE_SERIAL, Reg.FN_LAST_ABANDONED, Reg.FN_STAT_RUNNING, Block.base, tilePage]
    omega
  refine (hprog.countF _ ?_).countF _ ?_ <;>
    simp only [NotStage, PastHng, Field.key, Reg.CNT_N, Reg.FN_STAGE_SERIAL, Reg.FN_LAST_ABANDONED, Reg.FN_STAT_RUNNING, Block.base, tilePage] <;>
    omega

/-- STAGE_BOUNDARY of a tile with a stage open, R89. -/
theorem State.stageBoundary_of_stage {s : State} {t : Nat} {st : Stage} (hst : (s.tile t).stage = some st) : s.stageBoundary t =
    if !s.tileRuns t || !st.ended || !(s.tile t).press.isEmpty || s.moves.any (fun m => m.tile == t) then s
    else if st.mangle && (!st.marked || !(s.tile t).mbuf.isEmpty) then
      s.raise (0x60 + dieOfTile t) 0 (some st.ctx) (((s.logicalOf t).bind s.groupOf).elim 0 (fun g => s.rd Reg.CFG_SGM_CH 0 g))
    else if st.last && st.lastRun && st.deferred.length == 64 then s.raise (tilePage t) 14 (some st.ctx) 0
    else (s.committed t st).noteFeed t st := by
  rw [State.stageBoundary, hst]
  rfl

theorem State.stageBoundary_eq {s : State} {t : Nat} {st : Stage} (hst : (s.tile t).stage = some st) (hrun : s.tileRuns t = true)
    (hend : st.ended = true) (hpress : (s.tile t).press = []) (hmoves : ∀ m ∈ s.moves, m.tile ≠ t)
    (hmangle : st.mangle = true → st.marked = true ∧ (s.tile t).mbuf = [])
    (hlate : (st.last && st.lastRun && st.deferred.length == 64) = false) : s.stageBoundary t = (s.committed t st).noteFeed t st := by
  rw [State.stageBoundary_of_stage hst, if_neg (by simpa [hrun, hend, hpress] using hmoves),
    if_neg (by simpa using fun h => by simp [hmangle h]), if_neg (by simp [hlate])]

/-- A tile whose stage has not ended, or that has work left, keeps its stage open. -/
theorem State.stageBoundary_self {s : State} {t : Nat} {st : Stage} (hst : (s.tile t).stage = some st)
    (hleft : st.ended = false ∨ (s.tile t).press ≠ [] ∨ ∃ m ∈ s.moves, m.tile = t) : s.stageBoundary t = s := by
  rw [State.stageBoundary_of_stage hst, if_pos]
  rcases hleft with h | h | ⟨m, hm, ht⟩
  · simp [h]
  · simp [h]
  · simp only [Bool.or_eq_true, List.any_eq_true]
    exact .inr ⟨m, hm, by simp [ht]⟩

theorem State.showCommit_rd (s : State) (t c : Nat) :
    (s.showCommit t c).rd Reg.FN_STAGE_SERIAL t = (s.rd Reg.FN_STAGE_SERIAL t + 1) % 2 ^ 24 ∧
    (s.showCommit t c).rd Reg.FN_LAST_ABANDONED t = 0 ∧ (s.showCommit t c).rd Reg.FN_STAT_RUNNING t = 0 := by
  unfold State.showCommit
  refine ⟨?_, ?_, ?_⟩
  · rw [State.rd_wr_ne, State.rd_wr_ne, State.rd_wr_ne, State.rd_wr_ne, State.addF_eq, State.rd_wr_self]
    · rfl
    all_goals simp only [Field.key, Reg.FN_STAGE_SERIAL, Reg.FN_BCTX, Reg.FN_LAST_ABANDONED, Reg.FN_STAT_RUNNING, Reg.FN_STAT_WAIT]; omega
  · rw [State.rd_wr_ne, State.rd_wr_ne, State.rd_wr_self]
    all_goals simp only [Field.key, Reg.FN_LAST_ABANDONED, Reg.FN_STAT_RUNNING, Reg.FN_STAT_WAIT]; omega
  · rw [State.rd_wr_ne, State.rd_wr_self]
    all_goals simp [Field.key, Reg.FN_STAT_RUNNING, Reg.FN_STAT_WAIT]

theorem State.showCommit_keeps (s : State) (t c : Nat) : KeepsOutside PastHng s (s.showCommit t c) := by
  unfold State.showCommit
  refine (((((KeepsOutside.refl _ s).wr _ ?_).wr _ ?_).wr _ ?_).wr _ ?_).wr _ ?_ <;>
    simp only [PastHng, Field.key, Reg.FN_STAGE_SERIAL, Reg.FN_BCTX, Reg.FN_LAST_ABANDONED, Reg.FN_STAT_RUNNING, Reg.FN_STAT_WAIT, Block.base] <;>
    omega

theorem State.committed_keeps (s : State) {t : Nat} (st : Stage) (ht : t < 176) : KeepsOutside PastHng s (s.committed t st) :=
  (((s.released_keeps st ht).mono fun _ h => h.1).trans (.of_regs (State.setTile_regs ..))).trans
    ((State.showCommit_keeps _ t st.ctx).trans ((State.countStage_keeps _ t st.ctx).mono fun _ h => h.1))

theorem State.committed_rd (s : State) {t : Nat} (st : Stage) (ht : t < 176) :
    (s.committed t st).rd Reg.FN_STAGE_SERIAL t = (s.rd Reg.FN_STAGE_SERIAL t + 1) % 2 ^ 24 ∧
    (s.committed t st).rd Reg.FN_LAST_ABANDONED t = 0 ∧ (s.committed t st).rd Reg.FN_STAT_RUNNING t = 0 := by
  obtain ⟨hser, hab, hrun⟩ := ((s.released t st).setTile t (((s.released t st).tile t).closed st (s.nextRun t st))).showCommit_rd t st.ctx
  have hkeep := (((s.released t st).setTile t (((s.released t st).tile t).closed st (s.nextRun t st))).showCommit t st.ctx).countStage_keeps
    t st.ctx
  have hbefore : (s.released t st).rd Reg.FN_STAGE_SERIAL t = s.rd Reg.FN_STAGE_SERIAL t := s.released_keeps st ht _ _ _ (by simp [NotSerial])
  rw [State.setTile_rd, hbefore] at hser
  refine ⟨?_, ?_, ?_⟩
  · exact (hkeep _ _ _ (by simp [NotStage])).trans hser
  · exact (hkeep _ _ _ (by simp [NotStage])).trans hab
  · exact (hkeep _ _ _ (by simp [NotStage])).trans hrun

/-- What a commit leaves of the state that is no register, apart from the engines watched and the feeds. -/
theorem State.committed_eq (s : State) (t : Nat) (st : Stage) : ∃ w r, s.committed t st =
    { s.setTile t ((s.tile t).closed st (s.nextRun t st)) with
      posts := s.posts ++ st.deferred.filterMap (Defer.toPost st.ctx t)
      foldMarks := s.foldMarks ++ st.deferred.filterMap (Defer.toMark st.ctx), watch := w, regs := r } := by
  obtain ⟨q, hq⟩ := s.released_eq t st
  obtain ⟨w, r, hr⟩ :=
    (((s.released t st).setTile t (((s.released t st).tile t).closed st (s.nextRun t st))).showCommit t st.ctx).countStage_eq t st.ctx
  refine ⟨w, r, hr.trans ?_⟩
  rw [hq]
  rfl

end Sys2Proof.Machine
end

section
open Sys2Proof Sys2Proof.Machine

theorem stageBoundaryCommits : Clause.StageBoundaryCommits := by
  intro t st s hr hst
  refine ⟨fun hrun hend hpress hmoves hmangle hlate => ?_, fun ht hleft => ?_⟩
  · have ht : t < 176 := by
      simp only [State.tileRuns, Bool.and_eq_true, decide_eq_true_eq] at hrun
      exact hrun.1.1.1
    obtain ⟨fd, hfeed⟩ := (s.committed t st).noteFeed_eq t st
    have heq := (State.stageBoundary_eq hst hrun hend hpress hmoves hmangle hlate).trans hfeed
    obtain ⟨w, r, hrest⟩ := s.committed_eq t st
    obtain ⟨hser, hab, hrunning⟩ := s.committed_rd st ht
    have hcalm : (s.stageBoundary t).calm = true :=
      ((s.committed_keeps st ht).trans (.of_regs (by rw [heq]))).calm (s.ready_iff.mp hr).2 (by rw [heq, hrest]; rfl)
        (by rw [heq, hrest]; rfl) (by rw [heq, hrest]; rfl)
    refine ⟨_, exec_eq_of_calm (g := fun s => s.stageBoundary t) rfl (by simp [Instr.wellFormed, ht]) hr hcalm (by rw [heq, hrest]; rfl), ?_⟩
    have htile : (s.stageBoundary t).tile t = (s.tile t).closed st (s.nextRun t st) := by
      rw [heq, hrest]; exact State.tile_setTile_self ..
    have hregs : (s.stageBoundary t).regs = (s.committed t st).regs := by rw [heq]
    refine ⟨by rw [htile]; rfl, by rw [htile]; rfl, by rw [htile]; rfl, ?_, ?_, ?_, by rw [heq, hrest]; rfl, by rw [heq, hrest]; rfl, ?_, ?_⟩
    · rw [State.rd_congr hregs, hser]
    · rw [State.rd_congr hregs, hab]
    · rw [State.rd_congr hregs, hrunning]
    · have hposts : (s.stageBoundary t).posts = s.posts ++ st.deferred.filterMap (Defer.toPost st.ctx t) := by rw [heq, hrest]
      exact hposts.trans (congrArg _ (List.filterMap_congr (by rintro (_ | _) _ <;> rfl)))
    · have hmarks : (s.stageBoundary t).foldMarks = s.foldMarks ++ st.deferred.filterMap (Defer.toMark st.ctx) := by rw [heq, hrest]
      exact hmarks.trans (congrArg _ (List.filterMap_congr (by rintro (_ | _) _ <;> rfl)))
  · exact exec_eq_self (g := fun s => s.stageBoundary t) rfl (by simp [Instr.wellFormed, ht]) hr (State.stageBoundary_self hst hleft)

/-- Settles O19: a commit writes registers past page HNG alone, so it leaves the package calm; the release keeps STAGE_SERIAL and the
counts keep what tells of the commit. -/
theorem stagesOpenAndCommit : Obligations.StagesOpenAndCommit := ⟨stageOpens, stageBoundaryCommits⟩

end

section
namespace Sys2Proof.Machine

open Sys2Proof

/-! PROOFS. A released post whose source is no tile: the flit of the bridge that it names is counted on another page. -/

/-- A post to peg 0 of context 0 on logical tile 68, from physical tile 18304. The package has 176 tiles: FLITS of the bridge from die 416, to
which this one would belong, has the address of the DARN entry of logical tile 68. -/
def strayPost : Post := ⟨0, 18304, 68, 0, 1⟩

/-- The counterexample to O20. Out of power-on reset, with logical tile 68 on physical tile 5, where slot 0 belongs to context 0 and has one
peg. 65 posts are on their way, one more than their bridge direction has credits. -/
def strayBridge : State :=
  let s : State := { State.reset with boot := { State.reset.boot with por := false }, posts := List.replicate 65 strayPost }
  let s := (s.wr Reg.DARN_PRESENT 0 68 1).wr Reg.DARN_PHYS 0 68 5
  (s.wr Reg.CS_VALID 5 0 1).wr Reg.CS_PEG_N 5 0 1

theorem strayBridge_ready : strayBridge.ready = true := by decide +kernel

theorem strayBridge_present : strayBridge.present strayPost.dest = true := by decide +kernel

theorem strayBridge_phys : strayBridge.phys strayPost.dest = 5 := by decide +kernel

theorem strayBridge_up : strayBridge.bridgeDown (dieOfTile strayPost.src) (dieOfTile 5) = false := by decide +kernel

theorem strayBridge_slot : strayBridge.slotOf 5 strayPost.ctx = some 0 := by decide +kernel

theorem strayBridge_peg : strayBridge.pegOf 5 0 strayPost.peg = some 0 := by decide +kernel

theorem strayBridge_count : strayBridge.rd Reg.PEG_COUNT 5 0 = 0 := by decide +kernel

/-- The arrival counts the flit of the post that waited for a credit, takes tile 6 for the consumer, and peg 0 of tile 5 keeps its count. -/
theorem strayBridge_arrive : rdAfter (exec (.remotePostArrive 0) strayBridge) Reg.PEG_COUNT 5 0 = some 0 := by decide +kernel

/-- Refutes O20: no hypothesis keeps the source of a released post among the tiles, and BR_FLITS of the bridge that the post names, which
counts as its arrival gives a credit back, R123, can then be the DARN_PHYS entry that says where the post goes. -/
theorem not_postsAndSlabsArrive : ¬ Obligations.PostsAndSlabsArrive := by
  intro h
  obtain ⟨arrives, -⟩ := h strayBridge strayBridge_ready
  have hphys := strayBridge_phys
  obtain ⟨u, hu, hcount, -⟩ := arrives 0 strayPost 0 0 rfl strayBridge_present (by rw [hphys]; decide) (by rw [hphys]; exact strayBridge_up)
    (by rw [hphys]; exact strayBridge_slot) (by simp) (by rw [hphys]; exact strayBridge_peg) (by decide)
    (by rw [hphys, strayBridge_count]; decide)
  rw [hphys, strayBridge_count] at hcount
  have hread := strayBridge_arrive
  rw [hu, rdAfter, hcount] at hread
  exact absurd hread (by decide)

end Sys2Proof.Machine
end

section
namespace Sys2Proof.Machine

open Sys2Proof

/-! PROOFS. Loads of a context: where the chunks of an image show on a tile, what each load does on the tiles, and what of the context it
leaves alone. -/

theorem SMap.mem_of_find {α : Type} {m : SMap α} {k : Nat} {v : α} (h : SMap.find m k = some v) : (k, v) ∈ m := by
  induction m with
  | nil => cases h
  | cons p r ih =>
    obtain ⟨k', v'⟩ := p
    rw [SMap.find] at h
    split at h
    next hk => cases h; rw [hk]; exact List.mem_cons_self
    · exact List.mem_cons_of_mem _ (ih h)

theorem SMap.mem_set {α : Type} [DecidableEq α] {d : α} {m : SMap α} {k : Nat} {v : α} {p : Nat × α} (h : p ∈ SMap.set d m k v) :
    p = (k, v) ∨ p ∈ m := by
  rw [SMap.set] at h
  split at h
  · exact .inr (List.mem_of_mem_filter h)
  · exact SMap.mem_put h

/-! ### A context whose load changes -/

/-- A state stays calm while a context's failed collective and its teardown stay as they are. -/
theorem State.setCtx_calm {s : State} {c : Nat} {x : Ctx} (hc : s.calm = true) (hf : x.collFail = (s.ctx c).collFail)
    (ht : x.teardown = (s.ctx c).teardown) : (s.setCtx c x).calm = true := by
  simp only [State.calm, Bool.and_eq_true, List.all_eq_true] at hc ⊢
  obtain ⟨⟨⟨⟨hdue, hctx⟩, hlanes⟩, hflt⟩, hhalt⟩ := hc
  refine ⟨⟨⟨⟨hdue, fun p hp => ?_⟩, hlanes⟩, hflt⟩, hhalt⟩
  obtain rfl | hp := SMap.mem_set hp
  · simp only [hf, ht]
    rw [State.ctx, SMap.get]
    cases hfind : SMap.find s.ctxs c with
    | none => exact ⟨rfl, rfl⟩
    | some v => exact hctx (c, v) (SMap.mem_of_find hfind)
  · exact hctx p hp

/-- What happens to registers past page HNG and to the load of a context leaves a state calm. -/
theorem KeepsOutside.calm_setCtx {s u : State} {c : Nat} {x : Ctx} (h : KeepsOutside PastHng s u) (hc : s.calm = true) (hd : u.due = s.due)
    (hx : u.ctxs = (s.setCtx c x).ctxs) (hf : x.collFail = (s.ctx c).collFail) (ht : x.teardown = (s.ctx c).teardown) (hb : u.boot = s.boot) :
    u.calm = true :=
  KeepsOutside.calm (s := s.setCtx c x) h (State.setCtx_calm hc hf ht) hd hx hb

/-- A command of an agent's session that may write the page of its context, and that leaves the package calm, answers what it does. -/
theorem exec_eq_of_mayWrite_ctx {s : State} {i : Instr} {ag : Agent} {c : Nat} {g : State → State}
    (he : exec i s = s.serve i (fun s => s.asBlock ag .ctx c g)) (hw : i.wellFormed = (ag.wellFormed && decide (c < 64)))
    (hr : s.ready = true) (hc : c < 64) (hm : s.mayWrite ag (0x300 + c) = true) (hcalm : (g (s.dropLatch ag)).calm = true)
    (hp : (g (s.dropLatch ag)).pending = s.pending) : exec i s = .next (g (s.dropLatch ag)) := by
  simp only [State.mayWrite, Bool.and_eq_true] at hm
  obtain ⟨⟨hag, hreach⟩, hwrite⟩ := hm
  have hg : s.asBlock ag .ctx c g = g (s.dropLatch ag) := by
    rw [State.asBlock, if_pos (by exact hc), State.asWrite, if_neg (by rw [Block.base, hreach]; decide),
      if_neg (by rw [Block.base, hwrite]; decide)]
  rw [exec_eq_of_calm (g := fun s => s.asBlock ag .ctx c g) he (by simp [hw, hag, hc]) hr (by rw [hg]; exact hcalm) (by rw [hg]; exact hp), hg]

/-! ### Tile pages -/

/-- The places on the pages of the tiles. -/
def OnTiles (k : Nat) : Prop := 0x100 * 4096 * 32 ≤ k ∧ k < 0x1B0 * 4096 * 32

theorem OnTiles.pastHng {k : Nat} (h : OnTiles k) : PastHng k := by
  simp only [OnTiles, PastHng] at h ⊢; omega

/-- No register of a context stands on a tile's page. -/
theorem not_onTiles_of_ctx {f : Field} (hf : f.block = .ctx) (c i : Nat) : ¬ OnTiles (f.key c i) := by
  simp only [OnTiles, Field.key, hf, Block.base]; omega

theorem chunkKeys_pastHng {t k : Nat} (h : k ∈ chunkKeys t) : PastHng k := by
  simp only [chunkKeys, List.mem_cons, List.not_mem_nil, or_false] at h
  rcases h with rfl | rfl | rfl | rfl | rfl <;>
    simp only [PastHng, Field.key, Reg.FN_LCTX, Reg.FN_MISSING, Reg.FN_CHUNK_LO, Reg.FN_CHUNK_HI, Reg.FN_CHUNK_64, Block.base] <;> omega

theorem chunkKeys_onTiles {t k : Nat} (ht : t < 176) (h : k ∈ chunkKeys t) : OnTiles k := by
  simp only [chunkKeys, List.mem_cons, List.not_mem_nil, or_false] at h
  rcases h with rfl | rfl | rfl | rfl | rfl <;>
    simp only [OnTiles, Field.key, Reg.FN_LCTX, Reg.FN_MISSING, Reg.FN_CHUNK_LO, Reg.FN_CHUNK_HI, Reg.FN_CHUNK_64, Block.base] <;> omega

theorem State.chunksBegin_keeps {K : Nat → Prop} (s : State) (t c len : Nat) (hk : ∀ k ∈ chunkKeys t, K k) :
    KeepsOutside K s (s.chunksBegin t c len) := by
  simp only [chunkKeys, List.forall_mem_cons, List.not_mem_nil, false_implies, implies_true, and_true] at hk
  obtain ⟨hctx, hmiss, hlo, hhi, h64⟩ := hk
  exact (((((KeepsOutside.refl K s).wr _ hctx).wr _ hmiss).wr _ hlo).wr _ hhi).wr _ h64

theorem State.chunksEnd_keeps {K : Nat → Prop} (s : State) (t n : Nat) (lost : List Nat) (hk : ∀ k ∈ chunkKeys t, K k) :
    KeepsOutside K s (s.chunksEnd t n lost) := by
  simp only [chunkKeys, List.forall_mem_cons, List.not_mem_nil, false_implies, implies_true, and_true] at hk
  obtain ⟨-, hmiss, hlo, hhi, h64⟩ := hk
  exact ((((KeepsOutside.refl K s).wr _ hmiss).wr _ hlo).wr _ hhi).wr _ h64

theorem State.showCurves_eq (s : State) (t : Nat) : ∃ r, s.showCurves t = { s with regs := r } :=
  List.foldlRecOn (motive := fun u : State => ∃ r, u = { s with regs := r }) _ _ ⟨_, rfl⟩ (by rintro _ ⟨_, rfl⟩ _ _; exact ⟨_, rfl⟩)

theorem State.showCurves_keeps (s : State) {t : Nat} (ht : t < 176) : KeepsOutside OnTiles s (s.showCurves t) := by
  refine KeepsOutside.foldl _ _ (fun u k hk => (KeepsOutside.refl _ u).wr _ ?_) s
  have hk : k < 8 := by simpa using hk
  simp only [OnTiles, Field.key, Reg.FN_CT_INUSE, Block.base]; omega

theorem State.showDigest_keeps (s : State) {t : Nat} (a b : Nat) (ht : t < 176) :
    KeepsOutside OnTiles s ((s.wr Reg.FN_DIGEST_OK t 0 a).wr Reg.FN_DIGEST_BAD t 0 b) := by
  refine ((KeepsOutside.refl _ s).wr _ ?_).wr _ ?_ <;> simp only [OnTiles, Field.key, Reg.FN_DIGEST_OK, Reg.FN_DIGEST_BAD, Block.base] <;> omega

/-! ### LOAD -/

/-- What LOAD does on a tile. -/
def State.loadTile (c len : Nat) (s : State) (t : Nat) : State :=
  let n := (s.slotOf t c).getD 0
  let x := s.tile t
  let r := SMap.get SlotRun.empty x.slots n
  let s := s.setTile t { x with slots := SMap.set SlotRun.empty x.slots n { r with active := false, curves := [] } }
  let s := (s.wr Reg.FN_DIGEST_OK t 0 0).wr Reg.FN_DIGEST_BAD t 0 0
  (s.chunksBegin t c len).showCurves t

theorem State.loadTile_eq (c len : Nat) (s : State) (t : Nat) : ∃ r x, s.loadTile c len t = { s with regs := r, tiles := x } := by
  rw [State.loadTile]
  obtain ⟨r, hr⟩ := State.showCurves_eq _ t
  rw [hr]
  exact ⟨r, _, rfl⟩

theorem State.loadTile_keeps (c len : Nat) (s : State) {t : Nat} (ht : t < 176) : KeepsOutside OnTiles s (s.loadTile c len t) := by
  rw [State.loadTile]
  refine ((KeepsOutside.trans ?_ (State.showDigest_keeps _ 0 0 ht)).trans
    (State.chunksBegin_keeps _ t c len fun _ => chunkKeys_onTiles ht)).trans (State.showCurves_keeps _ ht)
  exact .of_regs (State.setTile_regs ..)

/-- The context as an accepted LOAD leaves it. -/
def State.loadCtx (s : State) (c : Nat) : Ctx :=
  { s.ctx c with loadDig := s.rd Reg.CTX_PROG_DIGEST c, loadImg := s.staged c, loadTiles := s.tilesOfCtx c }

/-- The state as the tiles begin to take the program. -/
def State.loadShown (s : State) (c : Nat) : State :=
  ((s.wr Reg.CTX_LOAD_REFUSED c 0 0).wr Reg.CTX_LOAD_STATE c 0 1).setCtx c (s.loadCtx c)

/-- A LOAD that no case of R96 refuses. -/
theorem State.load_of_taken {s : State} {c : Nat} (hcs : s.cstate c = 1) (hbusy : s.rd Reg.CTX_EXEC_STEP_BUSY c = 0)
    (hidle : s.rd Reg.CTX_LOAD_STATE c ≠ 1) (hmask : s.rd Reg.CTX_SG_MASK c ≠ 0)
    (hpres : (s.groupsOf c).all (fun g => (s.groupTiles g).all s.present) = true)
    (hfit : ∀ t ∈ s.tilesOfCtx c, ∃ n, s.slotOf t c = some n ∧ imgBundles (s.staged c) * 16 ≤ s.rd Reg.CS_IMEM_SIZE t n * 4096)
    (hsrc : inStagePart (partOfCtx c) (s.rd Reg.CTX_LOAD_SRC c * 64) (s.rd Reg.CTX_LOAD_LEN c) = true) (himg : imageOk (s.staged c) = true) :
    s.load c = (s.tilesOfCtx c).foldl (State.loadTile c (s.staged c).length) (s.loadShown c) := by
  have hslot : (s.tilesOfCtx c).all (fun t => (s.slotOf t c).isSome) = true := by
    rw [List.all_eq_true]
    intro t ht
    obtain ⟨n, hn, -⟩ := hfit t ht
    rw [hn]; rfl
  have hsize : (s.tilesOfCtx c).all (fun t =>
      decide (imgBundles (s.staged c) * 16 ≤ s.rd Reg.CS_IMEM_SIZE t ((s.slotOf t c).getD 0) * 4096)) = true := by
    rw [List.all_eq_true]
    intro t ht
    obtain ⟨n, hn, hle⟩ := hfit t ht
    rw [hn]; exact decide_eq_true hle
  have hdig : ((s.wr Reg.CTX_LOAD_REFUSED c 0 0).wr Reg.CTX_LOAD_STATE c 0 1).rd Reg.CTX_PROG_DIGEST c = s.rd Reg.CTX_PROG_DIGEST c := by
    rw [State.rd_wr_ne, State.rd_wr_ne] <;> simp only [Field.key, Reg.CTX_LOAD_REFUSED, Reg.CTX_LOAD_STATE, Reg.CTX_PROG_DIGEST] <;> omega
  rw [State.load, if_neg (by simp [hcs, hbusy, hidle, hmask, hpres, hsrc, himg, hslot, hsize]), State.loadShown, State.loadCtx, ← hdig]
  rfl

theorem State.load_of_refused {s : State} {c : Nat} (h : s.rd Reg.CTX_EXEC_STEP_BUSY c = 1 ∨ s.rd Reg.CTX_SG_MASK c = 0) :
    s.load c = s.wr Reg.CTX_LOAD_REFUSED c 0 1 := by
  rw [State.load, if_pos]
  rcases h with h | h <;> simp [h]

/-- What an accepted LOAD leaves of the state that is no register and no tile's. -/
theorem State.loadTiles_eq (c len : Nat) (ts : List Nat) (s : State) :
    ∃ r x, ts.foldl (State.loadTile c len) s = { s with regs := r, tiles := x } :=
  List.foldlRecOn (motive := fun u : State => ∃ r x, u = { s with regs := r, tiles := x }) _ _ ⟨_, _, rfl⟩ (by
    rintro _ ⟨_, _, rfl⟩ t _
    obtain ⟨r, x, h⟩ := State.loadTile_eq c len _ t
    exact ⟨r, x, h⟩)

theorem State.loadTiles_keeps (c len : Nat) {ts : List Nat} (s : State) (ht : ∀ t ∈ ts, t < 176) :
    KeepsOutside OnTiles s (ts.foldl (State.loadTile c len) s) :=
  KeepsOutside.foldl _ _ (fun u t hm => u.loadTile_keeps c len (ht t hm)) s

theorem State.loadShown_keeps (s : State) (c : Nat) : KeepsOutside PastHng s (s.loadShown c) := by
  refine (((KeepsOutside.refl _ s).wr (f := Reg.CTX_LOAD_REFUSED) (i := c) (j := 0) 0 ?_).wr (f := Reg.CTX_LOAD_STATE) (i := c) (j := 0) 1
    ?_).trans (.of_regs rfl) <;>
    simp only [PastHng, Field.key, Reg.CTX_LOAD_REFUSED, Reg.CTX_LOAD_STATE, Block.base] <;> omega

/-! ### LOAD_DONE -/

/-- The digests of the curve tables that an image names. -/
def imgDigests (img : List Byte) : List Nat := (List.range (imgCurves img)).map (fun i => leNat ((img.drop (64 + 32 * i)).take 32))

/-- What the end of the chunks does on a tile, and the count of the tiles on which the load failed, R97. -/
def State.loadTileDone (c : Nat) (img : List Byte) (same : Bool) (missed : List (Nat × List Nat)) (x : State × Nat) (t : Nat) : State × Nat :=
  let n := (img.length + 4095) / 4096
  let slot := (x.1.slotOf t c).getD 0
  let lost := lostOn missed n t
  let s := x.1.chunksEnd t n lost
  let base := t * 2 ^ 18 + s.rd Reg.CS_IMEM_BASE t slot * 4096
  let s : State := { s with imem := (codeParts img n lost).foldl (fun m p => m.writeBytes (base + p.1) p.2) s.imem }
  let ok := same && lost.isEmpty
  let s := (s.wrB Reg.FN_DIGEST_OK t 0 ok).wrB Reg.FN_DIGEST_BAD t 0 !ok
  let absent := !lost.contains 0 && (imgDigests img).any (fun d => (s.curveSlot t d).isNone)
  let s := if absent then s.raise (tilePage t) 15 (some c) 0 else s
  (s, if ok && !absent then x.2 else x.2 + 1)

/-- What a load that becomes active does on a tile. -/
def State.loadTileActive (c : Nat) (digs : List Nat) (s : State) (t : Nat) : State :=
  let slot := (s.slotOf t c).getD 0
  let x := s.tile t
  let q := SMap.get SlotRun.empty x.slots slot
  (s.setTile t { x with slots := SMap.set SlotRun.empty x.slots slot { q with
    active := true, curves := digs.map (fun d => (s.curveSlot t d).getD 0) } }).showCurves t

/-- How a load ends that failed on as many of its tiles as counted, R97. -/
def State.loadVerdict (c : Nat) (digs ts : List Nat) (r : State × Nat) : State :=
  let s := r.1.setCtx c { r.1.ctx c with loadImg := [] }
  if r.2 = 0 then ts.foldl (State.loadTileActive c digs) ((s.wr Reg.CTX_LOAD_STATE c 0 2).wr Reg.CTX_LOAD_FAIL_TILES c 0 0)
  else (s.wr Reg.CTX_LOAD_STATE c 0 3).wr Reg.CTX_LOAD_FAIL_TILES c 0 (min 255 r.2)

theorem State.loadDone_of_loading {s : State} {c : Nat} (missed : List (Nat × List Nat)) (hc : c < 64) (hload : s.rd Reg.CTX_LOAD_STATE c = 1) :
    s.loadDone c missed = State.loadVerdict c (imgDigests (s.ctx c).loadImg) (s.ctx c).loadTiles ((s.ctx c).loadTiles.foldl
      (State.loadTileDone c (s.ctx c).loadImg (digNat (sha256 (s.ctx c).loadImg) == (s.ctx c).loadDig) missed) (s, 0)) := by
  rw [State.loadDone, if_neg (by simp [hload]; omega)]
  rfl

/-- What the end of the chunks does on a tile that missed none of them, for an image that names no curve table. -/
def State.loadTileEnd (c : Nat) (img : List Byte) (same : Bool) (s : State) (t : Nat) : State :=
  let n := (img.length + 4095) / 4096
  let slot := (s.slotOf t c).getD 0
  let s := s.chunksEnd t n []
  let base := t * 2 ^ 18 + s.rd Reg.CS_IMEM_BASE t slot * 4096
  let s : State := { s with imem := (codeParts img n []).foldl (fun m p => m.writeBytes (base + p.1) p.2) s.imem }
  (s.wrB Reg.FN_DIGEST_OK t 0 same).wrB Reg.FN_DIGEST_BAD t 0 !same

theorem lostOn_nil (n t : Nat) : lostOn [] n t = [] := by simp [lostOn]

theorem imgDigests_of_noCurves {img : List Byte} (h : imgCurves img = 0) : imgDigests img = [] := by simp [imgDigests, h]

theorem State.loadTileDone_of_noCurves {c : Nat} {img : List Byte} (same : Bool) (x : State × Nat) (t : Nat) (h : imgCurves img = 0) :
    State.loadTileDone c img same [] x t = (State.loadTileEnd c img same x.1 t, if same then x.2 else x.2 + 1) := by
  unfold State.loadTileDone
  simp only [imgDigests_of_noCurves h, lostOn_nil, List.any_nil, List.isEmpty_nil, Bool.and_true, Bool.and_false, Bool.not_false,
    Bool.false_eq_true, if_false]
  rfl

/-- A fold that counts its steps where `b` is false. -/
theorem foldl_count {α β : Type} (g : α → β → α) (b : Bool) (l : List β) (a : α) (k : Nat) :
    l.foldl (fun x y => (g x.1 y, if b then x.2 else x.2 + 1)) (a, k) = (l.foldl g a, if b then k else k + l.length) := by
  induction l generalizing a k with
  | nil => simp
  | cons y l ih =>
    rw [List.foldl_cons, ih]
    cases b
    · simp; omega
    · rfl

/-- LOAD_DONE with every chunk in, of an image that names no curve table. -/
theorem State.loadDone_of_noCurves {s : State} {c : Nat} (hc : c < 64) (hload : s.rd Reg.CTX_LOAD_STATE c = 1)
    (hcurves : imgCurves (s.ctx c).loadImg = 0) {same : Bool} (hsame : (digNat (sha256 (s.ctx c).loadImg) == (s.ctx c).loadDig) = same) :
    s.loadDone c [] = State.loadVerdict c [] (s.ctx c).loadTiles
      ((s.ctx c).loadTiles.foldl (State.loadTileEnd c (s.ctx c).loadImg same) s, if same then 0 else (s.ctx c).loadTiles.length) := by
  have hstep : State.loadTileDone c (s.ctx c).loadImg same [] =
      fun x t => (State.loadTileEnd c (s.ctx c).loadImg same x.1 t, if same then x.2 else x.2 + 1) :=
    funext fun x => funext fun t => State.loadTileDone_of_noCurves same x t hcurves
  rw [State.loadDone_of_loading [] hc hload, hsame, imgDigests_of_noCurves hcurves, hstep, foldl_count, Nat.zero_add]

theorem State.loadTileEnd_keeps (c : Nat) (img : List Byte) (same : Bool) (s : State) {t : Nat} (ht : t < 176) :
    KeepsOutside OnTiles s (s.loadTileEnd c img same t) := by
  refine KeepsOutside.trans ?_ (State.showDigest_keeps _ _ _ ht)
  exact (s.chunksEnd_keeps t _ [] fun _ => chunkKeys_onTiles ht).trans (.of_regs rfl)

theorem State.loadTileActive_eq (c : Nat) (digs : List Nat) (s : State) (t : Nat) :
    ∃ r x, s.loadTileActive c digs t = { s with regs := r, tiles := x } := by
  rw [State.loadTileActive]
  obtain ⟨r, hr⟩ := State.showCurves_eq _ t
  rw [hr]
  exact ⟨r, _, rfl⟩

theorem State.loadTileActive_keeps (c : Nat) (digs : List Nat) (s : State) {t : Nat} (ht : t < 176) :
    KeepsOutside OnTiles s (s.loadTileActive c digs t) :=
  (KeepsOutside.of_regs (State.setTile_regs ..)).trans (State.showCurves_keeps _ ht)

/-- The state once the chunks of a context's load have ended on its tiles. -/
def State.loadEnded (s : State) (c : Nat) (same : Bool) : State :=
  (s.ctx c).loadTiles.foldl (State.loadTileEnd c (s.ctx c).loadImg same) s

theorem State.loadEnded_eq (s : State) (c : Nat) (same : Bool) : ∃ r m, s.loadEnded c same = { s with regs := r, imem := m } :=
  List.foldlRecOn (motive := fun u : State => ∃ r m, u = { s with regs := r, imem := m }) _ _ ⟨_, _, rfl⟩
    (by rintro _ ⟨_, _, rfl⟩ _ _; exact ⟨_, _, rfl⟩)

theorem State.loadEnded_keeps {s : State} {c : Nat} (same : Bool) (ht : ∀ t ∈ (s.ctx c).loadTiles, t < 176) :
    KeepsOutside OnTiles s (s.loadEnded c same) :=
  KeepsOutside.foldl _ _ (fun u t hm => u.loadTileEnd_keeps c _ same (ht t hm)) s

/-- A load that failed on no tile: what its verdict leaves of the state that is no register, no tile's and not of the context. -/
theorem State.loadVerdict_active_eq (c : Nat) (ts : List Nat) (u : State) : ∃ r x, State.loadVerdict c [] ts (u, 0) =
    { u.setCtx c { u.ctx c with loadImg := [] } with regs := r, tiles := x } := by
  rw [State.loadVerdict, if_pos rfl]
  exact List.foldlRecOn (motive := fun v : State => ∃ r x, v = { u.setCtx c { u.ctx c with loadImg := [] } with regs := r, tiles := x }) _ _
    ⟨_, _, rfl⟩ (by
      rintro _ ⟨_, _, rfl⟩ t _
      obtain ⟨r, x, h⟩ := State.loadTileActive_eq c [] _ t
      exact ⟨r, x, h⟩)

/-- The registers of LOAD that tell how it ended, as a verdict sets them. -/
def State.showLoad (s : State) (c st fail : Nat) : State := (s.wr Reg.CTX_LOAD_STATE c 0 st).wr Reg.CTX_LOAD_FAIL_TILES c 0 fail

theorem State.showLoad_rd (s : State) (c : Nat) {st fail : Nat} (hst : st < 4) (hf : fail < 256) :
    (s.showLoad c st fail).rd Reg.CTX_LOAD_STATE c = st ∧ (s.showLoad c st fail).rd Reg.CTX_LOAD_FAIL_TILES c = fail := by
  rw [State.showLoad, State.rd_wr_self, State.rd_wr_ne, State.rd_wr_self]
  · exact ⟨Nat.mod_eq_of_lt hst, Nat.mod_eq_of_lt hf⟩
  · simp [Field.key, Reg.CTX_LOAD_STATE, Reg.CTX_LOAD_FAIL_TILES]

theorem State.showLoad_keeps (s : State) (c st fail : Nat) : KeepsOutside PastHng s (s.showLoad c st fail) := by
  refine ((KeepsOutside.refl _ s).wr _ ?_).wr _ ?_ <;>
    simp only [PastHng, Field.key, Reg.CTX_LOAD_STATE, Reg.CTX_LOAD_FAIL_TILES, Block.base] <;> omega

theorem State.loadVerdict_active_keeps (c : Nat) {ts : List Nat} (u : State) (ht : ∀ t ∈ ts, t < 176) :
    KeepsOutside OnTiles (u.showLoad c 2 0) (State.loadVerdict c [] ts (u, 0)) := by
  rw [State.loadVerdict, if_pos rfl]
  exact KeepsOutside.trans (.of_regs rfl) (KeepsOutside.foldl _ _ (fun v t hm => v.loadTileActive_keeps c [] (ht t hm)) _)

/-- A load that failed on `n` of its tiles. -/
theorem State.loadVerdict_failed (c : Nat) (ts : List Nat) (u : State) {n : Nat} (hn : n ≠ 0) : State.loadVerdict c [] ts (u, n) =
    (u.setCtx c { u.ctx c with loadImg := [] }).showLoad c 3 (min 255 n) := by
  rw [State.loadVerdict, if_neg hn]
  rfl

/-! ### CURVE and CURVE_DONE -/

/-- The state as the tiles begin to take the curve table. -/
def State.curveShown (s : State) (c : Nat) : State :=
  ((s.wr Reg.CTX_LOAD_CURVE_REFUSED c 0 0).wr Reg.CTX_LOAD_CURVE_STATE c 0 1).setCtx c
    { s.ctx c with curveImg := s.staged c, curveTiles := s.tilesOfCtx c }

/-- A CURVE that no case of R98 refuses. -/
theorem State.curve_of_taken {s : State} {c : Nat} (hcs : s.cstate c = 1) (hload : s.rd Reg.CTX_LOAD_STATE c ≠ 1)
    (hidle : s.rd Reg.CTX_LOAD_CURVE_STATE c ≠ 1) (hmask : s.rd Reg.CTX_SG_MASK c ≠ 0)
    (hsrc : inStagePart (partOfCtx c) (s.rd Reg.CTX_LOAD_SRC c * 64) (s.rd Reg.CTX_LOAD_LEN c) = true)
    (hlen : s.rd Reg.CTX_LOAD_LEN c = 64 + 16 * curveSegs (s.staged c)) :
    s.curve c = (s.tilesOfCtx c).foldl (fun u t => u.chunksBegin t c (s.staged c).length) (s.curveShown c) := by
  rw [State.curve, if_neg (by simp [hcs, hload, hidle, hmask, hsrc, ← hlen])]
  rfl

theorem State.curveTiles_eq (c len : Nat) (ts : List Nat) (s : State) :
    ∃ r, ts.foldl (fun u t => u.chunksBegin t c len) s = { s with regs := r } :=
  List.foldlRecOn (motive := fun u : State => ∃ r, u = { s with regs := r }) _ _ ⟨_, rfl⟩ (by rintro _ ⟨_, rfl⟩ _ _; exact ⟨_, rfl⟩)

theorem State.curveTiles_keeps (c len : Nat) (ts : List Nat) (s : State) :
    KeepsOutside (· ∈ ts.flatMap chunkKeys) s (ts.foldl (fun u t => u.chunksBegin t c len) s) :=
  KeepsOutside.foldl _ _ (fun u t ht => u.chunksBegin_keeps t c len fun _ hk => List.mem_flatMap_of_mem ht hk) s

/-- The registers of LOAD that a curve load sets, and the chunk fields of its tiles, stand past HNG. -/
theorem curveKeys_pastHng {f g : Field} (hf : f.block = .ctx) (hg : g.block = .ctx) {c k : Nat} {ts : List Nat}
    (h : k ∈ [f.key c 0, g.key c 0] ++ ts.flatMap chunkKeys) : PastHng k := by
  simp only [List.mem_append, List.mem_cons, List.not_mem_nil, or_false, List.mem_flatMap] at h
  obtain (rfl | rfl) | ⟨t, -, hk⟩ := h
  · simp only [PastHng, Field.key, hf, Block.base]; omega
  · simp only [PastHng, Field.key, hg, Block.base]; omega
  · exact chunkKeys_pastHng hk

/-- CURVE_STATE of a context is no chunk field, whatever the tiles are. -/
theorem curveState_not_mem_chunkKeys (c : Nat) (ts : List Nat) : Reg.CTX_LOAD_CURVE_STATE.key c 0 ∉ ts.flatMap chunkKeys := by
  simp only [List.mem_flatMap, not_exists, not_and, chunkKeys, List.mem_cons, List.not_mem_nil, or_false, not_or]
  intro t _
  refine ⟨?_, ?_, ?_, ?_, ?_⟩ <;>
    simp only [Field.key, Reg.CTX_LOAD_CURVE_STATE, Reg.FN_LCTX, Reg.FN_MISSING, Reg.FN_CHUNK_LO, Reg.FN_CHUNK_HI, Reg.FN_CHUNK_64] <;> omega

/-- No field of a tile's curve slots is a chunk field. -/
theorem curveSlot_not_mem_chunkKeys {f : Field} (hf : f ∈ [Reg.FN_CT_VALID, Reg.FN_CT_DIG]) (t : Nat) {k : Nat} (hk : k < 8) (ts : List Nat) :
    f.key t k ∉ ts.flatMap chunkKeys := by
  simp only [List.mem_flatMap, not_exists, not_and, chunkKeys, List.mem_cons, List.not_mem_nil, or_false, not_or] at hf ⊢
  intro t' _
  rcases hf with rfl | rfl <;> refine ⟨?_, ?_, ?_, ?_, ?_⟩ <;>
    simp only [Field.key, Reg.FN_CT_VALID, Reg.FN_CT_DIG, Reg.FN_LCTX, Reg.FN_MISSING, Reg.FN_CHUNK_LO, Reg.FN_CHUNK_HI, Reg.FN_CHUNK_64,
      Block.base] <;> omega

/-- A tile's curve slots stay as they are where chunk fields alone change. -/
theorem KeepsOutside.curveSlot {s u : State} {ts : List Nat} (h : KeepsOutside (· ∈ ts.flatMap chunkKeys) s u) (t dig : Nat) :
    u.curveSlot t dig = s.curveSlot t dig := by
  refine List.find?_congr (fun k hk => ?_)
  have hk : k < 8 := by simpa using hk
  rw [State.rdB_eq, State.rdB_eq, h _ _ _ (curveSlot_not_mem_chunkKeys (by simp) t hk ts), h _ _ _ (curveSlot_not_mem_chunkKeys (by simp) t hk ts)]

/-- What the end of the chunks of a curve load does on a tile, and the count of the tiles that failed to take the table, R98. -/
def State.curveTileDone (img : List Byte) (missed : List (Nat × List Nat)) (x : State × Nat) (t : Nat) : State × Nat :=
  let n := (img.length + 4095) / 4096
  let dig := digNat (sha256 img)
  let lost := lostOn missed n t
  let s := x.1.chunksEnd t n lost
  if (s.curveSlot t dig).isSome then (s, x.2)
  else match (List.range 8).find? (fun k => !s.rdB Reg.FN_CT_VALID t k || !s.rdB Reg.FN_CT_INUSE t k) with
    | none => (s, x.2 + 1)
    | some k =>
      if !lost.isEmpty || !curveOk img then (s, x.2 + 1)
      else
        let s := s.setTile t { s.tile t with curves := SMap.put (s.tile t).curves k img }
        (((s.wr Reg.FN_CT_VALID t k 1).wr Reg.FN_CT_NSEG t k (curveSegs img)).wr Reg.FN_CT_DIG t k dig, x.2)

/-- How a curve load ends that failed on as many of its tiles as counted, R98. -/
def State.curveVerdict (c : Nat) (r : State × Nat) : State :=
  let s := r.1.setCtx c { r.1.ctx c with curveImg := [] }
  if r.2 = 0 then (s.wr Reg.CTX_LOAD_CURVE_STATE c 0 2).wr Reg.CTX_LOAD_CURVE_FAIL_TILES c 0 0
  else (s.wr Reg.CTX_LOAD_CURVE_STATE c 0 3).wr Reg.CTX_LOAD_CURVE_FAIL_TILES c 0 (min 255 r.2)

theorem State.curveDone_of_loading {s : State} {c : Nat} (missed : List (Nat × List Nat)) (hc : c < 64)
    (hload : s.rd Reg.CTX_LOAD_CURVE_STATE c = 1) : s.curveDone c missed =
      State.curveVerdict c ((s.ctx c).curveTiles.foldl (State.curveTileDone (s.ctx c).curveImg missed) (s, 0)) := by
  rw [State.curveDone, if_neg (by simp [hload]; omega)]
  rfl

/-- Where every tile already holds the digest, the end of a curve load writes chunk fields alone and counts no tile. -/
theorem State.curveTiles_held {s : State} {ts : List Nat} {img : List Byte} (missed : List (Nat × List Nat))
    (hheld : ts.all (fun t => (s.curveSlot t (digNat (sha256 img))).isSome) = true) :
    ∃ r, ts.foldl (State.curveTileDone img missed) (s, 0) = ({ s with regs := r }, 0) ∧
      KeepsOutside (· ∈ ts.flatMap chunkKeys) s { s with regs := r } := by
  refine List.foldlRecOn (motive := fun x : State × Nat => ∃ r, x = ({ s with regs := r }, 0) ∧
    KeepsOutside (· ∈ ts.flatMap chunkKeys) s { s with regs := r }) _ _ ⟨s.regs, rfl, .refl _ s⟩ ?_
  rintro _ ⟨r, rfl, hkeep⟩ t ht
  have hend := hkeep.trans (State.chunksEnd_keeps { s with regs := r } t ((img.length + 4095) / 4096)
    (lostOn missed ((img.length + 4095) / 4096) t) fun _ hk => List.mem_flatMap_of_mem ht hk)
  rw [State.curveTileDone, if_pos (by rw [hend.curveSlot]; exact List.all_eq_true.mp hheld t ht)]
  exact ⟨_, rfl, hend⟩

end Sys2Proof.Machine
end

section
open Sys2Proof Sys2Proof.Machine

theorem loadIsTakenOrRefused : Clause.LoadIsTakenOrRefused := by
  intro ag c s hr hc hm
  refine ⟨fun href => ?_, fun hcs hbusy hidle hmask hpres htiles hfit hsrc himg => ?_⟩
  · have hload : (s.dropLatch ag).load c = (s.dropLatch ag).wr Reg.CTX_LOAD_REFUSED c 0 1 := State.load_of_refused href
    have hcalm : ((s.dropLatch ag).load c).calm = true := by
      rw [hload]
      refine KeepsOutside.calm (s := s) (((KeepsOutside.of_regs rfl).wr _ ?_)) (s.ready_iff.mp hr).2 rfl rfl rfl
      simp only [PastHng, Field.key, Reg.CTX_LOAD_REFUSED, Block.base]; omega
    refine ⟨_, exec_eq_of_mayWrite_ctx (g := fun s => s.load c) rfl rfl hr hc hm hcalm (by rw [hload]; rfl), ?_⟩
    rw [hload]
    refine ⟨State.rd_wr_self .., fun f i j hk => ?_, rfl⟩
    rw [State.rd_wr_ne _ _ (by simpa using hk), State.dropLatch_rd]
  · have hload : (s.dropLatch ag).load c = (s.tilesOfCtx c).foldl (State.loadTile c (s.staged c).length) ((s.dropLatch ag).loadShown c) :=
      State.load_of_taken hcs hbusy hidle hmask hpres hfit hsrc himg
    obtain ⟨r, x, hrest⟩ := State.loadTiles_eq c (s.staged c).length (s.tilesOfCtx c) ((s.dropLatch ag).loadShown c)
    have hkeep := State.loadTiles_keeps c (s.staged c).length ((s.dropLatch ag).loadShown c) htiles
    have heq := hload.trans hrest
    rw [← hload] at hkeep
    have hcalm : ((s.dropLatch ag).load c).calm = true :=
      (((s.dropLatch ag).loadShown_keeps c).trans (hkeep.mono fun _ => OnTiles.pastHng)).calm_setCtx (x := (s.dropLatch ag).loadCtx c)
        (s.ready_iff.mp hr).2 (by rw [heq]; rfl) (by rw [heq]; rfl) rfl rfl (by rw [heq]; rfl)
    refine ⟨_, exec_eq_of_mayWrite_ctx (g := fun s => s.load c) rfl rfl hr hc hm hcalm (by rw [heq]; rfl), ?_⟩
    have hctx : ((s.dropLatch ag).load c).ctx c = (s.dropLatch ag).loadCtx c := by
      rw [heq]; exact State.ctx_setCtx_self ..
    refine ⟨?_, ?_, by rw [hctx]; rfl, by rw [hctx]; rfl, by rw [hctx]; rfl, by rw [heq]; rfl⟩
    · refine (hkeep _ _ _ (not_onTiles_of_ctx rfl c 0)).trans ?_
      rw [State.loadShown, State.setCtx_rd, State.rd_wr_self]
      rfl
    · refine (hkeep _ _ _ (not_onTiles_of_ctx rfl c 0)).trans ?_
      rw [State.loadShown, State.setCtx_rd, State.rd_wr_ne, State.rd_wr_self]
      · rfl
      · simp [Field.key, Reg.CTX_LOAD_REFUSED, Reg.CTX_LOAD_STATE]

theorem loadBecomesActiveOrFails : Clause.LoadBecomesActiveOrFails := by
  intro c s hr hc hload htiles
  have hw : (Instr.loadDone c []).wellFormed = true := decide_eq_true hc
  refine ⟨fun hdig hcurves => ?_, fun hdig hcurves hne => ?_⟩
  · have hdone : s.loadDone c [] = State.loadVerdict c [] (s.ctx c).loadTiles (s.loadEnded c true, 0) :=
      State.loadDone_of_noCurves hc hload hcurves (same := true) (beq_iff_eq.mpr hdig)
    obtain ⟨q, m, hended⟩ := s.loadEnded_eq c true
    obtain ⟨r, x, hrest⟩ := State.loadVerdict_active_eq c (s.ctx c).loadTiles (s.loadEnded c true)
    have hkeep := State.loadVerdict_active_keeps c (s.loadEnded c true) htiles
    have heq := hdone.trans hrest
    rw [hended] at heq
    rw [← hdone] at hkeep
    have hcalm : (s.loadDone c []).calm = true :=
      (((State.loadEnded_keeps true htiles).mono fun _ => OnTiles.pastHng).trans ((State.showLoad_keeps _ c 2 0).trans
        (hkeep.mono fun _ => OnTiles.pastHng))).calm_setCtx (x := { s.ctx c with loadImg := [] })
        (s.ready_iff.mp hr).2 (by rw [heq]; rfl) (by rw [heq]; rfl) rfl rfl (by rw [heq]; rfl)
    obtain ⟨hst, hfail⟩ := (s.loadEnded c true).showLoad_rd c (st := 2) (fail := 0) (by decide) (by decide)
    refine ⟨_, exec_eq_of_calm (g := fun s => s.loadDone c []) rfl hw hr hcalm (by rw [heq]; rfl), ?_, ?_, ?_⟩
    · exact (hkeep _ _ _ (not_onTiles_of_ctx rfl c 0)).trans hst
    · exact (hkeep _ _ _ (not_onTiles_of_ctx rfl c 0)).trans hfail
    · have hctx : (s.loadDone c []).ctx c = { s.ctx c with loadImg := [] } := by
        rw [heq]; exact State.ctx_setCtx_self ..
      rw [hctx]
  · have hlen : (s.ctx c).loadTiles.length ≠ 0 := by simpa using hne
    have hdone : s.loadDone c [] =
        ((s.loadEnded c false).setCtx c { (s.loadEnded c false).ctx c with loadImg := [] }).showLoad c 3 (min 255 (s.ctx c).loadTiles.length) :=
      (State.loadDone_of_noCurves hc hload hcurves (same := false) (beq_eq_false_iff_ne.mpr hdig)).trans (State.loadVerdict_failed c _ _ hlen)
    obtain ⟨q, m, hended⟩ := s.loadEnded_eq c false
    have hkeep : KeepsOutside PastHng s (s.loadDone c []) := by
      rw [hdone]
      exact ((State.loadEnded_keeps false htiles).mono fun _ => OnTiles.pastHng).trans
        (KeepsOutside.trans (.of_regs rfl) (State.showLoad_keeps _ c 3 _))
    have hcalm : (s.loadDone c []).calm = true :=
      hkeep.calm_setCtx (x := { s.ctx c with loadImg := [] }) (s.ready_iff.mp hr).2 (by rw [hdone, hended]; rfl) (by rw [hdone, hended]; rfl)
        rfl rfl (by rw [hdone, hended]; rfl)
    refine ⟨_, exec_eq_of_calm (g := fun s => s.loadDone c []) rfl hw hr hcalm (by rw [hdone, hended]; rfl), ?_⟩
    rw [hdone]
    exact State.showLoad_rd _ c (by decide) (by omega)

theorem curveLoads : Clause.CurveLoads := by
  intro c s hr hc
  refine ⟨fun ag hm hcs hload hidle hmask hsrc hlen => ?_, fun hload hheld => ?_⟩
  · have hcurve : (s.dropLatch ag).curve c =
        (s.tilesOfCtx c).foldl (fun u t => u.chunksBegin t c (s.staged c).length) ((s.dropLatch ag).curveShown c) :=
      State.curve_of_taken hcs hload hidle hmask hsrc hlen
    obtain ⟨r, hrest⟩ := State.curveTiles_eq c (s.staged c).length (s.tilesOfCtx c) ((s.dropLatch ag).curveShown c)
    have htiles := State.curveTiles_keeps c (s.staged c).length (s.tilesOfCtx c) ((s.dropLatch ag).curveShown c)
    have heq := hcurve.trans hrest
    rw [← hcurve] at htiles
    have hkeep : KeepsOutside (· ∈ [Reg.CTX_LOAD_CURVE_STATE.key c 0, Reg.CTX_LOAD_CURVE_REFUSED.key c 0] ++ (s.tilesOfCtx c).flatMap chunkKeys)
        s ((s.dropLatch ag).curve c) :=
      ((((KeepsOutside.of_regs rfl).wr (u := s.dropLatch ag) (f := Reg.CTX_LOAD_CURVE_REFUSED) (i := c) (j := 0) 0 (by simp)).wr
        (f := Reg.CTX_LOAD_CURVE_STATE) (i := c) (j := 0) 1 (by simp)).trans (.of_regs rfl)).trans
        (htiles.mono fun _ => List.mem_append_right _)
    have hcalm : ((s.dropLatch ag).curve c).calm = true :=
      (hkeep.mono fun _ => curveKeys_pastHng rfl rfl).calm_setCtx
        (x := { s.ctx c with curveImg := s.staged c, curveTiles := s.tilesOfCtx c }) (s.ready_iff.mp hr).2 (by rw [heq]; rfl) (by rw [heq]; rfl)
        rfl rfl (by rw [heq]; rfl)
    refine ⟨_, exec_eq_of_mayWrite_ctx (g := fun s => s.curve c) rfl rfl hr hc hm hcalm (by rw [heq]; rfl), ?_⟩
    have hctx : ((s.dropLatch ag).curve c).ctx c = { s.ctx c with curveImg := s.staged c, curveTiles := s.tilesOfCtx c } := by
      rw [heq]; exact State.ctx_setCtx_self ..
    refine ⟨?_, by rw [hctx], by rw [hctx], by rw [heq]; rfl, hkeep⟩
    refine (htiles _ _ _ (curveState_not_mem_chunkKeys c _)).trans ?_
    rw [State.curveShown, State.setCtx_rd, State.rd_wr_self]
    rfl
  · obtain ⟨r, hfold, htiles⟩ := State.curveTiles_held [] hheld
    have hdone : s.curveDone c [] = ((({ s with regs := r } : State).setCtx c { s.ctx c with curveImg := [] }).wr
        Reg.CTX_LOAD_CURVE_STATE c 0 2).wr Reg.CTX_LOAD_CURVE_FAIL_TILES c 0 0 := by
      rw [State.curveDone_of_loading [] hc hload, hfold]
      rfl
    have hkeep : KeepsOutside (· ∈ [Reg.CTX_LOAD_CURVE_STATE.key c 0, Reg.CTX_LOAD_CURVE_FAIL_TILES.key c 0] ++
        (s.ctx c).curveTiles.flatMap chunkKeys) s (s.curveDone c []) := by
      rw [hdone]
      exact (((htiles.mono fun _ => List.mem_append_right _).trans (.of_regs rfl)).wr _ (by simp)).wr _ (by simp)
    have hcalm : (s.curveDone c []).calm = true :=
      (hkeep.mono fun _ => curveKeys_pastHng rfl rfl).calm_setCtx (x := { s.ctx c with curveImg := [] }) (s.ready_iff.mp hr).2
        (by rw [hdone]; rfl) (by rw [hdone]; rfl) rfl rfl (by rw [hdone]; rfl)
    refine ⟨_, exec_eq_of_calm (g := fun s => s.curveDone c []) rfl (decide_eq_true hc) hr hcalm (by rw [hdone]; rfl), ?_,
      by rw [hdone]; rfl, hkeep⟩
    rw [hdone, State.rd_wr_ne, State.rd_wr_self]
    · rfl
    · simp [Field.key, Reg.CTX_LOAD_CURVE_STATE, Reg.CTX_LOAD_CURVE_FAIL_TILES]

/-- Settles O10: what a load writes on its tiles stands on their pages, so its own fields of the context keep what it sets; the chunk fields
that a curve load writes are no place of CURVE_STATE or of a curve slot, whatever its tiles are. -/
theorem loadsOfAContext : Obligations.LoadsOfAContext := ⟨loadIsTakenOrRefused, loadBecomesActiveOrFails, curveLoads⟩

end

section
namespace Sys2Proof.Machine

open Sys2Proof

/-! PROOFS. Larder without stored errors: its reads and writes count, and count alone beside the bytes that are written; what the checks of
regions read stands on no counter. -/

/-- A command answers its effect, settled. -/
theorem exec_eq_answer {s : State} {i : Instr} {g : State → State} (he : exec i s = s.serve i g) (hw : i.wellFormed = true)
    (hr : s.ready = true) : exec i s = .next (s.answer (g s)) := by
  rw [he, State.serve_of_ready s i g (s.ready_iff.mp hr).1 hw, State.answer]

/-! ### Counters -/

/-- The places of the counters CNT_n of the pages from MEM on. -/
def CounterPlace (k : Nat) : Prop := ∃ p n, 0x40 ≤ p ∧ n < 8 ∧ k = Reg.CNT_N.key p n

theorem CounterPlace.pastHng {k : Nat} (h : CounterPlace k) : PastHng k := by
  obtain ⟨p, n, hp, -, rfl⟩ := h
  simp only [PastHng, Field.key, Reg.CNT_N, Block.base]; omega

/-- A field beyond the common header of its page stands on no counter. -/
theorem not_counterPlace {f : Field} (i : Nat) {j : Nat} (hf : 0x100 ≤ f.off ∧ f.off + f.stride * j < 4096 ∧ f.lo < 32) :
    ¬ CounterPlace (f.key i j) := by
  rintro ⟨p, n, -, hn, h⟩
  simp only [Field.key, Reg.CNT_N, Block.base] at h
  omega

/-- At most counters of the pages from MEM on differ. -/
structure CountsOnly (s u : State) : Prop where
  rest : u = { s with regs := u.regs }
  keeps : KeepsOutside CounterPlace s u

theorem CountsOnly.refl (s : State) : CountsOnly s s := ⟨rfl, .refl _ s⟩

theorem CountsOnly.trans {s u v : State} (h : CountsOnly s u) (h' : CountsOnly u v) : CountsOnly s v where
  rest := by rw [h'.rest, h.rest]
  keeps := h.keeps.trans h'.keeps

theorem State.count_countsOnly (s : State) {p n : Nat} (k : Nat) (hp : 0x40 ≤ p) (hn : n < 8) : CountsOnly s (s.count p n k) where
  rest := s.count_eq p n k
  keeps := (KeepsOutside.refl _ s).countF _ ⟨p, n, hp, hn, rfl⟩

theorem CountsOnly.count {s u : State} (h : CountsOnly s u) {p n : Nat} (k : Nat) (hp : 0x40 ≤ p) (hn : n < 8) : CountsOnly s (u.count p n k) :=
  h.trans (u.count_countsOnly k hp hn)

/-- Registers that keep their values outside the places `ks` and the counters. -/
theorem KeepsOutside.regsKeep {s u : State} {ks : List Nat} (h : KeepsOutside (fun k => k ∈ ks ∨ CounterPlace k) s u) : RegsKeep s u ks := by
  intro f i j hk hc
  refine h f i j (not_or.mpr ⟨hk, ?_⟩)
  rintro ⟨p, n, -, hn, he⟩
  exact hc p n hn he

/-! ### Reads and writes -/

theorem State.larderGet_of_no_errors {s : State} (h : s.lerr = []) (c : Option Nat) (a n : Nat) :
    ∃ u, s.larderGet c a n = (u, some (s.larder.readBytes a n)) ∧ CountsOnly s u := by
  have hu : CountsOnly s (c.elim (s.count (0x40 + stackOf a) 0 (granules a n))
      (fun x => (s.count (0x40 + stackOf a) 0 (granules a n)).count (0x300 + x) 5 (granules a n))) := by
    have hs := s.count_countsOnly (p := 0x40 + stackOf a) (n := 0) (granules a n) (by omega) (by decide)
    cases c with
    | none => exact hs
    | some x => exact hs.count (p := 0x300 + x) (n := 5) _ (by omega) (by decide)
  simp only [State.larderGet]
  generalize c.elim (s.count (0x40 + stackOf a) 0 (granules a n)) _ = u at hu ⊢
  have hlerr : u.lerr = [] := by rw [hu.rest]; exact h
  have hlarder : u.larder = s.larder := by rw [hu.rest]
  exact ⟨u, by rw [hlerr, List.isEmpty_nil, if_pos rfl, hlarder], hu⟩

theorem State.larderMerge_of_no_errors {s : State} (h : s.lerr = []) (a n : Nat) :
    ∃ u, s.larderMerge a n = (u, true) ∧ CountsOnly s u := by
  refine List.foldlRecOn (motive := fun x : State × Bool => ∃ u, x = (u, true) ∧ CountsOnly s u) _ _ ⟨s, rfl, .refl s⟩ ?_
  rintro _ ⟨u, rfl, hu⟩ g -
  obtain ⟨v, hv, hc⟩ := State.larderGet_of_no_errors (s := u) (by rw [hu.rest]; exact h) (u.larderOwner (256 * g)) (256 * g) 256
  exact ⟨v, by simp [hv], hu.trans hc⟩

/-- What a write stores where a memory holds the errors `e` when it is done. -/
theorem State.larderStore_eq (s : State) (a : Nat) (l : List Byte) : ∃ u e, CountsOnly s u ∧ (s.lerr = [] → e = []) ∧
    s.larderStore a l = { u with larder := s.larder.writeBytes a l, lerr := e } := by
  have hc := s.count_countsOnly (p := 0x40 + stackOf a) (n := 1) (granules a l.length) (by omega) (by decide)
  refine ⟨_, _, hc, fun h => ?_, by rw [State.larderStore, hc.rest]⟩
  rw [hc.rest]; simp [h]

theorem State.larderStore_of_no_errors {s : State} (h : s.lerr = []) (a : Nat) (l : List Byte) :
    ∃ u, CountsOnly s u ∧ s.larderStore a l = { u with larder := s.larder.writeBytes a l } := by
  obtain ⟨u, e, hu, he, heq⟩ := s.larderStore_eq a l
  have hlerr : u.lerr = e := by rw [he h, hu.rest]; exact h
  exact ⟨u, hu, by rw [heq, ← hlerr]⟩

theorem State.larderPut_of_no_errors {s : State} (h : s.lerr = []) (a : Nat) (l : List Byte) :
    ∃ u, CountsOnly s u ∧ s.larderPut a l = { u with larder := s.larder.writeBytes a l } := by
  obtain ⟨v, hv, hc⟩ := State.larderMerge_of_no_errors h a l.length
  obtain ⟨u, hu, heq⟩ := State.larderStore_of_no_errors (s := v) (by rw [hc.rest]; exact h) a l
  refine ⟨u, hc.trans hu, ?_⟩
  rw [State.larderPut, hv, if_pos rfl, heq, hc.rest]

/-- A write of whole granules merges nothing. -/
theorem State.larderPut_of_whole (s : State) {a : Nat} {l : List Byte} (ha : a % 256 = 0) (hl : l.length % 256 = 0) :
    ∃ u e, CountsOnly s u ∧ s.larderPut a l = { u with larder := s.larder.writeBytes a l, lerr := e } := by
  have hpart : partGranules a l.length = [] := by
    simp only [partGranules]
    split
    · rfl
    next h0 => rw [if_neg (by omega), if_neg (by omega)]; rfl
  obtain ⟨u, e, hu, -, heq⟩ := s.larderStore_eq a l
  exact ⟨u, e, hu, by rw [State.larderPut, State.larderMerge, hpart]; exact heq⟩

/-! ### The checks of regions -/

/-- A field of a region stands on no counter. -/
theorem KeepsOutside.rd_region {s u : State} (h : KeepsOutside CounterPlace s u) {f : Field} (st : Nat) {n : Nat} (hn : n < 64)
    (hf : 0x800 ≤ f.off ∧ f.off < 0x820 ∧ f.stride = 0x20 ∧ f.lo < 32) : u.rd f st n = s.rd f st n := by
  obtain ⟨ho, ho', hs, hl⟩ := hf
  exact h _ _ _ (not_counterPlace _ ⟨by omega, by rw [hs]; omega, hl⟩)

theorem KeepsOutside.regionBase {s u : State} (h : KeepsOutside CounterPlace s u) (st : Nat) {n : Nat} (hn : n < 64) :
    u.regionBase st n = s.regionBase st n := by
  rw [State.regionBase, h.rd_region st hn (by decide), State.regionBase]

theorem KeepsOutside.regionSize {s u : State} (h : KeepsOutside CounterPlace s u) (st : Nat) {n : Nat} (hn : n < 64) :
    u.regionSize st n = s.regionSize st n := by
  rw [State.regionSize, h.rd_region st hn (by decide), State.regionSize]

/-- The region of an address depends on fields of its stack's regions alone. -/
theorem KeepsOutside.regionAt {s u : State} (h : KeepsOutside CounterPlace s u) (a : Nat) : u.regionAt a = s.regionAt a := by
  rw [State.regionAt, State.regionAt]
  split
  · rfl
  · refine List.find?_congr (fun n hn => ?_)
    have hn : n < 64 := by simpa using hn
    rw [State.rdB_eq, State.rdB_eq, h.rd_region _ hn (by decide), h.regionBase _ hn, h.regionSize _ hn]

theorem State.lt_of_regionAt {s : State} {a r : Nat} (h : s.regionAt a = some r) : r < 64 := by
  rw [State.regionAt] at h
  split at h
  · cases h
  · simpa using List.mem_of_find?_eq_some h

/-- The check of an access depends on the stacks and on fields of regions alone. -/
theorem KeepsOutside.larderCheck {s u : State} (h : KeepsOutside CounterPlace s u) (hs : u.stk = s.stk) (c kind f a n : Nat) :
    u.larderCheck c kind f a n = s.larderCheck c kind f a n := by
  have hstack : ∀ k, u.stack k = s.stack k := fun k => by rw [State.stack, hs, State.stack]
  induction f generalizing a n with
  | zero => rfl
  | succ f ih =>
    rw [State.larderCheck, State.larderCheck, hstack, h.regionAt]
    cases hr : s.regionAt a with
    | none => rfl
    | some r =>
      have hn := State.lt_of_regionAt hr
      have hrd : ∀ g ∈ [Reg.LR_TAGGED, Reg.LR_CTX, Reg.LR_WRITE, Reg.LR_STATE], u.rd g (stackOf a) r = s.rd g (stackOf a) r := by
        intro g hg
        simp only [List.mem_cons, List.not_mem_nil, or_false] at hg
        rcases hg with rfl | rfl | rfl | rfl <;> exact h.rd_region _ hn (by decide)
      have htagged : u.rdB Reg.LR_TAGGED (stackOf a) r = s.rdB Reg.LR_TAGGED (stackOf a) r := by
        rw [State.rdB, hrd _ (by simp), State.rdB]
      dsimp only
      rw [htagged, hrd Reg.LR_CTX (by simp), hrd Reg.LR_WRITE (by simp), hrd Reg.LR_STATE (by simp), h.regionBase _ hn, h.regionSize _ hn, ih]

theorem stackOf_lt_of_not_bad {a : Nat} (h : badAddr a = false) : stackOf a < 12 := by
  simp only [badAddr, Bool.or_eq_false_iff, decide_eq_false_iff_not, not_le] at h
  exact h.1

/-- An access that the check allows goes on. -/
theorem State.larderOk_of_none {s : State} {c kind a n : Nat} (h : s.larderCheck c kind 80 a n = none) : s.larderOk c kind a n = (s, true) := by
  simp only [State.larderOk, h]

theorem State.larderOk_of_some {s : State} {c kind a n b : Nat} (h : s.larderCheck c kind 80 a n = some b) (ha : badAddr a = false) :
    s.larderOk c kind a n = (s.raise (0x40 + stackOf a) b (some c) (chanOf a), false) := by
  simp only [State.larderOk, h]
  exact if_neg (by have := stackOf_lt_of_not_bad ha; omega)

end Sys2Proof.Machine
end

section
namespace Sys2Proof.Machine

open Sys2Proof

/-! PROOFS. The transfers of a tile to and from Larder: a FETCH that moves, a partial that lands, a mark that joins its fold. -/

theorem State.hubFlits_eq (s : State) (d a n : Nat) (wr : Bool) : s.hubFlits d a n wr = { s with regs := (s.hubFlits d a n wr).regs } := by
  simp only [State.hubFlits]
  split
  · rfl
  · exact State.countF_eq ..

theorem State.hubFlits_keeps (s : State) (d a n : Nat) (wr : Bool) : KeepsOutside PastHng s (s.hubFlits d a n wr) := by
  simp only [State.hubFlits]
  split
  · exact .refl _ s
  · refine (KeepsOutside.refl _ s).countF _ ?_
    simp only [PastHng, Field.key, Reg.BR_FLITS, Block.base]; omega

/-- A read of a whole list of bytes gives each of them. -/
theorem Memory.readBytes_getElem (m : Memory) (a n i : Nat) (h : i < (m.readBytes a n).length) : (m.readBytes a n)[i] = m.read (a + i) := by
  simp [Memory.readBytes]

@[simp] theorem Memory.readBytes_length (m : Memory) (a n : Nat) : (m.readBytes a n).length = n := by simp [Memory.readBytes]

/-- Bytes of the export of a FOLD's partial, before the zeros that fill its last granule. -/
def foldRaw (w : List Nat) : Nat :=
  if wfield w 1 16 16 = 0 then 4 * wfield w 6 23 0 else 32 + 16 * wfield w 6 23 0 + (wfield w 6 23 0 + 3) / 4

theorem foldPartial_eq (w : List Nat) : foldPartial w = (foldRaw w + 255) / 256 * 256 := rfl

theorem foldRaw_le (w : List Nat) : foldRaw w ≤ foldPartial w := by rw [foldPartial_eq]; omega

/-- The bytes that the partial of a FOLD writes into its staging place. -/
def State.foldBytes (s : State) (t : Nat) (w : List Nat) : List Byte :=
  s.pantry.readBytes (pantryAddr t (wfield w 5 15 0 * 256)) (foldRaw w) ++ List.replicate (foldPartial w - foldRaw w) 0

theorem State.foldBytes_length (s : State) (t : Nat) (w : List Nat) : (s.foldBytes t w).length = foldPartial w := by
  have h := foldRaw_le w
  simp [State.foldBytes]; omega

theorem State.foldBytes_getElem (s : State) (t : Nat) (w : List Nat) {j : Nat} (h : j < foldRaw w) (hj : j < (s.foldBytes t w).length) :
    (s.foldBytes t w)[j] = s.pantry.read (pantryAddr t (wfield w 5 15 0 * 256) + j) := by
  simp only [State.foldBytes]
  rw [List.getElem_append_left (by simpa using h), Memory.readBytes_getElem]

/-- The staging place of the partial of a tile's FOLD. -/
def State.foldPlace (s : State) (t : Nat) (w : List Nat) : Nat :=
  w.getD 4 0 * 256 + ((s.logicalOf t).getD 0 - wfield w 1 15 8) * foldPartial w

theorem State.foldPlace_mod (s : State) (t : Nat) (w : List Nat) : s.foldPlace t w % 256 = 0 := by
  rw [State.foldPlace, foldPartial_eq, ← Nat.mul_assoc, ← Nat.add_mul]
  exact Nat.mul_mod_left ..

/-- What a write of whole granules for a context leaves, beside registers past HNG. -/
theorem State.larderPutFor_of_whole (s : State) (c : Nat) {a : Nat} {l : List Byte} (ha : a % 256 = 0) (hl : l.length % 256 = 0) :
    ∃ u e, CountsOnly s u ∧ s.larderPutFor c a l = { u with larder := s.larder.writeBytes a l, lerr := e } := by
  have hc := s.count_countsOnly (p := 0x300 + c) (n := 5) (granules a l.length) (by omega) (by decide)
  obtain ⟨u, e, hu, heq⟩ := State.larderPut_of_whole (s.count (0x300 + c) 5 (granules a l.length)) ha hl
  exact ⟨u, e, hc.trans hu, by rw [State.larderPutFor, heq, hc.rest]⟩

/-- The partial of a member is noted in the open fold of its key, if there is one. -/
def State.noteLanded (s : State) (c : Nat) (w : List Nat) (member : Nat) : State :=
  match s.foldSlot (stackOf (w.getD 3 0 * 256)) c (w.getD 0 0) with
  | none => s
  | some n =>
    match SMap.find s.folds (64 * stackOf (w.getD 3 0 * 256) + n) with
    | none => s
    | some f => { s with folds := SMap.put s.folds (64 * stackOf (w.getD 3 0 * 256) + n) { f with
        landed := if f.landed.contains member then f.landed else f.landed ++ [member] } }

theorem State.noteLanded_eq (s : State) (c : Nat) (w : List Nat) (member : Nat) : ∃ f, s.noteLanded c w member = { s with folds := f } := by
  rw [State.noteLanded]
  split
  · exact ⟨_, rfl⟩
  · split <;> exact ⟨_, rfl⟩

/-- A partial that lands, of a FOLD that posts nothing, on a tile whose Pantry holds no errors. -/
theorem State.foldLanded_of_silent {s : State} {t k i : Nat} {m : Move} (hm : s.moveAt t 1 k = some (i, m)) (hp : s.perr = [])
    (hpost : wfield m.words 2 7 0 = 0) : s.foldLanded t k =
      (((s.dropMove i).hubFlits (dieOfTile t) (m.words.getD 4 0 * 256) (foldPartial m.words) true).larderPutFor m.ctx
        (s.foldPlace t m.words) (s.foldBytes t m.words)).noteLanded m.ctx m.words ((s.logicalOf t).getD 0 - wfield m.words 1 15 8) := by
  have hget : (s.dropMove i).pantryGet t (wfield m.words 5 15 0 * 256) (foldRaw m.words) =
      (s.dropMove i, some (s.pantry.readBytes (pantryAddr t (wfield m.words 5 15 0 * 256)) (foldRaw m.words))) :=
    State.pantryGet_of_no_errors (s := s.dropMove i) hp ..
  rw [foldRaw] at hget
  simp only [State.foldLanded, hm, hget, hpost]
  rw [State.postOwn, if_pos rfl]
  rfl

theorem State.foldLanded_eq {s : State} {t k i : Nat} {m : Move} (hm : s.moveAt t 1 k = some (i, m)) (hp : s.perr = [])
    (hpost : wfield m.words 2 7 0 = 0) : KeepsOutside PastHng s (s.foldLanded t k) ∧ ∃ r e f, s.foldLanded t k = { s with
      regs := r, lerr := e, folds := f, moves := s.moves.eraseIdx i
      larder := s.larder.writeBytes (s.foldPlace t m.words) (s.foldBytes t m.words) } := by
  have hlen : (s.foldBytes t m.words).length % 256 = 0 := by
    rw [s.foldBytes_length, foldPartial_eq]; exact Nat.mul_mod_left ..
  rw [State.foldLanded_of_silent hm hp hpost]
  obtain ⟨u, e, hu, hput⟩ := State.larderPutFor_of_whole ((s.dropMove i).hubFlits (dieOfTile t) (m.words.getD 4 0 * 256) (foldPartial m.words) true)
    m.ctx (s.foldPlace_mod t m.words) hlen
  rw [hput]
  obtain ⟨f, hnote⟩ := State.noteLanded_eq { u with larder := _, lerr := e } m.ctx m.words ((s.logicalOf t).getD 0 - wfield m.words 1 15 8)
  rw [hnote]
  have hkeep : KeepsOutside PastHng s u :=
    (KeepsOutside.of_regs (u := s.dropMove i) rfl).trans (.trans (State.hubFlits_keeps _ _ _ _ _) (hu.keeps.mono fun _ => CounterPlace.pastHng))
  refine ⟨hkeep.trans (.of_regs rfl), u.regs, e, f, ?_⟩
  rw [hu.rest, State.hubFlits_eq]
  rfl

end Sys2Proof.Machine
end

section
open Sys2Proof Sys2Proof.Machine

/-- Settles O21: each transfer is what its command does, settled; a partial is a whole number of granules at a granule's beginning, so that its
write merges nothing whatever errors Larder holds. -/
theorem transfersComplete : Obligations.TransfersComplete := by
  intro s hr
  refine ⟨fun t k i m ht hm ho => ?_, fun t k i m ht hm ho => ?_, fun t k i m ht hm hp hpost => ?_, fun k fm n f hk hslot hf => ?_⟩
  · have heq := exec_eq_answer (i := .fetchComplete t k) (g := fun s => s.fetchComplete t k) rfl (decide_eq_true ht) hr
    simp only [State.fetchComplete, hm, ho] at heq
    exact heq
  · refine exec_eq_self (g := fun s => s.fetchComplete t k) rfl (decide_eq_true ht) hr ?_
    simp [State.fetchComplete, hm, ho]
  · obtain ⟨hkeep, r, e, f, heq⟩ := State.foldLanded_eq hm hp hpost
    have hlen := s.foldBytes_length t m.words
    have hcalm := hkeep.calm (s.ready_iff.mp hr).2 (by rw [heq]) (by rw [heq]) (by rw [heq])
    refine ⟨_, exec_eq_of_calm (g := fun s => s.foldLanded t k) rfl (decide_eq_true ht) hr hcalm (by rw [heq]), fun j hj => ?_, fun x hx => ?_,
      by rw [heq], by rw [heq], by rw [heq]⟩
    · rw [heq]
      refine (Memory.read_writeBytes_in _ _ _ _ (by rw [hlen]; exact lt_of_lt_of_le hj (foldRaw_le m.words))).trans ?_
      exact s.foldBytes_getElem t m.words hj _
    · rw [heq]
      exact Memory.read_writeBytes_out _ _ (by rw [hlen]; exact hx)
  · have heq := exec_eq_answer (i := .foldMark k) (g := fun s => s.foldMark k) rfl rfl hr
    have hslot' : ({ s with foldMarks := s.foldMarks.eraseIdx k } : State).foldSlot fm.stack fm.ctx fm.key = some n := hslot
    simp only [State.foldMark, hk, hslot', hf] at heq
    exact heq

end

section
namespace Sys2Proof.Machine

open Sys2Proof

/-! PROOFS. How Larder serves an access of a context, and how it is kept up. -/

/-- What a command answers whose effect is on registers past page HNG and on the memories. -/
theorem exec_eq_of_keeps {s : State} {i : Instr} {g : State → State} (he : exec i s = s.serve i g) (hw : i.wellFormed = true)
    (hr : s.ready = true) (hk : KeepsOutside PastHng s (g s)) (hd : (g s).due = s.due) (hx : (g s).ctxs = s.ctxs) (hb : (g s).boot = s.boot)
    (hp : (g s).pending = s.pending) : exec i s = .next (g s) :=
  exec_eq_of_calm he hw hr (hk.calm (s.ready_iff.mp hr).2 hd hx hb) hp

theorem CountsOnly.pastHng {s u : State} (h : CountsOnly s u) : KeepsOutside PastHng s u := h.keeps.mono fun _ => CounterPlace.pastHng

theorem CountsOnly.regsKeep {s u v : State} (h : CountsOnly s u) (hv : v.regs = u.regs) : RegsKeep s v [] :=
  ((h.keeps.trans (.of_regs hv)).mono fun _ => Or.inr).regsKeep

/-! ### Accesses -/

/-- The bytes that a write leaves in the place of `old`: those that its mask leaves out stay. -/
def maskedBytes (data : List (Option Byte)) (old : List Byte) : List Byte := List.zipWith (fun b (o : Byte) => b.getD o) data old

theorem maskedBytes_getElem {data : List (Option Byte)} {old : List Byte} {j : Nat} (h : j < (maskedBytes data old).length)
    (hd : j < data.length) (ho : j < old.length) : (maskedBytes data old)[j] = data[j].getD old[j] := by
  simp [maskedBytes]

/-- Bytes none of which is left out do not look at what they replace. -/
theorem maskedBytes_of_whole {data : List (Option Byte)} (h : data.any (fun b => b.isNone) = false) {old : List Byte}
    (hl : old.length = data.length) : maskedBytes data old = data.map (fun b => b.getD 0) := by
  refine List.ext_getElem (by simp [maskedBytes, hl]) (fun j h1 h2 => ?_)
  have hj : j < data.length := by simpa using h2
  rw [maskedBytes_getElem h1 hj (by omega), List.getElem_map]
  have hb := List.any_eq_false.mp h data[j] (List.getElem_mem hj)
  cases hv : data[j] with
  | none => simp [hv] at hb
  | some b => rfl

/-- A write that the region check allows. -/
theorem State.larderAccess_of_write {s : State} {c a : Nat} {data : List (Option Byte)} (he : s.lerr = []) (hd : data ≠ [])
    (hc : s.larderCheck c 1 80 a data.length = none) : ∃ u, CountsOnly s u ∧
      s.larderAccess c a data 0 [] = { u with larder := s.larder.writeBytes a (maskedBytes data (s.larder.readBytes a data.length)) } := by
  have hne : (!data.isEmpty) = true := by simpa using hd
  have hok := State.larderOk_of_none hc
  cases hm : data.any (fun b => b.isNone) with
  | false =>
    obtain ⟨u, hu, hput⟩ := State.larderPut_of_no_errors he a (data.map (fun b => b.getD 0))
    refine ⟨u, hu, ?_⟩
    rw [maskedBytes_of_whole hm (by simp), ← hput]
    simp only [State.larderAccess, hne, if_true, List.foldl_nil, hok, hm]
    rfl
  | true =>
    obtain ⟨v, hget, hv⟩ := State.larderGet_of_no_errors he (some c) a data.length
    obtain ⟨u, hu, hstore⟩ := State.larderStore_of_no_errors (s := v) (by rw [hv.rest]; exact he) a (maskedBytes data (s.larder.readBytes a data.length))
    have hacc : s.larderAccess c a data 0 [] = v.larderStore a (maskedBytes data (s.larder.readBytes a data.length)) := by
      simp only [State.larderAccess, hne, if_true, List.foldl_nil, hok, hm, hget]
      rfl
    refine ⟨u, hv.trans hu, ?_⟩
    rw [hacc, hstore, hv.rest]

/-- A read that the region check allows. -/
theorem State.larderAccess_of_read {s : State} {c a n : Nat} (he : s.lerr = []) (hc : s.larderCheck c 0 80 a n = none) :
    CountsOnly s (s.larderAccess c a [] n []) := by
  obtain ⟨u, hget, hu⟩ := State.larderGet_of_no_errors he (some c) a n
  have hacc : s.larderAccess c a [] n [] = u := by
    simp only [State.larderAccess, List.isEmpty_nil, Bool.not_true, Bool.false_eq_true, if_false, List.foldl_nil, State.larderOk_of_none hc,
      List.any_nil, Bool.false_and, hget]
  rwa [hacc]

/-- A read that the region check refuses. -/
theorem State.larderAccess_of_refused {s : State} {c a n b : Nat} (ha : badAddr a = false) (hc : s.larderCheck c 0 80 a n = some b) :
    s.larderAccess c a [] n [] = s.raise (0x40 + stackOf a) b (some c) (chanOf a) := by
  simp only [State.larderAccess, List.isEmpty_nil, Bool.not_true, Bool.false_eq_true, if_false, List.foldl_nil, State.larderOk_of_some hc ha,
    Bool.not_false, if_true]

/-! ### Upkeep -/

/-- A sensor of the stack is hot, R138. -/
def State.stackHot (s : State) (st : Nat) : Bool :=
  [s.rd Reg.THM_STK_TA 0 st, s.rd Reg.THM_STK_TB 0 st].any (fun t => decide (340 ≤ toSigned 10 t))

theorem State.stackHot_iff (s : State) (st : Nat) :
    s.stackHot st = true ↔ 340 ≤ toSigned 10 (s.rd Reg.THM_STK_TA 0 st) ∨ 340 ≤ toSigned 10 (s.rd Reg.THM_STK_TB 0 st) := by
  simp [State.stackHot]

theorem State.larderRefresh_eq (s : State) {st : Nat} (lost : Nat) (hst : st < 12) :
    s.larderRefresh st lost = (s.wrB Reg.MEM_HOT st 0 (s.stackHot st)).count (0x40 + st) 7 lost := by
  rw [State.larderRefresh, if_neg (by omega)]
  rfl

/-- The granule of an address whose eight codewords hold no errors is read without correction. -/
theorem State.larderWords_of_no_errors {s : State} {w : Nat} (n : Nat) (h : ∀ i < n, SMap.find s.lerr (w + i) = none) :
    s.larderWords w n = (s, true) := by
  induction n generalizing w with
  | zero => rfl
  | succ n ih =>
    have hword : s.larderWord (32 * w) = (s, true) := by
      have h0 : SMap.find s.lerr w = none := h 0 (by omega)
      rw [State.larderWord, Nat.mul_div_cancel_left w (by decide), h0]
    have hrest := ih (w := w + 1) (fun i hi => by rw [Nat.add_assoc, Nat.add_comm 1]; exact h (i + 1) (by omega))
    simp only [State.larderWords, hword, hrest, Bool.and_true]

theorem State.larderGranules_one_of_no_errors {s : State} {g : Nat} (h : ∀ i < 8, SMap.find s.lerr (8 * g + i) = none) :
    s.larderGranules g 1 = (s, true) := by
  simp only [State.larderGranules, State.larderWords_of_no_errors 8 h, lt_irrefl, if_false, Bool.and_true]

/-- The patrol scrub of a granule without errors counts it. -/
theorem State.patrolScrub_of_no_errors {s : State} {a : Nat} (ha : badAddr a = false) (ho : (s.stack (stackOf a)).out = false)
    (h : ∀ i < 8, SMap.find s.lerr (a / 256 * 8 + i) = none) : s.patrolScrub a [] = s.count (0x40 + stackOf a) 6 1 := by
  have hg : a / 256 * 8 / 8 = a / 256 := by omega
  have hread : (s.count (0x40 + stackOf a) 6 1).larderGranules (a / 256) 1 = (s.count (0x40 + stackOf a) 6 1, true) := by
    refine State.larderGranules_one_of_no_errors (fun i hi => ?_)
    rw [State.count_eq, Nat.mul_comm]
    exact h i hi
  simp only [State.patrolScrub, ha, ho, Bool.or_self, Bool.false_eq_true, if_false, List.foldl_nil, hg]
  exact (if_pos (congrArg Prod.snd hread)).trans (congrArg Prod.fst hread)

/-- The spares in use do not depend on the corrections that a stack has noted. -/
theorem State.spareUsed_setStack (s : State) (st : Nat) (x : Stack) (hx : x.more = (s.stack st).more) (lane : Bool) (p : Nat) :
    (s.setStack st x).spareUsed st lane p = s.spareUsed st lane p := by
  simp only [State.spareUsed, State.stack_setStack_self, hx, State.setStack_flash]

theorem State.laneRepair_of_within {s : State} {st ch pin : Nat}
    (h : (lastMinute s.timeUs (SMap.get [] (s.stack st).pins (ch * 512 + pin))).length ≤ s.rd Reg.MEM_LANE_LIM st) :
    s.laneRepair st ch pin = s := by
  rw [State.laneRepair, if_pos (by tauto)]

theorem State.laneRepair_of_past {s : State} {st ch pin : Nat} (hst : st < 12) (hch : ch < 8) (hp : pin < 288)
    (h : s.rd Reg.MEM_LANE_LIM st < (lastMinute s.timeUs (SMap.get [] (s.stack st).pins (ch * 512 + pin))).length)
    (hu : s.spareUsed st true ch < 2) : s.laneRepair st ch pin =
      let x := (s.setStack st { s.stack st with pins := SMap.del (s.stack st).pins (ch * 512 + pin) }).logRepair st
        ⟨true, ch, pin, s.spareUsed st true ch⟩
      (x.wr Reg.MEM_LANE_FREE st 0 (x.rd Reg.MEM_LANE_FREE st - 1)).occur (0x40 + st) 2 none ch := by
  have hused := s.spareUsed_setStack st { s.stack st with pins := SMap.del (s.stack st).pins (ch * 512 + pin) } rfl true ch
  rw [State.laneRepair, if_neg (by omega)]
  simp only [hused, if_pos hu]

theorem State.rowRepair_of_within {s : State} {a : Nat} (he : s.lerr = [])
    (h : (lastMinute s.timeUs (SMap.get [] (s.stack (stackOf a)).rows (rowKey a))).length ≤ s.rd Reg.MEM_ROW_LIM (stackOf a)) :
    s.rowRepair a = s := by
  simp only [State.rowRepair, he, List.filter_nil, List.any_nil, Bool.not_false, and_true, h, if_true, ite_self]

theorem State.rowRepair_of_past {s : State} {a : Nat} (ha : badAddr a = false) (he : s.lerr = [])
    (h : s.rd Reg.MEM_ROW_LIM (stackOf a) < (lastMinute s.timeUs (SMap.get [] (s.stack (stackOf a)).rows (rowKey a))).length)
    (hu : s.spareUsed (stackOf a) false (layerOf a * 16 + bankOf a) < 4) : s.rowRepair a =
      let x := (s.setStack (stackOf a) { s.stack (stackOf a) with rows := SMap.del (s.stack (stackOf a)).rows (rowKey a) }).logRepair (stackOf a)
        ⟨false, layerOf a * 16 + bankOf a, rowOf a, s.spareUsed (stackOf a) false (layerOf a * 16 + bankOf a)⟩
      (x.wr Reg.MEM_ROW_FREE (stackOf a) 0 (x.rd Reg.MEM_ROW_FREE (stackOf a) - 1)).occur (0x40 + stackOf a) 3 none (chanOf a) := by
  have hused := s.spareUsed_setStack (stackOf a) { s.stack (stackOf a) with rows := SMap.del (s.stack (stackOf a)).rows (rowKey a) } rfl false
    (layerOf a * 16 + bankOf a)
  simp only [State.rowRepair, he, ha, List.filter_nil, List.any_nil, Bool.not_false, and_true, List.foldl_nil, hused, if_pos hu,
    if_neg (Nat.not_le.mpr h), Bool.false_eq_true, if_false]

/-- The loss of a channel of a stack that is out of service already shows in CH_UP alone. -/
theorem State.channelDown_of_out {s : State} {st ch : Nat} (hst : st < 12) (hch : ch < 8) (ho : (s.stack st).out = true) :
    s.channelDown st ch = s.wr Reg.MEM_CH_UP st 0 (clrBit (s.rd Reg.MEM_CH_UP st) ch) := by
  rw [State.channelDown, if_neg (by omega)]
  exact if_pos ho

theorem State.channelDown_of_in {s : State} {st ch : Nat} (hst : st < 12) (hch : ch < 8) (ho : (s.stack st).out = false) :
    s.channelDown st ch = (((s.wr Reg.MEM_CH_UP st 0 (clrBit (s.rd Reg.MEM_CH_UP st) ch)).setStack st { s.stack st with out := true }).raise
      (0x40 + st) 5 none ch) := by
  rw [State.channelDown, if_neg (by omega)]
  exact if_neg (by rw [State.stack, State.wr_stk, ← State.stack, ho]; decide)

end Sys2Proof.Machine
end

section
open Sys2Proof Sys2Proof.Machine

theorem larderAccesses : Clause.LarderAccesses := by
  intro c a s hr hc he
  have hw : ∀ data n, (Instr.larderAccess c a data n []).wellFormed = true := fun _ _ => decide_eq_true hc
  refine ⟨fun data hd hcheck => ?_, fun n hcheck => ?_, fun n b ha hcheck => ?_⟩
  · obtain ⟨u, hu, heq⟩ := State.larderAccess_of_write he hd hcheck
    have hlen : (maskedBytes data (s.larder.readBytes a data.length)).length = data.length := by simp [maskedBytes]
    refine ⟨_, exec_eq_of_keeps (g := fun s => s.larderAccess c a data 0 []) rfl (hw _ _) hr ?_ ?_ ?_ ?_ ?_, fun j hj => ?_, fun x hx => ?_,
      ?_, ?_, ?_, hu.regsKeep (by rw [heq])⟩
    · exact hu.pastHng.trans (.of_regs (by rw [heq]))
    case refine_6 =>
      rw [heq]
      refine (Memory.read_writeBytes_in _ _ _ _ (by rwa [hlen])).trans ?_
      rw [maskedBytes_getElem _ hj (by simpa using hj), Memory.readBytes_getElem, List.getD_eq_getElem _ _ hj]
    case refine_7 =>
      rw [heq]
      exact Memory.read_writeBytes_out _ _ (by rwa [hlen])
    all_goals rw [heq, hu.rest]
  · have hu := State.larderAccess_of_read he hcheck
    refine ⟨_, exec_eq_of_keeps (g := fun s => s.larderAccess c a [] n []) rfl (hw _ _) hr hu.pastHng ?_ ?_ ?_ ?_, ?_, ?_, ?_, hu.regsKeep rfl⟩
    case refine_7 => rw [hu.rest]; exact he
    all_goals rw [hu.rest]
  · rw [exec_eq_answer (g := fun s => s.larderAccess c a [] n []) rfl (hw _ _) hr, State.larderAccess_of_refused ha hcheck]

theorem larderUpkeep : Clause.LarderUpkeep := by
  intro st s hr hst
  refine ⟨fun lost => ?_, fun a ha hsa ho hgr => ?_, fun ch pin hch hpin => ⟨fun hle => ?_, fun hlt hu => ?_⟩,
    fun a ha hsa he => ⟨fun hle => ?_, fun hlt hu => ?_⟩, fun ch hch => ⟨fun ho => ?_, fun ho => ?_⟩⟩
  · have hu := (s.wrB Reg.MEM_HOT st 0 (s.stackHot st)).count_countsOnly (p := 0x40 + st) (n := 7) lost (by omega) (by decide)
    rw [← s.larderRefresh_eq lost hst] at hu
    have hkeep : KeepsOutside (fun k => k ∈ [Reg.MEM_HOT.key st 0] ∨ CounterPlace k) s (s.larderRefresh st lost) :=
      ((KeepsOutside.refl _ s).wr _ (.inl (List.mem_singleton_self _))).trans (hu.keeps.mono fun _ => .inr)
    have hpast : KeepsOutside PastHng s (s.larderRefresh st lost) := by
      refine hkeep.mono (fun k hk => ?_)
      rcases hk with hk | hk
      · rw [List.mem_singleton.mp hk]
        simp only [PastHng, Field.key, Reg.MEM_HOT, Block.base]; omega
      · exact hk.pastHng
    refine ⟨_, exec_eq_of_keeps (g := fun s => s.larderRefresh st lost) rfl (decide_eq_true hst) hr hpast ?_ ?_ ?_ ?_, ?_, ?_, hkeep.regsKeep⟩
    case refine_5 =>
      rw [hu.keeps _ _ _ (not_counterPlace _ (by decide)), State.wrB_eq, State.rd_wr_self]
      simp only [← State.stackHot_iff]
      split <;> rfl
    all_goals rw [hu.rest]; rfl
  · subst hsa
    have hu := s.count_countsOnly (p := 0x40 + stackOf a) (n := 6) 1 (by omega) (by decide)
    rw [← State.patrolScrub_of_no_errors ha ho hgr] at hu
    refine ⟨_, exec_eq_of_keeps (g := fun s => s.patrolScrub a []) rfl rfl hr hu.pastHng ?_ ?_ ?_ ?_, ?_, ?_, hu.regsKeep rfl⟩
    all_goals rw [hu.rest]
  · exact exec_eq_self (g := fun s => s.laneRepair st ch pin) rfl (by simp [Instr.wellFormed, hst, hch]) hr (State.laneRepair_of_within hle)
  · rw [exec_eq_answer (g := fun s => s.laneRepair st ch pin) rfl (by simp [Instr.wellFormed, hst, hch]) hr,
      State.laneRepair_of_past hst hch hpin hlt hu]
  · subst hsa
    exact exec_eq_self (g := fun s => s.rowRepair a) rfl rfl hr (State.rowRepair_of_within he hle)
  · subst hsa
    rw [exec_eq_answer (g := fun s => s.rowRepair a) rfl rfl hr, State.rowRepair_of_past ha he hlt hu]
  · have heq := State.channelDown_of_out hst hch ho
    have hkeep : KeepsOutside (· = Reg.MEM_CH_UP.key st 0) s (s.channelDown st ch) := by
      rw [heq]; exact (KeepsOutside.refl _ s).wr _ rfl
    refine ⟨_, exec_eq_of_keeps (g := fun s => s.channelDown st ch) rfl (by simp [Instr.wellFormed, hst, hch]) hr (hkeep.mono ?_) ?_ ?_ ?_ ?_,
      ?_, ?_, hkeep⟩
    case refine_1 =>
      rintro _ rfl
      simp only [PastHng, Field.key, Reg.MEM_CH_UP, Block.base]; omega
    case refine_6 => rw [heq, State.rd_wr_self]; rfl
    all_goals rw [heq]; rfl
  · rw [exec_eq_answer (g := fun s => s.channelDown st ch) rfl (by simp [Instr.wellFormed, hst, hch]) hr, State.channelDown_of_in hst hch ho]

/-- Settles O24: with no errors stored an access counts granules alone beside the bytes that it writes, and the spares in use do not depend on
the corrections that a repair clears. -/
theorem larderService : Obligations.LarderService := ⟨larderAccesses, larderUpkeep⟩

end

section
namespace Sys2Proof.Machine

open Sys2Proof

/-! PROOFS. Landings: which writes a region takes, holds and refuses, how a landing starts, and how what waits proceeds. -/

/-! ### Tags -/

theorem not_newer_self (a : Nat) : newer a a = false := by
  simp only [newer, Bool.and_eq_false_iff, decide_eq_false_iff_not]
  omega

/-- Of two tags one at most is newer than the other. -/
theorem not_newer_of_newer {a b : Nat} (h : newer a b = true) (ha : a < 2 ^ 32) (hb : b < 2 ^ 32) : newer b a = false := by
  simp only [newer, Bool.and_eq_true, Bool.and_eq_false_iff, decide_eq_true_eq, decide_eq_false_iff_not] at h ⊢
  omega

theorem ne_of_newer {a b : Nat} (h : newer a b = true) : a ≠ b := by
  rintro rfl
  rw [not_newer_self] at h
  cases h

theorem State.not_bad_of_landRegion {s : State} {c a r : Nat} (h : s.landRegion c a = .ok r) : badAddr a = false := by
  by_contra hb
  rw [Bool.not_eq_false] at hb
  simp [State.landRegion, hb] at h

/-! ### How a landing starts -/

/-- The registers that tell of a landing of region `r` of a stack. -/
def landKeys (st r : Nat) : List Nat := [Reg.LR_STATE.key st r, Reg.LR_TAG.key st r, Reg.LR_CHUNKS.key st r]

/-- Region `r` of a stack has started a landing with the chunk of `w`: FILLING, its tag and one chunk; beside counters nothing else differs. -/
structure LandingStarted (s v : State) (st r : Nat) (w : LandWrite) : Prop where
  rest : v = { s with regs := v.regs, larder := s.larder.writeBytes w.addr w.data, lands := v.lands }
  keeps : KeepsOutside (fun k => k ∈ landKeys st r ∨ CounterPlace k) s v
  state : v.rd Reg.LR_STATE st r = 1
  tag : v.rd Reg.LR_TAG st r = w.tag
  count : v.rd Reg.LR_CHUNKS st r = 1
  chunks : (v.landing (64 * st + r)).chunks = [(w.addr - s.regionBase st r) / 65536]

theorem State.landStart_keeps (s : State) (st r t : Nat) : KeepsOutside (· ∈ landKeys st r) s (s.landStart st r t) :=
  KeepsOutside.trans (u := ((s.wr Reg.LR_STATE st r 1).wr Reg.LR_TAG st r t).wr Reg.LR_CHUNKS st r 0)
    ((((KeepsOutside.refl _ s).wr _ (by simp [landKeys])).wr _ (by simp [landKeys])).wr _ (by simp [landKeys])) (.of_regs rfl)

theorem State.landStart_rest (s : State) (st r t : Nat) :
    s.landStart st r t = { s with regs := (s.landStart st r t).regs, lands := (s.landStart st r t).lands } := rfl

@[simp] theorem State.landing_setLanding_self (s : State) (k : Nat) (x : Landing) : (s.setLanding k x).landing k = x := SMap.get_set_self ..

theorem State.landStart_shows (s : State) (st r t : Nat) :
    (s.landStart st r t).rd Reg.LR_STATE st r = 1 ∧ (s.landStart st r t).rd Reg.LR_TAG st r = t % 2 ^ 32 := by
  have hrd : ∀ f i j, (s.landStart st r t).rd f i j = (((s.wr Reg.LR_STATE st r 1).wr Reg.LR_TAG st r t).wr Reg.LR_CHUNKS st r 0).rd f i j :=
    fun _ _ _ => rfl
  constructor
  · rw [hrd, State.rd_wr_ne, State.rd_wr_ne, State.rd_wr_self]
    · rfl
    all_goals simp only [Field.key, Reg.LR_STATE, Reg.LR_TAG, Reg.LR_CHUNKS, Block.base]; omega
  · rw [hrd, State.rd_wr_ne, State.rd_wr_self]
    · rfl
    · simp only [Field.key, Reg.LR_TAG, Reg.LR_CHUNKS, Block.base]; omega

/-- A field of a region that does not tell of its landing keeps its value as the landing starts. -/
theorem State.landStart_rd (s : State) (st t : Nat) {r : Nat} {f : Field} (hf : f ∈ [Reg.LR_BASE, Reg.LR_HASH, Reg.LR_LLEN]) :
    (s.landStart st r t).rd f st r = s.rd f st r := by
  simp only [List.mem_cons, List.not_mem_nil, or_false] at hf
  refine s.landStart_keeps st r t _ _ _ ?_
  simp only [landKeys, List.mem_cons, List.not_mem_nil, or_false]
  rcases hf with rfl | rfl | rfl <;>
    simp only [Field.key, Reg.LR_BASE, Reg.LR_HASH, Reg.LR_LLEN, Reg.LR_STATE, Reg.LR_TAG, Reg.LR_CHUNKS, Block.base] <;> omega

/-- A chunk that neither hashes nor completes its landing. -/
theorem State.landChunk_of_filling {s : State} {st r : Nat} {w : LandWrite} (he : s.lerr = []) (hr : r < 64) (hh : s.rd Reg.LR_HASH st r = 0)
    (hl : 1 < s.rd Reg.LR_LLEN st r) (hn : s.landing (64 * st + r) = Landing.empty) : ∃ u, CountsOnly s u ∧
      s.landChunk st r w = (({ u with larder := s.larder.writeBytes w.addr w.data } : State).setLanding (64 * st + r)
        { Landing.empty with chunks := [(w.addr - s.regionBase st r) / 65536] }).wr Reg.LR_CHUNKS st r 1 := by
  obtain ⟨u, hu, hput⟩ := State.larderPut_of_no_errors he w.addr w.data
  refine ⟨u, hu, ?_⟩
  set p : State := { u with larder := s.larder.writeBytes w.addr w.data } with hp
  have hland : p.landing (64 * st + r) = Landing.empty := by
    rw [← hn, State.landing, hp, hu.rest, State.landing]
  have hrd : ∀ f ∈ [Reg.LR_HASH, Reg.LR_LLEN], p.rd f st r = s.rd f st r := by
    intro f hf
    simp only [List.mem_cons, List.not_mem_nil, or_false] at hf
    rcases hf with rfl | rfl <;> exact hu.keeps.rd_region st hr (by decide)
  have hhash : p.rdB Reg.LR_HASH st r = false := by rw [State.rdB_eq, hrd _ (by simp), hh]; rfl
  generalize hi : (w.addr - s.regionBase st r) / 65536 = i
  have hlen : ((p.setLanding (64 * st + r) { Landing.empty with chunks := [i] }).wr Reg.LR_CHUNKS st r 1).rd Reg.LR_LLEN st r =
      s.rd Reg.LR_LLEN st r := by
    rw [State.rd_wr_ne _ _ (by simp only [Field.key, Reg.LR_LLEN, Reg.LR_CHUNKS, Block.base]; omega)]
    exact hrd _ (by simp)
  simp only [State.landChunk, hput, hi, hhash, Bool.false_eq_true, if_false, hland]
  exact if_pos (by rw [← hlen] at hl; exact hl)

/-- A landing that starts with a chunk of a region of more than one, whose chunks are not hashed. -/
theorem State.landingStarted {s : State} {st r : Nat} {w : LandWrite} (he : s.lerr = []) (hr : r < 64) (hh : s.rd Reg.LR_HASH st r = 0)
    (hl : 1 < s.rd Reg.LR_LLEN st r) (ht : w.tag < 2 ^ 32) : LandingStarted s ((s.landStart st r w.tag).landChunk st r w) st r w := by
  have hbase : (s.landStart st r w.tag).regionBase st r = s.regionBase st r := by
    rw [State.regionBase, s.landStart_rd st w.tag (by simp), State.regionBase]
  obtain ⟨u, hu, heq⟩ := State.landChunk_of_filling (s := s.landStart st r w.tag) (w := w) he hr ((s.landStart_rd st w.tag (by simp)).trans hh)
    (by rw [s.landStart_rd st w.tag (by simp)]; exact hl) (State.landing_setLanding_self ..)
  have hkeep : KeepsOutside CounterPlace (s.landStart st r w.tag) u := hu.keeps
  have hshow : ∀ f ∈ [Reg.LR_STATE, Reg.LR_TAG], ((s.landStart st r w.tag).landChunk st r w).rd f st r = (s.landStart st r w.tag).rd f st r := by
    intro f hf
    simp only [List.mem_cons, List.not_mem_nil, or_false] at hf
    rw [heq, State.rd_wr_ne]
    · rcases hf with rfl | rfl <;> exact hkeep.rd_region st hr (by decide)
    · rcases hf with rfl | rfl <;> simp only [Field.key, Reg.LR_STATE, Reg.LR_TAG, Reg.LR_CHUNKS, Block.base] <;> omega
  constructor
  case rest => rw [heq, hu.rest]; rfl
  case keeps =>
    rw [heq]
    refine KeepsOutside.wr ?_ _ (.inl (by simp [landKeys]))
    exact ((s.landStart_keeps st r w.tag).mono fun _ => Or.inl).trans (KeepsOutside.trans (u := u) (hkeep.mono fun _ => Or.inr) (.of_regs rfl))
  case state =>
    rw [hshow _ (by simp)]
    exact (s.landStart_shows st r w.tag).1
  case tag =>
    rw [hshow _ (by simp), (s.landStart_shows st r w.tag).2]
    exact Nat.mod_eq_of_lt ht
  case count => rw [heq, State.rd_wr_self]; rfl
  case chunks =>
    rw [heq, ← hbase, State.landing, State.wr_lands, ← State.landing, State.landing_setLanding_self]

theorem landKeys_pastHng {st r k : Nat} (h : k ∈ landKeys st r) : PastHng k := by
  simp only [landKeys, List.mem_cons, List.not_mem_nil, or_false] at h
  rcases h with rfl | rfl | rfl <;> simp only [PastHng, Field.key, Reg.LR_STATE, Reg.LR_TAG, Reg.LR_CHUNKS, Block.base] <;> omega

theorem LandingStarted.pastHng {s v : State} {st r : Nat} {w : LandWrite} (h : LandingStarted s v st r w) : KeepsOutside PastHng s v :=
  h.keeps.mono fun _ hk => hk.elim landKeys_pastHng CounterPlace.pastHng

/-! ### Table 6-5 -/

theorem State.landWrite_of_empty {s : State} {w : LandWrite} {r : Nat} (hreg : s.landRegion w.ctx w.addr = .ok r)
    (h0 : s.rd Reg.LR_STATE (stackOf w.addr) r = 0) :
    s.landWrite w = ((s.landStart (stackOf w.addr) r w.tag).landChunk (stackOf w.addr) r w, .done) := by
  simp only [State.landWrite, hreg, h0, if_true]

theorem State.landWrite_of_older {s : State} {w : LandWrite} {r : Nat} (hreg : s.landRegion w.ctx w.addr = .ok r)
    (h0 : s.rd Reg.LR_STATE (stackOf w.addr) r ≠ 0) (hn : newer (s.rd Reg.LR_TAG (stackOf w.addr) r) w.tag = true) :
    s.landWrite w = (s, .refused 8) := by
  simp only [State.landWrite, hreg, h0, hn, if_true, if_false]

theorem State.landWrite_of_landed {s : State} {w : LandWrite} {r : Nat} (hreg : s.landRegion w.ctx w.addr = .ok r)
    (h2 : s.rd Reg.LR_STATE (stackOf w.addr) r = 2) (ht : s.rd Reg.LR_TAG (stackOf w.addr) r = w.tag) :
    s.landWrite w = (s.count (0x40 + stackOf w.addr) 4 1, .done) := by
  simp [State.landWrite, hreg, h2, ht, not_newer_self]

/-- A newer write of a LANDED region waits while a read of the region is open. -/
theorem State.landWrite_of_newer {s : State} {w : LandWrite} {r : Nat} (hreg : s.landRegion w.ctx w.addr = .ok r)
    (h2 : s.rd Reg.LR_STATE (stackOf w.addr) r = 2) (hn : newer w.tag (s.rd Reg.LR_TAG (stackOf w.addr) r) = true) (ht : w.tag < 2 ^ 32)
    (ht' : s.rd Reg.LR_TAG (stackOf w.addr) r < 2 ^ 32) : s.landWrite w =
      if s.rd Reg.LR_READERS (stackOf w.addr) r = 0 then ((s.landStart (stackOf w.addr) r w.tag).landChunk (stackOf w.addr) r w, .done)
      else (s.wr Reg.LR_LWAIT (stackOf w.addr) r 1, .waits) := by
  simp [State.landWrite, hreg, h2, not_newer_of_newer hn ht ht', (ne_of_newer hn).symm]

/-! ### Writes that waited -/

/-- The places of LWAIT. -/
def LwaitPlace (k : Nat) : Prop := ∃ st n, k = Reg.LR_LWAIT.key st n

theorem LwaitPlace.pastHng {k : Nat} (h : LwaitPlace k) : PastHng k := by
  obtain ⟨st, n, rfl⟩ := h
  simp only [PastHng, Field.key, Reg.LR_LWAIT, Block.base]; omega

theorem not_lwaitPlace {f : Field} (i j : Nat) (hf : f.lo % 32 ≠ 10) : ¬ LwaitPlace (f.key i j) := by
  rintro ⟨st, n, h⟩
  simp only [Field.key, Reg.LR_LWAIT] at h
  omega

theorem State.landQuiet_eq (s : State) (w : LandWrite) : ∃ q, s.landQuiet w = { s with regs := q } := by
  rw [State.landQuiet]
  split
  · exact ⟨_, rfl⟩
  · split <;> exact ⟨_, rfl⟩

theorem State.landQuiet_keeps (s : State) (w : LandWrite) : KeepsOutside LwaitPlace s (s.landQuiet w) := by
  rw [State.landQuiet]
  split
  · exact .refl _ s
  · split
    · exact .refl _ s
    · exact (KeepsOutside.refl _ s).wr _ ⟨_, _, rfl⟩

/-- A collective slot that is free does not go on. -/
theorem State.collGo_of_free {s : State} {d n : Nat} (h : s.slot d n = none) : s.collGo d n = s := by
  have hadv : s.collAdvance d n 16 = s := by rw [State.collAdvance, h]
  rw [State.collGo, hadv, h]
  simp only [State.drainEarly, h]

theorem State.landingResume_of_coll {s : State} {k d n : Nat} {w : LandWrite} (hk : s.landQ[k]? = some w) (hw : w.writer = .coll d n) :
    s.landingResume k = s.landResume k := by
  simp only [State.landingResume, hk, hw]

theorem State.landResume_of_done {s v : State} {k d n : Nat} {w : LandWrite} (hk : s.landQ[k]? = some w) (hw : w.writer = .coll d n)
    (hv : s.landWrite w = (v, .done)) (hn : v.slot d n = none) :
    s.landResume k = ({ v with landQ := v.landQ.eraseIdx k } : State).landQuiet w := by
  simp only [State.landResume, hk, hv, hw]
  obtain ⟨q, hq⟩ := ({ v with landQ := v.landQ.eraseIdx k } : State).landQuiet_eq w
  exact State.collGo_of_free (by rw [hq]; exact hn)

theorem State.landResume_of_waits {s v : State} {k : Nat} {w : LandWrite} (hk : s.landQ[k]? = some w) (hv : s.landWrite w = (v, .waits)) :
    s.landResume k = v := by
  simp only [State.landResume, hk, hv]

/-- A landing write that waited starts its landing: what LANDING_RESUME leaves of it. -/
theorem LandingStarted.landingResume {s v : State} {k d n r : Nat} {w : LandWrite} (hk : s.landQ[k]? = some w) (hw : w.writer = .coll d n)
    (hslot : s.slot d n = none) (hv : s.landWrite w = (v, .done)) (hs : LandingStarted s v (stackOf w.addr) r w) :
    KeepsOutside LwaitPlace v (s.landingResume k) ∧ ∃ q, s.landingResume k =
      { s with regs := q, larder := s.larder.writeBytes w.addr w.data, lands := v.lands, landQ := s.landQ.eraseIdx k } := by
  have heq : s.landingResume k = ({ v with landQ := v.landQ.eraseIdx k } : State).landQuiet w := by
    rw [State.landingResume_of_coll hk hw, State.landResume_of_done hk hw hv]
    rw [State.slot, hs.rest]; exact hslot
  obtain ⟨q, hq⟩ := ({ v with landQ := v.landQ.eraseIdx k } : State).landQuiet_eq w
  refine ⟨?_, q, by rw [heq, hq, hs.rest]⟩
  rw [heq]
  exact KeepsOutside.trans (u := { v with landQ := v.landQ.eraseIdx k }) (.of_regs rfl) (State.landQuiet_keeps _ w)

/-! ### Tag-checked reads -/

theorem eraseDups_nodup {α : Type} [DecidableEq α] : ∀ l : List α, l.eraseDups.Nodup
  | [] => by simp
  | a :: l => by
    rw [List.eraseDups_cons, List.nodup_cons, List.mem_eraseDups]
    exact ⟨by simp, eraseDups_nodup _⟩
termination_by l => l.length
decreasing_by exact Nat.lt_succ_of_le (List.length_filter_le ..)

/-- The place of READERS of a region, given as 64 · stack + number. -/
def readersKey (k : Nat) : Nat := Reg.LR_READERS.key (k / 64) (k % 64)

theorem readersKey_injective : Function.Injective readersKey := by
  intro k l h
  simp only [readersKey, Field.key, Reg.LR_READERS, Block.base] at h
  omega

theorem State.openReaders_eq (s : State) (l : List Nat) : s.openReaders l = { s with regs := (s.openReaders l).regs } :=
  List.foldlRecOn (motive := fun u : State => u = { s with regs := u.regs }) _ _ rfl (fun u hu k _ => by rw [hu]; rfl)

theorem State.openReaders_keeps (s : State) (l : List Nat) : KeepsOutside (· ∈ l.map readersKey) s (s.openReaders l) :=
  KeepsOutside.foldl State.openReader l (fun u k hk =>
    (KeepsOutside.refl _ u).wr (f := Reg.LR_READERS) (i := k / 64) (j := k % 64) _ (List.mem_map_of_mem (f := readersKey) hk)) s

/-- Each of some distinct regions takes one more reader. -/
theorem State.openReaders_rd {s : State} {l : List Nat} (hl : l.Nodup) (hlt : ∀ k ∈ l, s.rd Reg.LR_READERS (k / 64) (k % 64) < 255) :
    ∀ k ∈ l, (s.openReaders l).rd Reg.LR_READERS (k / 64) (k % 64) = s.rd Reg.LR_READERS (k / 64) (k % 64) + 1 := by
  induction l generalizing s with
  | nil => simp
  | cons a l ih =>
    obtain ⟨ha, hl⟩ := List.nodup_cons.mp hl
    have hne : ∀ k ∈ l, (s.openReader a).rd Reg.LR_READERS (k / 64) (k % 64) = s.rd Reg.LR_READERS (k / 64) (k % 64) := by
      intro k hk
      refine State.rd_wr_ne _ _ (fun he => ha ?_)
      rwa [← readersKey_injective he]
    have hrest := ih (s := s.openReader a) hl (fun k hk => by rw [hne k hk]; exact hlt k (List.mem_cons_of_mem _ hk))
    intro k hk
    obtain rfl | hk := List.mem_cons.mp hk
    · refine (State.openReaders_keeps (s.openReader k) l _ _ _ (fun he => ha ?_)).trans ?_
      · obtain ⟨x, hx, he⟩ := List.mem_map.mp he
        rwa [← readersKey_injective he]
      · have h255 := hlt k List.mem_cons_self
        exact (State.rd_wr_self ..).trans (Nat.mod_eq_of_lt (by simp only [Reg.LR_READERS] at h255 ⊢; omega))
    · exact (hrest k hk).trans (by rw [hne k hk])

/-- The regions of a tag-checked read that may open are distinct, and each takes one more reader. -/
theorem State.of_tagReady {s : State} {c : Nat} {l : List (Nat × Nat)} {rs : List Nat} (h : s.tagReady c l = some rs) :
    rs.Nodup ∧ ∀ k ∈ rs, s.rd Reg.LR_READERS (k / 64) (k % 64) < 255 := by
  simp only [State.tagReady, Option.ite_none_right_eq_some, Bool.and_eq_true, List.all_eq_true, Option.some.injEq] at h
  obtain ⟨⟨-, hall⟩, rfl⟩ := h
  refine ⟨eraseDups_nodup _, fun k hk => ?_⟩
  have hready := hall k hk
  simp only [State.regionReady, Bool.and_eq_true, decide_eq_true_eq] at hready
  exact hready.2

/-! ### Held landings -/

/-- The manifest of a stack's partition lists the digest of a landing. -/
def State.digestListed (s : State) (st : Nat) (x : Landing) : Bool :=
  (SMap.find s.sec.sealed (s.partOfStack st)).any (fun i => i.shards.any (fun sh => sh.digest == x.digest && x.shard.all (fun n => sh.no == n)))

theorem State.ingestMatch_of_held {s : State} {st n : Nat} (hst : st < 12) (hn : n < 64) (h : (s.landing (64 * st + n)).held = true) :
    s.ingestMatch st n =
      let x := s.setLanding (64 * st + n) { s.landing (64 * st + n) with held := false }
      if s.digestListed st (s.landing (64 * st + n)) || !s.isSealed (s.partOfStack st) then x.wr Reg.LR_STATE st n 2
      else (x.wr Reg.LR_STATE st n 3).raise (0x40 + st) 9 (some (s.rd Reg.LR_CTX st n)) 0 := by
  rw [State.ingestMatch]
  exact if_pos (by simp [hst, hn, h])

end Sys2Proof.Machine
end

section
open Sys2Proof Sys2Proof.Machine

theorem landingWrites : Clause.LandingWrites := by
  intro c a tag r data d n s hr hc hdata he hreg hst hrlt w st
  have hw : (Instr.landingWrite c a tag data (.coll d n)).wellFormed = true := by simp [Instr.wellFormed, hc, hdata]
  have hserve : exec (.landingWrite c a tag data (.coll d n)) s = s.serve (.landingWrite c a tag data (.coll d n)) (fun s => s.landIn w) := rfl
  refine ⟨fun h0 hh hl ht => ?_, fun h2 ht => ?_, fun h2 hn ht ht' hread => ?_, fun h0 hn => ?_⟩
  · have hin : s.landIn w = (s.landStart st r tag).landChunk st r w := by
      simp only [State.landIn, State.landWrite_of_empty (w := w) hreg h0]
      rfl
    have hs : LandingStarted s (s.landIn w) st r w := by
      rw [hin]; exact State.landingStarted (w := w) he hrlt hh hl ht
    refine ⟨_, exec_eq_of_keeps hserve hw hr hs.pastHng ?_ ?_ ?_ ?_, hs.state, hs.tag, hs.count, hs.chunks, fun j hj => ?_, fun x hx => ?_, ?_,
      hs.keeps.regsKeep⟩
    case refine_5 =>
      rw [hs.rest, List.getD_eq_getElem _ _ hj]
      exact Memory.read_writeBytes_in ..
    case refine_6 => rw [hs.rest]; exact Memory.read_writeBytes_out _ _ hx
    all_goals rw [hs.rest]
  · have hin : s.landIn w = s.count (0x40 + st) 4 1 := by
      simp only [State.landIn, State.landWrite_of_landed (w := w) hreg h2 ht]
      rfl
    have hu : CountsOnly s (s.landIn w) := by
      rw [hin]; exact s.count_countsOnly 1 (by omega) (by decide)
    refine ⟨_, exec_eq_of_keeps hserve hw hr hu.pastHng ?_ ?_ ?_ ?_, ?_, ?_, ?_, hu.regsKeep rfl⟩
    all_goals rw [hu.rest]
  · have hwrite := (State.landWrite_of_newer (w := w) hreg h2 hn ht ht').trans (if_neg hread)
    have hin : s.landIn w = { s with regs := (s.wr Reg.LR_LWAIT st r 1).regs, landQ := s.landQ ++ [w] } := by
      simp only [State.landIn, hwrite]
      rfl
    have hkeep : KeepsOutside (· = Reg.LR_LWAIT.key st r) s (s.landIn w) := by
      rw [hin]
      exact KeepsOutside.trans (u := s.wr Reg.LR_LWAIT st r 1) ((KeepsOutside.refl _ s).wr _ rfl) (.of_regs rfl)
    refine ⟨_, exec_eq_of_keeps hserve hw hr (hkeep.mono fun k hk => LwaitPlace.pastHng ⟨_, _, hk⟩) ?_ ?_ ?_ ?_, ?_, ?_, ?_, ?_,
      (hkeep.mono fun k hk => .inl (by rw [hk]; exact List.mem_singleton_self _)).regsKeep⟩
    case refine_8 => rw [hin]; exact State.rd_wr_self s Reg.LR_LWAIT st r 1
    all_goals rw [hin]
  · have hin : s.landIn w = s.raise (0x40 + st) 8 (some c) 0 := by
      simp only [State.landIn, State.landWrite_of_older (w := w) hreg h0 hn]
      exact if_neg (by rw [State.not_bad_of_landRegion hreg]; decide)
    rw [exec_eq_answer hserve hw hr, hin]

theorem landingsProceed : Clause.LandingsProceed := by
  intro s hr
  refine ⟨?_, ?_, ?_⟩
  · intro k w r d n hk hwr hslot he hreg hst hrlt st h2 hn ht ht' hh hl
    refine ⟨fun hread => ?_, fun hread => ?_⟩
    · have hwrite := (State.landWrite_of_newer hreg h2 hn ht ht').trans (if_pos hread)
      have hs := State.landingStarted (w := w) he hrlt hh hl ht
      generalize (s.landStart (stackOf w.addr) r w.tag).landChunk (stackOf w.addr) r w = v at hwrite hs
      obtain ⟨hquiet, q, heq⟩ := hs.landingResume hk hwr hslot hwrite
      have hrd : ∀ f ∈ [Reg.LR_STATE, Reg.LR_TAG, Reg.LR_CHUNKS], (s.landingResume k).rd f (stackOf w.addr) r = v.rd f (stackOf w.addr) r := by
        intro f hf
        simp only [List.mem_cons, List.not_mem_nil, or_false] at hf
        rcases hf with rfl | rfl | rfl <;> exact hquiet _ _ _ (not_lwaitPlace _ _ (by decide))
      refine ⟨_, exec_eq_of_keeps (g := fun s => s.landingResume k) rfl rfl hr (hs.pastHng.trans (hquiet.mono fun _ => LwaitPlace.pastHng)) ?_ ?_ ?_
        ?_, (hrd _ (by simp)).trans hs.state, (hrd _ (by simp)).trans hs.tag, (hrd _ (by simp)).trans hs.count, ?_, fun j hj => ?_, fun x hx => ?_⟩
      case refine_6 =>
        rw [heq, List.getD_eq_getElem _ _ hj]
        exact Memory.read_writeBytes_in ..
      case refine_7 => rw [heq]; exact Memory.read_writeBytes_out _ _ hx
      all_goals rw [heq]
    · have hwrite := (State.landWrite_of_newer hreg h2 hn ht ht').trans (if_neg hread)
      have heq : s.landingResume k = s.wr Reg.LR_LWAIT (stackOf w.addr) r 1 := by
        rw [State.landingResume_of_coll hk hwr, State.landResume_of_waits hk hwrite]
      have hkeep : KeepsOutside (· = Reg.LR_LWAIT.key st r) s (s.landingResume k) := by
        rw [heq]; exact (KeepsOutside.refl _ s).wr _ rfl
      refine ⟨_, exec_eq_of_keeps (g := fun s => s.landingResume k) rfl rfl hr (hkeep.mono fun k hk => LwaitPlace.pastHng ⟨_, _, hk⟩) ?_ ?_ ?_ ?_,
        ?_, ?_, (hkeep.mono fun k hk => .inl (by rw [hk]; exact List.mem_singleton_self _)).regsKeep⟩
      all_goals rw [heq]; rfl
  · intro t k i m htl hm ho
    refine ⟨fun rs hrs => ?_, fun hnone => ?_⟩
    · obtain ⟨hnodup, hlt⟩ := State.of_tagReady hrs
      have heq : s.fetchOpen t k = { s.openReaders rs with moves := s.moves.set i { m with opened := true, regions := rs } } := by
        have hmoves : (s.openReaders rs).moves = s.moves := by rw [s.openReaders_eq]
        simp only [State.fetchOpen, hm, ho, Bool.false_eq_true, if_false, hrs, hmoves]
      have hkeep : KeepsOutside (· ∈ rs.map readersKey) s (s.fetchOpen t k) := by
        rw [heq]; exact (s.openReaders_keeps rs).trans (.of_regs rfl)
      have hpast : ∀ p ∈ rs.map readersKey, PastHng p := by
        intro p hp
        obtain ⟨x, -, rfl⟩ := List.mem_map.mp hp
        simp only [PastHng, readersKey, Field.key, Reg.LR_READERS, Block.base]; omega
      refine ⟨_, exec_eq_of_keeps (g := fun s => s.fetchOpen t k) rfl (decide_eq_true htl) hr (hkeep.mono hpast) ?_ ?_ ?_ ?_, ?_,
        fun rk hrk => ?_, hkeep⟩
      case refine_6 => rw [heq]; exact State.openReaders_rd hnodup hlt rk hrk
      all_goals rw [heq, s.openReaders_eq]
    · refine exec_eq_self (g := fun s => s.fetchOpen t k) rfl (decide_eq_true htl) hr ?_
      simp only [State.fetchOpen, hm, ho, Bool.false_eq_true, if_false, hnone]
  · intro st n hst hn hheld x listed
    have hw : (Instr.ingestMatch st n).wellFormed = true := by simp [Instr.wellFormed, hst, hn]
    have hmatch := State.ingestMatch_of_held hst hn hheld
    have hdigest : s.digestListed st (s.landing (64 * st + n)) = listed := rfl
    refine ⟨fun hlist => ?_, fun hlist hseal => ?_⟩
    · have heq : s.ingestMatch st n = x.wr Reg.LR_STATE st n 2 := hmatch.trans (if_pos (by rw [hdigest, hlist]; rfl))
      have hkeep : KeepsOutside PastHng s (s.ingestMatch st n) := by
        rw [heq]
        refine KeepsOutside.wr (.of_regs rfl) _ ?_
        simp only [PastHng, Field.key, Reg.LR_STATE, Block.base]; omega
      rw [exec_eq_of_keeps (g := fun s => s.ingestMatch st n) rfl hw hr hkeep (by rw [heq]; rfl) (by rw [heq]; rfl) (by rw [heq]; rfl)
        (by rw [heq]; rfl), heq]
    · have heq := hmatch.trans (if_neg (by rw [hdigest, hlist, hseal]; decide))
      rw [exec_eq_answer (g := fun s => s.ingestMatch st n) rfl hw hr, heq]

/-- Settles O25: beside counters a landing that starts writes STATE, TAG and CHUNKS of its region alone, and the regions of a tag-checked read
are distinct, so that each takes one reader. -/
theorem landingsOfLarder : Obligations.LandingsOfLarder := ⟨landingWrites, landingsProceed⟩

end

section
namespace Sys2Proof.Machine

open Sys2Proof

/-! PROOFS. Starch: when records trigger and how they queue, what a batch does, and how rules are loaded. -/

/-! ### Triggers -/

/-- What a trigger asks of a record, in one conjunction. -/
theorem State.of_triggers {s : State} {st c k : Nat} (h : s.triggers st c k = true) :
    let w := s.recWords st c k
    s.rd Reg.CTX_EXEC_MODE c = 0 ∧ s.rd Reg.CTX_EXEC_STEP_BUSY c = 1 ∧ recEn w = true ∧ w.getD 13 0 ≠ s.rd Reg.CTX_STEP_NUM c ∧
      s.rd Reg.LR_STATE st (wfield w 5 5 0) = 2 ∧ s.rd Reg.LR_TAG st (wfield w 5 5 0) = s.rd Reg.CTX_STEP_NUM c ∧
      (s.landing (64 * st + wfield w 5 5 0)).fired = false := by
  simp only [State.triggers, Bool.and_eq_true, beq_iff_eq, bne_iff_ne, Bool.not_eq_true'] at h
  obtain ⟨⟨⟨⟨⟨⟨⟨⟨⟨hmode, hbusy⟩, hen⟩, hdone⟩, -⟩, hland⟩, htag⟩, hfired⟩, -⟩, -⟩ := h
  exact ⟨hmode, hbusy, hen, hdone, hland, htag, hfired⟩

theorem State.starchTrigger_of_not {s : State} {st c k : Nat} (h : s.triggers st c k = false ∨ s.rd Reg.STC_NREC st (c % 16) ≤ k) :
    s.starchTrigger st c k = s := by
  rw [State.starchTrigger, if_pos]
  rcases h with h | h <;> simp [h]

/-- The landing of a record's gradient region has triggered. -/
def State.fire (s : State) (st c k : Nat) : State :=
  let key := 64 * st + wfield (s.recWords st c k) 5 5 0
  s.setLanding key { s.landing key with fired := true }

theorem State.starchTrigger_of_triggers {s : State} {st c k : Nat} (hst : st < 12) (hc : c < 64) (hp : s.partOfStack st = partOfCtx c)
    (hk : k < s.rd Reg.STC_NREC st (c % 16)) (ho : (s.stack st).out = false) (h : s.triggers st c k = true) :
    s.starchTrigger st c k = ((s.trigSet st c k).foldl (fun y j => y.trigRecord st c j) (s.fire st c k)).starchNext st := by
  rw [State.starchTrigger, if_neg]
  · rfl
  · simp only [hp, ho, h, not_or, Bool.not_true, Bool.false_eq_true, not_false_eq_true, and_true]
    omega

/-- An engine that runs a record takes no other. -/
theorem State.starchNext_of_running {s : State} {st : Nat} (h : (s.starchAt st).run.isSome = true) : s.starchNext st = s := by
  obtain ⟨r, hr⟩ := Option.isSome_iff_exists.mp h
  simp only [State.starchNext, hr]

theorem State.starchNext_of_empty {s : State} {st : Nat} (h : (s.starchAt st).queue = []) : s.starchNext st = s := by
  cases hr : (s.starchAt st).run with
  | none => simp only [State.starchNext, hr, h, List.find?_nil]
  | some r => exact State.starchNext_of_running (by rw [hr]; rfl)

/-! ### The check of a record -/

/-- An entry of the format table of a partition stands on no counter. -/
theorem KeepsOutside.fmt {s u : State} (h : KeepsOutside CounterPlace s u) {p n : Nat} (hp : p < 4) (hn : n < 16) : u.fmt p n = s.fmt p n := by
  have hrd : ∀ f : Field, (0x200 ≤ f.off ∧ f.off < 0x208 ∧ f.stride = 8 ∧ f.lo < 32) → u.rd f 0 (16 * p + n) = s.rd f 0 (16 * p + n) :=
    fun f ⟨ho, ho', hs, hl⟩ => h _ _ _ (not_counterPlace _ ⟨by omega, by rw [hs]; omega, hl⟩)
  simp only [State.fmt, State.rdB, hrd Reg.FMT_A_VALID (by decide), hrd Reg.FMT_A_KIND (by decide), hrd Reg.FMT_A_SIGN (by decide),
    hrd Reg.FMT_A_SUB (by decide), hrd Reg.FMT_A_WIDTH (by decide), hrd Reg.FMT_A_EXP_BITS (by decide), hrd Reg.FMT_A_SIG_BITS (by decide),
    hrd Reg.FMT_A_BIAS (by decide), hrd Reg.FMT_A_SPECIAL (by decide), hrd Reg.FMT_B_BLOCK (by decide), hrd Reg.FMT_B_SCALE (by decide),
    hrd Reg.FMT_B_SAT (by decide)]

theorem KeepsOutside.taggedOf {s u : State} (h : KeepsOutside CounterPlace s u) (st c : Nat) {r : Nat} (hr : r < 64) :
    u.taggedOf st c r = s.taggedOf st c r := by
  simp only [State.taggedOf, State.rdB, h.rd_region st hr (by decide : _ ∧ Reg.LR_VALID.off < _ ∧ _), h.rd_region st hr (by decide : _ ∧ Reg.LR_TAGGED.off < _ ∧ _),
    h.rd_region st hr (by decide : _ ∧ Reg.LR_CTX.off < _ ∧ _)]

/-- The check of a record depends on no counter. -/
theorem KeepsOutside.recOk {s u : State} (h : KeepsOutside CounterPlace s u) (hs : u.stk = s.stk) (hq : u.starch = s.starch) (st : Nat) {c : Nat}
    (hc : c < 64) (w : List Nat) : u.recOk st c w = s.recOk st c w := by
  have hmasks : u.ruleMasks st (wfield w 0 2 0) = s.ruleMasks st (wfield w 0 2 0) := by simp only [State.ruleMasks, hq]
  have hg : wfield w 5 5 0 < 64 := bits_lt _ 5 0
  have ho : wfield w 5 13 8 < 64 := bits_lt _ 13 8
  have hfmt := h.fmt (p := partOfCtx c) (n := wfield w 0 9 6) (by rw [partOfCtx]; omega) (bits_lt _ 9 6)
  have hllen : u.rd Reg.LR_LLEN st (wfield w 5 13 8) = s.rd Reg.LR_LLEN st (wfield w 5 13 8) := h.rd_region st ho (by decide)
  simp only [State.recOk, hmasks, State.onStack, h.larderCheck hs, h.taggedOf st c hg, h.taggedOf st c ho, h.regionSize st hg, hfmt, hllen]

/-! ### A record that triggers -/

theorem State.recWords_of_no_errors {s : State} (he : s.lerr = []) (st c k : Nat) :
    s.recWords st c k = toWords 16 (s.larder.readBytes (s.recAddr st c k) 64) := by
  simp only [State.recWords, State.recSeen, State.larderSeen, he, List.isEmpty_nil, if_true, Option.map_some, Option.getD_some]

/-- The record as the read of a trigger finds it where no errors are stored. -/
theorem State.recRead_of_no_errors {s : State} (he : s.lerr = []) (st c k : Nat) :
    ∃ u, s.recRead st c k = (u, some (s.recWords st c k)) ∧ CountsOnly s u := by
  obtain ⟨u, hget, hu⟩ := State.larderGet_of_no_errors he (some c) (s.recAddr st c k) 64
  exact ⟨u, by rw [State.recRead, hget, State.recWords_of_no_errors he]; rfl, hu⟩

/-- A record joins the queue of its engine. -/
def State.enqueue (s : State) (st c k : Nat) : State :=
  let x := s.starchAt st
  let q := x.queue ++ [(c, k, s.rd Reg.CTX_STEP_NUM c)]
  (s.setStarch st { x with queue := q }).wr Reg.STC_QUEUED st 0 (min 255 q.length)

/-- A triggered record that Larder lets the engine read: it joins the queue where it is well formed and its INFLIGHT is 0. -/
theorem State.trigRecord_eq {s u : State} {st c k : Nat} {w : List Nat} (hcheck : s.larderCheck c 1 80 (s.recAddr st c k) 64 = none)
    (hread : s.recRead st c k = (u, some w)) : s.trigRecord st c k =
      if !u.recOk st c w then u.raise (0x50 + st) 1 (some c) k
      else if wfield w 15 31 31 = 1 then u.raise (0x50 + st) 2 (some c) k else u.enqueue st c k := by
  simp only [State.trigRecord, State.larderOk_of_none hcheck, Bool.not_true, Bool.false_eq_true, if_false, hread]
  rfl

theorem State.fire_landing (s : State) (st c k : Nat) :
    ((s.fire st c k).landing (64 * st + wfield (s.recWords st c k) 5 5 0)).fired = true := by
  rw [State.fire, State.landing_setLanding_self]

/-- A single record that triggers is read and checked on its own. -/
theorem State.trigRecord_of_fire {s : State} {st c k : Nat} (hc : c < 64) (he : s.lerr = [])
    (hcheck : s.larderCheck c 1 80 (s.recAddr st c k) 64 = none) : ∃ u, CountsOnly (s.fire st c k) u ∧
      (s.fire st c k).recRead st c k = (u, some (s.recWords st c k)) ∧ u.recOk st c (s.recWords st c k) = s.recOk st c (s.recWords st c k) ∧
      (s.fire st c k).trigRecord st c k =
        if !s.recOk st c (s.recWords st c k) then u.raise (0x50 + st) 1 (some c) k
        else if wfield (s.recWords st c k) 15 31 31 = 1 then u.raise (0x50 + st) 2 (some c) k else u.enqueue st c k := by
  have hfire : KeepsOutside CounterPlace s (s.fire st c k) := .of_regs rfl
  have hwords : (s.fire st c k).recWords st c k = s.recWords st c k :=
    (State.recWords_of_no_errors (s := s.fire st c k) he st c k).trans (State.recWords_of_no_errors he st c k).symm
  obtain ⟨u, hread, hu⟩ := State.recRead_of_no_errors (s := s.fire st c k) he st c k
  rw [hwords] at hread
  have hok : u.recOk st c (s.recWords st c k) = s.recOk st c (s.recWords st c k) :=
    (hfire.trans hu.keeps).recOk (by rw [hu.rest]; rfl) (by rw [hu.rest]; rfl) st hc _
  refine ⟨u, hu, hread, hok, ?_⟩
  rw [← hok]
  exact State.trigRecord_eq ((hfire.larderCheck rfl ..).trans hcheck) hread

theorem State.starchAt_setStarch_self (s : State) (st : Nat) (x : Starch) : (s.setStarch st x).starchAt st = x := SMap.get_set_self ..

/-- The engine with the record in its queue. -/
theorem State.enqueue_starchAt (s : State) (st c k : Nat) : (s.enqueue st c k).starchAt st =
    { s.starchAt st with queue := (s.starchAt st).queue ++ [(c, k, s.rd Reg.CTX_STEP_NUM c)] } :=
  s.starchAt_setStarch_self ..

theorem State.enqueue_queued (s : State) (st c k : Nat) :
    (s.enqueue st c k).rd Reg.STC_QUEUED st = min 255 ((s.starchAt st).queue.length + 1) := by
  rw [State.enqueue, State.rd_wr_self, List.length_append, List.length_singleton]
  exact Nat.mod_eq_of_lt (by change _ < 256; omega)

theorem State.enqueue_keeps (s : State) (st c k : Nat) : KeepsOutside (· ∈ [Reg.STC_QUEUED.key st 0]) s (s.enqueue st c k) :=
  KeepsOutside.wr (u := s.setStarch st _) (.of_regs rfl) _ (by simp)

theorem stcKey_pastHng {f : Field} (hf : f.block = .stc) (i j : Nat) : PastHng (f.key i j) := by
  simp only [PastHng, Field.key, hf, Block.base]; omega

end Sys2Proof.Machine
end

section
open Sys2Proof Sys2Proof.Machine

theorem starchTriggers : Clause.StarchTriggers := by
  intro st c k s hr hst hc
  have hw : (Instr.starchTrigger st c k).wellFormed = true := by simp [Instr.wellFormed, hst, hc]
  refine ⟨fun h => exec_eq_self (g := fun s => s.starchTrigger st c k) rfl hw hr (State.starchTrigger_of_not h), State.of_triggers,
    fun hp hk ho htrig => ?_⟩
  have hexec := exec_eq_answer (g := fun s => s.starchTrigger st c k) rfl hw hr
  have heff := State.starchTrigger_of_triggers hst hc hp hk ho htrig
  refine ⟨by rw [hexec, heff]; rfl, fun hset he hcheck => ?_⟩
  obtain ⟨u, hu, hread, hok, hrec⟩ := State.trigRecord_of_fire hc he hcheck
  rw [hset, List.foldl_cons, List.foldl_nil, hrec] at heff
  refine ⟨fun hgood hwhole hrun => ?_, fun hbad => ?_⟩
  · have hrunning : ((u.enqueue st c k).starchAt st).run = (s.starchAt st).run := by
      rw [State.enqueue_starchAt, hu.rest]; rfl
    have hdone : s.starchTrigger st c k = u.enqueue st c k := by
      rw [heff, hgood, if_neg (by simp), if_neg (by rw [hwhole]; decide), State.starchNext_of_running (by rw [hrunning]; exact hrun)]
    have hstarch : u.starchAt st = s.starchAt st := by rw [hu.rest]; rfl
    have hstep : u.rd Reg.CTX_STEP_NUM c = s.rd Reg.CTX_STEP_NUM c := hu.keeps _ _ _ (not_counterPlace _ (by decide))
    have hkeeps : KeepsOutside (fun p => p ∈ [Reg.STC_QUEUED.key st 0] ∨ CounterPlace p) s (u.enqueue st c k) :=
      (KeepsOutside.of_regs (u := s.fire st c k) rfl).trans
        ((hu.keeps.mono fun _ => Or.inr).trans ((u.enqueue_keeps st c k).mono fun _ => Or.inl))
    have hpast : KeepsOutside PastHng s (u.enqueue st c k) := hkeeps.mono fun p hp => hp.elim
      (fun h => by rw [List.mem_singleton.mp h]; exact stcKey_pastHng rfl st 0) CounterPlace.pastHng
    have hrest : u.enqueue st c k = { s.fire st c k with regs := (u.enqueue st c k).regs, starch := (u.enqueue st c k).starch } := by
      rw [State.enqueue, hu.rest]; rfl
    refine ⟨u.enqueue st c k, ?_, ?_, hrunning, ?_, by rw [hrest]; rfl, ?_, hkeeps.regsKeep⟩
    · rw [← hdone]
      refine exec_eq_of_keeps (g := fun s => s.starchTrigger st c k) rfl hw hr ?_ ?_ ?_ ?_ ?_ <;> rw [hdone]
      · exact hpast
      all_goals rw [hrest]; rfl
    · rw [State.enqueue_starchAt, hstarch, hstep]
    · rw [State.enqueue_queued, hstarch]
    · rw [hrest]; exact s.fire_landing st c k
  · have hfst : ((s.fire st c k).recRead st c k).1 = u := by rw [hread]
    rw [hbad, Bool.not_false, if_pos rfl, ← hfst] at heff
    rw [hexec, heff]
    rfl

end

section
namespace Sys2Proof.Machine

open Sys2Proof

/-! PROOFS. Starch: a batch of an engine, and how rules are loaded. -/

/-- A command that writes a block's page, of an agent that may write it, and that leaves the package calm, answers what it does. -/
theorem exec_eq_of_mayWrite {s : State} {i : Instr} {ag : Agent} {b : Block} {inst : Nat} {g : State → State}
    (he : exec i s = s.serve i (fun s => s.asBlock ag b inst g)) (hw : ag.wellFormed = true → i.wellFormed = true) (hr : s.ready = true)
    (hin : inst < b.pages) (hm : s.mayWrite ag (b.base + inst) = true) (hcalm : (g (s.dropLatch ag)).calm = true)
    (hp : (g (s.dropLatch ag)).pending = s.pending) : exec i s = .next (g (s.dropLatch ag)) := by
  simp only [State.mayWrite, Bool.and_eq_true] at hm
  obtain ⟨⟨hag, hreach⟩, hwrite⟩ := hm
  have hg : s.asBlock ag b inst g = g (s.dropLatch ag) := by
    rw [State.asBlock, if_pos hin, State.asWrite, if_neg (by simp [hreach]), if_neg (by simp [hwrite])]
  rw [exec_eq_of_calm (g := fun s => s.asBlock ag b inst g) he (hw hag) hr (by rw [hg]; exact hcalm) (by rw [hg]; exact hp), hg]

/-! ### The reading latches

A read of Larder answers what it answers whatever latches an agent holds: what it does and the drop of the latches commute. -/

theorem ite_dropLatch {ag : Agent} {p q : Prop} [Decidable p] [Decidable q] {x x' y y' : State} (h : p ↔ q) (hx : x = x'.dropLatch ag)
    (hy : y = y'.dropLatch ag) : (if p then x else y) = (if q then x' else y').dropLatch ag := by
  by_cases hq : q
  · rw [if_pos hq, if_pos (h.mpr hq), hx]
  · rw [if_neg hq, if_neg (fun hp => hq (h.mp hp)), hy]

/-- FLT_FIRST of a page takes its first occurrence. -/
def State.occurFirst (s : State) (p b : Nat) (c : Option Nat) (d : Nat) : State :=
  if s.rd Reg.FLT_STAT p = 0 then
    ((((s.wr Reg.FLT_FIRST_BIT p 0 b).wr Reg.FLT_FIRST_VALID p 0 1).wr Reg.FLT_FIRST_CTX p 0 (c.getD 0)).wrB
      Reg.FLT_FIRST_CTXV p 0 c.isSome).wr Reg.FLT_FIRST_DETAIL p 0 d
  else s

/-- An occurrence in the registers, before its event record. -/
def State.occurNoted (s : State) (p b cls : Nat) (c : Option Nat) (d : Nat) : State :=
  let u := (s.occurFirst p b c d).wr Reg.FLT_STAT p 0 (setBit (s.rd Reg.FLT_STAT p) b)
  (u.wr Reg.FLT_COUNT p 0 (satInc 0xFFFF (u.rd Reg.FLT_COUNT p))).count 0x002 cls 1

theorem State.occurAs_eq (s : State) (p b cls : Nat) (c : Option Nat) (d : Nat) : s.occurAs p b cls c d =
    let u := s.occurNoted p b cls c d
    if bit (u.rd Reg.FLT_MASK p) b = 1 then u
    else u.log ⟨0, p, b, cls, c.getD 0, c.isSome, 0, u.timeUs, u.flash.bootGen, 0, u.rd Reg.FLT_COUNT p, u.fltFirst p⟩ := rfl

section
variable (s : State) (ag : Agent)

theorem State.wr_dropLatch (f : Field) (i j n : Nat) : (s.dropLatch ag).wr f i j n = (s.wr f i j n).dropLatch ag := rfl

theorem State.count_dropLatch (p n k : Nat) : (s.dropLatch ag).count p n k = (s.count p n k).dropLatch ag := ite_dropLatch .rfl rfl rfl

theorem State.flushOut_dropLatch (p n f : Nat) : (s.dropLatch ag).flushOut p n f = (s.flushOut p n f).dropLatch ag := by
  induction f generalizing s with
  | zero => rfl
  | succ f ih =>
    have hses : (s.dropLatch ag).session p n = s.session p n := rfl
    cases hx : s.session p n with
    | none => simp only [State.flushOut, hses, hx]
    | some x =>
      cases hq : x.outq with
      | nil => simp only [State.flushOut, hses, hx, hq]
      | cons body r =>
        simp only [State.flushOut, hses, hx, hq]
        refine ite_dropLatch .rfl rfl ?_
        rw [← ih, ← State.count_dropLatch]
        rfl

theorem State.sendNum_dropLatch (p n : Nat) (b : NBody) : (s.dropLatch ag).sendNum p n b = (s.sendNum p n b).dropLatch ag := by
  have hses : (s.dropLatch ag).session p n = s.session p n := rfl
  cases hx : s.session p n with
  | none => simp only [State.sendNum, hses, hx]
  | some x =>
    simp only [State.sendNum, hses, hx]
    rw [← State.flushOut_dropLatch]
    rfl

theorem State.sendEvt_dropLatch (e : EventRec) : (s.dropLatch ag).sendEvt e = (s.sendEvt e).dropLatch ag := by
  have hopen : (s.dropLatch ag).openSessions = s.openSessions := rfl
  rw [State.sendEvt, State.sendEvt, hopen]
  clear hopen
  generalize s.openSessions = l
  induction l generalizing s with
  | nil => rfl
  | cons x l ih =>
    rw [List.foldl_cons, List.foldl_cons, ← ih]
    congr 1
    exact ite_dropLatch .rfl (s.sendNum_dropLatch ag x.1 x.2 (.evt [e])) rfl

theorem State.log_dropLatch (e : EventRec) : (s.dropLatch ag).log e = (s.log e).dropLatch ag := by
  refine ite_dropLatch .rfl (ite_dropLatch .rfl rfl rfl) (ite_dropLatch .rfl ?_ ?_)
  · rw [← State.count_dropLatch]; rfl
  · rw [← State.sendEvt_dropLatch, ← State.count_dropLatch, ← State.count_dropLatch]; rfl

theorem State.occurFirst_dropLatch (p b : Nat) (c : Option Nat) (d : Nat) :
    (s.dropLatch ag).occurFirst p b c d = (s.occurFirst p b c d).dropLatch ag := ite_dropLatch .rfl rfl rfl

theorem State.occurNoted_dropLatch (p b cls : Nat) (c : Option Nat) (d : Nat) :
    (s.dropLatch ag).occurNoted p b cls c d = (s.occurNoted p b cls c d).dropLatch ag := by
  rw [State.occurNoted, State.occurFirst_dropLatch]
  simp only [State.dropLatch_rd, State.wr_dropLatch, State.count_dropLatch]
  rfl

theorem State.occurAs_dropLatch (p b cls : Nat) (c : Option Nat) (d : Nat) :
    (s.dropLatch ag).occurAs p b cls c d = (s.occurAs p b cls c d).dropLatch ag := by
  rw [State.occurAs_eq, State.occurNoted_dropLatch, State.occurAs_eq]
  generalize s.occurNoted p b cls c d = u
  exact ite_dropLatch .rfl rfl (u.log_dropLatch ag _)

theorem State.latchFt_dropLatch (p b : Nat) : (s.dropLatch ag).latchFt p b = (s.latchFt p b).dropLatch ag :=
  ite_dropLatch .rfl rfl (ite_dropLatch .rfl rfl rfl)

theorem State.occur_dropLatch (p b : Nat) (c : Option Nat) (d : Nat) : (s.dropLatch ag).occur p b c d = (s.occur p b c d).dropLatch ag := by
  have hesc : (s.dropLatch ag).escalates p b = s.escalates p b := rfl
  have hcls : (s.dropLatch ag).effClass p b = s.effClass p b := rfl
  have hif : ∀ (q : Prop) [Decidable q] (x y : State), (if q then x.dropLatch ag else y.dropLatch ag) = (if q then x else y).dropLatch ag :=
    fun _ _ _ _ => ite_dropLatch .rfl rfl rfl
  simp only [State.occur, hesc, hcls, State.occurAs_dropLatch, State.count_dropLatch, State.latchFt_dropLatch, hif]

/-- A codeword reads as it does with the latches of an agent dropped. -/
theorem State.larderWord_dropLatch (a : Nat) : (s.dropLatch ag).larderWord a = ((s.larderWord a).1.dropLatch ag, (s.larderWord a).2) := by
  have hecc : (s.dropLatch ag).rdB Reg.MEM_ECC2 (stackOf a) = s.rdB Reg.MEM_ECC2 (stackOf a) := rfl
  cases herr : SMap.find s.lerr (a / 32) with
  | none => simp only [State.larderWord, State.dropLatch_lerr, herr]
  | some errs =>
    cases hdec : rsDecode (s.rdB Reg.MEM_ECC2 (stackOf a)) errs with
    | none => simp only [State.larderWord, State.dropLatch_lerr, herr, hecc, hdec, State.count_dropLatch]
    | some p =>
      obtain ⟨corr, rest⟩ := p
      simp only [State.larderWord, State.dropLatch_lerr, herr, hecc, hdec]
      split
      · rfl
      · rw [← State.occur_dropLatch, ← State.count_dropLatch]; rfl

theorem State.larderWords_dropLatch (w n : Nat) :
    (s.dropLatch ag).larderWords w n = ((s.larderWords w n).1.dropLatch ag, (s.larderWords w n).2) := by
  induction n generalizing s w with
  | zero => rfl
  | succ n ih => simp only [State.larderWords, State.larderWord_dropLatch, ih]

theorem State.larderGranules_dropLatch (g n : Nat) :
    (s.dropLatch ag).larderGranules g n = ((s.larderGranules g n).1.dropLatch ag, (s.larderGranules g n).2) := by
  induction n generalizing s g with
  | zero => rfl
  | succ n ih =>
    simp only [State.larderGranules, State.larderWords_dropLatch, State.dropLatch_lerr]
    split <;> simp only [State.count_dropLatch, ih]

theorem State.recWords_dropLatch (st c k : Nat) : (s.dropLatch ag).recWords st c k = s.recWords st c k := by
  have haddr : (s.dropLatch ag).recAddr st c k = s.recAddr st c k := rfl
  simp only [State.recWords, State.recSeen, State.larderSeen, haddr, State.dropLatch_lerr, State.dropLatch_larder, State.larderGranules_dropLatch]

/-- Whether a step uses a rule depends on no latch. -/
theorem State.ruleInUse_dropLatch (st slot : Nat) : (s.dropLatch ag).ruleInUse st slot = s.ruleInUse st slot := by
  simp only [State.ruleInUse, State.recWords_dropLatch]
  rfl

end

/-! ### Rules -/

theorem State.ruleLoad_of_builtin {s : State} {st : Nat} (h : s.rd Reg.STC_SLOT st < 4) : s.ruleLoad st = s.wr Reg.STC_REFUSED st 0 1 := by
  rw [State.ruleLoad, if_pos (.inl h)]

/-- The image that a load names. -/
def State.ruleImage (s : State) (st : Nat) : List Byte :=
  s.staging.readBytes (s.rd Reg.STC_RULE_SRC st * 64) (s.rd Reg.STC_RULE_LEN st)

/-- A load that begins: the image and its slot stand in the engine, and STATE shows it. -/
def State.ruleBegin (s : State) (st : Nat) : State :=
  ((s.wr Reg.STC_REFUSED st 0 0).wr Reg.STC_STATE st 0 1).setStarch st
    { s.starchAt st with image := s.ruleImage st, target := s.rd Reg.STC_SLOT st }

theorem State.ruleLoad_of_taken {s : State} {st : Nat} (hslot : 4 ≤ s.rd Reg.STC_SLOT st)
    (hsrc : inStagePart (s.partOfStack st) (s.rd Reg.STC_RULE_SRC st * 64) (s.rd Reg.STC_RULE_LEN st) = true)
    (hrule : ruleOk (s.ruleImage st) = true) (hidle : s.ruleInUse st (s.rd Reg.STC_SLOT st) = false) : s.ruleLoad st = s.ruleBegin st := by
  rw [State.ruleImage] at hrule
  rw [State.ruleLoad, if_neg]
  · rfl
  · simp only [hsrc, hrule, hidle, Bool.not_true, Bool.false_eq_true, or_false, not_lt]
    exact hslot

theorem State.ruleBegin_keeps (s : State) (st : Nat) :
    KeepsOutside (· ∈ [Reg.STC_REFUSED.key st 0, Reg.STC_STATE.key st 0]) s (s.ruleBegin st) :=
  KeepsOutside.trans (u := (s.wr Reg.STC_REFUSED st 0 0).wr Reg.STC_STATE st 0 1)
    (((KeepsOutside.refl _ s).wr _ (by simp)).wr _ (by simp)) (.of_regs rfl)

theorem State.ruleBegin_shows (s : State) (st : Nat) : (s.ruleBegin st).rd Reg.STC_REFUSED st = 0 ∧ (s.ruleBegin st).rd Reg.STC_STATE st = 1 := by
  have hrd : ∀ f, (s.ruleBegin st).rd f st = ((s.wr Reg.STC_REFUSED st 0 0).wr Reg.STC_STATE st 0 1).rd f st := fun _ => rfl
  refine ⟨?_, by rw [hrd, State.rd_wr_self]; rfl⟩
  rw [hrd, State.rd_wr_ne _ _ (by simp only [Field.key, Reg.STC_REFUSED, Reg.STC_STATE]; omega), State.rd_wr_self]
  rfl

theorem State.ruleBegin_starchAt (s : State) (st : Nat) :
    (s.ruleBegin st).starchAt st = { s.starchAt st with image := s.ruleImage st, target := s.rd Reg.STC_SLOT st } :=
  State.starchAt_setStarch_self ..

/-- A load that ends well: the image is the rule of its slot, which is valid with the rule's length. -/
def State.ruleLoaded (s : State) (st : Nat) : State :=
  let x := s.starchAt st
  let y := s.setStarch st { x with rules := SMap.put x.rules x.target x.image, image := [], target := 0 }
  ((y.wr Reg.STC_STATE st 0 2).wr Reg.STC_RSLOT_VALID st x.target 1).wr Reg.STC_RSLOT_NINS st x.target (ruleNins x.image)

theorem State.ruleLoadDone_of_true {s : State} {st : Nat} (hst : st < 12) (h : s.rd Reg.STC_STATE st = 1) :
    s.ruleLoadDone st true = s.ruleLoaded st := by
  rw [State.ruleLoadDone, if_neg (by omega)]
  rfl

theorem State.ruleLoaded_keeps (s : State) (st : Nat) : KeepsOutside (· ∈ [Reg.STC_STATE.key st 0,
    Reg.STC_RSLOT_VALID.key st (s.starchAt st).target, Reg.STC_RSLOT_NINS.key st (s.starchAt st).target]) s (s.ruleLoaded st) :=
  (((KeepsOutside.of_regs (u := s.setStarch st _) rfl).wr _ (by simp)).wr _ (by simp)).wr _ (by simp)

theorem State.ruleLoaded_shows (s : State) (st : Nat) : (s.ruleLoaded st).rd Reg.STC_STATE st = 2 ∧
    (s.ruleLoaded st).rd Reg.STC_RSLOT_VALID st (s.starchAt st).target = 1 := by
  constructor
  · rw [State.ruleLoaded, State.rd_wr_ne, State.rd_wr_ne, State.rd_wr_self]
    · rfl
    all_goals simp only [Field.key, Reg.STC_STATE, Reg.STC_RSLOT_VALID, Reg.STC_RSLOT_NINS]; omega
  · rw [State.ruleLoaded, State.rd_wr_ne, State.rd_wr_self]
    · rfl
    · simp only [Field.key, Reg.STC_RSLOT_VALID, Reg.STC_RSLOT_NINS]; omega

theorem State.ruleLoaded_rules (s : State) (st : Nat) :
    SMap.find ((s.ruleLoaded st).starchAt st).rules (s.starchAt st).target = some (s.starchAt st).image := by
  have h : (s.ruleLoaded st).starchAt st = { s.starchAt st with
      rules := SMap.put (s.starchAt st).rules (s.starchAt st).target (s.starchAt st).image, image := [], target := 0 } :=
    s.starchAt_setStarch_self ..
  rw [h]
  exact SMap.find_put_self ..

end Sys2Proof.Machine
end

section
open Sys2Proof Sys2Proof.Machine

theorem starchBatches : Clause.StarchBatches := by
  intro st s hr hst
  have hw : (Instr.starchBatch st).wellFormed = true := decide_eq_true hst
  refine ⟨fun hrun hq => ?_, fun r x wb m1b m2b gb hrun hfen hheld hout hhalt hmay hget => ?_⟩
  · refine exec_eq_self (g := fun s => s.starchBatch st) rfl hw hr ?_
    rw [State.starchBatch, hrun]
    exact State.starchNext_of_empty hq
  · have hbusy : (s.isFenced (0x50 + st) 0 || s.starchHeld st || (s.stack st).out || s.rdB Reg.FLT_HALTED
        || !s.mayWork (0x50 + st) 0 r.ctx) = false := by
      simp [hfen, hheld, hout, hmay, State.rdB, hhalt]
    rw [exec_eq_answer (g := fun s => s.starchBatch st) rfl hw hr]
    simp only [State.starchBatch, hrun, hbusy, Bool.false_eq_true, if_false, beq_iff_eq, hget, Bool.not_eq_true', beq_eq_false_iff_ne, ne_eq,
      ite_not]

theorem ruleLoads : Clause.RuleLoads := by
  intro ag st s hr hst
  have hcalm := (s.ready_iff.mp hr).2
  have hwf : ag.wellFormed = true → (Instr.ruleLoad ag st).wellFormed = true := fun h => by simp [Instr.wellFormed, h, hst]
  have hpast : ∀ f : Field, f.block = .stc → ∀ j, PastHng (f.key st j) := fun f hf j => stcKey_pastHng hf st j
  refine ⟨fun hm => ⟨fun hslot => ?_, fun hslot hsrc hrule hidle => ?_⟩, fun hload _ => ?_, fun hload => ?_⟩
  · have heff : (s.dropLatch ag).ruleLoad st = (s.dropLatch ag).wr Reg.STC_REFUSED st 0 1 := State.ruleLoad_of_builtin hslot
    have hkeeps : KeepsOutside (· ∈ [Reg.STC_REFUSED.key st 0]) s ((s.dropLatch ag).wr Reg.STC_REFUSED st 0 1) :=
      KeepsOutside.wr (u := s.dropLatch ag) (.of_regs rfl) _ (by simp)
    have hexec : exec (.ruleLoad ag st) s = .next ((s.dropLatch ag).ruleLoad st) :=
      exec_eq_of_mayWrite (b := .stc) (g := fun s => s.ruleLoad st) rfl hwf hr hst hm
        (by rw [heff]; exact (hkeeps.mono (by simp [hpast, Reg.STC_REFUSED])).calm hcalm rfl rfl rfl) (by rw [heff]; rfl)
    exact ⟨_, by rw [hexec, heff], State.rd_wr_self .., hkeeps, rfl⟩
  · have heff := State.ruleLoad_of_taken (s := s.dropLatch ag) (st := st) hslot hsrc hrule ((s.ruleInUse_dropLatch ag st _).trans hidle)
    have hkeeps : KeepsOutside (· ∈ [Reg.STC_REFUSED.key st 0, Reg.STC_STATE.key st 0]) s ((s.dropLatch ag).ruleBegin st) :=
      KeepsOutside.trans (u := s.dropLatch ag) (.of_regs rfl) ((s.dropLatch ag).ruleBegin_keeps st)
    have hexec : exec (.ruleLoad ag st) s = .next ((s.dropLatch ag).ruleLoad st) :=
      exec_eq_of_mayWrite (b := .stc) (g := fun s => s.ruleLoad st) rfl hwf hr hst hm
        (by rw [heff]; exact (hkeeps.mono (by simp [hpast, Reg.STC_REFUSED, Reg.STC_STATE])).calm hcalm rfl rfl rfl) (by rw [heff]; rfl)
    obtain ⟨hrefused, hstate⟩ := (s.dropLatch ag).ruleBegin_shows st
    have hengine := (s.dropLatch ag).ruleBegin_starchAt st
    exact ⟨_, hexec.trans (congrArg _ heff), hrefused, hstate, by rw [hengine]; rfl, by rw [hengine]; rfl, by rw [hengine]; rfl, hkeeps⟩
  · have heff := State.ruleLoadDone_of_true hst hload
    have hkeeps : KeepsOutside PastHng s (s.ruleLoadDone st true) := by
      rw [heff]
      exact (s.ruleLoaded_keeps st).mono (by simp [hpast, Reg.STC_STATE, Reg.STC_RSLOT_VALID, Reg.STC_RSLOT_NINS])
    have hexec : exec (.ruleLoadDone st true) s = .next (s.ruleLoadDone st true) :=
      exec_eq_of_keeps (g := fun s => s.ruleLoadDone st true) rfl (decide_eq_true hst) hr hkeeps (by rw [heff]; rfl) (by rw [heff]; rfl)
        (by rw [heff]; rfl) (by rw [heff]; rfl)
    obtain ⟨hstate, hvalid⟩ := s.ruleLoaded_shows st
    exact ⟨_, hexec.trans (congrArg _ heff), hstate, hvalid, s.ruleLoaded_rules st, s.ruleLoaded_keeps st⟩
  · have hw : (Instr.ruleLoadDone st false).wellFormed = true := decide_eq_true hst
    have heff : s.ruleLoadDone st false = ((s.setStarch st { s.starchAt st with image := [], target := 0 }).wr Reg.STC_STATE st 0 3).raise
        (0x50 + st) 0 none (s.starchAt st).target := by
      rw [State.ruleLoadDone, if_neg (by omega)]
      rfl
    rw [exec_eq_answer (g := fun s => s.ruleLoadDone st false) rfl hw hr, heff]

/-- Settles O26: a trigger, a batch and a load each come down to one named effect, off which the claims are read; that a rule is in use does
not depend on the latches that the access drops. -/
theorem starchUpdates : Obligations.StarchUpdates := ⟨starchTriggers, starchBatches, ruleLoads⟩

end

section
namespace Sys2Proof.Machine

open Sys2Proof

/-! PROOFS. The Trinal ports: where their registers stand, what their records and registers keep of each other, and how a port changes its
state and goes on in its training sequence. -/

/-! ### Registers of a port -/

/-- The pages of the Trinal ports. -/
def LinkPlace (k : Nat) : Prop := 0x30 * 4096 * 32 ≤ k ∧ k < 0x40 * 4096 * 32

theorem LinkPlace.pastHng {k : Nat} (h : LinkPlace k) : PastHng k := by
  unfold LinkPlace at h; unfold PastHng; omega

/-- A field of the LNK page of a port stands on the pages of the ports. -/
theorem linkPlace_key {f : Field} {k j : Nat} (hk : k < 16) (hj : f.off + f.stride * j < 4096 := by decide) (hl : f.lo < 32 := by decide)
    (hb : f.block = .lnk := by rfl) : LinkPlace (f.key k j) := by
  simp only [LinkPlace, Field.key, hb, Block.base]; omega

/-- Two fields of one page that begin at different bits stand at different places. -/
theorem key_ne_of_place {f g : Field} (k : Nat) {i j : Nat}
    (h : (f.off + f.stride * i) * 32 + f.lo ≠ (g.off + g.stride * j) * 32 + g.lo := by decide) (hb : f.block = g.block := by rfl) :
    f.key k i ≠ g.key k j := by
  simp only [Field.key, hb]; omega

/-! ### Records of the ports -/

@[simp] theorem State.port_setPort_self (s : State) (k : Nat) (x : Port) : (s.setPort k x).port k = x := SMap.get_set_self ..

@[simp] theorem State.setPort_rd (s : State) (k : Nat) (x : Port) (f : Field) (i j : Nat) : (s.setPort k x).rd f i j = s.rd f i j := rfl

theorem KeepsOutside.setPort {K : Nat → Prop} {s u : State} (h : KeepsOutside K s u) (k : Nat) (x : Port) :
    KeepsOutside K s (u.setPort k x) :=
  h.trans (.of_regs rfl)

@[simp] theorem State.setPort_lnk (s : State) (k : Nat) (x : Port) (j : Nat) : (s.setPort k x).lnk j = s.lnk j := rfl

@[simp] theorem State.wr_port (s : State) (f : Field) (i j v k : Nat) : (s.wr f i j v).port k = s.port k := rfl

/-- At most registers and the records of the ports differ. -/
def PortsOnly (s u : State) : Prop := u = { s with regs := u.regs, ports := u.ports }

theorem PortsOnly.refl (s : State) : PortsOnly s s := rfl

theorem PortsOnly.trans {s u v : State} (h : PortsOnly s u) (h' : PortsOnly u v) : PortsOnly s v := by
  rw [PortsOnly, h', h]

theorem PortsOnly.wr {s u : State} (h : PortsOnly s u) (f : Field) (i j v : Nat) : PortsOnly s (u.wr f i j v) := by
  rw [PortsOnly, State.wr, h]

theorem PortsOnly.setPort {s u : State} (h : PortsOnly s u) (k : Nat) (x : Port) : PortsOnly s (u.setPort k x) := by
  rw [PortsOnly, State.setPort, h]

/-- A command on registers of the pages past HNG and on the ports answers what it does. -/
theorem exec_eq_of_ports {s : State} {i : Instr} {g : State → State} (he : exec i s = s.serve i g) (hw : i.wellFormed = true)
    (hr : s.ready = true) (hk : KeepsOutside PastHng s (g s)) (hp : PortsOnly s (g s)) : exec i s = .next (g s) :=
  exec_eq_of_keeps he hw hr hk (by rw [hp]) (by rw [hp]) (by rw [hp]) (by rw [hp])

/-! ### The state of a port -/

@[simp] theorem State.lnk_wr_state (s : State) (k v : Nat) : (s.wr Reg.LNK_STATE k 0 v).lnk k = v % 2 ^ 4 := State.rd_wr_self ..

/-- STATE begins at bit 0 of the word at 0x104. -/
theorem State.lnk_wr_ne (s : State) {f : Field} (k v : Nat) (h : f.off * 32 + f.lo ≠ 0x104 * 32 := by decide)
    (hb : f.block = .lnk := by rfl) : (s.wr f k 0 v).lnk k = s.lnk k :=
  State.rd_wr_ne s v (key_ne_of_place (f := Reg.LNK_STATE) k (by simp only [Nat.mul_zero, Nat.add_zero]; exact h.symm) hb.symm)

/-- A port that neither trains nor carries packets takes another state, and nothing else of it changes. -/
theorem State.setLnk_of_idle {s : State} {k : Nat} (st : Nat) (dark : Bool) (h2 : s.lnk k ≠ 2) (h4 : s.lnk k ≠ 4) (h5 : s.lnk k ≠ 5) :
    s.setLnk k st dark = s.wr Reg.LNK_STATE k 0 st := by
  simp [State.setLnk, h2, h4, h5]

/-- A port that leaves TRAIN clears REMOTE_DOWN. -/
theorem State.setLnk_of_train {s : State} {k st : Nat} (dark : Bool) (h2 : s.lnk k = 2) (hst : st ≠ 2) :
    s.setLnk k st dark = (s.wr Reg.LNK_STATE k 0 st).wr Reg.LNK_REMOTE_DOWN k 0 0 := by
  simp [State.setLnk, h2, hst]

/-! ### The training sequence -/

/-- The sequence goes to a step that its table has, with a listed operation, by STEP alone. -/
theorem State.seqGo_of_listed {s : State} {k n : Nat} (h : StepOk (s.port k).table n) : s.seqGo k n = s.wr Reg.LNK_STEP k 0 n := by
  obtain ⟨-, x, hx, hlo, hhi⟩ := h
  rw [State.seqGo, State.wr_port, hx]
  exact if_neg (by omega)

/-- A port in TRAIN at the entry point of the table in force. -/
def State.beginTrain (s : State) (k : Nat) : State :=
  (((s.wr Reg.LNK_STATE k 0 2).setPort k { s.port k with table := s.seqTable }).wr Reg.LNK_SEQ_VER k 0 s.seqTable.ver).wr
    Reg.LNK_STEP k 0 s.seqTable.train

/-- A DARK port enters TRAIN and touches nothing else. -/
theorem State.enterTrain_of_dark {s : State} {k : Nat} (h : s.lnk k = 1) (ht : StepOk s.seqTable s.seqTable.train) :
    s.enterTrain k false = s.beginTrain k := by
  have hset : s.setLnk k 2 = s.wr Reg.LNK_STATE k 0 2 := State.setLnk_of_idle 2 false (by omega) (by omega) (by omega)
  simp only [State.enterTrain, Bool.false_eq_true, if_false, hset, State.wr_port]
  exact State.seqGo_of_listed (by simpa using ht)

theorem State.beginTrain_keeps (s : State) (k : Nat) :
    KeepsOutside (· ∈ [Reg.LNK_STATE.key k 0, Reg.LNK_SEQ_VER.key k 0, Reg.LNK_STEP.key k 0]) s (s.beginTrain k) :=
  (((KeepsOutside.refl _ s).wr 2 (by simp)).setPort k _).wr _ (by simp) |>.wr _ (by simp)

theorem State.beginTrain_ports (s : State) (k : Nat) : PortsOnly s (s.beginTrain k) :=
  ((((PortsOnly.refl s).wr ..).setPort ..).wr ..).wr ..

theorem State.beginTrain_shows {s : State} (k : Nat) (ht : StepOk s.seqTable s.seqTable.train) :
    (s.beginTrain k).lnk k = 2 ∧ (s.beginTrain k).rd Reg.LNK_STEP k = s.seqTable.train ∧
    (s.beginTrain k).rd Reg.LNK_SEQ_VER k = s.seqTable.ver % 2 ^ 16 ∧ ((s.beginTrain k).port k).table = s.seqTable := by
  obtain ⟨hlt, -⟩ := ht
  refine ⟨?_, ?_, ?_, ?_⟩
  · rw [State.beginTrain, State.lnk_wr_ne _ k _, State.lnk_wr_ne _ k _, State.setPort_lnk, State.lnk_wr_state]
    rfl
  · rw [State.beginTrain, State.rd_wr_self]
    exact Nat.mod_eq_of_lt hlt
  · rw [State.beginTrain, State.rd_wr_ne _ _ (key_ne_of_place k), State.rd_wr_self]
    rfl
  · simp [State.beginTrain]

end Sys2Proof.Machine
end

section
namespace Sys2Proof.Machine

open Sys2Proof

/-! PROOFS. The light of a Trinal port: what a laser reading shows, and what the received power of eight lanes shows and starts. -/

/-! ### Laser light -/

/-- STATUS is no register. -/
@[simp] theorem State.laserNote_rd (s : State) (las : Nat) (f : Field) (i j : Nat) : (s.laserNote las).rd f i j = s.rd f i j := rfl

/-- A reading of at most +22.0 dBm is shown in LP, and raises LASER_LOW below LP_WARN. -/
theorem State.laserMeasure_of_safe {s : State} {k lp : Nat} (hk : k < 16) (hp : s.powered (lnkPage k) = true) (hlp : toSigned 10 lp ≤ 220) :
    s.laserMeasure k lp =
      if toSigned 10 lp < toSigned 10 (s.rd Reg.LNK_LP_WARN k) then ((s.wr Reg.LNK_LP k 0 lp).laserNote (k % 8)).raise (lnkPage k) 8 none 0
      else (s.wr Reg.LNK_LP k 0 lp).laserNote (k % 8) := by
  have hwarn : ((s.wr Reg.LNK_LP k 0 lp).laserNote (k % 8)).rd Reg.LNK_LP_WARN k = s.rd Reg.LNK_LP_WARN k :=
    (State.laserNote_rd ..).trans (State.rd_wr_ne s lp (key_ne_of_place k))
  have hskip : ¬ (16 ≤ k ∨ (!s.powered (lnkPage k)) = true) := by simp [hp, hk]
  simp only [State.laserMeasure, if_neg hskip, hwarn, if_neg (not_lt.mpr hlp)]

/-! ### Received light -/

/-- The received power of lane `l` is shown. -/
def State.rxLane (s : State) (k : Nat) (p : List Nat) (l : Nat) : State :=
  let v := toSigned 10 (p.getD l 0x200)
  let los := if v < -140 then true else if -120 < v then false else s.rdB Reg.LNK_LOS k l
  (s.wr Reg.LNK_RXP k l (p.getD l 0x200)).wrB Reg.LNK_LOS k l los

/-- The received power of all lanes is shown. -/
def State.rxLanes (s : State) (k : Nat) (p : List Nat) : State := (List.range 8).foldl (fun s l => s.rxLane k p l) s

theorem State.rxPower_eq (s : State) (k : Nat) (p : List Nat) :
    s.rxPower k p = (s.rxLanes k p).wr Reg.LNK_LOS_LANES k 0 ((List.range 8).map (fun l => 2 ^ l * (s.rxLanes k p).rd Reg.LNK_LOS k l)).sum :=
  rfl

/-- The places of RXP, LOS and LOS_LANES of a port. -/
def lightKeys (k : Nat) : List Nat :=
  Reg.LNK_LOS_LANES.key k 0 :: (List.range 8).flatMap (fun l => [Reg.LNK_RXP.key k l, Reg.LNK_LOS.key k l])

theorem State.rxPower_keeps (s : State) (k : Nat) (p : List Nat) : KeepsOutside (· ∈ lightKeys k) s (s.rxPower k p) := by
  rw [State.rxPower_eq]
  refine KeepsOutside.wr (KeepsOutside.foldl _ _ (fun u l hl => ?_) s) _ (by simp [lightKeys])
  have hmem : Reg.LNK_RXP.key k l ∈ lightKeys k ∧ Reg.LNK_LOS.key k l ∈ lightKeys k := by
    simp only [lightKeys, List.mem_cons, List.mem_flatMap]
    exact ⟨.inr ⟨l, hl, by simp⟩, .inr ⟨l, hl, by simp⟩⟩
  exact ((KeepsOutside.refl _ u).wr _ hmem.1).wr _ hmem.2

theorem State.rxPower_ports (s : State) (k : Nat) (p : List Nat) : PortsOnly s (s.rxPower k p) := by
  have hlanes : PortsOnly s (s.rxLanes k p) :=
    List.foldlRecOn (motive := PortsOnly s) _ _ (.refl s) (fun u hu l _ => (hu.wr ..).wr ..)
  exact hlanes.wr ..

theorem lightKeys_linkPlace {k i : Nat} (hk : k < 16) (h : i ∈ lightKeys k) : LinkPlace i := by
  simp only [lightKeys, List.mem_cons, List.mem_flatMap, List.mem_range, List.not_mem_nil, or_false] at h
  obtain rfl | ⟨l, hl, rfl | rfl⟩ := h
  · exact linkPlace_key hk
  · exact linkPlace_key hk (by simp only [Reg.LNK_RXP]; omega)
  · exact linkPlace_key hk (by simp only [Reg.LNK_LOS]; omega)

/-- The received power says nothing of the port's state. -/
@[simp] theorem State.rxPower_lnk (s : State) (k : Nat) (p : List Nat) : (s.rxPower k p).lnk k = s.lnk k := by
  refine s.rxPower_keeps k p _ _ _ fun h => ?_
  simp only [lightKeys, List.mem_cons, List.mem_flatMap, List.mem_range, List.not_mem_nil, or_false] at h
  obtain h | ⟨l, -, h | h⟩ := h
  · exact absurd h (key_ne_of_place k)
  · exact absurd h (key_ne_of_place k (by simp only [Reg.LNK_STATE, Reg.LNK_RXP]; omega))
  · exact absurd h (key_ne_of_place k (by simp only [Reg.LNK_STATE, Reg.LNK_LOS]; omega))

@[simp] theorem State.rxPower_seqTable (s : State) (k : Nat) (p : List Nat) : (s.rxPower k p).seqTable = s.seqTable := by
  rw [s.rxPower_ports k p]; rfl

/-- All of some lanes show the same in LOS where the power of each gives that, whatever LOS was. -/
theorem State.rxLane_foldl_los {k b : Nat} {p : List Nat} : ∀ (ls : List Nat) (s : State),
    (∀ l ∈ ls, ∀ u : State, (u.rxLane k p l).rd Reg.LNK_LOS k l = b) →
    ∀ l, l ∈ ls ∨ s.rd Reg.LNK_LOS k l = b → (ls.foldl (fun s l => s.rxLane k p l) s).rd Reg.LNK_LOS k l = b
  | [], _, _, l, h => by simpa using h
  | n :: ls, s, hall, l, h => by
    refine State.rxLane_foldl_los ls (s.rxLane k p n) (fun m hm => hall m (by simp [hm])) l ?_
    by_cases hn : l = n
    · exact .inr (hn ▸ hall n (by simp) s)
    · have hrxp : Reg.LNK_LOS.key k l ≠ Reg.LNK_RXP.key k n := key_ne_of_place k (by simp only [Reg.LNK_LOS, Reg.LNK_RXP]; omega)
      have hlos : Reg.LNK_LOS.key k l ≠ Reg.LNK_LOS.key k n := key_ne_of_place k (by simp only [Reg.LNK_LOS]; omega)
      rw [State.rxLane, State.wrB, State.rd_wr_ne _ _ hlos, State.rd_wr_ne _ _ hrxp]
      simpa [hn] using h

/-- LOS_LANES of eight lanes that show the same. -/
theorem State.rxPower_losLanes (s : State) {k b : Nat} {p : List Nat} (hb : b < 2)
    (h : ∀ l < 8, ∀ u : State, (u.rxLane k p l).rd Reg.LNK_LOS k l = b) : (s.rxPower k p).rd Reg.LNK_LOS_LANES k = 255 * b := by
  have hlos : ∀ l ∈ List.range 8, 2 ^ l * (s.rxLanes k p).rd Reg.LNK_LOS k l = 2 ^ l * b := fun l hl => by
    rw [State.rxLanes, State.rxLane_foldl_los _ s (fun m hm => h m (List.mem_range.mp hm)) l (.inl hl)]
  have hsum : ∀ b < 2, ((List.range 8).map (fun l => 2 ^ l * b)).sum % 2 ^ Reg.LNK_LOS_LANES.width = 255 * b := by decide
  rw [State.rxPower_eq, State.rd_wr_self, List.map_congr_left hlos, hsum b hb]

theorem State.rxLane_los_of_dark (s : State) (k : Nat) {p : List Nat} {l : Nat} (h : toSigned 10 (p.getD l 0x200) < -140) :
    (s.rxLane k p l).rd Reg.LNK_LOS k l = 1 := by
  simp only [State.rxLane, if_pos h, State.wrB, State.rd_wr_self]
  rfl

theorem State.rxLane_los_of_lit (s : State) (k : Nat) {p : List Nat} {l : Nat} (h : -120 < toSigned 10 (p.getD l 0x200)) :
    (s.rxLane k p l).rd Reg.LNK_LOS k l = 0 := by
  simp only [State.rxLane, if_neg (show ¬ toSigned 10 (p.getD l 0x200) < -140 by omega), if_pos h, State.wrB, State.rd_wr_self]
  rfl

theorem getD_mem_of_lt {p : List Nat} {l d : Nat} (h : l < p.length) : p.getD l d ∈ p := by
  rw [List.getD_eq_getElem p d h]; exact List.getElem_mem h

/-- A lit port that is DARK begins to train. -/
theorem State.signalDetect_of_lit {s : State} {k : Nat} {p : List Nat} (hk : k < 16) (h : s.lnk k = 1)
    (hlit : (s.rxPower k p).rd Reg.LNK_LOS_LANES k = 0) : s.signalDetect k p = (s.rxPower k p).enterTrain k false := by
  simp [State.signalDetect, Nat.not_le.mpr hk, h, hlit]

/-- A port in TRAIN or a later state whose lanes are all dark goes to DARK, with SIGNAL_LOST from a state with a link. -/
theorem State.lossOfSignal_of_dark {s : State} {k : Nat} {p : List Nat} (hk : k < 16) (h0 : s.lnk k ≠ 0) (h1 : s.lnk k ≠ 1)
    (h10 : s.lnk k ≠ 10) (hdark : (s.rxPower k p).rd Reg.LNK_LOS_LANES k = 255) :
    s.lossOfSignal k p = if s.lnk k = 3 ∨ s.lnk k = 4 ∨ s.lnk k = 5 ∨ s.lnk k = 9 then
      ((s.rxPower k p).setLnk k 1 true).raise (lnkPage k) 5 none 0 else (s.rxPower k p).setLnk k 1 true := by
  simp [State.lossOfSignal, Nat.not_le.mpr hk, h0, h1, h10, hdark]

end Sys2Proof.Machine
end

section
open Sys2Proof Sys2Proof.Machine

theorem laserLight : Clause.LaserLight := by
  intro k s hr hk
  have hwf : decide (k < 16) = true := decide_eq_true hk
  refine ⟨fun lp hlt hp => ⟨fun hwarn hsafe => ?_, fun hlow hsafe => ?_⟩, fun hlow h0 h10 => ?_, fun hlow => ?_, fun hlnk hwarn => ?_,
    fun hlnk => ?_⟩
  · have heff : s.laserMeasure k lp = (s.wr Reg.LNK_LP k 0 lp).laserNote (k % 8) := by
      rw [State.laserMeasure_of_safe hk hp hsafe, if_neg (by omega)]
    have hkeeps : KeepsOutside (· = Reg.LNK_LP.key k 0) s ((s.wr Reg.LNK_LP k 0 lp).laserNote (k % 8)) :=
      fun _ _ _ hne => (State.laserNote_rd ..).trans (State.rd_wr_ne s lp hne)
    have hplace : LinkPlace (Reg.LNK_LP.key k 0) := linkPlace_key hk
    have hexec : exec (.laserMeasure k lp) s = .next (s.laserMeasure k lp) :=
      exec_eq_of_keeps (g := fun s => s.laserMeasure k lp) rfl (by simp [Instr.wellFormed, hk, hlt]) hr
        (by rw [heff]; exact hkeeps.mono fun _ he => he ▸ hplace.pastHng) (by rw [heff]; rfl) (by rw [heff]; rfl) (by rw [heff]; rfl)
        (by rw [heff]; rfl)
    refine ⟨_, hexec.trans (congrArg _ heff), ?_, rfl, hkeeps⟩
    rw [State.laserNote_rd, State.rd_wr_self]
    exact Nat.mod_eq_of_lt hlt
  · rw [exec_eq_answer (i := .laserMeasure k lp) (g := fun s => s.laserMeasure k lp) rfl (by simp [Instr.wellFormed, hk, hlt]) hr,
      State.laserMeasure_of_safe hk hp hsafe, if_pos hlow]
  · rw [exec_eq_answer (i := .laserLoss k) (g := fun s => s.laserLoss k) rfl hwf hr, State.laserLoss, if_neg (by simp [hlow, h0, h10, hk])]
  · exact exec_eq_self (g := fun s => s.laserLoss k) rfl hwf hr (if_pos (by simp [hlow]))
  · have heff : s.laserRestore k = s.wr Reg.LNK_STATE k 0 1 := by
      rw [State.laserRestore, if_pos ⟨hlnk, hwarn⟩, State.setLnk_of_idle 1 false (by omega) (by omega) (by omega)]
    have hkeeps : KeepsOutside (· = Reg.LNK_STATE.key k 0) s (s.wr Reg.LNK_STATE k 0 1) := (KeepsOutside.refl _ s).wr 1 rfl
    have hplace : LinkPlace (Reg.LNK_STATE.key k 0) := linkPlace_key hk
    have hexec : exec (.laserRestore k) s = .next (s.laserRestore k) :=
      exec_eq_of_ports (g := fun s => s.laserRestore k) rfl hwf hr
        (by rw [heff]; exact hkeeps.mono fun _ he => he ▸ hplace.pastHng) (by rw [heff]; exact (PortsOnly.refl s).wr ..)
    exact ⟨_, hexec.trans (congrArg _ heff), s.lnk_wr_state k 1, rfl, hkeeps⟩
  · exact exec_eq_self (g := fun s => s.laserRestore k) rfl hwf hr (if_neg fun h => hlnk h.1)

theorem receivedLight : Clause.ReceivedLight := by
  intro k p s hr hk hlen
  have hwf : decide (k < 16) = true := decide_eq_true hk
  have hstate : ∀ f ∈ [Reg.LNK_STATE, Reg.LNK_SEQ_VER, Reg.LNK_STEP, Reg.LNK_REMOTE_DOWN], PastHng (f.key k 0) := by
    simp only [List.forall_mem_cons, List.not_mem_nil, false_implies, implies_true, and_true]
    refine ⟨?_, ?_, ?_, ?_⟩ <;> exact (linkPlace_key hk).pastHng
  simp only [List.forall_mem_cons, List.not_mem_nil, false_implies, implies_true, and_true] at hstate
  obtain ⟨pState, pVer, pStep, pDown⟩ := hstate
  have hrx : KeepsOutside PastHng s (s.rxPower k p) := (s.rxPower_keeps k p).mono fun _ h => (lightKeys_linkPlace hk h).pastHng
  refine ⟨fun hlnk hlit hstep => ?_, fun hdark => ?_⟩
  · have hlanes : (s.rxPower k p).rd Reg.LNK_LOS_LANES k = 0 :=
      s.rxPower_losLanes (b := 0) (by decide) fun l hl u => u.rxLane_los_of_lit k (hlit _ (getD_mem_of_lt (by omega))).2
    have htable : (s.rxPower k p).seqTable = s.seqTable := s.rxPower_seqTable k p
    rw [← htable] at hstep
    have heff : s.signalDetect k p = (s.rxPower k p).beginTrain k :=
      (State.signalDetect_of_lit hk hlnk hlanes).trans (State.enterTrain_of_dark ((s.rxPower_lnk k p).trans hlnk) hstep)
    have htrain := (s.rxPower k p).beginTrain_keeps k
    have hexec : exec (.signalDetect k p) s = .next (s.signalDetect k p) :=
      exec_eq_of_ports (g := fun s => s.signalDetect k p) rfl hwf hr
        (by rw [heff]; exact hrx.trans (htrain.mono (by simp [pState, pVer, pStep])))
        (by rw [heff]; exact (s.rxPower_ports k p).trans ((s.rxPower k p).beginTrain_ports k))
    have hlos : ((s.rxPower k p).beginTrain k).rd Reg.LNK_LOS_LANES k = 0 :=
      (htrain _ _ _ (by simpa using ⟨key_ne_of_place k, key_ne_of_place k, key_ne_of_place k⟩)).trans hlanes
    obtain ⟨hstate, hnow, hver, hrun⟩ := State.beginTrain_shows k hstep
    rw [htable] at hnow hver hrun
    exact ⟨_, hexec.trans (congrArg _ heff), hstate, hnow, hver, hlos, hrun⟩
  · have hlanes : (s.rxPower k p).rd Reg.LNK_LOS_LANES k = 255 :=
      s.rxPower_losLanes (b := 1) (by decide) fun l hl u => u.rxLane_los_of_dark k (hdark _ (getD_mem_of_lt (by omega))).2
    refine ⟨fun hlnk => ?_, fun hlnk => ?_⟩
    · have heff : s.lossOfSignal k p = ((s.rxPower k p).wr Reg.LNK_STATE k 0 1).wr Reg.LNK_REMOTE_DOWN k 0 0 := by
        rw [State.lossOfSignal_of_dark hk (by omega) (by omega) (by omega) hlanes, if_neg (by omega),
          State.setLnk_of_train true (by simpa using hlnk) (by decide)]
      refine ⟨_, exec_eq_of_ports (g := fun s => s.lossOfSignal k p) rfl hwf hr (by rw [heff]; exact (hrx.wr _ pState).wr _ pDown)
        (by rw [heff]; exact ((s.rxPower_ports k p).wr ..).wr ..), ?_⟩
      dsimp only
      rw [heff]
      refine ⟨?_, ?_⟩
      · rw [State.lnk_wr_ne _ k _]
        exact State.rd_wr_self ..
      · rw [State.rd_wr_ne _ _ (key_ne_of_place k), State.rd_wr_ne _ _ (key_ne_of_place k), hlanes]
    · rw [exec_eq_answer (i := .lossOfSignal k p) (g := fun s => s.lossOfSignal k p) rfl hwf hr,
        State.lossOfSignal_of_dark hk (by omega) (by omega) (by omega) hlanes, if_pos hlnk]

/-- Settles O28: LOS_LANES depends on nothing but the power of the lanes where that is the same for all of them. -/
theorem linkLight : Obligations.LinkLight := ⟨laserLight, receivedLight⟩

end

section
namespace Sys2Proof.Machine

open Sys2Proof

/-! PROOFS. The training sequence of a Trinal port: what each step does, where the sequence goes on, and how the identity exchange ends it. -/

/-! ### The lane order -/

/-- The map of the lanes has the lane on receive lane `l` in its octal digit `l`. -/
theorem octal_digits (d : Nat → Nat) (hd : ∀ l, d l < 8) :
    ((List.range 8).map (fun l => 8 ^ l * d l)).sum < 2 ^ 24 ∧ ∀ l < 8, ((List.range 8).map (fun l => 8 ^ l * d l)).sum / 8 ^ l % 8 = d l := by
  have hsum : ((List.range 8).map (fun l => 8 ^ l * d l)).sum =
      d 0 + 8 * d 1 + 64 * d 2 + 512 * d 3 + 4096 * d 4 + 32768 * d 5 + 262144 * d 6 + 2097152 * d 7 := by
    simp [List.range_succ, Nat.add_assoc]
  have h0 := hd 0; have h1 := hd 1; have h2 := hd 2; have h3 := hd 3
  have h4 := hd 4; have h5 := hd 5; have h6 := hd 6; have h7 := hd 7
  rw [hsum]
  refine ⟨by omega, fun l hl => ?_⟩
  interval_cases l <;> omega

/-- The port with the lane order shown. -/
def State.showLanes (s : State) (k : Nat) (order : List Nat) : State :=
  let m := ((List.range 8).map (fun l => 8 ^ l * (order.getD l 0 % 8))).sum
  (s.wr Reg.LNK_LANE_MAP k 0 m).wrB Reg.LNK_LANE_PERM k 0 (m != 0xFAC688)

theorem State.showLanes_keeps (s : State) (k : Nat) (order : List Nat) :
    KeepsOutside (· ∈ [Reg.LNK_LANE_MAP.key k 0, Reg.LNK_LANE_PERM.key k 0]) s (s.showLanes k order) :=
  ((KeepsOutside.refl _ s).wr _ (by simp)).wr _ (by simp)

theorem State.showLanes_ports (s : State) (k : Nat) (order : List Nat) : PortsOnly s (s.showLanes k order) := ((PortsOnly.refl s).wr ..).wr ..

theorem State.showLanes_map (s : State) (k : Nat) (order : List Nat) {l : Nat} (hl : l < 8) :
    (s.showLanes k order).rd Reg.LNK_LANE_MAP k / 8 ^ l % 8 = order.getD l 0 % 8 := by
  obtain ⟨hlt, hdigit⟩ := octal_digits (fun l => order.getD l 0 % 8) (fun l => Nat.mod_lt _ (by decide))
  rw [State.showLanes, State.wrB, State.rd_wr_ne _ _ (key_ne_of_place k), State.rd_wr_self,
    show Reg.LNK_LANE_MAP.width = 24 from rfl, Nat.mod_eq_of_lt hlt, hdigit l hl]

end Sys2Proof.Machine
end

section
open Sys2Proof Sys2Proof.Machine

variable {s : State} {k op : Nat} {x : SeqStep}

/-! ### Steps -/

theorem TrainsIn.port_lt (h : TrainsIn s k op x) : k < 16 := h.left

theorem TrainsIn.seqAt (h : TrainsIn s k op x) : s.seqAt k op = some x := by
  obtain ⟨hk, hlnk, hx, rfl⟩ := h
  rw [State.seqAt, if_neg (by omega), hx]
  simp

/-- A step that fails goes to its ONFAIL. -/
theorem TrainsIn.seqFail (h : TrainsIn s k op x) (hf : x.onfail ≠ 255) : s.seqFail k = s.seqGo k x.onfail := by
  obtain ⟨-, -, hx, -⟩ := h
  simp only [State.seqFail, hx, if_neg hf]

/-- A step whose ONFAIL is 255 fails the port. -/
theorem TrainsIn.seqFail_port (h : TrainsIn s k op x) (hf : x.onfail = 255) : s.seqFail k = s.linkFailed k := by
  obtain ⟨-, -, hx, -⟩ := h
  simp only [State.seqFail, hx, if_pos hf]

/-- A command that changes registers at `ks` and ports at most and goes on to a listed step of the table. -/
theorem exec_goesTo {i : Instr} {g : State → State} {u : State} {n : Nat} {ks : List Nat} (he : exec i s = s.serve i g)
    (hw : i.wellFormed = true) (hr : s.ready = true) (hk : k < 16) (hg : g s = u.seqGo k n) (hn : StepOk (u.port k).table n)
    (hu : KeepsOutside (· ∈ ks) s u) (hks : ∀ p ∈ ks, LinkPlace p) (hp : PortsOnly s u) :
    exec i s = .next (u.wr Reg.LNK_STEP k 0 n) ∧ GoesTo s (u.wr Reg.LNK_STEP k 0 n) k n ks := by
  rw [State.seqGo_of_listed hn] at hg
  have hstep : LinkPlace (Reg.LNK_STEP.key k 0) := linkPlace_key hk
  have hkeeps : KeepsOutside (· ∈ Reg.LNK_STEP.key k 0 :: ks) s (u.wr Reg.LNK_STEP k 0 n) :=
    (hu.mono fun _ => List.mem_cons_of_mem _).wr n List.mem_cons_self
  have hpast : ∀ p ∈ Reg.LNK_STEP.key k 0 :: ks, PastHng p := List.forall_mem_cons.mpr ⟨hstep.pastHng, fun p hmem => (hks p hmem).pastHng⟩
  refine ⟨?_, ?_, hkeeps⟩
  · rw [exec_eq_of_ports he hw hr (by rw [hg]; exact hkeeps.mono hpast) (by rw [hg]; exact hp.wr ..), hg]
  · rw [State.rd_wr_self]
    exact Nat.mod_eq_of_lt hn.left

/-- A command that does nothing but go to a listed step of the table. -/
theorem completes_goesTo {i : Instr} {g : State → State} {n : Nat} (he : exec i s = s.serve i g) (hw : i.wellFormed = true)
    (hr : s.ready = true) (hk : k < 16) (hn : StepOk (s.port k).table n) (hg : g s = s.seqGo k n) :
    Completes i s (fun t => GoesTo s t k n []) :=
  ⟨_, exec_goesTo he hw hr hk hg hn (.refl _ s) (by simp) (.refl s)⟩

/-- A command that sets what the port transmits and goes to a listed step of the table. -/
theorem completes_setPort_goesTo {i : Instr} {g : State → State} {y : Port} {n : Nat} {P : Port → Prop} (he : exec i s = s.serve i g)
    (hw : i.wellFormed = true) (hr : s.ready = true) (hk : k < 16) (hn : StepOk (s.port k).table n) (hg : g s = (s.setPort k y).seqGo k n)
    (hy : y.table = (s.port k).table) (hP : P y) : Completes i s (fun t => GoesTo s t k n [] ∧ P (t.port k)) := by
  obtain ⟨hexec, hgoes⟩ := exec_goesTo (ks := []) he hw hr hk hg (by rwa [State.port_setPort_self, hy]) ((KeepsOutside.refl _ s).setPort k y)
    (by simp) ((PortsOnly.refl s).setPort k y)
  exact ⟨_, hexec, hgoes, by rwa [State.wr_port, State.port_setPort_self]⟩

theorem TrainsIn.seqTxPreset (h : TrainsIn s k 1 x) :
    s.seqTxPreset k = (s.setPort k { s.port k with preset := x.arg % 16 }).seqGo k (s.rd Reg.LNK_STEP k + 1) := by
  simp only [State.seqTxPreset, h.seqAt]; rfl

theorem TrainsIn.seqTxPattern (h : TrainsIn s k 2 x) :
    s.seqTxPattern k = (s.setPort k { s.port k with pattern := x.arg % 4 }).seqGo k (s.rd Reg.LNK_STEP k + 1) := by
  simp only [State.seqTxPattern, h.seqAt]; rfl

theorem TrainsIn.seqWaitLock (h : TrainsIn s k 3 x) (n : Nat) : s.seqWaitLock k n = if n % 256 = 255 then s.seqNext k else s := by
  simp only [State.seqWaitLock, h.seqAt]

theorem TrainsIn.seqAdapt (h : TrainsIn s k 4 x) : s.seqAdapt k = s.seqNext k := by
  simp only [State.seqAdapt, h.seqAt]

theorem TrainsIn.seqCheckBer (h : TrainsIn s k 5 x) (errs : List Nat) :
    s.seqCheckBer k errs = if ∃ e ∈ errs, x.arg / 65536 < e then s.seqFail k else s.seqNext k := by
  simp only [State.seqCheckBer, h.seqAt, List.any_eq_true, decide_eq_true_eq]

theorem TrainsIn.seqFecLock (h : TrainsIn s k 6 x) (order : List Nat) :
    s.seqFecLock k order = (s.showLanes k order).seqGo k (s.rd Reg.LNK_STEP k + 1) := by
  have hstep : (s.showLanes k order).rd Reg.LNK_STEP k = s.rd Reg.LNK_STEP k :=
    s.showLanes_keeps k order _ _ _ (by simpa using ⟨key_ne_of_place k, key_ne_of_place k⟩)
  simp only [State.seqFecLock, h.seqAt]
  exact congrArg (fun n => (s.showLanes k order).seqGo k (n + 1)) hstep

theorem TrainsIn.seqPeerSync (h : TrainsIn s k 7 x) : s.seqPeerSync k (s.rd Reg.LNK_STEP k) = s.seqNext k := by
  simp only [State.seqPeerSync, h.seqAt, if_true]

/-- A round trip within the step's limit is shown in RTT. -/
theorem TrainsIn.seqRtt (h : TrainsIn s k 8 x) {ns : Nat} (hns : ns ≤ x.arg) :
    s.seqRtt k ns = (s.wr Reg.LNK_RTT k 0 ns).seqGo k (s.rd Reg.LNK_STEP k + 1) := by
  have hstep : (s.wr Reg.LNK_RTT k 0 ns).rd Reg.LNK_STEP k = s.rd Reg.LNK_STEP k := State.rd_wr_ne s ns (key_ne_of_place k)
  simp only [State.seqRtt, h.seqAt, if_neg (not_lt.mpr hns), State.seqNext, hstep]

theorem TrainsIn.seqGoto (h : TrainsIn s k 10 x) : s.seqGoto k = s.seqGo k (x.arg % 256) := by
  simp only [State.seqGoto, h.seqAt]

theorem TrainsIn.seqDelay (h : TrainsIn s k 11 x) : s.seqDelay k = s.seqNext k := by
  simp only [State.seqDelay, h.seqAt]

theorem TrainsIn.seqTimeout (h : TrainsIn s k op x) : s.seqTimeout k = s.seqFail k := by
  obtain ⟨hk, hlnk, -⟩ := h
  exact if_pos ⟨hk, hlnk⟩

theorem TrainsIn.trainTimeout (h : TrainsIn s k op x) : s.trainTimeout k = s.linkFailed k := by
  obtain ⟨hk, hlnk, -⟩ := h
  exact if_pos ⟨hk, hlnk⟩

end

section
open Sys2Proof Sys2Proof.Machine

theorem trainingSteps : Clause.TrainingSteps := by
  intro k x s hr
  have wf : k < 16 → decide (k < 16) = true := decide_eq_true
  refine ⟨fun ⟨h, hn⟩ => ?_, fun ⟨h, hn⟩ => ?_, fun ⟨h, hn⟩ => ?_, fun h n hlt => ?_, fun ⟨h, hn⟩ => ?_, fun ⟨h, hn⟩ errs hle => ?_,
    fun h errs hex hn hf => ?_, fun ⟨h, hn⟩ order => ?_, fun ⟨h, hn⟩ => ?_, fun ⟨h, hn⟩ ns hle hlt => ?_, fun h hn => ?_,
    fun ⟨h, hn⟩ => ?_, fun op h hn hf => ?_, fun op h hf => ?_, fun op h => ?_⟩
  · exact completes_setPort_goesTo (g := fun s => s.seqTxPreset k) (P := fun y => y.preset = x.arg % 16) rfl (wf h.port_lt) hr h.port_lt hn
      h.seqTxPreset rfl rfl
  · exact completes_setPort_goesTo (g := fun s => s.seqTxPattern k) (P := fun y => y.pattern = x.arg % 4) rfl (wf h.port_lt) hr h.port_lt hn
      h.seqTxPattern rfl rfl
  · exact completes_goesTo (g := fun s => s.seqWaitLock k 255) rfl (by simp [Instr.wellFormed, h.port_lt]) hr h.port_lt hn
      ((h.seqWaitLock 255).trans (if_pos (by decide)))
  · exact exec_eq_self (g := fun s => s.seqWaitLock k n) rfl (by simp [Instr.wellFormed, h.port_lt]; omega) hr
      ((h.seqWaitLock n).trans (if_neg (by omega)))
  · exact completes_goesTo (g := fun s => s.seqAdapt k) rfl (wf h.port_lt) hr h.port_lt hn h.seqAdapt
  · have hnone : ¬ ∃ e ∈ errs, x.arg / 65536 < e := by
      rintro ⟨e, hmem, hover⟩
      exact absurd (hle e hmem) (by omega)
    exact completes_goesTo (g := fun s => s.seqCheckBer k errs) rfl (wf h.port_lt) hr h.port_lt hn
      ((h.seqCheckBer errs).trans (if_neg hnone))
  · exact completes_goesTo (g := fun s => s.seqCheckBer k errs) rfl (wf h.port_lt) hr h.port_lt hn
      ((h.seqCheckBer errs).trans ((if_pos hex).trans (h.seqFail hf)))
  · have hplaces : ∀ p ∈ [Reg.LNK_LANE_MAP.key k 0, Reg.LNK_LANE_PERM.key k 0], LinkPlace p := by
      simp only [List.forall_mem_cons, List.not_mem_nil, false_implies, implies_true, and_true]
      exact ⟨linkPlace_key h.port_lt, linkPlace_key h.port_lt⟩
    obtain ⟨hexec, hgoes⟩ := exec_goesTo (i := .fecLock k order) (g := fun s => s.seqFecLock k order) rfl (wf h.port_lt) hr h.port_lt
      (h.seqFecLock order) hn (s.showLanes_keeps k order) hplaces (s.showLanes_ports k order)
    refine ⟨_, hexec, hgoes, fun l hl => ?_⟩
    rw [State.rd_wr_ne _ _ (key_ne_of_place k)]
    exact s.showLanes_map k order hl
  · exact completes_goesTo (g := fun t => t.seqPeerSync k (s.rd Reg.LNK_STEP k)) rfl (wf h.port_lt) hr h.port_lt hn h.seqPeerSync
  · have hplaces : ∀ p ∈ [Reg.LNK_RTT.key k 0], LinkPlace p := List.forall_mem_singleton.mpr (linkPlace_key h.port_lt)
    obtain ⟨hexec, hgoes⟩ := exec_goesTo (i := .rtt k ns) (g := fun s => s.seqRtt k ns) rfl (wf h.port_lt) hr h.port_lt (h.seqRtt hle) hn
      ((KeepsOutside.refl _ s).wr ns (by simp)) hplaces ((PortsOnly.refl s).wr ..)
    refine ⟨_, hexec, hgoes, ?_⟩
    rw [State.rd_wr_ne _ _ (key_ne_of_place k), State.rd_wr_self]
    exact Nat.mod_eq_of_lt hlt
  · exact completes_goesTo (g := fun s => s.seqGoto k) rfl (wf h.port_lt) hr h.port_lt hn h.seqGoto
  · exact completes_goesTo (g := fun s => s.seqDelay k) rfl (wf h.port_lt) hr h.port_lt hn h.seqDelay
  · exact completes_goesTo (g := fun s => s.seqTimeout k) rfl (wf h.port_lt) hr h.port_lt hn (h.seqTimeout.trans (h.seqFail hf))
  · rw [exec_eq_answer (i := .seqStepTimeout k) (g := fun s => s.seqTimeout k) rfl (wf h.port_lt) hr, h.seqTimeout, h.seqFail_port hf]
  · rw [exec_eq_answer (i := .trainTimeout k) (g := fun s => s.trainTimeout k) rfl (wf h.port_lt) hr, h.trainTimeout]

end

section
namespace Sys2Proof.Machine

open Sys2Proof

/-! PROOFS. The identity exchange of a Trinal port: what a port that shows the peer's identity keeps, and how the exchange ends. -/

/-! ### What does not depend on the pages of the ports -/

theorem KeepsOutside.rd_global {s u : State} (h : KeepsOutside LinkPlace s u) {f : Field} (hoff : f.off < 4096 := by decide)
    (hl : f.lo < 32 := by decide) (hb : f.block = .glb := by rfl) : u.rd f = s.rd f := by
  refine h f 0 0 fun hin => ?_
  simp only [LinkPlace, Field.key, hb, Block.base] at hin
  omega

theorem KeepsOutside.rd_circuit {s u : State} (h : KeepsOutside LinkPlace s u) {f : Field} (hb : f.block = .cte) (e : Nat) :
    u.rd f 0 e = s.rd f 0 e := by
  refine h f 0 e fun hin => ?_
  simp only [LinkPlace, Field.key, hb, Block.base] at hin
  omega

theorem KeepsOutside.entriesOn {s u : State} (h : KeepsOutside LinkPlace s u) (k : Nat) : u.entriesOn k = s.entriesOn k := by
  have hrd : ∀ f : Field, f.block = .cte → ∀ e, u.rd f 0 e = s.rd f 0 e := fun f hb e => h.rd_circuit hb e
  simp only [State.entriesOn, State.isForward, State.rdB, hrd Reg.CT_VALID rfl, hrd Reg.CT_KIND rfl, hrd Reg.CT_TWIN rfl,
    hrd Reg.CT_PORT_A rfl, hrd Reg.CT_PORT_B rfl]
  rfl

theorem KeepsOutside.ownIdLo {s u : State} (h : KeepsOutside LinkPlace s u) (hf : u.flash = s.flash) (k : Nat) : u.ownIdLo k = s.ownIdLo k := by
  simp only [State.ownIdLo, hf, h.rd_global (f := Reg.GLB_STRAP_LOC_X), h.rd_global (f := Reg.GLB_STRAP_LOC_Y),
    h.rd_global (f := Reg.GLB_STRAP_LOC_Z), h.rd_global (f := Reg.GLB_STRAP_BLOCK), h.rd_global (f := Reg.GLB_STRAP_VAR)]

/-- Entries that have latched the neighbour's BOOT_GEN stay as they are, R233. -/
theorem State.bootGenCheck_of_latched {s : State} {k : Nat}
    (h : ∀ e ∈ s.entriesOn k, s.rd (if e.2 = 0 then Reg.CT_RUN_BG_A else Reg.CT_RUN_BG_B) 0 e.1 = s.rd Reg.LNK_PEER_ID_LO k / 2 ^ 22) :
    s.bootGenCheck k = s :=
  foldl_fixed _ _ _ fun e he => if_neg (not_not.mpr (h e he))

/-! ### The peer's identity -/

/-- A port shows the peer's identity. -/
def State.peerSeen (s : State) (k lo hi : Nat) : State := (s.wr Reg.LNK_PEER_ID_LO k 0 lo).wr Reg.LNK_PEER_ID_HI k 0 hi

theorem State.peerSeen_keeps (s : State) (k lo hi : Nat) :
    KeepsOutside (· ∈ [Reg.LNK_PEER_ID_LO.key k 0, Reg.LNK_PEER_ID_HI.key k 0]) s (s.peerSeen k lo hi) :=
  ((KeepsOutside.refl _ s).wr lo (by simp)).wr hi (by simp)

theorem State.peerSeen_keepsOffLinks (s : State) {k : Nat} (hk : k < 16) (lo hi : Nat) : KeepsOutside LinkPlace s (s.peerSeen k lo hi) := by
  refine (s.peerSeen_keeps k lo hi).mono ?_
  simp only [List.forall_mem_cons, List.not_mem_nil, false_implies, implies_true, and_true]
  exact ⟨linkPlace_key hk, linkPlace_key hk⟩

/-- Every register of the port but the peer's identity reads as before. -/
theorem State.peerSeen_rd (s : State) (k lo hi : Nat) {f : Field}
    (h : f.off * 32 + f.lo ≠ 0x118 * 32 ∧ f.off * 32 + f.lo ≠ 0x11C * 32 := by decide) (hb : f.block = .lnk := by rfl) :
    (s.peerSeen k lo hi).rd f k = s.rd f k := by
  have hlo : f.key k 0 ≠ Reg.LNK_PEER_ID_LO.key k 0 := key_ne_of_place k h.1 hb
  have hhi : f.key k 0 ≠ Reg.LNK_PEER_ID_HI.key k 0 := key_ne_of_place k h.2 hb
  exact s.peerSeen_keeps k lo hi _ _ _ (by simp [hlo, hhi])

theorem State.peerSeen_shows (s : State) (k : Nat) {lo hi : Nat} (hlo : lo < 2 ^ 32) (hhi : hi < 2 ^ 32) :
    (s.peerSeen k lo hi).rd Reg.LNK_PEER_ID_LO k = lo ∧ (s.peerSeen k lo hi).rd Reg.LNK_PEER_ID_HI k = hi := by
  refine ⟨?_, ?_⟩
  · rw [State.peerSeen, State.rd_wr_ne _ _ (key_ne_of_place k), State.rd_wr_self]
    exact Nat.mod_eq_of_lt hlo
  · rw [State.peerSeen, State.rd_wr_self]
    exact Nat.mod_eq_of_lt hhi

/-- Identity blocks that end with the echo `echo` have made the port accept (`lo`, `hi`) in its IDENT step, of a peer whose BOOT_GEN the
entries on the port have latched. -/
structure IdentAccepts (s : State) (k lo hi echo : Nat) (blocks : List (Nat × Nat × Nat)) : Prop where
  trains : ∃ x, s.seqAt k 9 = some x
  accepted : identAccepted blocks = some (lo, hi)
  last : blocks.getLast?.map (fun b => b.2.2) = some echo
  latched : (s.peerSeen k lo hi).bootGenCheck k = s.peerSeen k lo hi

/-- The port expects an identity, R194. -/
def State.expects (s : State) (k : Nat) : Bool := s.rdB Reg.LNK_EXP_VALID k && s.rd Reg.GLB_STRAP_VAR != 1

/-- A port shows the peer's identity and the version settled with it. -/
def State.agreed (s : State) (k lo hi : Nat) (v : Nat × Nat) : State :=
  ((s.peerSeen k lo hi).wr Reg.LNK_NEG_MAJOR k 0 v.1).wr Reg.LNK_NEG_MINOR k 0 v.2

/-- A port whose exchange has ended well with the version `v`. -/
def State.identDone (s : State) (k lo hi : Nat) (v : Nat × Nat) : State :=
  if s.lnk k = 5 then (if s.expects k then (s.agreed k lo hi v).linkBack k else s.agreed k lo hi v)
  else ((s.agreed k lo hi v).linkFresh k).setLnk k (if s.expects k then 4 else 3)

variable {s : State} {k lo hi echo : Nat} {blocks : List (Nat × Nat × Nat)}

/-- While the peer echoes nothing the port shows it and goes on, R192. -/
theorem IdentAccepts.seqIdent_of_silent (h : IdentAccepts s k lo hi 0 blocks) (hk : k < 16) (hown : s.ownIdLo k ≠ 0) :
    s.seqIdent k blocks = s.peerSeen k lo hi := by
  obtain ⟨⟨x, hx⟩, hacc, hlast, hboot⟩ := h
  have hown' : (s.peerSeen k lo hi).ownIdLo k ≠ 0 := by rwa [(s.peerSeen_keepsOffLinks hk lo hi).ownIdLo rfl]
  simp only [State.seqIdent, hx, hacc, hlast]
  rw [← State.peerSeen, hboot]
  exact if_pos ⟨rfl, hown'⟩

/-- With its own identity echoed, a port outside loop-back decides by its expectation, then by the version, R193, R195. -/
theorem IdentAccepts.seqIdent_of_echoed (h : IdentAccepts s k lo hi (s.ownIdLo k) blocks) (hk : k < 16) (hown : s.ownIdLo k < 2 ^ 32)
    (hloop : s.rd Reg.LNK_LOOP k ≠ 1) (hvar : bits lo 21 20 = s.rd Reg.GLB_STRAP_VAR) :
    s.seqIdent k blocks =
      if s.expects k = true ∧ s.expMatches k lo = false then ((s.peerSeen k lo hi).setLnk k 6).raise (lnkPage k) 6 none 0
      else (settleVersion s.ownIdHi hi).elim (((s.peerSeen k lo hi).setLnk k 7).raise (lnkPage k) 7 none 0) (s.identDone k lo hi) := by
  obtain ⟨⟨x, hx⟩, hacc, hlast, hboot⟩ := h
  have hkeeps := s.peerSeen_keepsOffLinks hk lo hi
  have hownSeen : (s.peerSeen k lo hi).ownIdLo k = s.ownIdLo k := hkeeps.ownIdLo rfl k
  have hvarSeen : (s.peerSeen k lo hi).rd Reg.GLB_STRAP_VAR = s.rd Reg.GLB_STRAP_VAR := hkeeps.rd_global
  have hloopSeen : (s.peerSeen k lo hi).rdB Reg.LNK_LOOP k = false := by
    rw [State.rdB, s.peerSeen_rd k lo hi]
    simpa using hloop
  have hexpects : ((s.peerSeen k lo hi).rdB Reg.LNK_EXP_VALID k && s.rd Reg.GLB_STRAP_VAR != 1) = s.expects k := by
    rw [State.rdB, s.peerSeen_rd k lo hi, State.expects, State.rdB]
  have hmatch : (s.peerSeen k lo hi).expMatches k lo = s.expMatches k lo := by
    rw [State.expMatches, s.peerSeen_rd k lo hi, s.peerSeen_rd k lo hi, State.expMatches]
  have hhi : (s.peerSeen k lo hi).ownIdHi = s.ownIdHi := rfl
  have hsilent : ¬ (s.ownIdLo k = 0 ∧ s.ownIdLo k ≠ 0) := fun h => h.2 h.1
  simp only [State.seqIdent, hx, hacc, hlast]
  rw [← State.peerSeen, hboot]
  simp only [Option.getD_some, Nat.mod_eq_of_lt hown, hownSeen, hvarSeen, hloopSeen, hexpects, hmatch, hhi, if_neg hsilent, hvar, beq_self_eq_true,
    Bool.false_and, Bool.true_and, Bool.not_false, Bool.true_or, Bool.and_true, Bool.false_eq_true, if_false]
  by_cases hmiss : s.expects k = true ∧ s.expMatches k lo = false
  · rw [if_pos hmiss, hmiss.1, hmiss.2]
    rfl
  · have hwired : (!s.expects k || s.expMatches k lo) = true := by
      cases hexp : s.expects k with
      | false => rfl
      | true => simpa [hexp] using hmiss
    rw [if_neg hmiss, hwired]
    cases settleVersion s.ownIdHi hi with
    | none => rfl
    | some v => rfl

theorem State.agreed_keepsOffLinks {v : Nat × Nat} (hk : k < 16) : KeepsOutside LinkPlace s (s.agreed k lo hi v) :=
  ((s.peerSeen_keepsOffLinks hk lo hi).wr _ (linkPlace_key hk)).wr _ (linkPlace_key hk)

theorem State.agreed_shows {v : Nat × Nat} (hlo : lo < 2 ^ 32) (hhi : hi < 2 ^ 32) :
    (s.agreed k lo hi v).rd Reg.LNK_PEER_ID_LO k = lo ∧ (s.agreed k lo hi v).rd Reg.LNK_PEER_ID_HI k = hi ∧
    (s.agreed k lo hi v).rd Reg.LNK_NEG_MAJOR k = v.1 % 16 ∧ (s.agreed k lo hi v).rd Reg.LNK_NEG_MINOR k = v.2 % 256 := by
  obtain ⟨hid, hversions⟩ := s.peerSeen_shows k hlo hhi
  refine ⟨?_, ?_, ?_, State.rd_wr_self ..⟩
  · rw [State.agreed, State.rd_wr_ne _ _ (key_ne_of_place k), State.rd_wr_ne _ _ (key_ne_of_place k), hid]
  · rw [State.agreed, State.rd_wr_ne _ _ (key_ne_of_place k), State.rd_wr_ne _ _ (key_ne_of_place k), hversions]
  · rw [State.agreed, State.rd_wr_ne _ _ (key_ne_of_place k)]
    exact State.rd_wr_self ..

theorem State.expects_iff (s : State) (k : Nat) :
    s.expects k = true ↔ s.rd Reg.LNK_EXP_VALID k = 1 ∧ s.rd Reg.GLB_STRAP_VAR ≠ 1 := by
  simp [State.expects, State.rdB]

theorem State.agreed_ports (s : State) (k lo hi : Nat) (v : Nat × Nat) : PortsOnly s (s.agreed k lo hi v) :=
  ((((PortsOnly.refl s).wr ..).wr ..).wr ..).wr ..

/-- A port that has trained: UP where it expects an identity, else HELD, with fresh credits and sequence numbers. -/
def State.trained (s : State) (k lo hi : Nat) (v : Nat × Nat) : State :=
  (((s.agreed k lo hi v).linkFresh k).wr Reg.LNK_STATE k 0 (if s.expects k then 4 else 3)).wr Reg.LNK_REMOTE_DOWN k 0 0

theorem State.identDone_of_train {v : Nat × Nat} (h2 : s.lnk k = 2) : s.identDone k lo hi v = s.trained k lo hi v := by
  have hlnk : ((s.agreed k lo hi v).linkFresh k).lnk k = 2 := by
    rw [State.linkFresh, State.setPort_lnk, State.agreed, State.lnk_wr_ne _ k _, State.lnk_wr_ne _ k _]
    exact (s.peerSeen_rd k lo hi (f := Reg.LNK_STATE)).trans h2
  rw [State.identDone, if_neg (by omega), State.setLnk_of_train false hlnk (by split <;> decide), State.trained]

theorem State.trained_keepsOffLinks {v : Nat × Nat} (hk : k < 16) : KeepsOutside LinkPlace s (s.trained k lo hi v) :=
  (((State.agreed_keepsOffLinks hk).setPort k _).wr _ (linkPlace_key hk)).wr _
    (linkPlace_key hk)

theorem State.trained_ports (s : State) (k lo hi : Nat) (v : Nat × Nat) : PortsOnly s (s.trained k lo hi v) :=
  (((s.agreed_ports k lo hi v).setPort ..).wr ..).wr ..

theorem State.trained_lnk (s : State) (k lo hi : Nat) (v : Nat × Nat) : (s.trained k lo hi v).lnk k = if s.expects k then 4 else 3 := by
  rw [State.trained, State.lnk_wr_ne _ k _, State.lnk_wr_state]
  split <;> rfl

/-- Identities and versions read as settled. -/
theorem State.trained_rd (s : State) (k lo hi : Nat) (v : Nat × Nat) {f : Field}
    (h : f.off * 32 + f.lo ≠ 0x104 * 32 ∧ f.off * 32 + f.lo ≠ 0x104 * 32 + 7 := by decide) (hb : f.block = .lnk := by rfl) :
    (s.trained k lo hi v).rd f k = (s.agreed k lo hi v).rd f k := by
  have hstate : f.key k 0 ≠ Reg.LNK_STATE.key k 0 := key_ne_of_place k h.1 hb
  have hdown : f.key k 0 ≠ Reg.LNK_REMOTE_DOWN.key k 0 := key_ne_of_place k h.2 hb
  rw [State.trained, State.rd_wr_ne _ _ hdown, State.rd_wr_ne _ _ hstate, State.linkFresh, State.setPort_rd]

theorem State.trained_classes (s : State) (k lo hi : Nat) (v : Nat × Nat) :
    ((s.trained k lo hi v).port k).ctl = LinkClass.fresh 512 ∧ ((s.trained k lo hi v).port k).dat = LinkClass.fresh 4096 := by
  simp [State.trained, State.linkFresh]

/-- IDENT puts its three lists together again. -/
theorem zip_identOf (blocks : List (Nat × Nat × Nat)) :
    (blocks.map (fun b => b.1)).zip ((blocks.map (fun b => b.2.1)).zip (blocks.map (fun b => b.2.2))) = blocks := by
  rw [List.zip_map', List.zip_map']
  exact List.map_id' blocks

end Sys2Proof.Machine
end

section
open Sys2Proof Sys2Proof.Machine

/-- The identity exchange of a port whose entries have latched the BOOT_GEN of the peer that it accepts. -/
theorem TrainsIn.identAccepts {s : State} {k lo hi echo : Nat} {x : SeqStep} {blocks : List (Nat × Nat × Nat)} (h : TrainsIn s k 9 x)
    (hacc : identAccepted blocks = some (lo, hi)) (hlo : lo < 2 ^ 32) (hhi : hi < 2 ^ 32)
    (hboot : ∀ e ∈ s.entriesOn k, s.rd (if e.2 = 0 then Reg.CT_RUN_BG_A else Reg.CT_RUN_BG_B) 0 e.1 = lo / 2 ^ 22)
    (hlast : blocks.getLast?.map (fun b => b.2.2) = some echo) : IdentAccepts s k lo hi echo blocks := by
  have hkeeps := s.peerSeen_keepsOffLinks h.port_lt lo hi
  have hbg : ∀ e : Nat × Nat, (if e.2 = 0 then Reg.CT_RUN_BG_A else Reg.CT_RUN_BG_B).block = .cte := fun e => by split <;> rfl
  refine ⟨⟨x, h.seqAt⟩, hacc, hlast, State.bootGenCheck_of_latched fun e he => ?_⟩
  rw [hkeeps.entriesOn] at he
  rw [hkeeps.rd_circuit (hbg e), (s.peerSeen_shows k hlo hhi).1, hboot e he]

theorem exec_identOf {s : State} {k : Nat} (blocks : List (Nat × Nat × Nat)) (hr : s.ready = true) (hk : k < 16) :
    exec (identOf k blocks) s = .next (s.answer (s.seqIdent k blocks)) := by
  rw [exec_eq_answer (i := identOf k blocks) (g := fun s => s.seqIdent k _) rfl (decide_eq_true hk) hr, zip_identOf]

theorem identityDecides : Clause.IdentityDecides := by
  intro k lo hi blocks x s hr h hacc hlo hhi hboot hown hloop hvar inForce seen
  have hk := h.port_lt
  have hanswer := exec_identOf blocks hr hk
  refine ⟨fun hlast hown0 => ?_, fun hlast => ?_⟩
  · rw [hanswer, (h.identAccepts hacc hlo hhi hboot hlast).seqIdent_of_silent hk hown0]
    rfl
  rw [(h.identAccepts hacc hlo hhi hboot hlast).seqIdent_of_echoed hk hown hloop hvar] at hanswer
  have hfits : (inForce → s.expMatches k lo = true) → ¬ (s.expects k = true ∧ s.expMatches k lo = false) := by
    rintro hm ⟨hexp, hmiss⟩
    rw [hm ((s.expects_iff k).mp hexp)] at hmiss
    exact absurd hmiss (by decide)
  refine ⟨fun v h2 hm hv => ?_, fun v h5 hforce hm hv => ?_, fun hforce hmiss => ?_, fun hm hv => ?_⟩
  · rw [if_neg (hfits hm), hv, Option.elim_some, State.identDone_of_train h2] at hanswer
    have hports := s.trained_ports k lo hi v
    have hcalm : (s.trained k lo hi v).calm = true :=
      ((State.trained_keepsOffLinks hk).mono fun _ => LinkPlace.pastHng).calm (s.ready_iff.mp hr).2 (by rw [hports]) (by rw [hports])
        (by rw [hports])
    rw [State.answer_of_calm hcalm (by rw [hports])] at hanswer
    have hlnk := s.trained_lnk k lo hi v
    obtain ⟨hid, hversions, hmajor, hminor⟩ := State.agreed_shows (s := s) (k := k) (v := v) hlo hhi
    refine ⟨_, hanswer, fun hf => ?_, fun hf => ?_, ?_, ?_, ?_, ?_, s.trained_classes k lo hi v⟩
    · rw [hlnk, if_pos ((s.expects_iff k).mpr hf)]
    · rw [hlnk, if_neg (mt (s.expects_iff k).mp hf)]
    · rw [s.trained_rd k lo hi v, hid]
    · rw [s.trained_rd k lo hi v, hversions]
    · rw [s.trained_rd k lo hi v, hmajor]
    · rw [s.trained_rd k lo hi v, hminor]
  · rw [hanswer, if_neg (hfits fun _ => hm), hv, Option.elim_some, State.identDone, if_pos h5, if_pos ((s.expects_iff k).mpr hforce)]
    rfl
  · rw [hanswer, if_pos ⟨(s.expects_iff k).mpr hforce, hmiss⟩]
    rfl
  · rw [hanswer, if_neg (hfits hm), hv, Option.elim_none]
    rfl

/-- Settles O29: each step comes down to one move of STEP, and the exchange to one choice by expectation, version and state. -/
theorem linkTraining : Obligations.LinkTraining := ⟨trainingSteps, identityDecides⟩

end

section
namespace Sys2Proof.Machine

open Sys2Proof

/-! PROOFS. Frames of a Trinal port: which act, what of them acts, and how replay and the error window end. -/

variable {s : State} {k : Nat}

/-- A port without light, or one that has failed, takes no frame. -/
theorem State.frameReceive_of_deaf (ls : List LaneWord) (h : s.lnk k < 2 ∨ s.lnk k = 8 ∨ s.lnk k = 10) : s.frameReceive k ls = s :=
  if_pos (by omega)

/-- What a port that takes frames does with one, R178, R180. -/
theorem State.frameReceive_of_lit (ls : List LaneWord) (hk : k < 16) (hlo : 2 ≤ s.lnk k) (hhi : s.lnk k ≤ 7) :
    s.frameReceive k ls =
      let good := goodLanes ls
      let x := s.frameErrors k ls
      let x := if frameLost good then x.setPort k { x.port k with part := none } else x.count (lnkPage k) 1 1
      (sharedLane good).elim x (fun g =>
        if frameLost good || !(x.lnk k == 4) || bits (g.t 0) 7 4 != 0 then x.frameShared k g
        else (x.frameShared k g).takeBlocks k (bits (g.t 2) 13 6) (g.t 3 % 65536) (g.t 3 / 65536) (frameBlocks good)) := by
  have htakes : ¬ (16 ≤ k ∨ s.lnk k < 2 ∨ s.lnk k = 10 ∨ s.lnk k = 8) := by omega
  rw [State.frameReceive, if_neg htakes]
  dsimp only
  cases sharedLane (goodLanes ls) <;> rfl

/-- A lost frame drops the data packet that was arriving, and its shared fields act, R180. -/
theorem State.frameReceive_of_lost (ls : List LaneWord) (hk : k < 16) (hlo : 2 ≤ s.lnk k) (hhi : s.lnk k ≤ 7)
    (hlost : frameLost (goodLanes ls) = true) :
    s.frameReceive k ls =
      let x := s.frameErrors k ls
      let x := x.setPort k { x.port k with part := none }
      (sharedLane (goodLanes ls)).elim x (fun g => x.frameShared k g) := by
  rw [State.frameReceive_of_lit ls hk hlo hhi]
  simp only [hlost, if_true, Bool.true_or]

@[simp] theorem State.count_lnk (s : State) (k n m : Nat) : (s.count (lnkPage k) n m).lnk k = s.lnk k := by
  refine State.rd_count_ne s ?_
  simp only [Field.key, Reg.LNK_STATE, Reg.CNT_N, lnkPage, Block.base]
  omega

/-- The numbers of a good data frame that are ahead of the expected ones show a loss, R183. -/
def State.noteAhead (s : State) (k : Nat) (g : LaneWord) : State :=
  let x := s.port k
  s.setPort k { x with
    ctl := { x.ctl with nak := x.ctl.nak || newer16 (g.t 3 % 65536) x.ctl.rx }
    dat := { x.dat with nak := x.dat.nak || newer16 (g.t 3 / 65536) (x.dat.rx + (if x.part.isSome then 1 else 0)) } }

/-- The shared fields of a data frame at a port in UP. -/
theorem State.frameShared_of_data {g : LaneWord} (hup : s.lnk k = 4) (hdata : bits (g.t 0) 7 4 = 0) :
    s.frameShared k g = (s.frameAcks k g).noteAhead k g := by
  simp only [State.frameShared, hdata, hup, ne_eq, not_true_eq_false, if_false, State.noteAhead]

/-- A good data frame at a port in UP is counted, its shared fields act, and its blocks are taken in order. -/
theorem State.frameReceive_of_good {ls : List LaneWord} {g : LaneWord} (hk : k < 16) (hup : s.lnk k = 4) (hstill : (s.frameErrors k ls).lnk k = 4)
    (hgood : frameLost (goodLanes ls) = false) (hg : sharedLane (goodLanes ls) = some g) (hdata : bits (g.t 0) 7 4 = 0) :
    s.frameReceive k ls =
      ((((s.frameErrors k ls).count (lnkPage k) 1 1).frameAcks k g).noteAhead k g).takeBlocks k (bits (g.t 2) 13 6) (g.t 3 % 65536)
        (g.t 3 / 65536) (frameBlocks (goodLanes ls)) := by
  have hcounted : ((s.frameErrors k ls).count (lnkPage k) 1 1).lnk k = 4 := by rw [State.count_lnk, hstill]
  rw [State.frameReceive_of_lit ls hk (by omega) (by omega), ← State.frameShared_of_data hcounted hdata]
  simp [hgood, hg, hcounted, hdata]

/-! ### Replay -/

theorem State.replayTimeout_of_up {data : Bool} (hk : k < 16) (hup : s.lnk k = 4)
    (hr : (if data then (s.port k).dat else (s.port k).ctl).restart.isSome = true) : s.replayTimeout k data = s.linkRestart k data := by
  refine if_neg ?_
  rintro (h | h | h)
  · omega
  · exact h hup
  · rw [Option.isNone_iff_eq_none.mp h] at hr
    exact absurd hr (by decide)

/-! ### The error window -/

/-- The counts of the window of a port are 0. -/
def State.newWindow (s : State) (k : Nat) : State := s.setPort k { s.port k with ucw := 0, syms := [], nears := [] }

/-- Lane `l` of a port has been beyond SYM_WARN or NEAR_LIM in its window, R196. -/
def State.laneWeak (s : State) (k l : Nat) : Prop :=
  s.rd Reg.LNK_SYM_WARN k < SMap.get 0 (s.port k).syms l ∨ s.rd Reg.LNK_NEAR_LIM k < SMap.get 0 (s.port k).nears l

/-- Raising LANE_WEAK of a weak lane. -/
def State.noteWeak (s u : State) (k l : Nat) : State :=
  if u.rd Reg.LNK_SYM_WARN k < SMap.get 0 (s.port k).syms l ∨ u.rd Reg.LNK_NEAR_LIM k < SMap.get 0 (s.port k).nears l then
    u.raise (lnkPage k) 1 none l
  else u

theorem State.errorWindow_eq (hk : k < 16) : s.errorWindow k = (List.range 8).foldl (fun u l => s.noteWeak u k l) (s.newWindow k) :=
  if_neg (by omega)

/-- Lanes that are not weak raise nothing. -/
theorem State.foldl_noteWeak_of_strong (u : State) (hu : u.regs = s.regs) {ls : List Nat} (h : ∀ l ∈ ls, ¬ s.laneWeak k l) :
    ls.foldl (fun u l => s.noteWeak u k l) u = u := by
  refine foldl_fixed _ _ _ fun l hl => if_neg ?_
  rw [State.rd_congr hu, State.rd_congr hu]
  exact h l hl

/-- One weak lane raises LANE_WEAK once. -/
theorem State.errorWindow_of_one {l : Nat} (hk : k < 16) (hl : l < 8) (hweak : s.laneWeak k l) (hother : ∀ m < 8, m ≠ l → ¬ s.laneWeak k m) :
    s.errorWindow k = (s.newWindow k).raise (lnkPage k) 1 none l := by
  obtain ⟨before, after, hrange⟩ := List.append_of_mem (List.mem_range.mpr hl)
  have hnodup : (before ++ l :: after).Nodup := hrange ▸ List.nodup_range
  have honce : l ∉ before ++ after := (List.nodup_cons.mp (List.nodup_middle.mp hnodup)).1
  have hlt : ∀ m ∈ before ++ l :: after, m < 8 := fun m hm => List.mem_range.mp (hrange ▸ hm)
  have hbefore : ∀ m ∈ before, ¬ s.laneWeak k m := fun m hm =>
    hother m (hlt m (by simp [hm])) (by rintro rfl; simp [hm] at honce)
  have hafter : ∀ m ∈ after, ¬ s.laneWeak k m := fun m hm =>
    hother m (hlt m (by simp [hm])) (by rintro rfl; simp [hm] at honce)
  have hnote : s.noteWeak (s.newWindow k) k l = (s.newWindow k).raise (lnkPage k) 1 none l := if_pos hweak
  rw [State.errorWindow_eq hk, hrange, List.foldl_append, List.foldl_cons, State.foldl_noteWeak_of_strong (s := s) (s.newWindow k) rfl hbefore,
    hnote, State.foldl_noteWeak_of_strong (s := s) ((s.newWindow k).raise (lnkPage k) 1 none l) rfl hafter]

end Sys2Proof.Machine
end

section
open Sys2Proof Sys2Proof.Machine

/-- Settles O30: a frame comes down to what its errors count, its shared fields and its blocks; a window to the lanes that are weak. -/
theorem linkFrames : Obligations.LinkFrames := by
  intro k s hr hk
  have hwf : decide (k < 16) = true := decide_eq_true hk
  refine ⟨fun ls hlen hls => ?_, fun data hup hrestart => ?_, fun data hup => ?_, fun hstrong => ?_, fun l hl hweak hother => ?_⟩
  · have hframe : (Instr.frameReceive k ls).wellFormed = true := by simpa [Instr.wellFormed, hlen, hk] using hls
    have hanswer := exec_eq_answer (i := .frameReceive k ls) (g := fun s => s.frameReceive k ls) rfl hframe hr
    intro good x
    refine ⟨fun hdeaf => ?_, fun hlo hhi hlost => ?_, fun g hup hstill hgood hg hdata => ?_⟩
    · exact exec_eq_self (g := fun s => s.frameReceive k ls) rfl hframe hr (State.frameReceive_of_deaf ls hdeaf)
    · rw [hanswer, State.frameReceive_of_lost ls hk hlo hhi hlost]
    · rw [hanswer, State.frameReceive_of_good hk hup hstill hgood hg hdata]
      rfl
  · rw [exec_eq_answer (i := .replayTimeout k data) (g := fun s => s.replayTimeout k data) rfl hwf hr,
      State.replayTimeout_of_up hk hup hrestart]
  · exact exec_eq_self (g := fun s => s.replayTimeout k data) rfl hwf hr (if_pos (.inr (.inl hup)))
  · have heff : s.errorWindow k = s.newWindow k := by
      rw [State.errorWindow_eq hk]
      refine State.foldl_noteWeak_of_strong (s := s) (s.newWindow k) rfl fun l hl => ?_
      obtain ⟨hsym, hnear⟩ := hstrong l (List.mem_range.mp hl)
      exact not_or.mpr ⟨not_lt.mpr hsym, not_lt.mpr hnear⟩
    have hexec : exec (.errorWindow k) s = .next (s.errorWindow k) :=
      exec_eq_of_ports (g := fun s => s.errorWindow k) rfl hwf hr (by rw [heff]; exact .of_regs rfl)
        (by rw [heff]; exact (PortsOnly.refl s).setPort ..)
    exact ⟨_, hexec.trans (congrArg _ heff), by simp [State.newWindow], by simp [State.newWindow], by simp [State.newWindow],
      by simp [State.newWindow], rfl⟩
  · rw [exec_eq_answer (i := .errorWindow k) (g := fun s => s.errorWindow k) rfl hwf hr,
      State.errorWindow_of_one hk hl (.inl hweak) fun m hm hne => ?_, State.newWindow]
    obtain ⟨hsym, hnear⟩ := hother m hm hne
    exact not_or.mpr ⟨not_lt.mpr hsym, not_lt.mpr hnear⟩

end

section
namespace Sys2Proof.Machine

open Sys2Proof

/-! PROOFS. The circuit router: what a forwarded packet leaves at its two ports, what an endpoint holds of a packet that it accepts, and how
a held packet is taken. -/

/-! ### Ports and entries -/

theorem State.port_setPort_ne (s : State) {k j : Nat} (x : Port) (h : j ≠ k) : (s.setPort k x).port j = s.port j :=
  SMap.get_set_ne _ _ _ h

@[simp] theorem State.circ_setCirc_self (s : State) (e : Nat) (x : Circ) : (s.setCirc e x).circ e = x := SMap.get_set_self ..

theorem State.circ_setCirc_ne (s : State) {e j : Nat} (x : Circ) (h : j ≠ e) : (s.setCirc e x).circ j = s.circ j :=
  SMap.get_set_ne _ _ _ h

/-- The port with the link credit of a packet given back, R185. -/
def Port.free (x : Port) (p : Packet) : Port :=
  if p.isData then { x with dat := { x.dat with freed := (x.dat.freed + p.units) % 65536 } }
  else { x with ctl := { x.ctl with freed := (x.ctl.freed + 1) % 65536 } }

theorem State.freeCredit_eq (s : State) (k : Nat) (p : Packet) : s.freeCredit k p = s.setPort k ((s.port k).free p) := rfl

theorem Port.free_freed (x : Port) (p : Packet) :
    (x.free p).dat.freed = (if p.isData then (x.dat.freed + p.units) % 65536 else x.dat.freed) ∧
    (x.free p).ctl.freed = (if p.isData then x.ctl.freed else (x.ctl.freed + 1) % 65536) := by
  cases h : p.isData <;> simp [Port.free, h]

/-- The port in UP with a packet accepted for its link. -/
def Port.accept (x : Port) (p : Packet) : Port :=
  if p.isData then { x with dat := x.dat.accept p true } else { x with ctl := x.ctl.accept p true }

theorem State.portSend_of_up {s : State} {k : Nat} (h : s.lnk k = 4) (p : Packet) :
    s.portSend k p = (s.setPort k ((s.port k).accept p), true) := by
  have h' : s.rd Reg.LNK_STATE k = 4 := h
  simp only [State.portSend, h']
  rfl

/-- The CID is below the TYPE in the first word of a packet. -/
theorem Packet.isData_setCid {p : Packet} (hp : p.wellFormed = true) (c : Nat) : (p.setCid c).isData = p.isData := by
  have hlen : 0 < p.words.length := by
    simp only [Packet.wellFormed, Bool.and_eq_true, beq_iff_eq] at hp
    omega
  have hword : (p.setCid c).w 0 = p.w 0 - p.w 0 % 1024 + c % 1024 := by
    simp [Packet.setCid, Packet.w, hlen]
  have htyp : (p.setCid c).typ = p.typ := by
    rw [Packet.typ, hword, Packet.typ, bits, bits]
    omega
  rw [Packet.isData, htyp, Packet.isData]

theorem State.isEndpoint_of_forward {s : State} {e : Nat} (h : s.isForward e = true) : s.isEndpoint e = false := by
  simp only [State.isForward, Bool.and_eq_true, Bool.not_eq_true'] at h
  rw [State.isEndpoint, h.2, Bool.and_false]

theorem dieOfPort_lt (k : Nat) : dieOfPort k < 4 := by
  by_cases hk : k < 16
  · interval_cases k <;> decide
  · simp [dieOfPort, Nat.not_lt.mp hk]

/-! ### Forwarding -/

/-- A packet from port `k` is on its way to port `out`: its link credit is given back, its path is noted, and the flits of a bridge between
two dies are counted, R209. -/
def State.relayed (s : State) (k : Nat) (p : Packet) (out : Nat) : State :=
  let x := (s.freeCredit k p).setCirc p.cid { s.circ p.cid with path := p.path }
  if dieOfPort k = dieOfPort out then x else x.flitsSent (dieOfPort k) (dieOfPort out) p.flits

theorem State.relayed_eq (s : State) (k : Nat) (p : Packet) (out : Nat) :
    s.relayed k p out = { s with
      regs := (s.relayed k p out).regs, ports := (s.freeCredit k p).ports, circs := (s.relayed k p out).circs } := by
  unfold State.relayed
  dsimp only
  split
  · rfl
  · rw [State.flitsSent, State.countF_eq]
    rfl

theorem State.relayed_port (s : State) (k : Nat) (p : Packet) (out j : Nat) : (s.relayed k p out).port j = (s.freeCredit k p).port j := by
  rw [s.relayed_eq]; rfl

theorem State.relayed_keeps (s : State) (k : Nat) (p : Packet) (out : Nat) :
    KeepsOutside (· ∈ [Reg.BR_FLITS.key (dieOfPort k) (dieOfPort out)]) s (s.relayed k p out) := by
  unfold State.relayed
  dsimp only
  split
  · exact .of_regs rfl
  · exact KeepsOutside.countF (.of_regs rfl) _ (List.mem_singleton_self _)

/-- The counts of flits stand on the SFB pages. -/
theorem flits_key_bounds (k out : Nat) : 0x60 * 4096 * 32 ≤ Reg.BR_FLITS.key (dieOfPort k) (dieOfPort out) ∧
    Reg.BR_FLITS.key (dieOfPort k) (dieOfPort out) < 0x64 * 4096 * 32 := by
  have hk := dieOfPort_lt k
  have hout := dieOfPort_lt out
  simp only [Field.key, Reg.BR_FLITS, Block.base]
  omega

theorem State.relayed_lnk (s : State) (k : Nat) (p : Packet) (out : Nat) {j : Nat} (hj : j < 16) : (s.relayed k p out).lnk j = s.lnk j := by
  have hlow := (flits_key_bounds k out).1
  refine s.relayed_keeps k p out _ _ _ ?_
  simp only [List.mem_singleton, Field.key, Reg.LNK_STATE, Block.base] at hlow ⊢
  omega

theorem State.relayed_circuit (s : State) (k : Nat) (p : Packet) (out : Nat) {f : Field} (hf : f.block = .cte) (e : Nat) :
    (s.relayed k p out).rd f 0 e = s.rd f 0 e := by
  have hhigh := (flits_key_bounds k out).2
  refine s.relayed_keeps k p out _ _ _ fun h => ?_
  rw [← List.mem_singleton.mp h] at hhigh
  simp only [Field.key, hf, Block.base] at hhigh
  omega

theorem State.relayed_sidePort (s : State) (k : Nat) (p : Packet) (out e o : Nat) : (s.relayed k p out).sidePort e o = s.sidePort e o :=
  s.relayed_circuit k p out (by split <;> rfl) e

theorem State.relayed_sideCid (s : State) (k : Nat) (p : Packet) (out e o : Nat) : (s.relayed k p out).sideCid e o = s.sideCid e o :=
  s.relayed_circuit k p out (by split <;> rfl) e

/-- The packet has left port `out` with the CID `c`, and is counted. -/
def State.forwarded (s : State) (k : Nat) (p : Packet) (out c : Nat) : State :=
  ((s.relayed k p out).setPort out (((s.relayed k p out).port out).accept (p.setCid c))).count cirPage 0 1

/-- A packet of a listed type for a forwarding entry with both sides up leaves on the side on which it has not come, R208. -/
theorem State.packetForward_of_up {s : State} {k d : Nat} {p : Packet} (htyp : p.typ ∈ [0, 1, 2, 3, 4, 5, 6, 8]) (hd : d < 2)
    (hfwd : s.isForward p.cid = true) (hin : s.sidePort p.cid d = k) (hout : s.sidePort p.cid (1 - d) < 16)
    (hne : s.sidePort p.cid (1 - d) ≠ k) (hup0 : s.sideUp p.cid 0 = true) (hup1 : s.sideUp p.cid 1 = true)
    (hbridge : s.bridgeDown (dieOfPort k) (dieOfPort (s.sidePort p.cid (1 - d))) = false) (hlnk : s.lnk (s.sidePort p.cid (1 - d)) = 4) :
    s.packetForward k p = s.forwarded k p (s.sidePort p.cid (1 - d)) (s.sideCid p.cid (1 - d)) := by
  have hside : (if s.isForward p.cid && s.sidePort p.cid 0 == k then some 0
      else if s.isForward p.cid && s.sidePort p.cid 1 == k then some 1 else none) = some d := by
    obtain rfl | rfl : d = 0 ∨ d = 1 := by omega
    · simp [hfwd, hin]
    · simp [hfwd, hin, show s.sidePort p.cid 0 ≠ k from hne]
  have hcredit : ∀ e o, (s.freeCredit k p).sidePort e o = s.sidePort e o := fun _ _ => rfl
  have hentry : (s.freeCredit k p).isForward p.cid = s.isForward p.cid := rfl
  have hup : ∀ o, (s.freeCredit k p).sideUp p.cid o = s.sideUp p.cid o := fun _ => rfl
  have hcirc : (s.freeCredit k p).circ p.cid = s.circ p.cid := rfl
  have hnoted : ∀ x : Circ, ((s.freeCredit k p).setCirc p.cid x).sidePort p.cid (1 - d) = s.sidePort p.cid (1 - d) := fun _ => rfl
  have hwhole : ∀ x : Circ, ((s.freeCredit k p).setCirc p.cid x).bridgeDown (dieOfPort k) (dieOfPort (s.sidePort p.cid (1 - d))) = false :=
    fun _ => hbridge
  have hsend := State.portSend_of_up (s := s.relayed k p (s.sidePort p.cid (1 - d)))
    (by rw [s.relayed_lnk k p _ hout]; exact hlnk) (p.setCid (s.sideCid p.cid (1 - d)))
  simp only [State.packetForward, State.isEndpoint_of_forward hfwd, Bool.false_eq_true, if_false, List.contains_iff_mem.mpr htyp, Bool.not_true,
    hcredit, hentry, hside, hup, hup0, hup1, Bool.or_self, hcirc, hnoted, hwhole]
  rw [← State.relayed, State.relayed_sidePort, State.relayed_sideCid, hsend]
  rfl

/-- A packet of a listed type for an entry that is neither endpoint nor forwarding entry is dropped with NO_ENTRY, R208. -/
theorem State.packetForward_of_unlisted {s : State} {k : Nat} {p : Packet} (htyp : p.typ ∈ [0, 1, 2, 3, 4, 5, 6, 8])
    (hend : s.isEndpoint p.cid = false) (hfwd : s.isForward p.cid = false) :
    s.packetForward k p = ((s.freeCredit k p).count cirPage 3 1).raise cirPage 0 none p.cid := by
  have hentry : (s.freeCredit k p).isForward p.cid = false := hfwd
  simp only [State.packetForward, hend, List.contains_iff_mem.mpr htyp, hentry, Bool.not_true, Bool.false_and, Bool.false_eq_true, if_false]

theorem State.forwarded_eq (s : State) (k : Nat) (p : Packet) (out c : Nat) :
    s.forwarded k p out c = { s with
      regs := (s.forwarded k p out c).regs, ports := (s.forwarded k p out c).ports, circs := (s.forwarded k p out c).circs } := by
  rw [State.forwarded, State.count_eq, s.relayed_eq]
  rfl

theorem State.forwarded_port (s : State) (k : Nat) (p : Packet) (out c j : Nat) :
    (s.forwarded k p out c).port j = ((s.relayed k p out).setPort out (((s.relayed k p out).port out).accept (p.setCid c))).port j := by
  rw [State.forwarded, State.count_eq]; rfl

theorem State.forwarded_port_out (s : State) {k out : Nat} (p : Packet) (c : Nat) (h : out ≠ k) :
    (s.forwarded k p out c).port out = (s.port out).accept (p.setCid c) := by
  rw [s.forwarded_port, State.port_setPort_self, s.relayed_port, s.freeCredit_eq, s.port_setPort_ne _ h]

theorem State.forwarded_port_ne (s : State) (k : Nat) (p : Packet) {out j : Nat} (c : Nat) (h : j ≠ out) :
    (s.forwarded k p out c).port j = (s.freeCredit k p).port j := by
  rw [s.forwarded_port, State.port_setPort_ne _ _ h, s.relayed_port]

theorem State.forwarded_regsKeep (s : State) (k : Nat) (p : Packet) (out c : Nat) :
    RegsKeep s (s.forwarded k p out c) [Reg.BR_FLITS.key (dieOfPort k) (dieOfPort out)] :=
  fun f i j hk hc => (State.rd_count_ne _ (hc cirPage 0 (by decide))).trans (s.relayed_keeps k p out f i j hk)

theorem State.forwarded_calm {s : State} (h : s.calm = true) (k : Nat) (p : Packet) (out c : Nat) : (s.forwarded k p out c).calm = true := by
  have hlow := (flits_key_bounds k out).1
  refine State.calm_of_keeps h (s.forwarded_regsKeep k p out c) (fun i hi => ?_) ?_ ?_ ?_
  · rw [List.mem_singleton.mp hi]; omega
  all_goals rw [s.forwarded_eq]

/-! ### Receiving -/

/-- The entry with a numbered packet held, R215, R228: its check is remembered, and its number is no longer awaited. -/
def Circ.hold (x : Circ) (k : Nat) (p : Packet) : Circ :=
  let echks := x.echks ++ [(p.seq, p.copyCheck)]
  let y := { x with echks := echks.drop (echks.length - 256) }
  let y := y.setGaps p.isData ((x.gaps p.isData).filter (fun n => n != p.seq))
  if p.isData then { y with heldD := holdIn ⟨k, p⟩ x.heldD } else { y with heldC := holdIn ⟨k, p⟩ x.heldC }

theorem Circ.hold_shows (x : Circ) (k : Nat) (p : Packet) :
    (x.hold k p).heldD = (if p.isData then holdIn ⟨k, p⟩ x.heldD else x.heldD) ∧
    (x.hold k p).heldC = (if p.isData then x.heldC else holdIn ⟨k, p⟩ x.heldC) ∧
    (x.hold k p).gaps p.isData = (x.gaps p.isData).filter (fun n => n != p.seq) := by
  cases h : p.isData <;> simp [Circ.hold, Circ.setGaps, Circ.gaps, h]

/-- A packet of an unsealed circuit that fits its check is read as it stands, R214. -/
theorem State.openPkt_of_unsealed {s : State} {e : Nat} {p : Packet} (hsealed : s.rd Reg.CT_SEALED 0 e ≠ 1) (hcheck : p.echk = p.echkOf) :
    s.openPkt e p = (some p, false) := by
  simp [State.openPkt, hsealed, hcheck]

/-- A new packet of a path that does not rejoin is held, R215, R223. -/
theorem State.numberedIn_of_new {s : State} {k e : Nat} {p : Packet} (hst : 1 ≤ s.cirState e ∧ s.cirState e ≤ 3)
    (hopen : s.openPkt e p = (some p, false)) (hnew : newer p.seq (s.lastTaken e p.isData) = true)
    (hrejoin : ((s.circ e).path' p.path).rejoin = false) : s.numberedIn k e p = s.setCirc e ((s.circ e).hold k p) := by
  have hlive : ¬ (s.cirState e ≠ 1 ∧ s.cirState e ≠ 2 ∧ s.cirState e ≠ 3) := by omega
  simp only [State.numberedIn, if_neg hlive, hopen, hnew, Bool.not_true, Bool.and_false, Bool.false_eq_true, if_false, hrejoin]
  cases h : p.isData <;> simp [Circ.hold, Circ.setGaps, Circ.gaps, h]

/-- A packet of the current claim has been heard on path `path`, R229. -/
def Circ.hear (x : Circ) (path : Nat) : Circ := x.setPath path { x.path' path with heard := true }

theorem Circ.hear_shows (x : Circ) (path : Nat) :
    (x.hear path).heldC = x.heldC ∧ (x.hear path).heldD = x.heldD ∧ ((x.hear path).path' path).rejoin = (x.path' path).rejoin := by
  by_cases h : path = 0 <;> simp [Circ.hear, Circ.setPath, Circ.path', h]

/-- A numbered packet on a path of its endpoint that is up, with the generation and the claim of the path, R215. -/
structure Arrives (s : State) (k : Nat) (p : Packet) : Prop where
  endpoint : s.isEndpoint p.cid = true
  typ : p.typ = 0 ∨ p.typ = 8
  path : p.path ∈ s.pathsOf p.cid
  port : s.sidePort p.cid p.path = k
  up : s.sideUp p.cid p.path = true
  gen : p.gen = s.rd Reg.CT_GEN 0 p.cid
  claim : p.claim = s.sideClaim p.cid p.path

theorem Arrives.packetReceive {s : State} {k : Nat} {p : Packet} (h : Arrives s k p) :
    s.packetReceive k p = (s.setCirc p.cid ((s.circ p.cid).hear p.path)).numberedIn k p.cid p := by
  obtain ⟨hend, htyp, hpath, hport, hup, hgen, hclaim⟩ := h
  have hlisted : [0, 1, 2, 3, 4, 5, 6, 8].contains p.typ = true := by obtain h | h := htyp <;> rw [h] <;> rfl
  have hnum : p.numbered = true := by obtain h | h := htyp <;> rw [Packet.numbered, h] <;> rfl
  have hpath' : (s.pathsOf p.cid).contains p.path = true := List.contains_iff_mem.mpr hpath
  simp only [State.packetReceive, hend, hlisted, hnum, hpath', hport, hup, hgen, hclaim, beq_self_eq_true, Bool.not_true, Bool.true_and,
    Bool.true_or, Bool.false_or, Bool.or_self, Bool.false_eq_true, if_false, if_true]
  rfl

theorem Arrives.packetReceive_of_new {s : State} {k : Nat} {p : Packet} (h : Arrives s k p)
    (hrejoin : ((s.circ p.cid).path' p.path).rejoin = false) (hst : 1 ≤ s.cirState p.cid ∧ s.cirState p.cid ≤ 3)
    (hsealed : s.rd Reg.CT_SEALED 0 p.cid ≠ 1) (hcheck : p.echk = p.echkOf) (hnew : newer p.seq (s.lastTaken p.cid p.isData) = true) :
    s.packetReceive k p = (s.setCirc p.cid ((s.circ p.cid).hear p.path)).setCirc p.cid (((s.circ p.cid).hear p.path).hold k p) := by
  obtain ⟨hheldC, hheldD, hpath⟩ := (s.circ p.cid).hear_shows p.path
  have hlast : (s.setCirc p.cid ((s.circ p.cid).hear p.path)).lastTaken p.cid p.isData = s.lastTaken p.cid p.isData := by
    simp only [State.lastTaken, State.circ_setCirc_self, hheldC, hheldD]
    rfl
  rw [h.packetReceive, State.numberedIn_of_new (s := s.setCirc p.cid ((s.circ p.cid).hear p.path)) hst
    (State.openPkt_of_unsealed hsealed hcheck) (hlast ▸ hnew) (by rw [State.circ_setCirc_self, hpath, hrejoin]), State.circ_setCirc_self]

/-! ### Delivering -/

/-- The oldest held packet of a class is taken, R222, R223: the last number of the class, the link credit, the marks of a rejoin. -/
def State.taken (s : State) (e : Nat) (data : Bool) (h : HeldPkt) : State :=
  let x := s.setCirc e (if data then { s.circ e with heldD := (s.circ e).heldD.drop 1 } else { s.circ e with heldC := (s.circ e).heldC.drop 1 })
  let x := x.wr (if data then Reg.CT_RUN_DLAST else Reg.CT_RUN_CLAST) 0 e h.pkt.seq
  ((x.freeCredit h.port h.pkt).count cirPage 1 1).rejoinCheck e

theorem State.packetDeliver_of_none {s : State} {e : Nat} {data : Bool} (h : s.mayDeliver e data = none) : s.packetDeliver e data = s := by
  simp only [State.packetDeliver, State.takeHeld, h]

theorem State.packetDeliver_of_some {s : State} {e : Nat} {data : Bool} {h : HeldPkt} (hm : s.mayDeliver e data = some h) :
    s.packetDeliver e data = if data then (s.taken e data h).dataIn e h.pkt else (s.taken e data h).engineIn e h.pkt.pay := by
  simp only [State.packetDeliver, State.takeHeld, hm]
  rfl

end Sys2Proof.Machine
end

section
open Sys2Proof Sys2Proof.Machine

/-- Settles O31: a forwarded packet changes its two ports and the counts alone, an accepted one its entry alone, and a delivered one is
taken before its engine acts. -/
theorem circuitPackets : Obligations.CircuitPackets := by
  intro s hr
  obtain ⟨hpor, hcalm⟩ := s.ready_iff.mp hr
  refine ⟨fun k p d hk hp htyp hd hfwd hin hout hne hup0 hup1 hbridge hlnk => ?_, fun k p hk hp htyp hend hfwd => ?_,
    fun k p hk hp hend htyp hpath hport hup hrejoin hgen hclaim hlo hhi hsealed hcheck hnew => ?_, fun e data he hnone => ?_,
    fun e data h he hsome => ?_⟩
  · intro out q
    have heff : s.packetForward k p = s.forwarded k p out (s.sideCid p.cid (1 - d)) :=
      State.packetForward_of_up htyp hd hfwd hin hout hne hup0 hup1 hbridge hlnk
    have hexec : exec (.packetForward k p) s = .next (s.packetForward k p) :=
      exec_eq_of_calm (g := fun s => s.packetForward k p) rfl (by simp [Instr.wellFormed, hp, hk]) hr
        (by rw [heff]; exact State.forwarded_calm hcalm ..) (by rw [heff, s.forwarded_eq])
    obtain ⟨hdat, hctl⟩ := (s.port k).free_freed p
    refine ⟨_, hexec.trans (congrArg _ heff), ?_, ?_, ?_, fun j hj hjo => ?_, s.forwarded_regsKeep k p out _⟩
    · rw [s.forwarded_port_out p _ hne, Port.accept, Packet.isData_setCid hp]
    · rw [s.forwarded_port_ne k p _ hne.symm, s.freeCredit_eq, State.port_setPort_self, hdat]
    · rw [s.forwarded_port_ne k p _ hne.symm, s.freeCredit_eq, State.port_setPort_self, hctl]
    · rw [s.forwarded_port_ne k p _ hjo, s.freeCredit_eq, s.port_setPort_ne _ hj]
  · rw [exec_eq_answer (i := .packetForward k p) (g := fun s => s.packetForward k p) rfl (by simp [Instr.wellFormed, hp, hk]) hr,
      State.packetForward_of_unlisted htyp hend hfwd]
  · have heff := Arrives.packetReceive_of_new ⟨hend, htyp, hpath, hport, hup, hgen, hclaim⟩ hrejoin ⟨hlo, hhi⟩ hsealed hcheck hnew
    have hexec : exec (.packetReceive k p) s = .next (s.packetReceive k p) :=
      exec_eq_of_calm (g := fun s => s.packetReceive k p) rfl (by simp [Instr.wellFormed, hp, hk]) hr
        (by rw [heff]; exact hcalm) (by rw [heff]; rfl)
    obtain ⟨hheardC, hheardD, -⟩ := (s.circ p.cid).hear_shows p.path
    obtain ⟨hheldD, hheldC, hgaps⟩ := ((s.circ p.cid).hear p.path).hold_shows k p
    refine ⟨_, hexec.trans (congrArg _ heff), ?_, ?_, ?_, fun e he => ?_, rfl, rfl⟩
    · rw [State.circ_setCirc_self, hheldD, hheardD]
    · rw [State.circ_setCirc_self, hheldC, hheardC]
    · rw [State.circ_setCirc_self, hgaps]
      simp
    · rw [State.circ_setCirc_ne _ _ he, State.circ_setCirc_ne _ _ he]
  · exact exec_eq_self (g := fun s => s.packetDeliver e data) rfl (decide_eq_true he) hr (State.packetDeliver_of_none hnone)
  · intro dropped noted counted
    rw [exec_eq_answer (i := .packetDeliver e data) (g := fun s => s.packetDeliver e data) rfl (decide_eq_true he) hr,
      State.packetDeliver_of_some hsome]
    rfl

end

section
namespace Sys2Proof.Machine

open Sys2Proof

/-! PROOFS. A path of an OPEN endpoint that goes down while a packet still has to come whole by it. -/

/-- The counterexample to O32. Out of power-on reset, entry 0 is an endpoint on ports 0 and 1, OPEN with both of its paths up. The copy of
its DATA packet 5 that came on path B has failed its check, and that of path A is awaited, R228. -/
def awaitingCopy : State :=
  let s : State := { State.reset with boot := { State.reset.boot with por := false } }
  let s := (((s.wr Reg.CT_VALID 0 0 1).wr Reg.CT_KIND 0 0 1).wr Reg.CT_TWIN 0 0 1).wr Reg.CT_PORT_B 0 0 1
  let s := ((s.wr Reg.CT_RUN_STATE 0 0 2).wr Reg.CT_RUN_A_UP 0 0 1).wr Reg.CT_RUN_B_UP 0 0 1
  s.setCirc 0 { Circ.empty with gapsD := [5] }

theorem awaitingCopy_ready : awaitingCopy.ready = true := by decide +kernel

/-- PATH_DOWN on path A leaves the endpoint BROKEN. -/
theorem awaitingCopy_pathDown : rdAfter (exec (.pathDown 0 0 0) awaitingCopy) Reg.CT_RUN_STATE 0 0 = some 6 := by decide +kernel

/-- Refutes O32: a packet that the lost path alone could still have brought whole is lost with it, so the endpoint breaks, R220 and log
entry 16. The clause of PATH_DOWN, which has no hypothesis on awaited copies, says that it goes to DEGRADED. -/
theorem not_circuitsAndPaths : ¬ Obligations.CircuitsAndPaths := by
  rintro ⟨-, hpaths⟩
  obtain ⟨hdown, -⟩ := hpaths 0 awaitingCopy awaitingCopy_ready (by decide)
  obtain ⟨-, hdegrades⟩ := hdown 0 0 (by decide)
  have hread := awaitingCopy_pathDown
  rw [hdegrades (by decide +kernel) (by decide +kernel) (by decide +kernel) (by decide +kernel)] at hread
  exact absurd hread (by decide +kernel)

end Sys2Proof.Machine
end

section
namespace Sys2Proof.Machine

open Sys2Proof

/-! PROOFS. The chunks of a collective: what a slot sends against a credit, what becomes of a chunk that arrives, and what a RESEND is
answered with. -/

/-! ### A slot and its change -/

/-- A command answers what its effect comes to, settled. -/
theorem exec_eq_answer_of {s u : State} {i : Instr} {g : State → State} (he : exec i s = s.serve i g) (hw : i.wellFormed = true)
    (hr : s.ready = true) (hg : g s = u) : exec i s = .next (s.answer u) := by
  rw [exec_eq_answer he hw hr, hg]

/-- Two changes of a slot are the same where they agree on what the slot holds. -/
theorem State.onSlot_congr {s : State} {d n : Nat} {x : Slot} {f g : Slot → Slot} (h : s.slot d n = some x) (hfg : f x = g x) :
    s.onSlot d n f = s.onSlot d n g := by
  rw [State.slot] at h
  simp only [State.onSlot, h, hfg]

/-- A field of a lane of recovery stands on page HNG. -/
theorem KeepsOutside.rd_lane {s u : State} (h : KeepsOutside PastHng s u) {l : Nat} (hl : l < 5) (f : Field) (hb : f.block = .hng := by rfl)
    (ho : f.off + f.stride * 4 < 4096 ∧ f.lo < 32 := by decide) : u.rd f 0 l = s.rd f 0 l := by
  have hstride : f.stride * l ≤ f.stride * 4 := Nat.mul_le_mul_left _ (by omega)
  refine h _ _ _ ?_
  simp only [PastHng, Field.key, hb, Block.base]
  omega

/-- Whether a recovery holds an engine depends on page HNG alone. -/
theorem KeepsOutside.mayWork {s u : State} (h : KeepsOutside PastHng s u) (p xe c : Nat) : u.mayWork p xe c = s.mayWork p xe c := by
  have hlane : u.recLane p xe = s.recLane p xe := by
    refine List.find?_congr fun l hl => ?_
    have hl := List.mem_range.mp hl
    rw [h.rd_lane hl Reg.HNG_RUNG, h.rd_lane hl Reg.HNG_PHASE, h.rd_lane hl Reg.HNG_ENGINE, h.rd_lane hl Reg.HNG_REC_XE]
  rw [State.mayWork, State.mayWork, hlane]
  cases hs : s.recLane p xe with
  | none => rfl
  | some l =>
    have hl : l < 5 := by simpa using List.mem_of_find?_eq_some hs
    simp only [State.rdB_eq, h.rd_lane hl Reg.HNG_RUNG, h.rd_lane hl Reg.HNG_TURN, h.rd_lane hl Reg.HNG_TURN_VALID]

/-! ### Sending -/

theorem State.chunkSend_of_no_credit {s : State} {d n e : Nat} (c : Nat) {x : Slot} (hx : s.slot d n = some x)
    (h : SMap.get 0 x.credit (8 * e + s.rd Reg.SL_STAGE d n) = 0) : s.chunkSend d n e c = s := by
  simp only [State.chunkSend, hx]
  exact if_pos (.inr (.inr (.inr (.inl h))))

/-- What a slot keeps of a chunk that it has sent, at time `now`, R246. -/
def Slot.send (x : Slot) (st e c cr : Nat) (q : Chunk) (now : Nat) : Slot :=
  { x with sent := x.sent ++ [(e, c)], credit := SMap.put x.credit (8 * e + st) (cr - 1), kept := x.kept ++ [⟨e, st, q, 1⟩]
           heard := SMap.put x.heard e now }

theorem State.chunkSend_of_credit {s y : State} {d n e c : Nat} {x : Slot} {q : Chunk} (hx : s.slot d n = some x)
    (hsends : (e, c) ∈ x.sends (s.rd Reg.SL_STAGE d n)) (hsent : (e, c) ∉ x.sent) (hready : x.sendReady (s.rd Reg.SL_STAGE d n) c = true)
    (hcr : SMap.get 0 x.credit (8 * e + s.rd Reg.SL_STAGE d n) ≠ 0) (hcir : s.cirReady e = true)
    (hfence : s.isFenced (cePage d) 0 = false) (hmoves : s.slotMoves d n x = true)
    (hq : s.sendData n x (s.rd Reg.SL_STAGE d n) e c = (y, some q)) :
    s.chunkSend d n e c =
      let st := s.rd Reg.SL_STAGE d n
      let z := y.chunkOut x e st q
      let z := z.onSlot d n (fun x' => x'.send st e c (SMap.get 0 x.credit (8 * e + st)) q z.timeUs)
      ((z.count (cePage d) 0 1).progress (cePage d) 1).collGo d n := by
  simp only [State.chunkSend, hx]
  rw [if_neg (by simp [hsends, hsent, hready, hcr, hcir, hfence, hmoves]), hq]
  rfl

/-! ### Receiving -/

/-- Chunks of an engine received, counted; the engine advances where it may work for the slot's context. -/
def State.countChunk (s : State) (d : Nat) (x : Slot) : State :=
  (s.count (cePage d) 1 1).progress (cePage d) (if s.mayWork (cePage d) 0 x.ctx then 1 else 0)

theorem State.countChunk_eq (s : State) (d : Nat) (x : Slot) : ∃ w r, s.countChunk d x = { s with watch := w, regs := r } := by
  obtain ⟨w, hw⟩ := (s.count (cePage d) 1 1).progress_eq (cePage d) (if s.mayWork (cePage d) 0 x.ctx then 1 else 0)
  rw [State.countChunk, hw, State.addF_eq, s.count_eq]
  exact ⟨_, _, rfl⟩

theorem State.countChunk_keeps (s : State) (d : Nat) (x : Slot) :
    KeepsOutside (· ∈ [Reg.CNT_N.key (cePage d) 1, Reg.PROG_CNT.key (cePage d) 0]) s (s.countChunk d x) := by
  obtain ⟨w, hw⟩ := (s.count (cePage d) 1 1).progress_eq (cePage d) (if s.mayWork (cePage d) 0 x.ctx then 1 else 0)
  rw [State.countChunk, hw, State.addF_eq]
  exact (((KeepsOutside.refl _ s).countF _ (by simp)).wr _ (by simp)).trans (.of_regs rfl)

/-- The counts of an engine's page do not bear on whether a slot uses chunks now. -/
theorem State.countChunk_slotMoves (s : State) (d n : Nat) (x : Slot) :
    (s.countChunk d x).slotMoves d n x = s.slotMoves d n x := by
  have hkeep := s.countChunk_keeps d x
  have hstate : (s.countChunk d x).rd Reg.SL_STATE d n = s.rd Reg.SL_STATE d n := by
    refine hkeep _ _ _ ?_
    simp only [List.mem_cons, List.not_mem_nil, or_false, Field.key, Reg.SL_STATE, Reg.CNT_N, Reg.PROG_CNT, Block.base, cePage]
    omega
  have hwork : (s.countChunk d x).mayWork (cePage d) 0 x.ctx = s.mayWork (cePage d) 0 x.ctx := by
    refine (hkeep.mono fun k hk => ?_).mayWork ..
    simp only [List.mem_cons, List.not_mem_nil, or_false] at hk
    rcases hk with rfl | rfl <;> simp only [PastHng, Field.key, Reg.CNT_N, Reg.PROG_CNT, Block.base, cePage] <;> omega
  obtain ⟨w, r, heq⟩ := s.countChunk_eq d x
  have hland : (s.countChunk d x).landQ = s.landQ := by rw [heq]
  simp only [State.slotMoves, hstate, hwork, hland]

theorem State.chunkIn_of_none {s : State} {e key : Nat} (stage : Nat) (c : Chunk) (adds : Nat)
    (h : s.slotOfKey (s.dieOfCir e) (s.cirCtx e) key = none) : s.chunkIn e key stage c adds = s := by
  simp only [State.chunkIn, h]

section
variable {s : State} {e key n : Nat} {x : Slot}

/-- Times that a chunk of a stage on a circuit has failed its check, the present one included, R247. -/
def Slot.tries (x : Slot) (e stage cidx : Nat) : Nat := (x.bad.filter (fun b => b == (8 * e + stage, cidx))).length + 1

/-- A chunk that fails its check is asked for again, or fails its collective. -/
theorem State.chunkIn_of_bad (stage : Nat) {c : Chunk} (adds : Nat) (hn : s.slotOfKey (s.dieOfCir e) (s.cirCtx e) key = some n)
    (hx : s.slot (s.dieOfCir e) n = some x) (hc : c.checks = false) : s.chunkIn e key stage c adds =
      let d := s.dieOfCir e
      let y := s.raise (cePage d) 0 (some x.ctx) n
      if s.rd Reg.CE_RESEND_LIM d < x.tries e stage c.cidx then y.collFail d n 6 0 false none
      else (y.onSlot d n (fun x' => { x' with bad := x'.bad ++ [(8 * e + stage, c.cidx)] })).engineSend e 3 0 stage c.cidx key := by
  simp only [State.chunkIn, hn, hx, hc]
  rfl

theorem State.chunkIn_of_used {c : Chunk} (adds : Nat) (hn : s.slotOfKey (s.dieOfCir e) (s.cirCtx e) key = some n)
    (hx : s.slot (s.dieOfCir e) n = some x) (hc : c.checks = true) (hu : (e, c.cidx) ∈ x.used) :
    s.chunkIn e key (s.rd Reg.SL_STAGE (s.dieOfCir e) n) c adds = s := by
  simp only [State.chunkIn, hn, hx, hc]
  rw [if_neg (by decide), if_pos (by simp [hu])]

/-- A good chunk that the schedule still waits for is counted, and used now or kept for its turn. -/
theorem State.chunkIn_of_good {stage : Nat} {c : Chunk} (adds : Nat) (hn : s.slotOfKey (s.dieOfCir e) (s.cirCtx e) key = some n)
    (hx : s.slot (s.dieOfCir e) n = some x) (hc : c.checks = true) (hst : s.rd Reg.SL_STAGE (s.dieOfCir e) n ≤ stage)
    (hknown : x.op = 5 ∨ (e, c.cidx) ∈ x.recvs stage) (hu : stage = s.rd Reg.SL_STAGE (s.dieOfCir e) n → (e, c.cidx) ∉ x.used) :
    s.chunkIn e key stage c adds =
      let d := s.dieOfCir e
      if s.slotMoves d n x && x.mayUse stage (s.rd Reg.SL_STAGE d n) e c
      then ((s.countChunk d x).chunkUse d n stage e c adds).collGo d n
      else (s.countChunk d x).onSlot d n (fun x' => { x' with early := x'.early ++ [⟨e, stage, c⟩] }) := by
  have hwanted : ¬ (!(x.op == 5 || (x.recvs stage).contains (e, c.cidx)) || decide (stage < s.rd Reg.SL_STAGE (s.dieOfCir e) n)
      || (stage == s.rd Reg.SL_STAGE (s.dieOfCir e) n && x.used.contains (e, c.cidx))) = true := by
    rw [Bool.not_eq_true, Bool.or_eq_false_iff, Bool.or_eq_false_iff]
    exact ⟨⟨by simpa [or_iff_not_imp_left] using hknown, by simpa using hst⟩, by simpa using hu⟩
  simp only [State.chunkIn, hn, hx, hc]
  rw [if_neg (by decide), if_neg hwanted, ← s.countChunk_slotMoves]
  rfl

/-! ### RESEND -/

theorem State.resendIn_of_slot {stage cidx : Nat} (hn : s.slotOfKey (s.dieOfCir e) (s.cirCtx e) key = some n)
    (hx : s.slot (s.dieOfCir e) n = some x) : s.resendIn e stage cidx key =
      (x.kept.find? (fun q => q.entry == e && q.stage == stage && q.chunk.cidx == cidx)).elim s (fun q =>
        let d := s.dieOfCir e
        let y := s.onSlot d n (fun x' => { x' with kept := x'.kept.filter (fun k => k != q) ++ [{ q with sends := q.sends + 1 }] })
        ((y.chunkOut x e stage q.chunk).count (cePage d) 3 1).progress (cePage d) 1) := by
  simp only [State.resendIn, hn, hx]
  cases x.kept.find? (fun q => q.entry == e && q.stage == stage && q.chunk.cidx == cidx) <;> rfl

end

end Sys2Proof.Machine
end

section
open Sys2Proof Sys2Proof.Machine

/-- Settles O34: a chunk that arrives fails its check, comes again, is used now or is kept for its turn; the counts of its engine bear on
none of these. -/
theorem collectiveChunks : Obligations.CollectiveChunks := by
  intro s hr
  refine ⟨fun d n e c x hd hn he hx => ?_, fun e key stage cidx data trailer adds he hdata => ?_, fun e stage cidx key n x he hkey hx => ?_⟩
  · have hwf : (Instr.chunkSend d n e c).wellFormed = true := by simp [Instr.wellFormed, hd, hn, he]
    refine ⟨fun hno => ?_, fun y q hsends hsent hready hcr hcir hfence hmoves hq => ?_⟩
    · exact exec_eq_self (g := fun s => s.chunkSend d n e c) rfl hwf hr (State.chunkSend_of_no_credit c hx hno)
    · exact exec_eq_answer_of (g := fun s => s.chunkSend d n e c) rfl hwf hr
        (State.chunkSend_of_credit hx hsends hsent hready hcr hcir hfence hmoves hq)
  · have hwf : (Instr.chunkReceive e key stage cidx data trailer adds).wellFormed = true := by simp [Instr.wellFormed, he, hdata]
    intro d c
    have hself := exec_eq_self (i := .chunkReceive e key stage cidx data trailer adds) (g := fun s => s.chunkIn e key stage c adds) rfl hwf hr
    have hanswer {u : State} := exec_eq_answer_of (u := u) (i := .chunkReceive e key stage cidx data trailer adds)
      (g := fun s => s.chunkIn e key stage c adds) rfl hwf hr
    refine ⟨fun hnone => hself (State.chunkIn_of_none stage c adds hnone), fun n x hkey hx => ?_⟩
    intro tries counted
    refine ⟨fun hc hle => ?_, fun hc hlt => ?_, fun hc hst hu => ?_, fun hc hst hknown hu hmoves hmay => ?_, fun hc hst hknown hu hwaits => ?_⟩
    · exact hanswer ((State.chunkIn_of_bad stage adds hkey hx hc).trans (if_neg (not_lt.mpr hle)))
    · exact hanswer ((State.chunkIn_of_bad stage adds hkey hx hc).trans (if_pos hlt))
    · subst hst
      exact hself (State.chunkIn_of_used adds hkey hx hc hu)
    · subst hst
      exact hanswer ((State.chunkIn_of_good adds hkey hx hc le_rfl hknown fun _ => hu).trans (if_pos (Bool.and_eq_true _ _ ▸ ⟨hmoves, hmay⟩)))
    · refine hanswer ((State.chunkIn_of_good adds hkey hx hc hst hknown hu).trans (if_neg ?_))
      rw [Bool.and_eq_true, not_and_or, Bool.not_eq_true, Bool.not_eq_true]
      exact hwaits
  · have hwf : (Instr.resend e stage cidx key).wellFormed = true := decide_eq_true he
    refine ⟨fun hnone => ?_, fun q hq => ?_⟩
    · exact exec_eq_self (g := fun s => s.resendIn e stage cidx key) rfl hwf hr
        ((State.resendIn_of_slot hkey hx).trans (congrArg (Option.elim · s _) hnone))
    · exact exec_eq_answer_of (g := fun s => s.resendIn e stage cidx key) rfl hwf hr
        ((State.resendIn_of_slot hkey hx).trans (congrArg (Option.elim · s _) hq))

end

section
namespace Sys2Proof.Machine

open Sys2Proof

/-! PROOFS. The end of a collective: ABORT and OTHER, pace words, stalls, completion and broken circuits. -/

theorem State.abortIn_of_slot {s : State} {e key n : Nat} (status : Nat) (hn : s.slotOfKey (s.dieOfCir e) (s.cirCtx e) key = some n) :
    s.abortIn e status key = (s.setWire e { s.wire e with other := none }).collFail (s.dieOfCir e) n status ((s.wire e).other.getD 0) true
      (some e) := by
  have hn' : (s.setWire e { s.wire e with other := none }).slotOfKey (s.dieOfCir e) (s.cirCtx e) key = some n := hn
  simp only [State.abortIn, hn']

/-! ### Pace words -/

/-- A pace word that came on circuit `e` and is kept for neighbour `n`. -/
def State.notePace (s : State) (e word n : Nat) : State :=
  { s with hearth := { s.hearth with paces := SMap.put s.hearth.paces (32 * s.dieOfCir e + n) ((s.timeUs, word, s.rd Reg.CT_FAR_PKG 0 e) ::
    (SMap.get [] s.hearth.paces (32 * s.dieOfCir e + n)).filter (fun x => decide (s.timeUs ≤ x.1 + 10000))) } }

theorem State.paceIn_of_neighbour {s : State} {e n : Nat} (word : Nat) (hn : s.nbOf (s.dieOfCir e) (s.rd Reg.CT_FAR_PKG 0 e) = some n) :
    s.paceIn e word = (s.notePace e word n).wr Reg.NB_PACE (s.dieOfCir e) n word := by
  simp only [State.paceIn, hn]
  rfl

theorem pace_pastHng (d n : Nat) : PastHng (Reg.NB_PACE.key d n) := by
  simp only [PastHng, Field.key, Reg.NB_PACE, Block.base]; omega

/-! ### Stalls -/

/-- The time up to which a slot waits on a circuit before it stalls, R261. -/
def State.stallAt (s : State) (d e : Nat) (x : Slot) : Nat := max x.since ((SMap.find x.heard e).getD 0) + 1000 * s.rd Reg.CE_OSTALL_MS d

section
variable {s : State} {d n e : Nat} {x : Slot}

theorem State.orderStall_of_moving (hx : s.slot d n = some x) (h : s.rd Reg.SL_STATE d n < 2 ∨ s.timeUs < s.stallAt d e x ∨
    (s.waitsCredit d n e x = false ∧ s.waitsChunk d n e x = false)) : s.orderStall d n e = s := by
  simp only [State.orderStall, hx]
  refine if_pos ?_
  rcases h with h | h | ⟨hcredit, hchunk⟩
  · exact .inl h
  · exact .inr (.inr h)
  · exact .inr (.inl (by simp [hcredit, hchunk]))

theorem State.orderStall_of_stalled (hx : s.slot d n = some x) (hst : 2 ≤ s.rd Reg.SL_STATE d n)
    (hwaits : s.waitsCredit d n e x = true ∨ s.waitsChunk d n e x = true) (htime : s.stallAt d e x ≤ s.timeUs) (hrooms : s.rooms = []) :
    s.orderStall d n e = s.wr Reg.SL_STALLED d n 1 := by
  have hstalled : ¬ (s.rd Reg.SL_STATE d n < 2 ∨ !(s.waitsCredit d n e x || s.waitsChunk d n e x) ∨ s.timeUs < s.stallAt d e x) := by
    simpa using ⟨hst, by simpa [or_iff_not_imp_left] using hwaits, htime⟩
  simp only [State.orderStall, hx, hrooms]
  exact if_neg hstalled

theorem stalled_pastHng (d n : Nat) : PastHng (Reg.SL_STALLED.key d n) := by
  simp only [PastHng, Field.key, Reg.SL_STALLED, Block.base]; omega

/-! ### Completion -/

theorem State.collComplete_of_not_running (hx : (s.collGo d n).slot d n = some x) (hst : (s.collGo d n).rd Reg.SL_STATE d n ≠ 3) :
    s.collComplete d n = s.collGo d n := by
  simp only [State.collComplete, hx]
  rw [if_pos (by simp [hst])]

/-- What remains of DST is written, once. -/
def State.collWritten (y : State) (d n : Nat) (x : Slot) : State :=
  if x.wrote then y else (y.collFinalWrite n x).onSlot d n (fun q => { q with wrote := true })

theorem State.collComplete_of_done (hx : (s.collGo d n).slot d n = some x) (hst : (s.collGo d n).rd Reg.SL_STATE d n = 3) (hop : x.op ≠ 5)
    (hlast : x.stages ≤ (s.collGo d n).rd Reg.SL_STAGE d n + 1)
    (hdone : x.stages = 0 ∨ (x.stageDone ((s.collGo d n).rd Reg.SL_STAGE d n) = true ∧ x.kept = [])) :
    s.collComplete d n =
      let z := (s.collGo d n).collWritten d n x
      if z.landQ.any (fun w => w.writer == .coll d n) then z else (z.slot d n).elim z (fun q => z.collFinish d n q) := by
  generalize hy : s.collGo d n = y at *
  have hready : ¬ (!(y.rd Reg.SL_STATE d n == 3 && (x.stages == 0 || (x.stageDone (y.rd Reg.SL_STAGE d n) && x.kept.isEmpty)))) = true := by
    simpa [hst, or_iff_not_imp_left] using hdone
  have hend : ¬ decide (y.rd Reg.SL_STAGE d n + 1 < x.stages) = true := by simpa using hlast
  simp only [State.collComplete, hy, hx]
  rw [if_neg hready, if_neg hop, if_neg hend, ← State.collWritten]
  generalize y.collWritten d n x = z
  cases z.slot d n with
  | none => rfl
  | some q => rw [Option.elim_some]

end

/-! ### Broken circuits -/

theorem State.breakReport_of_whole {s : State} {e : Nat} (h5 : s.cirState e ≠ 5) (h6 : s.cirState e ≠ 6) : s.breakReport e = s := by
  simp [State.breakReport, h5, h6]

theorem State.breakReport_of_closed {s : State} {e : Nat} (hend : s.isEndpoint e = true) (h5 : s.cirState e = 5) :
    s.breakReport e = (List.range 16).foldl (fun (y : State) n =>
      if (y.slot (s.dieOfCir e) n).any (fun x => x.ctx == y.cirCtx e && x.groupCircuits.contains e)
      then y.collFail (s.dieOfCir e) n 4 0 false none else y) s := by
  simp only [State.breakReport, hend, h5]
  rfl

end Sys2Proof.Machine
end

section
open Sys2Proof Sys2Proof.Machine

/-- Settles O35: each command of a collective's end comes to one effect; a pace word and a stall write one register past page HNG. -/
theorem collectivesEnd : Obligations.CollectivesEnd := by
  intro s hr
  refine ⟨fun e status key n he hkey => ?_, fun e key he => ?_, fun e word n he hd hn => ?_, fun d hd => ?_, fun d n e x hd hn he hx => ?_,
    fun d n x hd hn => ?_, fun e he => ⟨fun h5 h6 => ?_, fun hend h5 => ?_⟩⟩
  · exact exec_eq_answer_of (g := fun s => s.abortIn e status key) rfl (decide_eq_true he) hr (State.abortIn_of_slot status hkey)
  · exact exec_eq_of_keeps (g := fun s => s.otherIn e key) rfl (decide_eq_true he) hr (.of_regs rfl) rfl rfl rfl rfl
  · have heff := State.paceIn_of_neighbour word hn
    have hkeep : KeepsOutside (· = Reg.NB_PACE.key (s.dieOfCir e) n) s (s.paceIn e word) := by
      rw [heff]; exact (KeepsOutside.of_regs (s := s) (u := s.notePace e word n) rfl).wr _ rfl
    have hexec : exec (.pace e word) s = .next (s.paceIn e word) :=
      exec_eq_of_keeps (g := fun s => s.paceIn e word) rfl (decide_eq_true he) hr
        (hkeep.mono fun _ hk => hk ▸ pace_pastHng (s.dieOfCir e) n) (by rw [heff]; rfl) (by rw [heff]; rfl) (by rw [heff]; rfl)
        (by rw [heff]; rfl)
    exact ⟨_, hexec, by rw [heff, State.rd_wr_self], fun f i j hf => hkeep f i j hf⟩
  · exact exec_eq_answer_of (g := fun s => s.paceSend d) rfl (decide_eq_true hd) hr rfl
  · have hwf : (Instr.orderStall d n e).wellFormed = true := by simp [Instr.wellFormed, hd, hn, he]
    refine ⟨fun hst hwaits htime hrooms => ?_, fun hmoves => ?_⟩
    · have heff := State.orderStall_of_stalled hx hst hwaits htime hrooms
      have hkeep : KeepsOutside (· ∈ [Reg.SL_STALLED.key d n]) s (s.wr Reg.SL_STALLED d n 1) := (KeepsOutside.refl _ s).wr _ (by simp)
      have hexec : exec (.orderStall d n e) s = .next (s.orderStall d n e) :=
        exec_eq_of_keeps (g := fun s => s.orderStall d n e) rfl hwf hr
          (by rw [heff]; exact hkeep.mono fun _ hk => List.mem_singleton.mp hk ▸ stalled_pastHng d n)
          (by rw [heff]; rfl) (by rw [heff]; rfl) (by rw [heff]; rfl) (by rw [heff]; rfl)
      exact ⟨_, hexec.trans (congrArg _ heff), s.rd_wr_self _ _ _ _, hkeep, rfl⟩
    · exact exec_eq_self (g := fun s => s.orderStall d n e) rfl hwf hr (State.orderStall_of_moving hx hmoves)
  · have hwf : (Instr.collComplete d n).wellFormed = true := by simp [Instr.wellFormed, hd, hn]
    intro y hx
    refine ⟨fun hst => ?_, fun hst hop hlast hdone => ?_⟩
    · exact exec_eq_answer_of (g := fun s => s.collComplete d n) rfl hwf hr (State.collComplete_of_not_running hx hst)
    · exact exec_eq_answer_of (g := fun s => s.collComplete d n) rfl hwf hr (State.collComplete_of_done hx hst hop hlast hdone)
  · exact exec_eq_self (g := fun s => s.breakReport e) rfl (decide_eq_true he) hr (State.breakReport_of_whole h5 h6)
  · exact exec_eq_answer_of (g := fun s => s.breakReport e) rfl (decide_eq_true he) hr (State.breakReport_of_closed hend h5)

end

section
namespace Sys2Proof.Machine

open Sys2Proof

/-! PROOFS. How a collective starts: what its reads and sends leave of the slots, triggers, START and CREDIT. -/

/-! ### Slots kept by sends -/

theorem foldl_slots {α : Type} {g : State → α → State} (hg : ∀ u x, (g u x).slots = u.slots) (l : List α) (s : State) :
    (l.foldl g s).slots = s.slots :=
  List.foldlRecOn (motive := fun u => u.slots = s.slots) l g rfl (fun u hu x _ => (hg u x).trans hu)

theorem State.portSend_slots (s : State) (k : Nat) (p : Packet) : (s.portSend k p).1.slots = s.slots := by
  simp only [State.portSend]
  split <;> rfl

theorem State.dropHeld_slots (s : State) (e : Nat) : (s.dropHeld e).slots = s.slots :=
  foldl_slots (g := fun (u : State) (h : HeldPkt) => u.freeCredit h.port h.pkt) (fun _ _ => rfl) _ s

theorem State.nbTake_slots (s : State) (d pkg : Nat) : (s.nbTake d pkg).slots = s.slots := by
  simp only [State.nbTake]
  split
  · rfl
  · split <;> rfl

theorem State.nbFree_slots (s : State) (d : Nat) : (s.nbFree d).slots = s.slots := by
  refine foldl_slots (fun u n => ?_) _ s
  exact (apply_ite State.slots _ _ _).trans (ite_self _)

theorem State.setCirState_slots (s : State) (e st : Nat) : (s.setCirState e st).slots = s.slots := by
  simp only [State.setCirState]
  split
  · exact State.nbTake_slots ..
  · split
    · rfl
    · exact State.nbFree_slots ..

theorem State.cirEvent_slots (s : State) (e kind path : Nat) : (s.cirEvent e kind path).slots = s.slots := by
  simp only [State.cirEvent]
  split <;> rfl

theorem State.breakCir_slots (s : State) (e cause : Nat) : (s.breakCir e cause).slots = s.slots := by
  have hevent : ((((s.dropHeld e).wr Reg.CT_RUN_CAUSE 0 e cause).setCirState e 6).cirEvent e 4 0).slots = s.slots := by
    rw [State.cirEvent_slots, State.setCirState_slots, State.wr_slots, State.dropHeld_slots]
  simp only [State.breakCir]
  split
  · rw [State.raise_slots, State.raise_slots, hevent]
  · split
    · rw [State.raise_slots, State.raise_slots, hevent]
    · rw [State.raise_slots, hevent]

/-- A numbered packet changes no slot, though the circuit may break as it is sent. -/
theorem State.cirSend_slots (s : State) (e : Nat) (data fence : Bool) (pay : Nat) (body : List Byte) :
    (s.cirSend e data fence pay body).slots = s.slots := by
  simp only [State.cirSend]
  split
  · rfl
  · rw [apply_ite State.slots, State.breakCir_slots, ite_self, foldl_slots fun u p => ?_]
    · rfl
    · rw [apply_ite State.slots, State.portSend_slots, ite_self]

@[simp] theorem State.engineSend_slots (s : State) (e kind status stage arg key : Nat) :
    (s.engineSend e kind status stage arg key).slots = s.slots := State.cirSend_slots ..

/-! ### Slots kept by reads -/

theorem State.count_slots (s : State) (p n k : Nat) : (s.count p n k).slots = s.slots := by rw [s.count_eq]

theorem State.occur_slots (s : State) (p b : Nat) (c : Option Nat) (d : Nat) : (s.occur p b c d).slots = s.slots := by
  obtain ⟨_, _, _, _, _, _, h⟩ := s.occur_occurs p b c d
  rw [h]

theorem State.larderWord_slots (s : State) (a : Nat) : (s.larderWord a).1.slots = s.slots := by
  simp only [State.larderWord]
  split
  · rfl
  · split
    · exact State.count_slots ..
    · split
      · rfl
      · exact (State.occur_slots ..).trans (State.count_slots ..)

theorem State.larderWords_slots (s : State) (w n : Nat) : (s.larderWords w n).1.slots = s.slots := by
  induction n generalizing s w with
  | zero => rfl
  | succ n ih => exact (ih ..).trans (State.larderWord_slots ..)

theorem State.larderGranules_slots (s : State) (g n : Nat) : (s.larderGranules g n).1.slots = s.slots := by
  induction n generalizing s g with
  | zero => rfl
  | succ n ih =>
    refine (ih ..).trans ?_
    split
    · exact (State.count_slots ..).trans (State.larderWords_slots ..)
    · exact State.larderWords_slots ..

theorem State.larderGet_slots (s : State) (c : Option Nat) (a n : Nat) : (s.larderGet c a n).1.slots = s.slots := by
  have hcount : (c.elim (s.count (0x40 + stackOf a) 0 (granules a n))
      (fun x => (s.count (0x40 + stackOf a) 0 (granules a n)).count (0x300 + x) 5 (granules a n))).slots = s.slots := by
    cases c with
    | none => exact State.count_slots ..
    | some x => exact (State.count_slots ..).trans (State.count_slots ..)
  simp only [State.larderGet]
  generalize c.elim (s.count (0x40 + stackOf a) 0 (granules a n)) _ = u at hcount ⊢
  split
  · exact hcount
  · split <;> exact (State.larderGranules_slots ..).trans hcount

theorem State.ceRead_slots (s : State) (d c a n : Nat) : (s.ceRead d c a n).1.slots = s.slots := by
  have hok : (s.larderOk c 0 a n).1.slots = s.slots := by
    simp only [State.larderOk]
    split
    · rfl
    · split <;> rfl
  simp only [State.ceRead]
  split
  · rfl
  · split
    · rw [State.larderGet_slots, State.hubFlits_eq]; exact hok
    · exact hok

/-- The segments that an all-to-allv sends are read, and no slot changes. -/
theorem State.collSegs_slots (s : State) (x : Slot) : (s.collSegs x).1.slots = s.slots := by
  have hread (u : State) (a n : Nat) : (u.collRead x false a n).1.slots = u.slots := State.ceRead_slots ..
  simp only [State.collSegs]
  split
  next u hu => rw [← hread s (x.words.getD 10 0 * 256) (4 * x.nmemb), hu]
  next u b hu =>
    have hsv : u.slots = s.slots := by rw [← hread s (x.words.getD 10 0 * 256) (4 * x.nmemb), hu]
    refine List.foldlRecOn (motive := fun r : State × Option (List Segment) => r.1.slots = s.slots) _ _ hsv (fun r hr j _ => ?_)
    split
    · exact hr
    · split
      · exact hr
      next v l =>
        split
        next w hw => exact (congrArg (fun q => q.1.slots) hw).symm.trans ((hread v _ _).trans hr)
        next w dat hw => exact (congrArg (fun q => q.1.slots) hw).symm.trans ((hread v _ _).trans hr)

/-! ### A slot that changes -/

theorem State.slot_onSlot_self {s : State} {d n : Nat} {x : Slot} (f : Slot → Slot) (h : s.slot d n = some x) :
    (s.onSlot d n f).slot d n = some (f x) := by
  rw [State.slot] at h
  simp only [State.onSlot, h, State.slot, SMap.find_put_self]

theorem State.onSlot_regs (s : State) (d n : Nat) (f : Slot → Slot) : (s.onSlot d n f).regs = s.regs := by
  simp only [State.onSlot]
  split <;> rfl

@[simp] theorem State.slot_wr (s : State) (f : Field) (i j v d n : Nat) : (s.wr f i j v).slot d n = s.slot d n := rfl

/-- Two fields of one element that begin at different bits stand at different places. -/
theorem key_ne_of_bit {f g : Field} (k i : Nat) (h : f.off * 32 + f.lo ≠ g.off * 32 + g.lo := by decide) (hb : f.block = g.block := by rfl)
    (hs : f.stride = g.stride := by rfl) : f.key k i ≠ g.key k i := by
  simp only [Field.key, hb, hs]; omega

/-! ### Triggers -/

section
variable {s : State} {d n : Nat} {x : Slot}

/-- A slot stays as it is out of TRIGGER, and while its fold has not completed, R243. -/
theorem State.collTrigger_of_waiting (hx : s.slot d n = some x) (h : s.rd Reg.SL_STATE d n ≠ 1 ∨ (x.fwait = true ∧
    s.rd Reg.MEM_FDONE (stackOf x.src) (x.ctx % 16) ≠ x.words.getD 9 0 ∧
    newer (s.rd Reg.MEM_FDONE (stackOf x.src) (x.ctx % 16)) (x.words.getD 9 0) = false)) : s.collTrigger d n = s := by
  simp only [State.collTrigger, hx]
  refine if_pos ?_
  rcases h with hst | ⟨hwait, hne, hold⟩
  · exact .inl hst
  · exact .inr (.inr (.inl (by rw [hwait, hold, Bool.or_false, beq_eq_false_iff_ne.mpr hne]; rfl)))

/-- A slot whose triggers are met sends START, with the segments `l` to send. -/
def State.collStart (z : State) (d n : Nat) (x : Slot) (l : List Segment) : State :=
  let y := x.outCircuits.foldl (fun (y : State) e => y.engineSend e 1 0 0 0 x.key) z
  let y := y.onSlot d n (fun x' => { x' with unanswered := x.outCircuits, since := y.timeUs, segs := l })
  (y.wr Reg.SL_STATE d n (if x.outCircuits.isEmpty then 3 else 2)).collGo d n

theorem State.collTrigger_of_met {z : State} {l : List Segment} (hx : s.slot d n = some x) (hst : s.rd Reg.SL_STATE d n = 1)
    (hwork : s.mayWork (cePage d) 0 x.ctx = true) (hfold : x.fwait = false) (htag : x.stagchk = false)
    (hsegs : (if x.op = 5 then s.collSegs x else (s, some [])) = (z, some l)) : s.collTrigger d n = z.collStart d n x l := by
  have hz : z.slots = s.slots := by
    have h := congrArg (fun r => r.1.slots) hsegs
    dsimp only at h
    rw [← h]
    split
    · exact s.collSegs_slots x
    · rfl
  have hslot : (x.outCircuits.foldl (fun (y : State) e => y.engineSend e 1 0 0 0 x.key) z).slot d n = some x := by
    rw [State.slot, foldl_slots (fun u e => State.engineSend_slots ..), hz]
    exact hx
  simp only [State.collTrigger, hx]
  rw [if_neg (by simp [hst, hwork, hfold, htag])]
  simp only [htag, Bool.false_and, Bool.false_eq_true, if_false, hsegs]
  rw [State.onSlot_congr hslot (g := fun x' => { x' with unanswered := x.outCircuits
                                                         since := (x.outCircuits.foldl (fun (y : State) e => y.engineSend e 1 0 0 0 x.key) z).timeUs
                                                         segs := l }) rfl]
  rfl

theorem State.startResend_of_slot (hx : s.slot d n = some x) :
    s.startResend d n = x.unanswered.foldl (fun (y : State) e => y.engineSend e 1 0 0 0 x.key) s := by
  simp only [State.startResend, hx]

/-! ### START -/

variable {e key : Nat}

theorem State.startIn_of_slot {st : Nat} (hn : s.slotOfKey (s.dieOfCir e) (s.cirCtx e) key = some n) (hx : s.slot (s.dieOfCir e) n = some x)
    (hst : x.inStage e = some st) : s.startIn e key = s.grant (s.dieOfCir e) n e st := by
  simp only [State.startIn, hn, hx, Option.bind_some, hst]

theorem State.startIn_of_done (hn : s.slotOfKey (s.dieOfCir e) (s.cirCtx e) key = none)
    (h : s.doneKeys.contains (s.dieOfCir e, s.cirCtx e, key) = true) : s.startIn e key = s := by
  simp only [State.startIn, hn]
  exact if_pos h

theorem State.startIn_of_early (hn : s.slotOfKey (s.dieOfCir e) (s.cirCtx e) key = none)
    (hdone : s.doneKeys.contains (s.dieOfCir e, s.cirCtx e, key) = false)
    (hnew : ∀ h ∈ s.rooms, ¬ (h.1 / 64 = s.dieOfCir e ∧ h.2.ctx = s.cirCtx e ∧ h.2.key = key ∧ h.2.entry = some e)) :
    s.startIn e key = s.holdPut (s.dieOfCir e) ⟨s.cirCtx e, key, some e, s.rd Reg.CT_FAR_PKG 0 e, false, 0, 0, s.timeUs⟩ := by
  have hroom : ¬ (s.rooms.any (fun h => h.1 / 64 == s.dieOfCir e && h.2.ctx == s.cirCtx e && h.2.key == key && h.2.entry == some e)) = true := by
    rw [Bool.not_eq_true, List.any_eq_false]
    intro h hh
    simpa [and_assoc] using hnew h hh
  simp only [State.startIn, hn]
  rw [if_neg (by rw [hdone]; decide), if_neg hroom]

theorem State.holdPut_of_free {i : Nat} (h : Hold) (hi : (List.range 64).find? (fun i => (SMap.find s.rooms (64 * d + i)).isNone) = some i) :
    s.holdPut d h = { s with rooms := SMap.put s.rooms (64 * d + i) h } := by
  simp only [State.holdPut, hi]

theorem State.holdPut_of_full (h : Hold) (hfull : ∀ i < 64, (SMap.find s.rooms (64 * d + i)).isSome = true) :
    s.holdPut d h = s.raise (cePage d) 7 (some h.ctx) 0 := by
  have hnone : (List.range 64).find? (fun i => (SMap.find s.rooms (64 * d + i)).isNone) = none := by
    rw [List.find?_eq_none]
    intro i hi
    rw [← Option.not_isSome, hfull i (List.mem_range.mp hi)]
    decide
  simp only [State.holdPut, hnone]

/-! ### CREDIT -/

theorem State.creditIn_of_none (stage arg : Nat) (hn : s.slotOfKey (s.dieOfCir e) (s.cirCtx e) key = none) : s.creditIn e stage arg key = s := by
  simp only [State.creditIn, hn]

/-- What a slot holds after a CREDIT at time `now`: the first of a stage is the grant, and a later one returns what was sent longest ago. -/
def Slot.credited (x : Slot) (e stage arg now : Nat) : Slot :=
  let gone := if (SMap.find x.credit (8 * e + stage)).isNone then []
    else (x.kept.filter (fun q => q.entry == e && q.stage == stage)).take arg
  { x with unanswered := x.unanswered.filter (fun z => z != e)
           credit := SMap.put x.credit (8 * e + stage) ((SMap.find x.credit (8 * e + stage)).getD 0 + arg)
           kept := x.kept.filter (fun q => !gone.contains q), heard := SMap.put x.heard e now }

/-- The effect of a CREDIT on a slot, by whatever change `f` is written that gives what the slot holds then. -/
theorem State.creditIn_of_slot {stage arg : Nat} {f : Slot → Slot} (hf : f x = x.credited e stage arg s.timeUs)
    (hn : s.slotOfKey (s.dieOfCir e) (s.cirCtx e) key = some n)
    (hx : s.slot (s.dieOfCir e) n = some x) : s.creditIn e stage arg key =
      let d := s.dieOfCir e
      let y := (s.onSlot d n f).wr Reg.SL_STALLED d n 0
      (if s.rd Reg.SL_STATE d n = 2 ∧ x.unanswered.filter (fun z => z != e) = [] then y.wr Reg.SL_STATE d n 3 else y).collGo d n := by
  have hslot := State.slot_onSlot_self f hx
  have hstate : ((s.onSlot (s.dieOfCir e) n f).wr Reg.SL_STALLED (s.dieOfCir e) n 0).rd Reg.SL_STATE (s.dieOfCir e) n =
      s.rd Reg.SL_STATE (s.dieOfCir e) n := by
    rw [State.rd_wr_ne _ _ (key_ne_of_bit _ _)]
    exact State.rd_congr (State.onSlot_regs ..) ..
  simp only [State.creditIn, hn]
  rw [State.onSlot_congr hx (g := f) hf.symm, hstate, State.slot_wr, hslot, hf, Option.any_some]
  simp only [List.isEmpty_iff]
  rfl

end

end Sys2Proof.Machine
end

section
open Sys2Proof Sys2Proof.Machine

theorem collectiveStart : Clause.CollectiveStart := by
  intro s hr
  refine ⟨fun d n x hd hn hx => ⟨fun hst => ?_, fun z l hst hwork hfold htag hsegs => ?_, ?_⟩, fun e key he hnone => ?_,
    fun e key n st x he hkey hx hst => ?_, fun e stage arg key n x he hd hn hkey hx => ?_, fun e stage arg key he hnone => ?_⟩
  · exact exec_eq_self (g := fun s => s.collTrigger d n) rfl (by simp [Instr.wellFormed, hd, hn]) hr (State.collTrigger_of_waiting hx (.inl hst))
  · exact exec_eq_answer_of (g := fun s => s.collTrigger d n) rfl (by simp [Instr.wellFormed, hd, hn]) hr
      (State.collTrigger_of_met hx hst hwork hfold htag hsegs)
  · exact exec_eq_answer_of (g := fun s => s.startResend d n) rfl (by simp [Instr.wellFormed, hd, hn]) hr (State.startResend_of_slot hx)
  · have hwf : (Instr.start e key).wellFormed = true := decide_eq_true he
    intro d
    refine ⟨fun hdone => ?_, fun hdone hnew => ?_⟩
    · exact exec_eq_self (g := fun s => s.startIn e key) rfl hwf hr (State.startIn_of_done hnone hdone)
    have hheld := State.startIn_of_early hnone hdone hnew
    refine ⟨fun i hi => ?_, fun hfull => ?_⟩
    · have heff := hheld.trans (State.holdPut_of_free _ hi)
      have hexec : exec (.start e key) s = .next (s.startIn e key) :=
        exec_eq_of_keeps (g := fun s => s.startIn e key) rfl hwf hr (by rw [heff]; exact .of_regs rfl) (by rw [heff]) (by rw [heff])
          (by rw [heff]) (by rw [heff])
      exact hexec.trans (congrArg _ heff)
    · exact exec_eq_answer_of (g := fun s => s.startIn e key) rfl hwf hr (hheld.trans (State.holdPut_of_full _ hfull))
  · exact exec_eq_answer_of (g := fun s => s.startIn e key) rfl (decide_eq_true he) hr (State.startIn_of_slot hkey hx hst)
  · exact exec_eq_answer_of (g := fun s => s.creditIn e stage arg key) rfl (decide_eq_true he) hr
      (State.creditIn_of_slot rfl hkey hx)
  · exact exec_eq_self (g := fun s => s.creditIn e stage arg key) rfl (decide_eq_true he) hr (State.creditIn_of_none stage arg hnone)

end

section
namespace Sys2Proof.Machine

open Sys2Proof

/-! PROOFS. How a collective command is judged and taken: what the engine's reads and its one write leave of the state, and what a slot
shows. -/

/-! ### Reads of an engine -/

/-- The places of the counters, and of the flits that the dies send to the hub. -/
def HubPlace (k : Nat) : Prop := k ∈ (List.range 4).map (fun e => Reg.BR_FLITS.key e 4) ∨ CounterPlace k

theorem HubPlace.pastHng {k : Nat} (h : HubPlace k) : PastHng k := by
  rcases h with h | h
  · obtain ⟨e, -, rfl⟩ := List.mem_map.mp h
    simp only [PastHng, Field.key, Reg.BR_FLITS, Block.base]; omega
  · exact h.pastHng

/-- A field below the pages of the bridges and beyond the common header of its page stands on no such place. -/
theorem not_hubPlace {f : Field} (i : Nat) {j : Nat} (hf : 0x100 ≤ f.off ∧ f.off + f.stride * j < 4096 ∧ f.lo < 32)
    (hb : f.block.base + i < 0x60) : ¬ HubPlace (f.key i j) := by
  refine not_or.mpr ⟨fun h => ?_, not_counterPlace i hf⟩
  obtain ⟨e, -, he⟩ := List.mem_map.mp h
  have hflits : Reg.BR_FLITS.key e 4 = ((0x60 + e) * 4096 + 0x410) * 32 := by
    simp only [Field.key, Reg.BR_FLITS, Block.base]; omega
  rw [hflits, Field.key] at he
  omega

/-- At most those counters and flits differ. -/
structure HubCounts (s u : State) : Prop where
  rest : u = { s with regs := u.regs }
  keeps : KeepsOutside HubPlace s u

theorem HubCounts.refl (s : State) : HubCounts s s := ⟨rfl, .refl _ s⟩

theorem HubCounts.trans {s u v : State} (h : HubCounts s u) (h' : HubCounts u v) : HubCounts s v where
  rest := by rw [h'.rest, h.rest]
  keeps := h.keeps.trans h'.keeps

theorem CountsOnly.hubCounts {s u : State} (h : CountsOnly s u) : HubCounts s u := ⟨h.rest, h.keeps.mono fun _ => .inr⟩

theorem State.hubFlits_hubCounts (s : State) {d : Nat} (hd : d < 4) (a n : Nat) (wr : Bool) : HubCounts s (s.hubFlits d a n wr) where
  rest := s.hubFlits_eq d a n wr
  keeps := by
    simp only [State.hubFlits]
    split
    next => exact .refl _ s
    next h =>
      obtain ⟨-, hgood⟩ := not_or.mp h
      have hstack := stackOf_lt_of_not_bad (Bool.not_eq_true _ ▸ hgood)
      refine (KeepsOutside.refl _ s).countF _ (.inl (List.mem_map_of_mem (List.mem_range.mpr ?_)))
      simp only [dieOfStack]
      split <;> omega

theorem State.ceRead_of_some {s u : State} {d c a n : Nat} {l : List Byte} (hd : d < 4) (he : s.lerr = [])
    (h : s.ceRead d c a n = (u, some l)) : HubCounts s u := by
  simp only [State.ceRead] at h
  split at h
  · cases h
  · cases hc : s.larderCheck c 0 80 a n with
    | some b =>
      simp only [State.larderOk, hc] at h
      split at h <;> cases h
    | none =>
      rw [State.larderOk_of_none hc] at h
      have hflits := s.hubFlits_hubCounts hd a n false
      obtain ⟨v, hv, hcount⟩ := State.larderGet_of_no_errors (s := s.hubFlits d a n false) (by rw [hflits.rest]; exact he) (some c) a n
      obtain rfl : v = u := congrArg Prod.fst (hv.symm.trans h)
      exact hflits.trans hcount.hubCounts

theorem State.ceReads_of_some {d c : Nat} (hd : d < 4) {l : List (Nat × Nat)} {s u : State} {r : List (List Byte)} (he : s.lerr = [])
    (h : s.ceReads d c l = (u, some r)) : HubCounts s u := by
  induction l generalizing s r with
  | nil => cases h; exact .refl _
  | cons p l ih =>
    obtain ⟨a, n⟩ := p
    simp only [State.ceReads] at h
    have hfirst {v : State} {b : List Byte} (hv : (if s.inRegions c false 80 a n then s.ceRead d c a n else (s, some [])) = (v, some b)) :
        HubCounts s v := by
      split at hv
      · exact State.ceRead_of_some hd he hv
      · cases hv; exact .refl s
    split at h
    · cases h
    next v b hv =>
      split at h
      · cases h
      next w q hw =>
        obtain rfl : w = u := congrArg Prod.fst h
        exact (hfirst hv).trans (ih (by rw [(hfirst hv).rest]; exact he) hw)

/-- The slot that a command would take holds its words, and judging it counts what it reads. -/
theorem State.collPlan_of_some {s y : State} {d c cser : Nat} {words : List Nat} {x : Slot} {g sv : List Nat} (hd : d < 4)
    (h : s.collPlan d c cser words = (y, some (x, g, sv))) :
    (x.die = d ∧ x.ctx = c ∧ x.cser = cser ∧ x.words = words) ∧ (s.lerr = [] → HubCounts s y) := by
  simp only [State.collPlan] at h
  split at h
  next u rec hrec =>
    split at h
    next v tabs htabs =>
      have hread (he : s.lerr = []) : HubCounts s v := by
        have hgroup := State.ceReads_of_some hd he hrec
        exact hgroup.trans (State.ceReads_of_some hd (by rw [hgroup.rest]; exact he) htabs)
      split at h
      · split at h
        next z sizes hsizes =>
          cases h
          refine ⟨⟨rfl, rfl, rfl, rfl⟩, fun he => (hread he).trans (State.ceReads_of_some hd ?_ hsizes)⟩
          rw [(hread he).rest]; exact he
        next => cases h
      · cases h
        exact ⟨⟨rfl, rfl, rfl, rfl⟩, hread⟩
    next => cases h
  next => cases h

/-! ### The write of an engine -/

/-- A write of an engine that its checks allow changes the bytes that it names, beside counters. -/
theorem State.collWrite_of_allowed {s : State} {x : Slot} {a : Nat} {l : List Byte} (hd : x.die < 4) (he : s.lerr = [])
    (hcut : s.dieCut x.die a = false) (hc : s.larderCheck x.ctx 1 80 a l.length = none) :
    ∃ u, HubCounts s u ∧ s.collWrite x false a l = { u with larder := s.larder.writeBytes a l } := by
  have hflits := s.hubFlits_hubCounts hd a l.length true
  have hcount := (s.hubFlits x.die a l.length true).count_countsOnly (p := 0x300 + x.ctx) (n := 5) (granules a l.length) (by omega) (by decide)
  have hboth := hflits.trans hcount.hubCounts
  obtain ⟨u, hu, hput⟩ := State.larderPut_of_no_errors
    (s := (s.hubFlits x.die a l.length true).count (0x300 + x.ctx) 5 (granules a l.length)) (by rw [hboth.rest]; exact he) a l
  refine ⟨u, hboth.trans hu.hubCounts, ?_⟩
  simp only [State.collWrite, hcut, State.larderOk_of_none hc, Bool.false_eq_true, if_false, if_true]
  rw [State.larderPutFor, hput, hboth.rest]

/-! ### What a slot shows -/

/-- The fields that show a slot. -/
def collSlotFields : List Field :=
  [Reg.SL_STATE, Reg.SL_STATUS, Reg.SL_FROM_PEER, Reg.SL_STALLED, Reg.SL_BOUND, Reg.SL_OP, Reg.SL_CTX, Reg.SL_STAGE, Reg.SL_KEY, Reg.SL_CDONE,
   Reg.SL_OTHER, Reg.SL_WAIT_PREV, Reg.SL_WAIT_NEXT]

/-- The places of a slot's fields. -/
def collSlotKeys (d n : Nat) : List Nat := collSlotFields.map (fun f => f.key d n)

/-- The values of a slot that operation `op` of context `c` has taken with `key`, bound to no step. -/
def collSlotValues (op c key : Nat) : List (Field × Nat) :=
  [(Reg.SL_STATE, 1), (Reg.SL_STATUS, 0), (Reg.SL_FROM_PEER, 0), (Reg.SL_STALLED, 0), (Reg.SL_BOUND, 0), (Reg.SL_OP, op), (Reg.SL_CTX, c),
   (Reg.SL_STAGE, 0), (Reg.SL_KEY, key), (Reg.SL_CDONE, 0), (Reg.SL_OTHER, 0), (Reg.SL_WAIT_PREV, 0), (Reg.SL_WAIT_NEXT, 0)]

/-- Sets fields of slot `n` of engine `d` in turn. -/
def State.wrAll (s : State) (d n : Nat) (l : List (Field × Nat)) : State := l.foldl (fun s f => s.wr f.1 d n f.2) s

theorem State.wrAll_eq (s : State) (d n : Nat) (l : List (Field × Nat)) : s.wrAll d n l = { s with regs := (s.wrAll d n l).regs } := by
  rw [State.wrAll]
  refine List.foldlRecOn (motive := fun (u : State) => u = { s with regs := u.regs }) l _ rfl (fun u hu f _ => ?_)
  rw [hu]
  rfl

theorem State.wrAll_keeps (s : State) (d n : Nat) (l : List (Field × Nat)) :
    KeepsOutside (· ∈ (l.map Prod.fst).map (fun f => f.key d n)) s (s.wrAll d n l) := by
  rw [State.wrAll]
  refine KeepsOutside.foldl _ l (fun u f hf => (KeepsOutside.refl _ u).wr _ ?_) s
  exact List.mem_map_of_mem (f := fun (f : Field) => f.key d n) (List.mem_map_of_mem (f := Prod.fst) hf)

/-- Of fields at different places each reads as it was set. -/
theorem State.wrAll_rd {s : State} {d n : Nat} {l : List (Field × Nat)} (hl : ((l.map Prod.fst).map (fun f => f.key d n)).Nodup)
    {f : Field} {v : Nat} (hf : (f, v) ∈ l) : (s.wrAll d n l).rd f d n = v % 2 ^ f.width := by
  induction l generalizing s with
  | nil => cases hf
  | cons p l ih =>
    simp only [List.map_cons, List.nodup_cons] at hl
    obtain ⟨hp, hl⟩ := hl
    rcases List.mem_cons.mp hf with rfl | hf
    · rw [State.wrAll, List.foldl_cons, ← State.wrAll, State.wrAll_keeps _ d n l _ _ _ hp, State.rd_wr_self]
    · exact ih hl hf

theorem collSlotKeys_nodup (d n : Nat) : (collSlotKeys d n).Nodup := by
  have hplace : (collSlotFields.map (fun f => f.off * 32 + f.lo)).Nodup := by decide
  have hshape : ∀ f ∈ collSlotFields, f.block = .ce ∧ f.stride = 0x20 := by decide
  refine List.Nodup.map_on (fun f hf g hg h => List.inj_on_of_nodup_map hplace hf hg ?_) hplace.of_map
  obtain ⟨hfb, hfs⟩ := hshape f hf
  obtain ⟨hgb, hgs⟩ := hshape g hg
  simp only [Field.key, hfb, hfs, hgb, hgs] at h
  omega

theorem collSlotKeys_bounds {d n k : Nat} (hd : d < 4) (hn : n < 16) (h : k ∈ collSlotKeys d n) : 0x20 * 4096 * 32 ≤ k ∧ k < 0x24 * 4096 * 32 := by
  have hshape : ∀ f ∈ collSlotFields, f.block = .ce ∧ f.stride = 0x20 ∧ f.off < 0x220 ∧ f.lo < 32 := by decide
  obtain ⟨f, hf, rfl⟩ := List.mem_map.mp h
  obtain ⟨hb, hs, ho, hl⟩ := hshape f hf
  simp only [Field.key, hb, hs, Block.base]
  omega

/-! ### Judging -/

/-- The oldest command that waits at engine `d` is `w` with operation `op`, which the engine may judge; slot `n` is the lowest free one, and
what is read gives slot `x`, group record `g` and sizes `sv`, and leaves `y`. -/
structure Judged (s : State) (d op n : Nat) (w : CollWait) (x : Slot) (g sv : List Nat) (y : State) : Prop where
  head : s.collHead d = some w
  op : wfield w.words 0 3 0 = op
  fence : s.isFenced (cePage d) 0 = false
  drain : s.rd Reg.PAGE_DRAIN (cePage d) ≠ 1
  works : s.mayWork (cePage d) 0 w.ctx = true
  free : (List.range 16).find? (fun n => (s.slot d n).isNone) = some n
  plan : s.collPlan d w.ctx w.cser w.words = (y, some (x, g, sv))

section
variable {s y : State} {d op n : Nat} {w : CollWait} {x : Slot} {g sv : List Nat}

theorem Judged.goes (h : Judged s d op n w x g sv y) :
    ¬ (wfield w.words 0 3 0 ≠ op ∨ s.isFenced (cePage d) 0 || s.rdB Reg.PAGE_DRAIN (cePage d) 0 || !s.mayWork (cePage d) 0 w.ctx) := by
  simp [h.op, h.fence, h.drain, h.works]

theorem Judged.slot_lt (h : Judged s d op n w x g sv y) : n < 16 := by simpa using List.mem_of_find?_eq_some h.free

theorem Judged.collAccept_of_refused (h : Judged s d op n w x g sv y) (hbad : y.collOk x g sv = false) :
    s.collAccept d op = (y.collRefuse d w).collSkim d y.collWait.length := by
  simp only [State.collAccept, h.head]
  rw [if_neg h.goes]
  simp only [h.free, h.plan, hbad]
  rfl

/-- The command leaves the queue and its slot is taken. -/
def State.collTake (y : State) (d n : Nat) (w : CollWait) (x : Slot) : State :=
  { y with collWait := y.collWait.erase w, slots := SMap.put y.slots (16 * d + n) x }

/-- The SEQ of the command is recorded in the group, R241, and the slot shows what it holds. -/
def State.collEnter (y : State) (d op n : Nat) (w : CollWait) (x : Slot) : State :=
  ((y.collTake d n w x).collWrite x false (x.group + 4) (leBytes 2 (wfield w.words 1 15 0))).wrAll d n (collSlotValues op w.ctx x.key)

/-- A command that is bound to no step and whose key the holding room does not know is taken, and its trigger tried. -/
theorem Judged.collAccept_of_accepted (h : Judged s d op n w x g sv y) (hgood : y.collOk x g sv = true) (hbind : x.bind = false)
    (hrooms : ∀ h ∈ (y.collEnter d op n w x).rooms, ¬ (h.1 / 64 = d ∧ h.2.ctx = w.ctx ∧ h.2.key = x.key)) :
    s.collAccept d op = ((y.collEnter d op n w x).collTrigger d n).collSkim d ((y.collEnter d op n w x).collTrigger d n).collWait.length := by
  have hmine : (y.collEnter d op n w x).rooms.filter (fun h => h.1 / 64 == d && h.2.ctx == w.ctx && h.2.key == x.key) = [] := by
    rw [List.filter_eq_nil_iff]
    intro r hr
    simpa [and_assoc] using hrooms r hr
  have hheld (z : State) : ({ z with rooms := z.rooms.filter (fun h => !([] : List (Nat × Hold)).contains h) } : State) = z := by simp
  simp only [State.collAccept, h.head]
  rw [if_neg h.goes]
  simp only [h.free, h.plan, hgood, hbind, Bool.not_true, Bool.false_eq_true, if_false]
  simp only [State.collEnter, State.collTake, State.wrAll, collSlotValues] at hmine ⊢
  generalize List.foldl (fun (s : State) (f : Field × Nat) => s.wr f.1 d n f.2) _ _ = z at hmine ⊢
  simp only [hmine, List.find?_nil, List.foldl_nil]
  rw [hheld z]

/-- What a command leaves that is taken: its slot, which shows it, and the SEQ in the group. -/
structure Entered (y z : State) (d op n : Nat) (w : CollWait) (x : Slot) : Prop where
  rest : z = { y with
    regs := z.regs, collWait := y.collWait.erase w, slots := SMap.put y.slots (16 * d + n) x
    larder := y.larder.writeBytes (x.group + 4) (leBytes 2 (wfield w.words 1 15 0)) }
  keeps : KeepsOutside (fun k => k ∈ collSlotKeys d n ∨ HubPlace k) y z
  shows : ∀ p ∈ collSlotValues op w.ctx x.key, z.rd p.1 d n = p.2 % 2 ^ p.1.width

theorem State.collEnter_entered (op n : Nat) {w : CollWait} (hdie : x.die = d) (hctx : x.ctx = w.ctx) (hd : d < 4) (he : y.lerr = [])
    (hcheck : y.larderCheck w.ctx 1 80 (x.group + 4) 2 = none) (hcut : y.dieCut d (x.group + 4) = false) :
    Entered y (y.collEnter d op n w x) d op n w x := by
  have htake : KeepsOutside HubPlace y (y.collTake d n w x) := .of_regs rfl
  have hcheck' : (y.collTake d n w x).larderCheck x.ctx 1 80 (x.group + 4) (leBytes 2 (wfield w.words 1 15 0)).length = none := by
    rw [hctx, leBytes_length]
    exact (KeepsOutside.larderCheck (s := y) (u := y.collTake d n w x) (.of_regs rfl) rfl ..).trans hcheck
  obtain ⟨u, hu, hwrite⟩ := State.collWrite_of_allowed (s := y.collTake d n w x) (by rw [hdie]; exact hd) he (by rw [hdie]; exact hcut) hcheck'
  have henter : y.collEnter d op n w x = State.wrAll { u with larder := y.larder.writeBytes (x.group + 4) (leBytes 2 (wfield w.words 1 15 0)) }
      d n (collSlotValues op w.ctx x.key) := by
    rw [State.collEnter, hwrite]; rfl
  refine ⟨?_, ?_, fun p hp => ?_⟩
  · rw [henter, State.wrAll_eq, hu.rest]
    rfl
  · rw [henter]
    have hwritten : KeepsOutside HubPlace y { u with larder := y.larder.writeBytes (x.group + 4) (leBytes 2 (wfield w.words 1 15 0)) } :=
      htake.trans (hu.keeps.trans (.of_regs rfl))
    exact (hwritten.mono fun _ => .inr).trans ((State.wrAll_keeps _ d n _).mono fun _ => .inl)
  · rw [henter]
    exact State.wrAll_rd (l := collSlotValues op w.ctx x.key) (collSlotKeys_nodup d n) hp

/-- A command whose trigger waits for its fold stays as it entered. -/
theorem Judged.collAccept_of_waiting {z : State} (h : Judged s d op n w x g sv y) (hz : y.collEnter d op n w x = z)
    (henter : Entered y z d op n w x) (hd : d < 4) (hgood : y.collOk x g sv = true) (hone : y.collWait = [w]) (hbind : x.bind = false)
    (hrooms : ∀ h ∈ y.rooms, ¬ (h.1 / 64 = d ∧ h.2.ctx = w.ctx ∧ h.2.key = x.key)) (hctx : x.ctx = w.ctx) (hwait : x.fwait = true)
    (hstack : stackOf x.src < 12) (hne : y.rd Reg.MEM_FDONE (stackOf x.src) (w.ctx % 16) ≠ x.words.getD 9 0)
    (hold : newer (y.rd Reg.MEM_FDONE (stackOf x.src) (w.ctx % 16)) (x.words.getD 9 0) = false) : s.collAccept d op = z := by
  subst hz
  have hslot : (y.collEnter d op n w x).slot d n = some x := by
    rw [henter.rest, State.slot]; exact SMap.find_put_self ..
  have hfold : (y.collEnter d op n w x).rd Reg.MEM_FDONE (stackOf x.src) (x.ctx % 16) = y.rd Reg.MEM_FDONE (stackOf x.src) (w.ctx % 16) := by
    rw [hctx]
    have hlow : w.ctx % 16 < 16 := Nat.mod_lt _ (by decide)
    refine henter.keeps _ _ _ (not_or.mpr ⟨fun hk => ?_, not_hubPlace _ ?_ ?_⟩)
    · have hkey := (collSlotKeys_bounds hd h.slot_lt hk).2
      simp only [Field.key, Reg.MEM_FDONE, Block.base] at hkey
      omega
    · simp only [Reg.MEM_FDONE]; omega
    · simp only [Reg.MEM_FDONE, Block.base]; omega
  have htrigger : (y.collEnter d op n w x).collTrigger d n = y.collEnter d op n w x :=
    State.collTrigger_of_waiting hslot (.inr ⟨hwait, by rw [hfold]; exact hne, by rw [hfold]; exact hold⟩)
  have hqueue : (y.collEnter d op n w x).collWait = [] := by rw [henter.rest, hone]; exact List.erase_cons_head ..
  rw [h.collAccept_of_accepted hgood hbind (by rw [henter.rest]; exact hrooms), htrigger, hqueue]
  rfl

end

/-! ### The seven operations -/

/-- The commands that judge what waits at engine `d`, by operation. -/
def collCommands (d : Nat) : List (Nat × Instr) :=
  [(1, .allReduce d), (2, .reduceScatter d), (3, .allGather d), (4, .allToAll d), (5, .allToAllv d), (6, .broadcast d), (7, .circulate d)]

theorem exec_collCommands {d : Nat} (hd : d < 4) : ∀ i ∈ collCommands d,
    i.1 < 8 ∧ i.2.wellFormed = true ∧ ∀ s, exec i.2 s = s.serve i.2 (fun s => s.collAccept d i.1) := by
  intro i hi
  simp only [collCommands, List.mem_cons, List.not_mem_nil, or_false] at hi
  rcases hi with rfl | rfl | rfl | rfl | rfl | rfl | rfl <;> exact ⟨by dsimp only; decide, decide_eq_true hd, fun _ => rfl⟩

end Sys2Proof.Machine
end

section
open Sys2Proof Sys2Proof.Machine

theorem collectiveCommands : Clause.CollectiveCommands := by
  intro d n w x g sv y s hr hd hhead hc hfence hdrain hwork hfree hplan
  obtain ⟨⟨hdie, hctx, hcser, hwords⟩, hread⟩ := State.collPlan_of_some hd hplan
  refine ⟨fun he => ?_, fun i hi hop => ?_⟩
  · have hy := hread he
    exact ⟨by rw [hy.rest], by rw [hy.rest], by rw [hy.rest], hy.keeps.regsKeep⟩
  obtain ⟨hlt, hwf, hexec⟩ := exec_collCommands hd i hi
  have hjudged : Judged s d i.1 n w x g sv y := ⟨hhead, hop, hfence, hdrain, hwork, hfree, hplan⟩
  refine ⟨fun hbad => ?_, fun hgood he hone hbind _ hcheck hcut hrooms hwait hstack hne hold => ?_⟩
  · exact exec_eq_answer_of (hexec s) hwf hr (hjudged.collAccept_of_refused hbad)
  · have hy := hread he
    have hlerr : y.lerr = [] := by rw [hy.rest]; exact he
    have henter := State.collEnter_entered (op := i.1) (n := n) hdie hctx hd hlerr hcheck hcut
    generalize hz : y.collEnter d i.1 n w x = z at henter
    have heff := hjudged.collAccept_of_waiting hz henter hd hgood hone hbind hrooms hctx hwait hstack hne hold
    have hkeep : KeepsOutside PastHng s z := by
      refine (hy.keeps.mono fun _ => HubPlace.pastHng).trans (henter.keeps.mono fun k hk => ?_)
      rcases hk with hk | hk
      · have hbound := (collSlotKeys_bounds hd hjudged.slot_lt hk).1
        simp only [PastHng]; omega
      · exact hk.pastHng
    have hrest : z = { s with
        regs := z.regs, collWait := y.collWait.erase w, slots := SMap.put s.slots (16 * d + n) x
        larder := s.larder.writeBytes (x.group + 4) (leBytes 2 (wfield w.words 1 15 0)) } := by
      rw [henter.rest, hy.rest]
    have hdone : exec i.2 s = .next (s.collAccept d i.1) :=
      exec_eq_of_keeps (hexec s) hwf hr (by rw [heff]; exact hkeep) (by rw [heff, hrest]) (by rw [heff, hrest]) (by rw [heff, hrest])
        (by rw [heff, hrest])
    refine ⟨z, hdone.trans (congrArg _ heff), henter.shows (Reg.SL_STATE, 1) (by simp [collSlotValues]), ?_, ?_,
      henter.shows (Reg.SL_KEY, x.key) (by simp [collSlotValues]), ?_, hwords, hctx, hcser, fun k hk => ?_, ?_, by rw [hrest], fun j hj => ?_,
      fun a ha => ?_⟩
    · exact (henter.shows (Reg.SL_OP, i.1) (by simp [collSlotValues])).trans (Nat.mod_eq_of_lt hlt)
    · exact (henter.shows (Reg.SL_CTX, w.ctx) (by simp [collSlotValues])).trans (Nat.mod_eq_of_lt hc)
    · rw [hrest, State.slot]; exact SMap.find_put_self ..
    · rw [hrest]; exact SMap.find_put_ne _ _ hk
    · rw [hrest, hone]; exact List.erase_cons_head ..
    · have hj' : j < (leBytes 2 (wfield w.words 1 15 0)).length := by rw [leBytes_length]; exact hj
      rw [hrest, Memory.read_writeBytes_in _ _ _ _ hj', List.getD_eq_getElem _ _ hj']
    · rw [hrest]
      exact Memory.read_writeBytes_out _ _ (by rw [leBytes_length]; omega)

/-- Settles O33: judging counts what it reads; a command that is taken writes its slot and the SEQ of its group alone; START and CREDIT go
by the slot that holds the key. -/
theorem collectivesBegin : Obligations.CollectivesBegin := ⟨collectiveCommands, collectiveStart⟩

end

section
namespace Sys2Proof.Machine

open Sys2Proof

/-! PROOFS. The host ports: what a write of a page's register answers, and how a port's links and its laser light change. -/

/-! ### Writes of an agent -/

/-- The fields of the pages from PWR on stand past page HNG. -/
theorem pastHng_key (f : Field) (i j : Nat) (h : 4 ≤ f.block.base := by decide) : PastHng (f.key i j) := by
  simp only [PastHng, Field.key]; omega

section
variable {s u : State} {i : Instr} {ag : Agent} {b : Block} {inst : Nat} {g : State → State}

/-- A command that writes a block's page, of an agent that may write it, answers its effect, settled. -/
theorem exec_eq_answer_of_mayWrite (he : exec i s = s.serve i (fun s => s.asBlock ag b inst g))
    (hw : ag.wellFormed = true → i.wellFormed = true) (hr : s.ready = true) (hin : inst < b.pages)
    (hm : s.mayWrite ag (b.base + inst) = true) : exec i s = .next (s.answer (g (s.dropLatch ag))) := by
  simp only [State.mayWrite, Bool.and_eq_true] at hm
  obtain ⟨⟨hag, hreach⟩, hwrite⟩ := hm
  refine exec_eq_answer_of he (hw hag) hr ?_
  rw [State.asBlock, if_pos hin, State.asWrite, if_neg (by simp [hreach]), if_neg (by simp [hwrite])]

/-- A write that comes to registers past page HNG alone answers just that. -/
theorem exec_regsOnly_of_mayWrite {ks : List Nat} (he : exec i s = s.serve i (fun s => s.asBlock ag b inst g))
    (hw : ag.wellFormed = true → i.wellFormed = true) (hr : s.ready = true) (hin : inst < b.pages)
    (hm : s.mayWrite ag (b.base + inst) = true) (hg : g (s.dropLatch ag) = u) (hu : u = { s with regs := u.regs, latches := u.latches })
    (hk : KeepsOutside (· ∈ ks) s u) (hks : ∀ k ∈ ks, PastHng k) : exec i s = .next u ∧ RegsOnly s u ks := by
  have hcalm : u.calm = true := (hk.mono hks).calm (s.ready_iff.mp hr).2 (by rw [hu]) (by rw [hu]) (by rw [hu])
  refine ⟨?_, hk, hu⟩
  rw [exec_eq_of_mayWrite he hw hr hin hm (by rw [hg]; exact hcalm) (by rw [hg, hu]), hg]

end

/-! ### Links -/

/-- UP_A or UP_B, as the sub-port is. -/
def hstUpField (sub : Nat) : Field := if sub = 0 then Reg.HST_UP_A else Reg.HST_UP_B

theorem hstUpField_cases (sub : Nat) : hstUpField sub = Reg.HST_UP_A ∨ hstUpField sub = Reg.HST_UP_B := by
  rw [hstUpField]; split <;> simp

theorem hstUpField_pastHng (p sub : Nat) : PastHng ((hstUpField sub).key p 0) := by
  obtain h | h := hstUpField_cases sub <;> rw [h] <;> exact pastHng_key ..

theorem hstUpField_width (sub : Nat) : (hstUpField sub).width = 1 := by
  obtain h | h := hstUpField_cases sub <;> rw [h] <;> rfl

theorem State.hstDown_of_up {s : State} {p sub : Nat} (h : s.rd (hstUpField sub) p = 1) :
    s.hstDown p sub = (s.wr (hstUpField sub) p 0 0).raise (hstPage p) 6 none 0 := if_pos (beq_iff_eq.mpr h)

theorem State.hstDown_of_down {s : State} {p sub : Nat} (h : s.rd (hstUpField sub) p ≠ 1) : s.hstDown p sub = s :=
  if_neg (fun he => h (beq_iff_eq.mp he))

/-- A port that is lit comes back through link training. -/
theorem State.hstDarkDrop_of_lit {s : State} {p : Nat} (h : SMap.find s.hdark p = none) : s.hstDarkDrop p = s := by
  simp [State.hstDarkDrop, h]

theorem State.hstLinkUp_of_trained {s : State} {p sub : Nat} (hp : p < 2) (hsub : sub < 2) (hen : s.rd Reg.HST_EN p = 1)
    (hon : s.domainOn (74 + p) = true) (hsplit : sub = 1 → s.rd Reg.HST_SPLIT p = 1) (hlit : SMap.find s.hdark p = none)
    (href : s.boot.refHeld = true) : s.hstLinkUp p sub = s.wr (hstUpField sub) p 0 1 := by
  refine if_neg ?_
  simp only [State.rdB_eq, hen, hon, hlit, href, not_or]
  exact ⟨by omega, by omega, by simp, by simp, fun ⟨h1, h2⟩ => by simp [hsplit h1] at h2, by simp, by simp⟩

theorem State.hstLinkUp_of_barred {s : State} {p sub : Nat} (h : s.rd Reg.HST_EN p ≠ 1 ∨ s.boot.refHeld = false) : s.hstLinkUp p sub = s := by
  refine if_pos ?_
  obtain h | h := h
  · exact .inr (.inr (.inl (by simp [h])))
  · exact .inr (.inr (.inr (.inr (.inr (.inr (by simp [h]))))))

/-- Disabling a lit port takes its links down. -/
theorem State.hstEn_zero {s : State} {p : Nat} (hlit : SMap.find s.hdark p = none) (hb : s.rd Reg.HST_UP_B p ≠ 1) :
    s.hstEn p 0 = (s.wr Reg.HST_EN p 0 0).hstDown p 0 := by
  have hdown : ∀ x : State, x.hstDown p 0 = x ∨ x.hstDown p 0 = (x.wr Reg.HST_UP_A p 0 0).raise (hstPage p) 6 none 0 := fun x => by
    by_cases h : x.rd (hstUpField 0) p = 1
    · exact .inr (State.hstDown_of_up h)
    · exact .inl (State.hstDown_of_down h)
  have hb' : ((s.wr Reg.HST_EN p 0 0).hstDown p 0).rd (hstUpField 1) p ≠ 1 := by
    have hen : (s.wr Reg.HST_EN p 0 0).rd Reg.HST_UP_B p = s.rd Reg.HST_UP_B p := State.rd_wr_ne _ _ (key_ne_of_place p)
    obtain h | h := hdown (s.wr Reg.HST_EN p 0 0) <;> rw [h]
    · exact hen ▸ hb
    · have hup : ((s.wr Reg.HST_EN p 0 0).wr Reg.HST_UP_A p 0 0).rd Reg.HST_UP_B p = s.rd Reg.HST_UP_B p :=
        (State.rd_wr_ne _ _ (key_ne_of_place p)).trans hen
      exact hup ▸ hb
  have hlit' : SMap.find ((s.wr Reg.HST_EN p 0 0).hstDown p 0).hdark p = none := by
    obtain h | h := hdown (s.wr Reg.HST_EN p 0 0) <;> rw [h] <;> exact hlit
  rw [State.hstEn, if_pos rfl, State.hstDown_of_down hb', State.hstDarkDrop_of_lit hlit']

theorem State.hstSplit_of_same {s : State} {p v : Nat} (h : s.rd Reg.HST_SPLIT p = v) : s.hstSplit p v = s := if_pos h

/-- A change of SPLIT where there is nothing to take down. -/
theorem State.hstSplit_of_idle {s : State} {p v : Nat} (h : s.rd Reg.HST_SPLIT p ≠ v) (hno : ∀ n < 32, s.sessOpen p n = false)
    (ha : s.rd Reg.HST_UP_A p ≠ 1) (hb : s.rd Reg.HST_UP_B p ≠ 1) (hlit : SMap.find s.hdark p = none) :
    s.hstSplit p v = s.wr Reg.HST_SPLIT p 0 v := by
  have hclose : (List.range 32).foldl (fun (s : State) n => if s.sessOpen p n then s.sessClose p n else s) s = s :=
    foldl_fixed _ _ _ (fun n hn => if_neg (by simp [hno n (List.mem_range.mp hn)]))
  rw [State.hstSplit, if_neg h]
  dsimp only
  rw [hclose, State.hstDown_of_down (sub := 0) ha, State.hstDown_of_down (sub := 1) hb, State.hstDarkDrop_of_lit hlit]

/-! ### Laser light -/

/-- A reading is shown in LP, and STATUS of the tray notes it. -/
def State.lightShown (s : State) (p lp : Nat) : State := (s.wr Reg.HST_LP p 0 lp).laserNote (4 * p)

theorem State.lightShown_keeps (s : State) (p lp : Nat) : KeepsOutside (· ∈ [Reg.HST_LP.key p 0]) s (s.lightShown p lp) :=
  ((KeepsOutside.refl _ s).wr lp (by simp)).trans (.of_regs rfl)

theorem State.lightShown_rd (s : State) (p : Nat) {lp : Nat} (hlp : lp < 1024) : (s.lightShown p lp).rd Reg.HST_LP p = lp := by
  rw [State.lightShown, State.laserNote_rd, State.rd_wr_self]
  exact Nat.mod_eq_of_lt hlp

theorem State.hostLaserLow_of_enough {s : State} {p lp : Nat} (hp : p < 2) (hon : s.powered (hstPage p) = true)
    (h : 160 ≤ toSigned 10 lp) : s.hostLaserLow p lp = s.lightShown p lp := by
  rw [State.hostLaserLow, if_neg (by simp [hon]; omega)]
  exact if_pos (by simp [h])

/-- A lit port whose light is too low remembers which links were up and takes them down. -/
theorem State.hostLaserLow_of_low {s : State} {p lp : Nat} (hp : p < 2) (hon : s.powered (hstPage p) = true)
    (h : toSigned 10 lp < 160) (hlit : SMap.find s.hdark p = none) :
    s.hostLaserLow p lp =
      ((({ s.lightShown p lp with hdark := SMap.put s.hdark p (2 * s.rd Reg.HST_UP_A p + 4 * s.rd Reg.HST_UP_B p) } : State).raise
        (hstPage p) 7 none 0).hstDown p 0).hstDown p 1 := by
  have hup : ∀ f ∈ [Reg.HST_UP_A, Reg.HST_UP_B], (s.lightShown p lp).rd f p = s.rd f p := by
    simp only [List.forall_mem_cons, List.not_mem_nil, false_implies, implies_true, and_true]
    exact ⟨State.rd_wr_ne _ _ (key_ne_of_place p), State.rd_wr_ne _ _ (key_ne_of_place p)⟩
  have hlit' : SMap.find (s.lightShown p lp).hdark p = none := hlit
  rw [State.hostLaserLow, if_neg (by simp [hon]; omega)]
  dsimp only
  rw [← State.lightShown, if_neg (by simp [hlit']; omega), hup _ (by simp), hup _ (by simp)]
  rfl

/-- A dark port comes back as it was. -/
def State.lightBack (s : State) (p lp was : Nat) : State :=
  ((({ s.lightShown p lp with hdark := SMap.del s.hdark p } : State).wr Reg.HST_UP_A p 0 (bit was 1)).wr Reg.HST_UP_B p 0 (bit was 2))

theorem State.hostLaserRestore_of_enough {s : State} {p lp was : Nat} (hp : p < 2) (hon : s.powered (hstPage p) = true)
    (hdark : SMap.find s.hdark p = some was) (h : 175 ≤ toSigned 10 lp) (hen : s.rd Reg.HST_EN p = 1) :
    s.hostLaserRestore p lp = s.lightBack p lp was := by
  have hdark' : SMap.find (s.lightShown p lp).hdark p = some was := hdark
  have hen' : (s.lightShown p lp).rd Reg.HST_EN p = 1 := hen ▸ State.rd_wr_ne _ _ (key_ne_of_place p)
  rw [State.hostLaserRestore, if_neg (by simp [hon]; omega)]
  dsimp only
  rw [← State.lightShown]
  simp only [hdark']
  rw [if_neg (by simp; omega)]
  exact if_pos (beq_iff_eq.mpr hen')

theorem State.lightBack_keeps (s : State) (p lp was : Nat) :
    KeepsOutside (· ∈ [Reg.HST_LP.key p 0, Reg.HST_UP_A.key p 0, Reg.HST_UP_B.key p 0]) s (s.lightBack p lp was) :=
  KeepsOutside.wr (KeepsOutside.wr (((s.lightShown_keeps p lp).mono (by simp +contextual)).trans (.of_regs rfl)) _ (by simp)) _ (by simp)

theorem State.lightBack_shows (s : State) (p was : Nat) {lp : Nat} (hlp : lp < 1024) : (s.lightBack p lp was).rd Reg.HST_LP p = lp ∧
    (s.lightBack p lp was).rd Reg.HST_UP_A p = bit was 1 ∧ (s.lightBack p lp was).rd Reg.HST_UP_B p = bit was 2 := by
  refine ⟨?_, ?_, ?_⟩
  · rw [State.lightBack, State.rd_wr_ne _ _ (key_ne_of_place p), State.rd_wr_ne _ _ (key_ne_of_place p)]
    exact s.lightShown_rd p hlp
  · rw [State.lightBack, State.rd_wr_ne _ _ (key_ne_of_place p), State.rd_wr_self]
    exact Nat.mod_eq_of_lt (bit_lt was 1)
  · rw [State.lightBack, State.rd_wr_self]
    exact Nat.mod_eq_of_lt (bit_lt was 2)

/-! ### Requests of the network -/

theorem State.arpNdEcho_of_answers {s : State} {p sub : Nat} {a : Ask} (hp : p < 2) (ha : a.wellFormed = true)
    (h : (s.hstUp p sub && s.answersAt p (a.kind % 2 == 1) a.asked) = true) : s.arpNdEcho p sub a =
      { s with hostOut := s.hostOut ++ [.answer p a.kind ⟨sub, a.mac, a.vlan, a.kind % 2 == 1, a.ip, 0⟩] } := by
  simp only [Ask.wellFormed, Bool.and_eq_true, decide_eq_true_eq] at ha h
  obtain ⟨⟨⟨⟨hkind, -⟩, -⟩, -⟩, -⟩ := ha
  obtain ⟨hup, hat⟩ := h
  exact if_neg (by simp [hup, hat]; omega)

theorem State.arpNdEcho_of_silent {s : State} {p sub : Nat} {a : Ask}
    (h : (s.hstUp p sub && s.answersAt p (a.kind % 2 == 1) a.asked) = false) : s.arpNdEcho p sub a = s := by
  refine if_pos ?_
  rw [Bool.and_eq_false_iff] at h
  obtain h | h := h <;> simp [h]

end Sys2Proof.Machine
end

section
open Sys2Proof Sys2Proof.Machine

theorem hostPortWrites {p : Nat} {s : State} (hr : s.ready = true) (hp : p < 2) (ag : Agent) (hm : s.mayWrite ag (hstPage p) = true)
    (hlit : SMap.find s.hdark p = none) :
    Completes (.hstEn ag p 1) s (fun t => t.rd Reg.HST_EN p = 1 ∧ RegsOnly s t [Reg.HST_EN.key p 0]) ∧
    (s.rd Reg.HST_UP_A p ≠ 1 → s.rd Reg.HST_UP_B p ≠ 1 →
      Completes (.hstEn ag p 0) s (fun t => t.rd Reg.HST_EN p = 0 ∧ RegsOnly s t [Reg.HST_EN.key p 0])) ∧
    (s.rd Reg.HST_UP_A p = 1 → s.rd Reg.HST_UP_B p ≠ 1 → exec (.hstEn ag p 0) s = .next (s.answer
      ((((s.dropLatch ag).wr Reg.HST_EN p 0 0).wr Reg.HST_UP_A p 0 0).raise (hstPage p) 6 none 0))) ∧
    (∀ v < 2, s.rd Reg.HST_SPLIT p = v → Completes (.split ag p v) s (fun t => RegsOnly s t [])) ∧
    (∀ v < 2, s.rd Reg.HST_SPLIT p ≠ v → (∀ n < 32, s.sessOpen p n = false) → s.rd Reg.HST_UP_A p ≠ 1 → s.rd Reg.HST_UP_B p ≠ 1 →
      Completes (.split ag p v) s (fun t => t.rd Reg.HST_SPLIT p = v ∧ RegsOnly s t [Reg.HST_SPLIT.key p 0])) := by
  have hwfEn : ∀ v < 2, ag.wellFormed = true → (Instr.hstEn ag p v).wellFormed = true := fun v hv h => by simp [Instr.wellFormed, h, hp, hv]
  have hwfSplit : ∀ v < 2, ag.wellFormed = true → (Instr.split ag p v).wellFormed = true := fun v hv h => by
    simp [Instr.wellFormed, h, hp, hv]
  have hwr : ∀ f v, KeepsOutside (· ∈ [f.key p 0]) s ((s.dropLatch ag).wr f p 0 v) := fun f v =>
    KeepsOutside.wr (.of_regs rfl) v (by simp)
  have hlit' : SMap.find (s.dropLatch ag).hdark p = none := hlit
  have hupA : ((s.dropLatch ag).wr Reg.HST_EN p 0 0).rd (hstUpField 0) p = s.rd Reg.HST_UP_A p := State.rd_wr_ne _ _ (key_ne_of_place p)
  refine ⟨?_, fun ha hb => ?_, fun ha hb => ?_, fun v hv hsame => ?_, fun v hv hne hno ha hb => ?_⟩
  · obtain ⟨hex, hro⟩ := exec_regsOnly_of_mayWrite (i := .hstEn ag p 1) (g := fun s => s.hstEn p 1) rfl (hwfEn 1 (by decide)) hr hp hm rfl rfl
      (hwr Reg.HST_EN 1) (by simp [pastHng_key Reg.HST_EN p 0])
    exact ⟨_, hex, State.rd_wr_self .., hro⟩
  · have hen : (s.dropLatch ag).hstEn p 0 = (s.dropLatch ag).wr Reg.HST_EN p 0 0 := by
      rw [State.hstEn_zero hlit' hb, State.hstDown_of_down (hupA.trans_ne ha)]
    obtain ⟨hex, hro⟩ := exec_regsOnly_of_mayWrite (i := .hstEn ag p 0) (g := fun s => s.hstEn p 0) rfl (hwfEn 0 (by decide)) hr hp hm hen rfl
      (hwr Reg.HST_EN 0) (by simp [pastHng_key Reg.HST_EN p 0])
    exact ⟨_, hex, State.rd_wr_self .., hro⟩
  · have hen : (s.dropLatch ag).hstEn p 0 = (((s.dropLatch ag).wr Reg.HST_EN p 0 0).wr Reg.HST_UP_A p 0 0).raise (hstPage p) 6 none 0 := by
      rw [State.hstEn_zero hlit' hb]
      exact State.hstDown_of_up (hupA.trans ha)
    rw [exec_eq_answer_of_mayWrite (i := .hstEn ag p 0) (g := fun s => s.hstEn p 0) rfl (hwfEn 0 (by decide)) hr hp hm, hen]
  · obtain ⟨hex, hro⟩ := exec_regsOnly_of_mayWrite (i := .split ag p v) (g := fun s => s.hstSplit p v) (ks := []) rfl (hwfSplit v hv) hr hp hm
      (State.hstSplit_of_same (s := s.dropLatch ag) hsame) rfl (.of_regs rfl) (by simp)
    exact ⟨_, hex, hro⟩
  · obtain ⟨hex, hro⟩ := exec_regsOnly_of_mayWrite (i := .split ag p v) (g := fun s => s.hstSplit p v) rfl (hwfSplit v hv) hr hp hm
      (State.hstSplit_of_idle (s := s.dropLatch ag) hne hno ha hb hlit) rfl (hwr Reg.HST_SPLIT v) (by simp [pastHng_key Reg.HST_SPLIT p 0])
    exact ⟨_, hex, (State.rd_wr_self ..).trans (Nat.mod_eq_of_lt hv), hro⟩

theorem hostPortLight {p lp : Nat} {s : State} (hr : s.ready = true) (hp : p < 2) (hlp : lp < 1024) (hon : s.powered (hstPage p) = true) :
    (160 ≤ toSigned 10 lp → Completes (.hostLaserLow p lp) s (fun t => t.rd Reg.HST_LP p = lp ∧ t.hdark = s.hdark ∧ t.hostOut = s.hostOut ∧
      ∀ f i j, f.key i j ≠ Reg.HST_LP.key p 0 → t.rd f i j = s.rd f i j)) ∧
    (toSigned 10 lp < 160 → SMap.find s.hdark p = none → exec (.hostLaserLow p lp) s = .next (s.answer (
      let x := (s.wr Reg.HST_LP p 0 lp).laserNote (4 * p)
      let x : State := { x with hdark := SMap.put x.hdark p (2 * s.rd Reg.HST_UP_A p + 4 * s.rd Reg.HST_UP_B p) }
      ((x.raise (hstPage p) 7 none 0).hstDown p 0).hstDown p 1))) ∧
    (∀ was, SMap.find s.hdark p = some was → 175 ≤ toSigned 10 lp → s.rd Reg.HST_EN p = 1 → Completes (.hostLaserRestore p lp) s (fun t =>
      SMap.find t.hdark p = none ∧ t.rd Reg.HST_LP p = lp ∧ t.rd Reg.HST_UP_A p = bit was 1 ∧ t.rd Reg.HST_UP_B p = bit was 2)) := by
  have hwf : (Instr.hostLaserLow p lp).wellFormed = true := by simp [Instr.wellFormed, hp, hlp]
  have hwf' : (Instr.hostLaserRestore p lp).wellFormed = true := by simp [Instr.wellFormed, hp, hlp]
  refine ⟨fun h => ?_, fun h hlit => ?_, fun was hdark h hen => ?_⟩
  · have hk := s.lightShown_keeps p lp
    have heff := State.hostLaserLow_of_enough hp hon h
    have hex := exec_eq_of_keeps (i := .hostLaserLow p lp) (g := fun s => s.hostLaserLow p lp) rfl hwf hr
      (by rw [heff]; exact hk.mono (by simp [pastHng_key Reg.HST_LP p 0])) (by rw [heff]; rfl) (by rw [heff]; rfl) (by rw [heff]; rfl) (by rw [heff]; rfl)
    exact ⟨_, hex.trans (congrArg _ heff), s.lightShown_rd p hlp, rfl, rfl, fun f i j hne => hk f i j (by simpa using hne)⟩
  · exact exec_eq_answer_of (g := fun s => s.hostLaserLow p lp) rfl hwf hr (State.hostLaserLow_of_low hp hon h hlit)
  · have hk := (s.lightBack_keeps p lp was).mono (L := PastHng)
      (by simp [pastHng_key Reg.HST_LP p 0, pastHng_key Reg.HST_UP_A p 0, pastHng_key Reg.HST_UP_B p 0])
    have heff := State.hostLaserRestore_of_enough hp hon hdark h hen
    have hex := exec_eq_of_keeps (i := .hostLaserRestore p lp) (g := fun s => s.hostLaserRestore p lp) rfl hwf' hr
      (by rw [heff]; exact hk) (by rw [heff]; rfl) (by rw [heff]; rfl) (by rw [heff]; rfl) (by rw [heff]; rfl)
    exact ⟨_, hex.trans (congrArg _ heff), SMap.find_del_self s.hdark p, s.lightBack_shows p was hlp⟩

/-- Settles O39: a port's links, its bits and its light each come to writes of its page and, where a link is lost, one fault. -/
theorem hostPorts : Obligations.HostPorts := by
  intro p sub s hr hp hsub up
  have hup : up = hstUpField sub := rfl
  clear_value up
  subst hup
  have hwfUp : (Instr.hstLinkUp p sub).wellFormed = true := by simp [Instr.wellFormed, hp, hsub]
  have hwfDown : (Instr.hstLinkDown p sub).wellFormed = true := by simp [Instr.wellFormed, hp, hsub]
  have hdown : s.hstLinkDown p sub = s.hstDown p sub := if_pos ⟨hp, hsub⟩
  refine ⟨fun hen hon hsplit hlit href => ?_, fun h => ?_, fun h => ?_, fun h => ?_, hostPortWrites hr hp,
    fun lp hlp hon => hostPortLight hr hp hlp hon, fun a ha => ⟨fun h => ?_, fun h => ?_⟩⟩
  · have hk : KeepsOutside (· ∈ [(hstUpField sub).key p 0]) s (s.wr (hstUpField sub) p 0 1) := (KeepsOutside.refl _ s).wr 1 (by simp)
    have heff := State.hstLinkUp_of_trained hp hsub hen hon hsplit hlit href
    have hex := exec_eq_of_keeps (i := .hstLinkUp p sub) (g := fun s => s.hstLinkUp p sub) rfl hwfUp hr
      (by rw [heff]; exact hk.mono (by simp [hstUpField_pastHng])) (by rw [heff]; rfl) (by rw [heff]; rfl) (by rw [heff]; rfl) (by rw [heff]; rfl)
    refine ⟨_, hex.trans (congrArg _ heff), ?_, rfl, fun f i j hne => hk f i j (by simpa using hne)⟩
    rw [State.rd_wr_self, hstUpField_width]
    rfl
  · exact exec_eq_self (g := fun s => s.hstLinkUp p sub) rfl hwfUp hr (State.hstLinkUp_of_barred h)
  · exact exec_eq_answer_of (g := fun s => s.hstLinkDown p sub) rfl hwfDown hr (hdown.trans (State.hstDown_of_up h))
  · exact exec_eq_self (g := fun s => s.hstLinkDown p sub) rfl hwfDown hr (hdown.trans (State.hstDown_of_down h))
  · have heff := State.arpNdEcho_of_answers hp ha h
    have hex := exec_eq_of_keeps (i := .arpNdEcho p sub a) (g := fun s => s.arpNdEcho p sub a) rfl (by simp [Instr.wellFormed, ha, hp, hsub]) hr
      (by rw [heff]; exact .of_regs rfl) (by rw [heff]) (by rw [heff]) (by rw [heff]) (by rw [heff])
    exact hex.trans (congrArg _ heff)
  · exact exec_eq_self (g := fun s => s.arpNdEcho p sub a) rfl (by simp [Instr.wellFormed, ha, hp, hsub]) hr (State.arpNdEcho_of_silent h)

end

section
namespace Sys2Proof.Machine

open Sys2Proof

/-! PROOFS. The commands of a context and its completion records: what the head of a queue becomes, and what a record leaves beside it. -/

/-! ### The head of a queue -/

/-- The first command of a context's queue is taken off, and waits for its record. -/
def State.takeHead (s : State) (c : Nat) (h : Cmd) (r : List Cmd) : State :=
  (s.setCtx c { s.ctx c with queue := r, pendCser := (s.ctx c).pendCser ++ [h.cser] }).count (hstPage h.port) 6 1

/-- Command `h` stands before `r` at the head of a context's queue, nothing holds it, it keeps Table 10-5, and it is of the opcode that `op`
names, if it names one. -/
structure Heads (s : State) (c : Nat) (op : Option Nat) (h : Cmd) (r : List Cmd) : Prop where
  ctx : c < 64
  queue : (s.ctx c).queue = h :: r
  goes : s.headWait c = false
  kind : op = none ∨ op = some (wfield h.words 0 7 0)
  clean : cmdReserved h.words = false

section
variable {s : State} {c : Nat} {op : Option Nat} {h : Cmd} {r : List Cmd} {long : Bool}

theorem Heads.not_held (hh : Heads s c op h r) : ¬ (64 ≤ c ∨ s.headWait c = true ∨ op.any (· != wfield h.words 0 7 0) = true) := by
  obtain ⟨hc, -, hgo, hkind, -⟩ := hh
  obtain rfl | rfl := hkind <;> simp [hgo, hc]

theorem Heads.dispatch_step (hh : Heads s c op h r) (ho : wfield h.words 0 7 0 = 1) : s.dispatchHead c op long =
    if (s.takeHead c h r).stepRefusal c h.words long = 0 then (s.takeHead c h r).stepAccept c h.cser
    else (s.takeHead c h r).cmdRecord c 1 1 h.cser ((s.takeHead c h r).stepRefusal c h.words long) := by
  have hgo := hh.not_held
  simp only [ho] at hgo
  simp only [State.dispatchHead, hh.queue, ho, if_neg hgo, hh.clean]
  rfl

theorem Heads.dispatch_coll (hh : Heads s c op h r) (ho : wfield h.words 0 7 0 = 2) : s.dispatchHead c op long =
    (s.takeHead c h r).collQueue (wfield h.words 0 11 10) c h.cser (h.words.drop 16) := by
  have hgo := hh.not_held
  simp only [ho] at hgo
  simp only [State.dispatchHead, hh.queue, ho, if_neg hgo, hh.clean]
  rfl

theorem Heads.dispatch_mark (hh : Heads s c op h r) (ho : wfield h.words 0 7 0 = 3) : s.dispatchHead c op long =
    (s.takeHead c h r).cmdRecord c 4 0 h.cser 0 := by
  have hgo := hh.not_held
  simp only [ho] at hgo
  simp only [State.dispatchHead, hh.queue, ho, if_neg hgo, hh.clean]
  rfl

end

/-- No register of a context is a counter of another page's header. -/
theorem ctxKey_ne_count {f : Field} (hf : f.block = .ctx) (c j : Nat) {p n : Nat} (hp : p < 0x300) (hn : n < 8) :
    f.key c j ≠ Reg.CNT_N.key p n := by
  simp only [Field.key, hf, Reg.CNT_N, Block.base]; omega

theorem State.takeHead_rd (s : State) (c : Nat) {h : Cmd} (r : List Cmd) (hp : h.port < 2) {f : Field} (hf : f.block = .ctx) (j : Nat) :
    (s.takeHead c h r).rd f c j = s.rd f c j := by
  rw [State.takeHead, State.rd_count_ne _ (ctxKey_ne_count hf c j (by unfold hstPage; omega) (by decide))]
  rfl

theorem State.takeHead_ctx (s : State) (c : Nat) (h : Cmd) (r : List Cmd) :
    (s.takeHead c h r).ctx c = { s.ctx c with queue := r, pendCser := (s.ctx c).pendCser ++ [h.cser] } := by
  rw [State.takeHead, State.count_eq]
  exact State.ctx_setCtx_self ..

theorem State.takeHead_rest (s : State) (c : Nat) (h : Cmd) (r : List Cmd) :
    s.takeHead c h r = { s with regs := (s.takeHead c h r).regs, ctxs := (s.takeHead c h r).ctxs } := by
  rw [State.takeHead, State.count_eq]; rfl

theorem State.takeHead_calm {s : State} (hc : s.calm = true) (c : Nat) (h : Cmd) (r : List Cmd) : (s.takeHead c h r).calm = true := by
  have hset := State.setCtx_calm (c := c) (x := { s.ctx c with queue := r, pendCser := (s.ctx c).pendCser ++ [h.cser] }) hc rfl rfl
  have hk : KeepsOutside PastHng (s.setCtx c { s.ctx c with queue := r, pendCser := (s.ctx c).pendCser ++ [h.cser] }) (s.takeHead c h r) :=
    (KeepsOutside.refl _ _).countF 1 (by simp only [PastHng, Field.key, Reg.CNT_N, hstPage, Block.base]; omega)
  exact hk.calm hset (by rw [State.takeHead, State.count_eq]) (by rw [State.takeHead, State.count_eq]) (by rw [State.takeHead, State.count_eq])

/-! ### Records -/

/-- The command of a record has its record; a transfer's record is no command's. -/
def State.noteRef (s : State) (c : Nat) (r : Rec) : State :=
  if r.kind = 3 then s else s.setCtx c { s.ctx c with pendCser := (s.ctx c).pendCser.filter (fun n => n ≠ r.ref) }

theorem State.recEffect_of_plain (s : State) (c : Nat) {e : RecEvent} (h : e.stepEnd = 0) : s.recEffect c e = s.noteRef c e.record := by
  simp only [State.recEffect, h]; rfl

/-- The record of a STEP that ends well ends it. -/
theorem State.recEffect_of_step (s : State) (c : Nat) {e : RecEvent} (h : e.stepEnd = 2) : s.recEffect c e =
    (((s.noteRef c e.record).wr Reg.CTX_EXEC_STEP_BUSY c 0 0).wr Reg.CTX_STEP_NUM c 0 ((s.noteRef c e.record).rd Reg.CTX_STEP_NUM c + 1)).count
      (0x300 + c) 0 1 := by
  simp only [State.recEffect, h]; rfl

theorem State.noteRef_rest (s : State) (c : Nat) (r : Rec) : s.noteRef c r = { s with ctxs := (s.noteRef c r).ctxs } := by
  rw [State.noteRef]; split <;> rfl

theorem State.noteRef_ctx (s : State) (c : Nat) (r : Rec) :
    (s.noteRef c r).ctx c = { s.ctx c with pendCser := ((s.noteRef c r).ctx c).pendCser } := by
  rw [State.noteRef]; split
  · rfl
  · rw [State.ctx_setCtx_self]

theorem State.noteRef_calm {s : State} (h : s.calm = true) (c : Nat) (r : Rec) : (s.noteRef c r).calm = true := by
  rw [State.noteRef]; split
  · exact h
  · exact State.setCtx_calm h rfl rfl

theorem State.noteRef_rd (s : State) (c : Nat) (r : Rec) (f : Field) (i j : Nat) : (s.noteRef c r).rd f i j = s.rd f i j := by
  rw [s.noteRef_rest]; rfl

theorem State.recEffect_cases (s : State) (c : Nat) (e : RecEvent) : s.recEffect c e = s.noteRef c e.record ∨
    s.recEffect c e = (s.noteRef c e.record).wr Reg.CTX_EXEC_STEP_BUSY c 0 0 ∨
    s.recEffect c e = (((s.noteRef c e.record).wr Reg.CTX_EXEC_STEP_BUSY c 0 0).wr Reg.CTX_STEP_NUM c 0
      ((s.noteRef c e.record).rd Reg.CTX_STEP_NUM c + 1)).count (0x300 + c) 0 1 := by
  unfold State.recEffect
  dsimp only
  split
  · exact .inl rfl
  · exact .inr (.inl rfl)
  · exact .inr (.inr rfl)

theorem State.recEffect_rest (s : State) (c : Nat) (e : RecEvent) :
    s.recEffect c e = { s.noteRef c e.record with regs := (s.recEffect c e).regs } := by
  obtain h | h | h := s.recEffect_cases c e <;> rw [h]
  · rfl
  · rw [State.count_eq]; rfl

/-- Where the record of a STEP may write beside the ring. -/
def stepKeys (c : Nat) : List Nat := [Reg.CTX_EXEC_STEP_BUSY.key c 0, Reg.CTX_STEP_NUM.key c 0, Reg.CNT_N.key (0x300 + c) 0]

theorem State.recEffect_keeps (s : State) (c : Nat) (e : RecEvent) : KeepsOutside (· ∈ stepKeys c) s (s.recEffect c e) := by
  have hnote : KeepsOutside (· ∈ stepKeys c) s (s.noteRef c e.record) := .of_regs (by rw [s.noteRef_rest])
  obtain h | h | h := s.recEffect_cases c e <;> rw [h]
  · exact hnote
  · exact hnote.wr _ (by simp [stepKeys])
  · exact ((hnote.wr _ (by simp [stepKeys])).wr _ (by simp [stepKeys])).countF _ (by simp [stepKeys])

theorem stepKeys_pastHng {c k : Nat} (h : k ∈ stepKeys c) : PastHng k := by
  simp only [stepKeys, List.mem_cons, List.not_mem_nil, or_false] at h
  obtain rfl | rfl | rfl := h
  · exact pastHng_key ..
  · exact pastHng_key ..
  · simp only [PastHng, Field.key, Reg.CNT_N, Block.base]; omega

theorem State.recEffect_calm {s : State} (h : s.calm = true) (c : Nat) (e : RecEvent) : (s.recEffect c e).calm = true := by
  have hk : KeepsOutside PastHng (s.noteRef c e.record) (s.recEffect c e) :=
    (KeepsOutside.of_regs (u := s) (by rw [s.noteRef_rest])).trans ((s.recEffect_keeps c e).mono fun _ => stepKeys_pastHng)
  exact hk.calm (State.noteRef_calm h c e.record) (by rw [s.recEffect_rest]) (by rw [s.recEffect_rest]) (by rw [s.recEffect_rest])

theorem State.recEffect_ctx (s : State) (c : Nat) (e : RecEvent) :
    (s.recEffect c e).ctx c = { s.ctx c with pendCser := ((s.recEffect c e).ctx c).pendCser } := by
  have h : (s.recEffect c e).ctx c = (s.noteRef c e.record).ctx c := by rw [s.recEffect_rest]; rfl
  rw [h, s.noteRef_ctx]

/-- A field of a context that a STEP's end does not write, beyond the header of the page. -/
theorem State.recEffect_rd (s : State) (c : Nat) (e : RecEvent) {f : Field} (hf : f ∈ [Reg.CTX_RSER_NEXT, Reg.CTX_CPL_BIND]) :
    (s.recEffect c e).rd f c = s.rd f c := by
  refine s.recEffect_keeps c e f c 0 ?_
  simp only [List.mem_cons, List.not_mem_nil, or_false] at hf
  simp only [stepKeys, List.mem_cons, List.not_mem_nil, or_false, not_or]
  obtain rfl | rfl := hf <;>
    exact ⟨key_ne_of_place c, key_ne_of_place c, by simp only [Field.key, Reg.CTX_RSER_NEXT, Reg.CTX_CPL_BIND, Reg.CNT_N, Block.base]; omega⟩

/-- A record stands in its slot, and RSER_NEXT has advanced. -/
def State.recShown (s : State) (c : Nat) (r : Rec) : State :=
  (s.wr Reg.CTX_REC c (s.rd Reg.CTX_RSER_NEXT c % 64) (r.pack c (s.rd Reg.CTX_RSER_NEXT c) (s.qfree c))).wr Reg.CTX_RSER_NEXT c 0
    (s.rd Reg.CTX_RSER_NEXT c + 1)

theorem rec_key_ne {f : Field} (c i : Nat) (h : f ∈ [Reg.CTX_RSER_NEXT, Reg.CTX_CPL_BIND, Reg.CTX_STEP_NUM, Reg.CTX_EXEC_STEP_BUSY]) :
    f.key c 0 ≠ Reg.CTX_REC.key c i := by
  simp only [List.mem_cons, List.not_mem_nil, or_false] at h
  obtain rfl | rfl | rfl | rfl := h <;>
    exact key_ne_of_place c
      (by simp only [Reg.CTX_RSER_NEXT, Reg.CTX_CPL_BIND, Reg.CTX_STEP_NUM, Reg.CTX_EXEC_STEP_BUSY, Reg.CTX_REC]; omega)

/-- A record of a context that is bound to no session is sent to none. -/
theorem State.putRec_of_unbound {s : State} {c : Nat} (r : Rec) (h : s.rd Reg.CTX_CPL_BIND c = 0) : s.putRec c r = s.recShown c r := by
  have hb : (s.recShown c r).rd Reg.CTX_CPL_BIND c ≠ 1 := by
    rw [State.recShown, State.rd_wr_ne _ _ (key_ne_of_place c), State.rd_wr_ne _ _ (rec_key_ne c _ (by simp)), h]
    decide
  exact if_neg hb

theorem State.recShown_rd (s : State) (c : Nat) (r : Rec) :
    (s.recShown c r).rd Reg.CTX_RSER_NEXT c = (s.rd Reg.CTX_RSER_NEXT c + 1) % 2 ^ 32 ∧
    (s.recShown c r).rd Reg.CTX_REC c (s.rd Reg.CTX_RSER_NEXT c % 64) =
      r.pack c (s.rd Reg.CTX_RSER_NEXT c) (s.qfree c) % 2 ^ 256 := by
  refine ⟨State.rd_wr_self .., ?_⟩
  rw [State.recShown, State.rd_wr_ne _ _ (rec_key_ne c _ (by simp)).symm, State.rd_wr_self]
  rfl

theorem State.recShown_keeps (s : State) (c : Nat) (r : Rec) :
    KeepsOutside (· ∈ [Reg.CTX_REC.key c (s.rd Reg.CTX_RSER_NEXT c % 64), Reg.CTX_RSER_NEXT.key c 0]) s (s.recShown c r) :=
  ((KeepsOutside.refl _ s).wr _ (by simp)).wr _ (by simp)

/-- What an event leaves whose record takes the next place of the ring of a context that is bound to no session. -/
structure Recorded (s t : State) (c : Nat) (e : RecEvent) : Prop where
  rest : t = { s with regs := t.regs, ctxs := t.ctxs }
  serial : t.rd Reg.CTX_RSER_NEXT c = (s.rd Reg.CTX_RSER_NEXT c + 1) % 2 ^ 32
  slot : t.rd Reg.CTX_REC c (s.rd Reg.CTX_RSER_NEXT c % 64) = e.record.pack c (s.rd Reg.CTX_RSER_NEXT c) (s.qfree c) % 2 ^ 256
  step : ∀ f ∈ [Reg.CTX_STEP_NUM, Reg.CTX_EXEC_STEP_BUSY], t.rd f c = (s.recEffect c e).rd f c
  ctx : t.ctx c = { s.ctx c with pendCser := (t.ctx c).pendCser }
  calm : s.calm = true → t.calm = true

theorem State.recorded {s : State} {c : Nat} (e : RecEvent) (h : s.rd Reg.CTX_CPL_BIND c = 0) :
    Recorded s ((s.recEffect c e).putRec c e.record) c e := by
  have hser := s.recEffect_rd c e (f := Reg.CTX_RSER_NEXT) (by simp)
  have hq : (s.recEffect c e).qfree c = s.qfree c := by rw [State.qfree, s.recEffect_ctx, State.qfree]
  rw [State.putRec_of_unbound _ ((s.recEffect_rd c e (by simp)).trans h)]
  have hshow := (s.recEffect c e).recShown_rd c e.record
  have hkeep := (s.recEffect c e).recShown_keeps c e.record
  rw [hser, hq] at hshow
  obtain ⟨hnext, hslot⟩ := hshow
  refine ⟨?_, hnext, hslot, fun f hf => ?_, s.recEffect_ctx c e, fun hc => ?_⟩
  · rw [State.recShown, s.recEffect_rest, s.noteRef_rest]; rfl
  · refine hkeep f c 0 ?_
    simp only [List.mem_cons, List.not_mem_nil, or_false] at hf ⊢
    obtain rfl | rfl := hf <;> exact not_or.mpr ⟨rec_key_ne c _ (by simp), key_ne_of_place c⟩
  · refine (hkeep.mono ?_).calm (State.recEffect_calm hc c e) rfl rfl rfl
    simp [pastHng_key Reg.CTX_REC, pastHng_key Reg.CTX_RSER_NEXT]

/-- An event before which none waits is recorded at once where a slot is free. -/
theorem State.report_of_free {s : State} {c : Nat} (e : RecEvent) (hw : (s.ctx c).waiting = []) (hf : s.ringFree c = true) :
    s.report c e = (s.recEffect c e).putRec c e.record := by
  rw [State.report, hw]
  exact if_pos hf

theorem State.recordWrite_of_waiting {s : State} {c : Nat} {e : RecEvent} {r : List RecEvent} (hw : (s.ctx c).waiting = e :: r)
    (hf : s.ringFree c = true) :
    s.recordWrite c = ((s.setCtx c { s.ctx c with waiting := r }).recEffect c e).putRec c e.record := by
  simp only [State.recordWrite, hw, hf, if_true]

/-! ### Steps -/

/-- The record of the STEP in progress of a context, which ends well. -/
def State.stepRecord (s : State) (c : Nat) : RecEvent :=
  ⟨⟨1, 0, (s.ctx c).stepCser, s.rd Reg.CTX_STEP_NUM c, (s.timeUs - (s.ctx c).stepTime) % 2 ^ 32, 0, 0, (s.ctx c).minRate⟩, 2⟩

/-- In SERVE mode a STEP ends once its tiles have reported and its collectives have completed. -/
theorem State.stepComplete_of_done {s : State} {c : Nat} (hc : c < 64) (hbusy : s.rd Reg.CTX_EXEC_STEP_BUSY c = 1)
    (hmode : s.rd Reg.CTX_EXEC_MODE c ≠ 0) (hall : (s.tilesOfCtx c).all (fun k => s.tileReported k c) = true) (hcoll : (s.ctx c).collOpen = [])
    (hfail : (s.ctx c).collFail = none) (hw : (s.ctx c).waiting = []) : s.stepComplete c = s.report c (s.stepRecord c) := by
  rw [State.stepComplete, if_neg, State.stepEnd]
  · exact if_neg (by simp [hbusy, State.stepEnding, hw])
  · simp [hall, hcoll, hfail, hmode, hc]

theorem State.stepComplete_of_waiting {s : State} {c : Nat} (h : (s.tilesOfCtx c).all (fun k => s.tileReported k c) = false) :
    s.stepComplete c = s := if_pos (.inr (.inl (by rw [h]; rfl)))

theorem State.recEffect_step_rd (s : State) (c : Nat) {e : RecEvent} (h : e.stepEnd = 2) :
    (s.recEffect c e).rd Reg.CTX_EXEC_STEP_BUSY c = 0 ∧
    (s.recEffect c e).rd Reg.CTX_STEP_NUM c = (s.rd Reg.CTX_STEP_NUM c + 1) % 2 ^ 32 := by
  have hcnt : ∀ f ∈ [Reg.CTX_EXEC_STEP_BUSY, Reg.CTX_STEP_NUM], f.key c 0 ≠ Reg.CNT_N.key (0x300 + c) 0 := by
    simp only [List.forall_mem_cons, List.not_mem_nil, false_implies, implies_true, and_true]
    constructor <;> simp only [Field.key, Reg.CTX_EXEC_STEP_BUSY, Reg.CTX_STEP_NUM, Reg.CNT_N, Block.base] <;> omega
  rw [s.recEffect_of_step c h]
  constructor
  · rw [State.rd_count_ne _ (hcnt _ (by simp)), State.rd_wr_ne _ _ (key_ne_of_place c), State.rd_wr_self]
    rfl
  · rw [State.rd_count_ne _ (hcnt _ (by simp)), State.rd_wr_self, s.noteRef_rd]
    rfl

end Sys2Proof.Machine
end

section
open Sys2Proof Sys2Proof.Machine

theorem headCommandIsDispatched : Clause.HeadCommandIsDispatched := by
  intro c long h r s hr hc hq hgo hclean taken
  have heads : ∀ op, op = none ∨ op = some (wfield h.words 0 7 0) → Heads s c op h r := fun op hop => ⟨hc, hq, hgo, hop, hclean⟩
  have hwf := decide_eq_true hc
  refine ⟨fun ho => ?_, fun ho => ?_, fun ho => ?_⟩ <;> simp only [List.forall_mem_cons, List.not_mem_nil, false_implies, implies_true, and_true]
  · exact ⟨exec_eq_answer_of (g := fun s => s.dispatchHead c (some 1) long) rfl hwf hr ((heads _ (.inr (by rw [ho]))).dispatch_step ho),
      exec_eq_answer_of (g := fun s => s.dispatchHead c none long) rfl hwf hr ((heads _ (.inl rfl)).dispatch_step ho)⟩
  · exact ⟨exec_eq_answer_of (g := fun s => s.dispatchHead c (some 2) false) rfl hwf hr ((heads _ (.inr (by rw [ho]))).dispatch_coll ho),
      exec_eq_answer_of (g := fun s => s.dispatchHead c none long) rfl hwf hr ((heads _ (.inl rfl)).dispatch_coll ho)⟩
  · exact ⟨exec_eq_answer_of (g := fun s => s.dispatchHead c (some 3) false) rfl hwf hr ((heads _ (.inr (by rw [ho]))).dispatch_mark ho),
      exec_eq_answer_of (g := fun s => s.dispatchHead c none long) rfl hwf hr ((heads _ (.inl rfl)).dispatch_mark ho)⟩

theorem markWritesRecord : Clause.MarkWritesRecord := by
  intro c h r s hr hc hport hq hgo hclean ho hfree hwait hbind _
  have hrd : ∀ f : Machine.Field, f.block = .ctx → ∀ j, (s.takeHead c h r).rd f c j = s.rd f c j := fun f hf j => s.takeHead_rd c r hport hf j
  have hctx := s.takeHead_ctx c h r
  have hfree' : (s.takeHead c h r).ringFree c = true := by rw [State.ringFree, hrd _ rfl, hrd _ rfl]; exact hfree
  have hmark := Heads.dispatch_mark (long := false) ⟨hc, hq, hgo, .inr (congrArg some ho.symm), hclean⟩ ho
  rw [State.cmdRecord, hrd Reg.CTX_STEP_NUM rfl, State.report_of_free _ (by rw [hctx]; exact hwait) hfree'] at hmark
  have hrec := State.recorded ⟨⟨4, 0, h.cser, s.rd Reg.CTX_STEP_NUM c, 0, 0, 0, 0⟩, 0⟩ ((hrd Reg.CTX_CPL_BIND rfl 0).trans hbind)
  generalize ht : ((s.takeHead c h r).recEffect c _).putRec c _ = t at hrec
  have hgt : s.dispatchHead c (some 3) false = t := hmark.trans ht
  obtain ⟨hrest, hserial, hslot, hstep, htctx, hcalm⟩ := hrec
  have hpend : t.pending = s.pending := by rw [hrest, s.takeHead_rest]
  have hex := exec_eq_of_calm (i := .mark c) (g := fun s => s.dispatchHead c (some 3) false) rfl (decide_eq_true hc) hr
    (by rw [hgt]; exact hcalm (State.takeHead_calm (s.ready_iff.mp hr).2 c h r)) (by rw [hgt]; exact hpend)
  rw [hrd _ rfl] at hserial hslot
  have hkept : ∀ f ∈ [Reg.CTX_STEP_NUM, Reg.CTX_EXEC_STEP_BUSY], f.block = .ctx → t.rd f c = s.rd f c := fun f hf hb => by
    rw [hstep f hf, State.recEffect_of_plain _ _ rfl, State.noteRef_rd, hrd f hb]
  refine ⟨t, hex.trans (congrArg _ hgt), by rw [htctx, hctx], hserial, ?_, hkept _ (by simp) rfl, hkept _ (by simp) rfl⟩
  rw [hslot, State.qfree, hctx]

theorem stepCompletes : Clause.StepCompletes := by
  intro c s hr hc hbusy hmode
  refine ⟨fun hall hcoll hfail hfree hwait hbind => ?_, fun hall => ?_⟩
  · have heff := State.stepComplete_of_done hc hbusy hmode hall hcoll hfail hwait
    rw [State.report_of_free _ hwait hfree] at heff
    obtain ⟨hrest, hserial, -, hstep, -, hcalm⟩ := State.recorded (s.stepRecord c) hbind
    obtain ⟨hidle, hnum⟩ := s.recEffect_step_rd c (e := s.stepRecord c) rfl
    generalize (s.recEffect c (s.stepRecord c)).putRec c (s.stepRecord c).record = t at *
    have hex := exec_eq_of_calm (i := .stepComplete c) (g := fun s => s.stepComplete c) rfl (decide_eq_true hc) hr
      (by rw [heff]; exact hcalm (s.ready_iff.mp hr).2) (by rw [heff, hrest])
    exact ⟨t, hex.trans (congrArg _ heff), (hstep _ (by simp)).trans hidle, (hstep _ (by simp)).trans hnum, hserial,
      by rw [hrest], by rw [hrest], by rw [hrest]⟩
  · exact exec_eq_self (g := fun s => s.stepComplete c) rfl (decide_eq_true hc) hr (State.stepComplete_of_waiting hall)

/-- Settles O9: a command taken off the queue leaves the registers of its context as they are, and a record writes its slot and RSER_NEXT
beside what ends the STEP. -/
theorem commandsOfAContext : Obligations.CommandsOfAContext := ⟨headCommandIsDispatched, markWritesRecord, stepCompletes⟩

end

section
namespace Sys2Proof.Machine

open Sys2Proof

/-! PROOFS. The ring of a context, and how a context opens and closes: what an event record of the package leaves alone. -/

/-! ### Event records -/

/-- The pages from PWR to those of the host ports. -/
def HostPlace (k : Nat) : Prop := 4 * 4096 * 32 ≤ k ∧ k < 0x12 * 4096 * 32

theorem HostPlace.pastHng {k : Nat} (h : HostPlace k) : PastHng k := h.1

/-- A counter of a host port's page. -/
theorem hostPlace_count {p n : Nat} (h4 : 4 ≤ p) (hp : p < 0x12) (hn : n < 8) : HostPlace (Reg.CNT_N.key p n) := by
  simp only [HostPlace, Field.key, Reg.CNT_N, Block.base]; omega

/-- A field of a host port's page. -/
theorem hostPlace_key {f : Field} {p j : Nat} (hp : p < 2) (hj : f.off + f.stride * j < 4096 := by decide) (hl : f.lo < 32 := by decide)
    (hb : f.block = .hst := by rfl) : HostPlace (f.key p j) := by
  simp only [HostPlace, Field.key, hb, Block.base]; omega

/-- No register of a page past the host ports is at such a place. -/
theorem not_hostPlace {f : Field} (i j : Nat) (hb : 0x12 ≤ f.block.base := by decide) : ¬ HostPlace (f.key i j) := by
  simp only [HostPlace, Field.key]; omega

theorem KeepsOutside.count {K : Nat → Prop} {s u : State} (h : KeepsOutside K s u) {p n : Nat} (k : Nat) (hf : K (Reg.CNT_N.key p n)) :
    KeepsOutside K s (u.count p n k) := h.countF k hf

theorem State.flushOut_keeps (f : Nat) {p n : Nat} (hp : p < 2) (hn : n < 32) : ∀ s : State, KeepsOutside HostPlace s (s.flushOut p n f) := by
  induction f with
  | zero => exact fun s => .refl _ s
  | succ f ih =>
    intro s
    obtain h | ⟨x, o, v, h⟩ := State.flushOut_step s p n f
    · rw [h]; exact .refl _ s
    · rw [h]
      have hsent : KeepsOutside HostPlace s (State.wr { s with sess := x, hostOut := o } Reg.HST_S_TXSEQ p n v) :=
        (KeepsOutside.of_regs rfl).wr v (hostPlace_key hp (by simp only [Reg.HST_S_TXSEQ]; omega))
      exact (hsent.count 1 (hostPlace_count (by omega) (by omega) (by decide))).trans (ih _)

theorem State.sendNum_keeps (s : State) {p n : Nat} (b : NBody) (hp : p < 2) (hn : n < 32) : KeepsOutside HostPlace s (s.sendNum p n b) := by
  rw [State.sendNum]
  split
  · exact .refl _ s
  · exact .trans (.of_regs rfl) (State.flushOut_keeps _ hp hn _)

theorem State.of_mem_openSessions {s : State} {x : Nat × Nat} (h : x ∈ s.openSessions) : x.1 < 2 ∧ x.2 < 32 := by
  simp only [State.openSessions, List.mem_filter, List.mem_flatMap, List.mem_map, List.mem_range] at h
  obtain ⟨⟨p, hp, n, hn, rfl⟩, -⟩ := h
  exact ⟨hp, hn⟩

theorem State.sendEvt_keeps (s : State) (e : EventRec) : KeepsOutside HostPlace s (s.sendEvt e) := by
  refine KeepsOutside.foldl _ _ (fun u x hx => ?_) s
  obtain ⟨hp, hn⟩ := State.of_mem_openSessions hx
  split
  · exact State.sendNum_keeps u _ hp hn
  · exact .refl _ u

/-- An event record is counted on Soholt's page and sent on the pages of the host ports. -/
theorem State.log_keeps (s : State) (e : EventRec) : KeepsOutside HostPlace s (s.log e) := by
  rw [State.log]
  split
  · split <;> exact .of_regs rfl
  · rw [State.logNow]
    split
    · refine KeepsOutside.count ?_ 1 (hostPlace_count (p := 0x008) (n := 1) (by decide) (by decide) (by decide))
      exact .of_regs rfl
    · refine KeepsOutside.trans ?_ (State.sendEvt_keeps _ _)
      refine KeepsOutside.count (KeepsOutside.count ?_ 1 ?_) 32 (hostPlace_count (p := 0x008) (n := 3) (by decide) (by decide) (by decide))
      · exact .of_regs rfl
      · exact hostPlace_count (by decide) (by decide) (by decide)

/-! ### The ring -/

theorem State.cplAck_keeps (s : State) (c v : Nat) : KeepsOutside (· ∈ [Reg.CTX_CPL_ACKED.key c 0]) s (s.cplAck c v) := by
  rw [State.cplAck]
  split
  · exact (KeepsOutside.refl _ s).wr v (by simp)
  · exact .refl _ s

theorem State.cplAck_rd (s : State) (c : Nat) {v : Nat} (hv : v < 2 ^ 32) : (s.cplAck c v).rd Reg.CTX_CPL_ACKED c =
    if newer v (s.rd Reg.CTX_CPL_ACKED c) && !newer v (s.rd Reg.CTX_RSER_NEXT c) then v else s.rd Reg.CTX_CPL_ACKED c := by
  rw [State.cplAck]
  split
  · rw [State.rd_wr_self]; exact Nat.mod_eq_of_lt hv
  · rfl

/-- A context whose ring holds `n` records that are not consumed sends them all when it is bound. -/
theorem State.cplBind_of_held {s : State} {c n : Nat} (h0 : 0 < n)
    (hn : (s.rd Reg.CTX_RSER_NEXT c + 2 ^ 32 - s.rd Reg.CTX_CPL_ACKED c) % 2 ^ 32 = n) :
    s.cplBind c = (s.wr Reg.CTX_CPL_BIND c 0 1).sendNum (s.rd Reg.CTX_CPL_PORT c) (s.rd Reg.CTX_CPL_SESS c)
      (.cpl c ((List.range n).map (fun i => s.rd Reg.CTX_REC c ((s.rd Reg.CTX_CPL_ACKED c + i) % 64)))
        ((s.rd Reg.CTX_CPL_ACKED c + n - 1) % 2 ^ 32)) := by
  have hrec : ∀ k, (s.wr Reg.CTX_CPL_BIND c 0 1).rd Reg.CTX_REC c k = s.rd Reg.CTX_REC c k := fun k =>
    State.rd_wr_ne _ _ (rec_key_ne c k (by simp)).symm
  have hack : (s.wr Reg.CTX_CPL_BIND c 0 1).rd Reg.CTX_CPL_ACKED c = s.rd Reg.CTX_CPL_ACKED c := State.rd_wr_ne _ _ (key_ne_of_place c)
  have hser : (s.wr Reg.CTX_CPL_BIND c 0 1).rd Reg.CTX_RSER_NEXT c = s.rd Reg.CTX_RSER_NEXT c := State.rd_wr_ne _ _ (key_ne_of_place c)
  have hport : (s.wr Reg.CTX_CPL_BIND c 0 1).rd Reg.CTX_CPL_PORT c = s.rd Reg.CTX_CPL_PORT c := State.rd_wr_ne _ _ (key_ne_of_place c)
  have hsess : (s.wr Reg.CTX_CPL_BIND c 0 1).rd Reg.CTX_CPL_SESS c = s.rd Reg.CTX_CPL_SESS c := State.rd_wr_ne _ _ (key_ne_of_place c)
  simp only [State.cplBind, hrec, hack, hser, hport, hsess, hn]
  exact if_neg (by omega)

/-! ### Opening and closing -/

/-- A state stays calm where a context takes a record without a failed collective and without a teardown that waits. -/
theorem State.setCtx_calm_of_idle {s : State} (c : Nat) {x : Ctx} (hc : s.calm = true) (hf : x.collFail = none) (ht : x.teardown ≠ 5) :
    (s.setCtx c x).calm = true := by
  simp only [State.calm, Bool.and_eq_true, List.all_eq_true] at hc ⊢
  obtain ⟨⟨⟨⟨hdue, hctx⟩, hlanes⟩, hflt⟩, hhalt⟩ := hc
  refine ⟨⟨⟨⟨hdue, fun p hp => ?_⟩, hlanes⟩, hflt⟩, hhalt⟩
  obtain rfl | hp := SMap.mem_set hp
  · simp [hf, ht]
  · exact hctx p hp

theorem KeepsOutside.rst {K : Nat → Prop} {s u : State} (h : KeepsOutside K s u) {f : Field} {i j : Nat} (hf : K (f.key i j)) :
    KeepsOutside K s (u.rst f i j) := h.wr _ hf

/-- The places of the slots of a context's ring and of the counters of its page. -/
def RingPlace (c k : Nat) : Prop := (∃ i, k = Reg.CTX_REC.key c i) ∨ ∃ n < 8, k = Reg.CNT_N.key (0x300 + c) n

/-- The serials of a context. -/
def serialFields : List Field := [Reg.CTX_CSER_NEXT, Reg.CTX_RSER_NEXT, Reg.CTX_CPL_ACKED]

theorem not_ringPlace {f : Field} (hf : f ∈ serialFields) (c : Nat) : ¬ RingPlace c (f.key c 0) := by
  simp only [serialFields, List.mem_cons, List.not_mem_nil, or_false] at hf
  rintro (⟨i, h⟩ | ⟨n, hn, h⟩) <;> obtain rfl | rfl | rfl := hf <;>
    simp only [Field.key, Reg.CTX_CSER_NEXT, Reg.CTX_RSER_NEXT, Reg.CTX_CPL_ACKED, Reg.CTX_REC, Reg.CNT_N, Block.base] at h <;> omega

/-- The serials of a context at their reset values, with an empty queue. -/
def State.serialsClear (s : State) (c : Nat) : State :=
  ((((s.setCtx c Ctx.empty).rst Reg.CTX_CSER_NEXT c 0).rst Reg.CTX_RSER_NEXT c 0).rst Reg.CTX_CPL_ACKED c 0)

theorem State.ctxClear_eq (s : State) (c : Nat) : s.ctxClear c =
    (List.range 8).foldl (fun (s : State) n => s.rst Reg.CNT_N (0x300 + c) n)
      ((List.range 64).foldl (fun (s : State) i => s.rst Reg.CTX_REC c i) (s.serialsClear c)) := rfl

theorem State.ctxClear_keeps_serials (s : State) (c : Nat) : KeepsOutside (RingPlace c) (s.serialsClear c) (s.ctxClear c) := by
  rw [State.ctxClear_eq]
  refine .trans (KeepsOutside.foldl _ _ (fun u i _ => ?_) _) (KeepsOutside.foldl _ _ (fun u n hn => ?_) _)
  · exact (KeepsOutside.refl _ u).rst (.inl ⟨i, rfl⟩)
  · exact (KeepsOutside.refl _ u).rst (.inr ⟨n, List.mem_range.mp hn, rfl⟩)

theorem State.serialsClear_rd (s : State) {f : Field} (hf : f ∈ serialFields) (c : Nat) : (s.serialsClear c).rd f c = 0 := by
  simp only [serialFields, List.mem_cons, List.not_mem_nil, or_false] at hf
  obtain rfl | rfl | rfl := hf
  · rw [State.serialsClear, State.rst, State.rd_wr_ne _ _ (key_ne_of_place c), State.rst, State.rd_wr_ne _ _ (key_ne_of_place c), State.rst,
      State.rd_wr_self]
    rfl
  · rw [State.serialsClear, State.rst, State.rd_wr_ne _ _ (key_ne_of_place c), State.rst, State.rd_wr_self]
    rfl
  · rw [State.serialsClear, State.rst, State.rd_wr_self]
    rfl

theorem ringPlace_pastHng {c k : Nat} (h : RingPlace c k) : PastHng k := by
  obtain ⟨i, rfl⟩ | ⟨n, -, rfl⟩ := h
  · exact pastHng_key ..
  · simp only [PastHng, Field.key, Reg.CNT_N, Block.base]; omega

theorem State.ctxClear_keeps (s : State) (c : Nat) : KeepsOutside PastHng s (s.ctxClear c) := by
  refine .trans ?_ ((s.ctxClear_keeps_serials c).mono fun _ => ringPlace_pastHng)
  exact (((KeepsOutside.of_regs rfl).rst (pastHng_key ..)).rst (pastHng_key ..)).rst (pastHng_key ..)

theorem State.foldl_rst_rest {s u : State} (f : Field) (i : Nat) (l : List Nat) (h : u = { s with regs := u.regs }) :
    l.foldl (fun (s : State) j => s.rst f i j) u = { s with regs := (l.foldl (fun (s : State) j => s.rst f i j) u).regs } :=
  List.foldlRecOn (motive := fun v : State => v = { s with regs := v.regs }) l _ h (fun v hv j _ => by rw [State.rst, State.wr, hv])

theorem State.ctxClear_rest (s : State) (c : Nat) : s.ctxClear c = { s.setCtx c Ctx.empty with regs := (s.ctxClear c).regs } := by
  rw [State.ctxClear_eq]
  exact State.foldl_rst_rest _ _ _ (State.foldl_rst_rest _ _ _ rfl)

/-- A context just opened, before its event record. -/
def State.ctxOpened (s : State) (c : Nat) : State := (s.ctxClear c).wr Reg.CTX_CSTATE c 0 1

theorem State.ctxOpen_of_free {s : State} {c : Nat} (ha : s.ctxAssigned c = true) (hc : s.cstate c = 0) (hs : s.sec.sealing = none) :
    s.ctxOpen c = (s.ctxOpened c).eventCtx c 1 := if_neg (by simp [ha, hc, hs])

theorem State.ctxOpen_of_taken {s : State} {c : Nat} (hc : s.cstate c ≠ 0) : s.ctxOpen c = s := if_pos (by simp [hc])

theorem State.teardown_of_not_open {s : State} {c : Nat} (hc : s.cstate c ≠ 1) : s.teardown c = s := if_pos hc

theorem State.ctxOpened_rest (s : State) (c : Nat) : s.ctxOpened c = { s.setCtx c Ctx.empty with regs := (s.ctxOpened c).regs } := by
  have h := s.ctxClear_rest c
  rw [State.ctxOpened]
  generalize s.ctxClear c = u at h ⊢
  rw [h]
  rfl

theorem State.ctxOpened_rd (s : State) (c : Nat) :
    (s.ctxOpened c).rd Reg.CTX_CSTATE c = 1 ∧ ∀ f ∈ serialFields, (s.ctxOpened c).rd f c = 0 := by
  refine ⟨State.rd_wr_self .., fun f hf => ?_⟩
  have hne : f.key c 0 ≠ Reg.CTX_CSTATE.key c 0 := by
    simp only [serialFields, List.mem_cons, List.not_mem_nil, or_false] at hf
    obtain rfl | rfl | rfl := hf <;> exact key_ne_of_place c
  rw [State.ctxOpened, State.rd_wr_ne _ _ hne, s.ctxClear_keeps_serials c f c 0 (not_ringPlace hf c), s.serialsClear_rd hf]

theorem serialField_ctx {f : Field} (hf : f ∈ serialFields) : f.block = .ctx := by
  simp only [serialFields, List.mem_cons, List.not_mem_nil, or_false] at hf
  obtain rfl | rfl | rfl := hf <;> rfl

theorem State.ctxOpened_calm {s : State} (h : s.calm = true) (c : Nat) : (s.ctxOpened c).calm = true := by
  have hk : KeepsOutside PastHng (s.setCtx c Ctx.empty) (s.ctxOpened c) :=
    (KeepsOutside.of_regs (u := s) rfl).trans ((s.ctxClear_keeps c).wr 1 (pastHng_key ..))
  have hrest := s.ctxOpened_rest c
  generalize s.ctxOpened c = u at hk hrest ⊢
  exact hk.calm (State.setCtx_calm_of_idle c h rfl (by decide)) (by rw [hrest]) (by rw [hrest]) (by rw [hrest])

end Sys2Proof.Machine
end

section
open Sys2Proof Sys2Proof.Machine

theorem completionRing : Clause.CompletionRing := by
  intro c s hr hc
  refine ⟨fun e r hw hfree _ _ hbind => ?_, fun ag v hm hv => ?_, fun ag n hm h0 _ hn => ?_⟩
  · have hcalm := (s.ready_iff.mp hr).2
    have heff := State.recordWrite_of_waiting hw hfree
    obtain ⟨hrest, hserial, hslot, -, hctx, hkeep⟩ := State.recorded (s := s.setCtx c { s.ctx c with waiting := r }) e hbind
    simp only [State.setCtx_rd, State.qfree, State.ctx_setCtx_self] at hserial hslot hctx
    generalize ((s.setCtx c { s.ctx c with waiting := r }).recEffect c e).putRec c e.record = t at *
    have hex := exec_eq_of_calm (i := .recordWrite c) (g := fun s => s.recordWrite c) rfl (decide_eq_true hc) hr
      (by rw [heff]; exact hkeep (State.setCtx_calm hcalm rfl rfl)) (by rw [heff, hrest]; rfl)
    exact ⟨t, hex.trans (congrArg _ heff), by rw [hctx], hserial, hslot⟩
  · have hkeep : KeepsOutside (· ∈ [Reg.CTX_CPL_ACKED.key c 0]) s ((s.dropLatch ag).cplAck c v) :=
      (KeepsOutside.of_regs rfl).trans (State.cplAck_keeps _ c v)
    have hwf (h : ag.wellFormed = true) : (Instr.cplAcked ag c v).wellFormed = true := by
      rw [Instr.wellFormed, Bool.and_eq_true, Bool.and_eq_true, decide_eq_true_eq, decide_eq_true_eq]
      exact ⟨⟨h, hc⟩, hv⟩
    have hrest : (s.dropLatch ag).cplAck c v =
        { s with regs := ((s.dropLatch ag).cplAck c v).regs, latches := ((s.dropLatch ag).cplAck c v).latches } := by
      rw [State.cplAck]; split <;> rfl
    obtain ⟨hex, hro⟩ := exec_regsOnly_of_mayWrite (i := .cplAcked ag c v) (b := .ctx) (g := fun s => s.cplAck c v) rfl
      hwf hr hc hm rfl hrest hkeep (by simp [pastHng_key Reg.CTX_CPL_ACKED])
    exact ⟨_, hex, by rw [State.cplAck_rd _ c hv, State.dropLatch_rd, State.dropLatch_rd], hro⟩
  · rw [exec_eq_answer_of_mayWrite (i := .cplBind ag c) (b := .ctx) (g := fun s => s.cplBind c) rfl
      (fun h => by simp [Instr.wellFormed, h, hc]) hr hc hm, State.cplBind_of_held (s := s.dropLatch ag) h0 (by simpa only [State.dropLatch_rd] using hn)]
    simp only [State.dropLatch_rd]

theorem contextOpensAndCloses : Clause.ContextOpensAndCloses := by
  intro ag c s hr hc hm
  have hwf : ag.wellFormed = true → (Instr.ctxOpen ag c).wellFormed = true ∧ (Instr.teardown ag c).wellFormed = true := fun h => by
    simp [Instr.wellFormed, h, hc]
  refine ⟨fun ha hcs hseal => ?_, fun hcs => ?_, fun hcs => ?_, fun hcs => ?_⟩
  · have heff := State.ctxOpen_of_free (s := s.dropLatch ag) ha hcs hseal
    have hrest := (s.dropLatch ag).ctxOpened_rest c
    have hcalm := State.ctxOpened_calm (s := s.dropLatch ag) (s.ready_iff.mp hr).2 c
    obtain ⟨hopen, hserial⟩ := (s.dropLatch ag).ctxOpened_rd c
    generalize (s.dropLatch ag).ctxOpened c = u at *
    have hk : KeepsOutside HostPlace u (u.eventCtx c 1) := State.log_keeps _ _
    obtain ⟨_, _, _, _, _, hlog⟩ := u.eventCtx_logs c 1
    have hex := exec_eq_of_mayWrite (i := .ctxOpen ag c) (b := .ctx) (g := fun s => s.ctxOpen c) rfl (fun h => (hwf h).1) hr hc hm
      (by rw [heff]; exact (hk.mono fun _ => HostPlace.pastHng).calm hcalm (by rw [hlog]) (by rw [hlog]) (by rw [hlog])) (by rw [heff, hlog, hrest]; rfl)
    have hctxs : (u.eventCtx c 1).ctxs = ((s.dropLatch ag).setCtx c Ctx.empty).ctxs := by rw [hlog, hrest]
    have hctx : (u.eventCtx c 1).ctx c = Ctx.empty := by rw [State.ctx, hctxs]; exact State.ctx_setCtx_self (s.dropLatch ag) c Ctx.empty
    have hser : ∀ f ∈ serialFields, (u.eventCtx c 1).rd f c = 0 := fun f hf =>
      (hk f c 0 (not_hostPlace c 0 (by rw [serialField_ctx hf]; decide))).trans (hserial f hf)
    exact ⟨_, hex.trans (congrArg _ heff), (hk _ c 0 (not_hostPlace c 0)).trans hopen, hctx, hser _ (by simp [serialFields]),
      hser _ (by simp [serialFields]), hser _ (by simp [serialFields]), by rw [hlog, hrest]; rfl, by rw [hlog, hrest]; rfl, by rw [hlog, hrest]; rfl⟩
  · obtain ⟨hex, hro⟩ := exec_regsOnly_of_mayWrite (i := .ctxOpen ag c) (b := .ctx) (g := fun s => s.ctxOpen c) (ks := []) rfl
      (fun h => (hwf h).1) hr hc hm (State.ctxOpen_of_taken (s := s.dropLatch ag) hcs) rfl (.of_regs rfl) (by simp)
    exact ⟨_, hex, hro⟩
  · obtain ⟨hex, hro⟩ := exec_regsOnly_of_mayWrite (i := .teardown ag c) (b := .ctx) (g := fun s => s.teardown c) (ks := []) rfl
      (fun h => (hwf h).2) hr hc hm (State.teardown_of_not_open (s := s.dropLatch ag) hcs) rfl (.of_regs rfl) (by simp)
    exact ⟨_, hex, hro⟩
  · rw [exec_eq_answer_of_mayWrite (i := .teardown ag c) (b := .ctx) (g := fun s => s.teardown c) rfl (fun h => (hwf h).2) hr hc hm, State.teardown,
      if_neg (by simpa [State.cstate] using hcs)]

/-- Settles O11: a record takes its slot of the ring; an opened context has its serials cleared, and its event record writes no page past
those of the host ports. -/
theorem contextsAndTheirRings : Obligations.ContextsAndTheirRings := ⟨completionRing, contextOpensAndCloses⟩

end

section
namespace Sys2Proof.Machine

open Sys2Proof

/-! PROOFS. Host sessions: how a message reaches its session, the registers that a session binds and frees, its acknowledgements. -/

section
variable {s u : State} {i : Instr} {g : State → State}

/-- A command whose effect is `u` answers `u` where the effect writes past page HNG and nothing of what follows it reads has changed. -/
theorem exec_eq_of_effect (he : exec i s = s.serve i g) (hw : i.wellFormed = true) (hr : s.ready = true) (hg : g s = u)
    (hk : KeepsOutside PastHng s u) (hd : u.due = s.due) (hx : u.ctxs = s.ctxs) (hb : u.boot = s.boot) (hp : u.pending = s.pending) :
    exec i s = .next u := by
  subst hg
  exact exec_eq_of_keeps he hw hr hk hd hx hb hp

end

/-! ### Messages and sessions -/

theorem State.session_eq (s : State) (p n : Nat) : s.session p n = SMap.find s.sess (32 * p + n) := by
  rw [State.session, Nat.mul_comm]

theorem State.session_put (s : State) (q : SMap Session) (p n : Nat) (x : Session) :
    ({ s with sess := SMap.put q (32 * p + n) x } : State).session p n = some x :=
  (State.session_eq ..).trans (SMap.find_put_self ..)

theorem State.message_of_opens {s : State} {m : Msg} (hh : s.msgHeard m = true) (hv : s.msgValid m = true) (ho : m.opens = true) :
    s.message m (fun m => m.opens) = s.sessionOpen m := by
  simp [State.message, hh, hv, ho]

theorem State.message_of_session {s : State} {m : Msg} {q : Msg → Bool} (hh : s.msgHeard m = true) (hv : s.msgValid m = true)
    (hq : q m = true) (ho : m.opens = false) : s.message m q = s.sessionMsg m := by
  simp [State.message, hh, hv, hq, ho]

/-- What a session with nothing in flight is after a valid message on it; `next` is the package's next SEQ. -/
def Session.hearing (x : Session) (m : Msg) (next : Nat) : Session :=
  { x with peerAck := if older x.peerAck m.ack && !newer m.ack next then m.ack else x.peerAck
           window := m.window, mac := m.mac, vlan := m.vlan, ip := m.addr }

/-- The records of the sessions after a valid message on one with nothing in flight. -/
def State.sessHearing (s : State) (m : Msg) (x : Session) : SMap Session :=
  SMap.put (SMap.put s.sess (32 * m.port + m.session) { x with mac := m.mac, vlan := m.vlan, ip := m.addr }) (32 * m.port + m.session)
    (x.hearing m (s.rd Reg.HST_S_TXSEQ m.port m.session))

/-- On a session with nothing in flight, a header brings the peer's place, its next SEQ and its window, and sends nothing. -/
theorem State.ackIn_of_idle {s : State} {m : Msg} {x : Session} (hx : s.session m.port m.session = some x) (hu : x.unacked = [])
    (ho : x.outq = []) : (s.learnPeer m).ackIn m.port m.session m = { s with sess := s.sessHearing m x } := by
  have hx' := s.session_put s.sess m.port m.session { x with mac := m.mac, vlan := m.vlan, ip := m.addr }
  have hlearn : s.learnPeer m =
      { s with sess := SMap.put s.sess (32 * m.port + m.session) { x with mac := m.mac, vlan := m.vlan, ip := m.addr } } := by
    rw [State.learnPeer, hx]
  rw [hlearn]
  simp only [State.ackIn, hx']
  simp only [hu, ho, List.filter_nil, List.foldl_nil, List.length_nil, State.flushOut, State.sessHearing, Session.hearing]
  rfl

theorem State.sessHearing_self (s : State) (m : Msg) (x : Session) : SMap.find (s.sessHearing m x) (32 * m.port + m.session) =
    some (x.hearing m (s.rd Reg.HST_S_TXSEQ m.port m.session)) := SMap.find_put_self ..

theorem State.sessHearing_ne (s : State) (m : Msg) (x : Session) {k : Nat} (hk : k ≠ 32 * m.port + m.session) :
    SMap.find (s.sessHearing m x) k = SMap.find s.sess k := by
  rw [State.sessHearing, SMap.find_put_ne _ _ hk, SMap.find_put_ne _ _ hk]

/-! ### The registers of a session -/

/-- The fields that a session binds. -/
def sessFields : List Field :=
  [Reg.HST_S_OPEN, Reg.HST_S_SUB, Reg.HST_S_SCOPE, Reg.HST_S_UDP, Reg.HST_S_ADDR, Reg.HST_S_TXSEQ, Reg.HST_S_RXACK]

theorem sessKeys_nodup (p n : Nat) : (sessFields.map (fun f => f.key p n)).Nodup := by
  have hplace : (sessFields.map (fun f => f.off * 32 + f.lo)).Nodup := by decide
  have hshape : ∀ f ∈ sessFields, f.block = .hst ∧ f.stride = 0x20 := by decide
  refine List.Nodup.map_on (fun f hf g hg h => List.inj_on_of_nodup_map hplace hf hg ?_) hplace.of_map
  obtain ⟨hfb, hfs⟩ := hshape f hf
  obtain ⟨hgb, hgs⟩ := hshape g hg
  simp only [Field.key, hfb, hfs, hgb, hgs] at h
  omega

theorem sessKeys_pastHng {p n k : Nat} (h : k ∈ sessFields.map (fun f => f.key p n)) : PastHng k := by
  have hbase : ∀ f ∈ sessFields, 4 ≤ f.block.base := by decide
  obtain ⟨f, hf, rfl⟩ := List.mem_map.mp h
  exact pastHng_key f p n (hbase f hf)

/-- The values of the fields of a session that `m` opens; `tx` is the package's first SEQ. -/
def sessValues (m : Msg) (tx : Nat) : List (Field × Nat) :=
  [(Reg.HST_S_OPEN, 1), (Reg.HST_S_SUB, m.sub), (Reg.HST_S_SCOPE, bits m.argA 6 4), (Reg.HST_S_UDP, m.udp), (Reg.HST_S_ADDR, m.addr),
   (Reg.HST_S_TXSEQ, tx), (Reg.HST_S_RXACK, m.seq)]

theorem sessValues_fst (m : Msg) (tx : Nat) : (sessValues m tx).map Prod.fst = sessFields := rfl

/-- The values of a session's fields fit their widths. -/
theorem sessValues_lt {m : Msg} {tx : Nat} (hm : m.wellFormed = true) (htx : tx < 2 ^ 32) : ∀ f ∈ sessValues m tx, f.2 < 2 ^ f.1.width := by
  simp only [Msg.wellFormed, Bool.and_eq_true, decide_eq_true_eq] at hm
  simp only [sessValues, List.forall_mem_cons, List.not_mem_nil, false_implies, implies_true, and_true]
  exact ⟨by decide, by simp only [Reg.HST_S_SUB]; omega, bits_lt m.argA 6 4, by simp only [Reg.HST_S_UDP]; omega,
    by simp only [Reg.HST_S_ADDR]; omega, htx, by simp only [Reg.HST_S_RXACK]; omega⟩

/-! ### Opening -/

/-- The record of a session that `m` opens. -/
def Msg.opened (m : Msg) (tx : Nat) : Session :=
  { firstRx := m.seq, firstTx := tx, peerAck := tx, window := m.window, outq := [], v6 := m.v6, mac := m.mac
    vlan := m.vlan, ip := m.addr, unacked := [], inbox := [], ackDue := false }

/-- Session `n` bound to the sender of `m`, before its answer. -/
def State.sessBound (s : State) (m : Msg) (n tx : Nat) : State :=
  ({ s.tick with sess := SMap.put s.sess (32 * m.port + n) (m.opened tx) } : State).wrAll m.port n (sessValues m tx)

/-- The allow table or the boot ROM turns an OPEN away. -/
def State.turnsAway (s : State) (m : Msg) : Bool :=
  (s.noImage && !scopeAll (bits m.argA 6 4)) || !s.allows m.port m.v6 m.addr (bits m.argA 6 4)

/-- The lowest session of a port that is not open. -/
def State.sessFree (s : State) (p : Nat) : Option Nat := (List.range 32).find? (fun n => !s.sessOpen p n)

theorem State.sessionOpen_of_turned {s : State} {m : Msg} (hnew : s.sessOf m = none) (h : s.turnsAway m = true) :
    s.sessionOpen m = s.refuseOpen m 1 := by
  simp only [State.turnsAway, Bool.or_eq_true] at h
  simp only [State.sessionOpen, hnew, Option.filter_none, Option.elim_none]
  split
  · rfl
  · next hrom => exact if_pos (h.resolve_left hrom)

theorem State.sessionOpen_of_allowed {s : State} {m : Msg} (hnew : s.sessOf m = none) (h : s.turnsAway m = false) :
    s.sessionOpen m = (s.sessFree m.port).elim (s.refuseOpen m 2)
      (fun n => (s.sessBound m n (Config.freeWord s.free).toNat).sendSession m.port n 2 0) := by
  simp only [State.turnsAway, Bool.or_eq_false_iff] at h
  obtain ⟨hrom, hallow⟩ := h
  simp only [State.sessionOpen, hnew, Option.filter_none, Option.elim_none, hrom, hallow, Bool.false_eq_true, if_false, State.sessFree]
  split <;> next h => rw [h]; rfl

theorem State.sessBound_rest (s : State) (m : Msg) (n tx : Nat) : s.sessBound m n tx =
    { s with free := s.free + 1, sess := SMap.put s.sess (32 * m.port + n) (m.opened tx), regs := (s.sessBound m n tx).regs } :=
  State.wrAll_eq ..

theorem State.sessBound_keeps (s : State) (m : Msg) (n tx : Nat) :
    KeepsOutside (· ∈ sessFields.map (fun f => f.key m.port n)) s (s.sessBound m n tx) := by
  have hwr := State.wrAll_keeps { s.tick with sess := SMap.put s.sess (32 * m.port + n) (m.opened tx) } m.port n (sessValues m tx)
  rw [sessValues_fst] at hwr
  exact .trans (.of_regs rfl) hwr

theorem State.sessBound_rd (s : State) {m : Msg} {tx : Nat} (n : Nat) (hm : m.wellFormed = true) (htx : tx < 2 ^ 32) {f : Field} {v : Nat}
    (hf : (f, v) ∈ sessValues m tx) : (s.sessBound m n tx).rd f m.port n = v :=
  (State.wrAll_rd (l := sessValues m tx) (sessKeys_nodup m.port n) hf).trans (Nat.mod_eq_of_lt (sessValues_lt hm htx _ hf))

/-! ### Closing -/

/-- Session `n` without its record, its registers at their reset values and its reading latches dropped. -/
def State.sessFreed (s : State) (p n : Nat) : State :=
  ({ s with sess := SMap.del s.sess (32 * p + n), latches := s.latches.filter (fun l => l.agent != .session p n) } : State).wrAll
    p n (sessFields.map (fun f => (f, f.resetAt p n)))

theorem State.sessFreed_rest (s : State) (p n : Nat) : s.sessFreed p n = { s with
    sess := SMap.del s.sess (32 * p + n), latches := s.latches.filter (fun l => l.agent != .session p n), regs := (s.sessFreed p n).regs } :=
  State.wrAll_eq ..

theorem State.sessFreed_keeps (s : State) (p n : Nat) : KeepsOutside (· ∈ sessFields.map (fun f => f.key p n)) s (s.sessFreed p n) := by
  have hwr := State.wrAll_keeps { s with
    sess := SMap.del s.sess (32 * p + n), latches := s.latches.filter (fun l => l.agent != .session p n) } p n
    (sessFields.map (fun f => (f, f.resetAt p n)))
  rw [List.map_map] at hwr
  exact .trans (.of_regs rfl) hwr

theorem State.sessFreed_open (s : State) (p n : Nat) : (s.sessFreed p n).rd Reg.HST_S_OPEN p n = 0 :=
  State.wrAll_rd (l := sessFields.map (fun f => (f, f.resetAt p n))) (sessKeys_nodup p n) (List.mem_map_of_mem (by simp [sessFields]))

/-- A session that no transfer and no context names, and that owns no transaction, only frees its record and its registers. -/
theorem State.sessClose_of_unused {s : State} {p n : Nat} (hx : ∀ y ∈ s.xfers, ¬ (y.port = p ∧ y.sess = n))
    (hc : ∀ c < 64, ¬ (s.rd Reg.CTX_CPL_SESS c = n ∧ s.rd Reg.CTX_CPL_PORT c = p)) (ho : ∀ u < 5, s.owns (.session p n) u = false) :
    s.sessClose p n = s.sessFreed p n := by
  have hxfers : s.xfersEnd (fun x => x.port == p && x.sess == n) 5 = s := by
    have hnil : s.xfers.filter (fun x => x.port == p && x.sess == n) = [] := List.filter_eq_nil_iff.mpr (by simpa using hx)
    rw [State.xfersEnd, hnil]
    rfl
  have hctxs : allCtxs.foldl (fun s c =>
      if s.rd Reg.CTX_CPL_SESS c = n ∧ s.rd Reg.CTX_CPL_PORT c = p then s.wr Reg.CTX_CPL_BIND c 0 0 else s) s = s :=
    foldl_fixed _ _ _ (fun c hmem => if_neg (hc c (List.mem_range.mp hmem)))
  have htxn : s.rollBackIf (fun s t => s.owns (.session p n) t) = s :=
    foldl_fixed _ _ _ (fun t hmem => if_neg (by simp [ho t (List.mem_range.mp hmem)]))
  rw [State.sessClose, hxfers]
  rw [hctxs, htxn, State.sessFreed, State.wrAll, List.foldl_map]
  rfl

/-! ### Acknowledgements and sends -/

theorem State.ackSend_of_due {s : State} {p n : Nat} {x : Session} (hx : s.session p n = some x) (hd : x.ackDue = true) :
    s.ackSend p n = { s with
      sess := SMap.put s.sess (32 * p + n) { x with ackDue := false }, hostOut := s.hostOut ++ [.ack p n (s.addrOf p n x) (s.headOf p n)] } := by
  simp [State.ackSend, hx, hd]

theorem State.ackSend_of_not_due {s : State} {p n : Nat} (h : ∀ x, s.session p n = some x → x.ackDue = false) : s.ackSend p n = s := by
  cases hx : s.session p n with
  | none => simp [State.ackSend, hx]
  | some x => simp [State.ackSend, hx, h x hx]

theorem State.rto_of_acked {s : State} {p n q : Nat} {x : Session} (hx : s.session p n = some x)
    (hq : x.unacked.find? (fun u => u.seq == q) = none) : s.rto p n q = s := by
  simp [State.rto, hx, hq]

theorem State.rto_of_lost {s : State} {p n : Nat} {x : Session} {u : Unacked} (hx : s.session p n = some x)
    (hu : x.unacked.find? (fun v => v.seq == u.seq) = some u) (h : 16 ≤ u.sends) :
    s.rto p n u.seq = (s.raise (hstPage p) 1 none n).sessDrop p n 4 := by
  simp [State.rto, hx, hu, h]

/-- The state after one more send of an unacknowledged message, before the send is counted. -/
def State.resent (s : State) (p n : Nat) (x : Session) (u : Unacked) : State :=
  { s with
    sess := SMap.put s.sess (32 * p + n) { x with unacked := x.unacked.map (fun v =>
      if v.seq = u.seq then { v with sends := v.sends + 1, time := s.timeUs } else v), ackDue := false }
    hostOut := s.hostOut ++ [.numbered p n u.seq u.body (s.addrOf p n x) (s.headOf p n)] }

theorem State.rto_of_sent {s : State} {p n : Nat} {x : Session} {u : Unacked} (hx : s.session p n = some x)
    (hu : x.unacked.find? (fun v => v.seq == u.seq) = some u) (h : u.sends < 16) :
    s.rto p n u.seq = (s.resent p n x u).count (hstPage p) 2 1 := by
  simp [State.rto, State.resend, State.resent, hx, hu, Nat.not_le.mpr h]

/-- A counter of a host port's page. -/
theorem hostCount_pastHng (p n : Nat) : PastHng (Reg.CNT_N.key (hstPage p) n) := by
  simp only [PastHng, hstPage, Field.key, Reg.CNT_N, Block.base]; omega

end Sys2Proof.Machine
end

section
open Sys2Proof Sys2Proof.Machine

theorem sessionsOpen : Clause.SessionsOpen := by
  intro m s hr hm hh hv ho hnew
  have hmsg := State.message_of_opens hh hv ho
  refine ⟨fun hturn => ?_, fun hturn hfree => ?_, fun n hturn hfree => ?_⟩
  · refine exec_eq_of_effect (g := fun s => s.message m (fun m => m.opens)) rfl hm hr
      (hmsg.trans (State.sessionOpen_of_turned hnew hturn)) (.of_regs rfl) rfl rfl rfl rfl
  · have hfree' : s.sessFree m.port = none := hfree
    have heff := State.sessionOpen_of_allowed hnew hturn
    rw [hfree'] at heff
    exact exec_eq_of_effect (g := fun s => s.message m (fun m => m.opens)) rfl hm hr (hmsg.trans heff) (.of_regs rfl) rfl rfl rfl rfl
  · have hfree' : s.sessFree m.port = some n := hfree
    have heff := State.sessionOpen_of_allowed hnew hturn
    rw [hfree', Option.elim_some] at heff
    have htx : (Config.freeWord s.free).toNat < 2 ^ 32 := BitVec.isLt _
    generalize (Config.freeWord s.free).toNat = tx at heff htx ⊢
    have hrd := fun f v hf => s.sessBound_rd (f := f) (v := v) n hm htx hf
    have hkeep := s.sessBound_keeps m n tx
    have hrest := s.sessBound_rest m n tx
    have hsess : (s.sessBound m n tx).session m.port n = some (m.opened tx) := by
      rw [hrest]; exact State.session_put _ s.sess m.port n _
    have hsend : (s.sessBound m n tx).sendSession m.port n 2 0 = { s.sessBound m n tx with
        hostOut := s.hostOut ++ [.session m.port n 2 (bits m.argA 6 4) 0 tx ((s.sessBound m n tx).addrOf m.port n (m.opened tx))
          ((s.sessBound m n tx).headOf m.port n)] } := by
      have hout : (s.sessBound m n tx).hostOut = s.hostOut := by rw [hrest]
      simp only [State.sendSession, hsess, hout, hrd Reg.HST_S_SCOPE (bits m.argA 6 4) (by simp [sessValues])]
      rfl
    generalize s.sessBound m n tx = u at *
    refine ⟨_, exec_eq_of_effect (g := fun s => s.message m (fun m => m.opens)) rfl hm hr (hmsg.trans (heff.trans hsend))
      ((hkeep.mono fun _ => sessKeys_pastHng).trans (.of_regs rfl)) (by rw [hrest]) (by rw [hrest]) (by rw [hrest]) (by rw [hrest]), ?_⟩
    have hother : ∀ k, k ≠ 32 * m.port + n → SMap.find u.sess k = SMap.find s.sess k := fun k hk => by
      rw [hrest]; exact SMap.find_put_ne _ _ hk
    exact ⟨hrd _ _ (by simp [sessValues]), hrd _ _ (by simp [sessValues]), hrd _ _ (by simp [sessValues]), hrd _ _ (by simp [sessValues]),
      hrd _ _ (by simp [sessValues]), hrd _ _ (by simp [sessValues]), hrd _ _ (by simp [sessValues]), hsess, hother, rfl,
      by rw [hrest], by rw [hrest], fun f i j hf => hkeep f i j hf⟩

theorem sessionCloses {m : Msg} {x : Session} {s : State} (hr : s.ready = true) (hx : Heard s m 1 x) (hk : m.skind = 3) :
    exec (.sessionClose m) s = .next (s.answer (((s.learnPeer m).ackIn m.port m.session m).sessClose m.port m.session)) ∧
    ((∀ y ∈ s.xfers, ¬ (y.port = m.port ∧ y.sess = m.session)) →
      (∀ c < 64, ¬ (s.rd Reg.CTX_CPL_SESS c = m.session ∧ s.rd Reg.CTX_CPL_PORT c = m.port)) →
      (∀ u < 5, s.owns (.session m.port m.session) u = false) → Completes (.sessionClose m) s (fun t =>
        t.rd Reg.HST_S_OPEN m.port m.session = 0 ∧ t.session m.port m.session = none ∧ t.xfers = s.xfers ∧ t.ctxs = s.ctxs ∧
        t.hostOut = s.hostOut ∧ (∀ k, k ≠ 32 * m.port + m.session → SMap.find t.sess k = SMap.find s.sess k) ∧
        ∀ f i j, f.key i j ∉ sessFields.map (fun f => f.key m.port m.session) → t.rd f i j = s.rd f i j)) := by
  obtain ⟨hm, hh, hv, htyp, hsess, -, hu, hq⟩ := hx
  have hmsg : s.message m (fun m => m.typ == 1 && m.skind == 3) = ((s.learnPeer m).ackIn m.port m.session m).sessClose m.port m.session := by
    rw [State.message_of_session hh hv (by simp [htyp, hk]) (by simp [Msg.opens, hk]), State.sessionMsg, htyp]
    rfl
  refine ⟨exec_eq_answer_of (g := fun s => s.message m (fun m => m.typ == 1 && m.skind == 3)) rfl hm hr hmsg, fun hxf hc ho => ?_⟩
  have hclose := State.sessClose_of_unused (s := { s with sess := s.sessHearing m x }) hxf hc ho
  rw [State.ackIn_of_idle hsess hu hq, hclose] at hmsg
  have hrest := State.sessFreed_rest { s with sess := s.sessHearing m x } m.port m.session
  have hkeep := State.sessFreed_keeps { s with sess := s.sessHearing m x } m.port m.session
  have hopen := State.sessFreed_open { s with sess := s.sessHearing m x } m.port m.session
  generalize State.sessFreed { s with sess := s.sessHearing m x } m.port m.session = u at hmsg hrest hkeep hopen
  have hsess' : u.sess = SMap.del (s.sessHearing m x) (32 * m.port + m.session) := by rw [hrest]
  refine ⟨u, exec_eq_of_effect (g := fun s => s.message m (fun m => m.typ == 1 && m.skind == 3)) rfl hm hr hmsg
    (hkeep.mono fun _ => sessKeys_pastHng) (by rw [hrest]) (by rw [hrest]) (by rw [hrest]) (by rw [hrest]), hopen, ?_, by rw [hrest], by rw [hrest],
    by rw [hrest], fun k hk => ?_, fun f i j hf => hkeep f i j hf⟩
  · rw [State.session_eq, hsess', SMap.find_del_self]
  · rw [hsess', SMap.find_del_ne _ hk, State.sessHearing_ne s m x hk]

theorem sessionsEnd : Clause.SessionsEnd := by
  intro s hr
  refine ⟨fun m x hx hk => sessionCloses hr hx hk, fun p n hp hn => ?_, fun m x hx => ?_⟩
  · have hw : (Instr.sessTmo p n).wellFormed = true ∧ (Instr.ackSend p n).wellFormed = true ∧ ∀ q, (Instr.rto p n q).wellFormed = true := by
      simp [Instr.wellFormed, hp, hn]
    obtain ⟨hwtmo, hwack, hwrto⟩ := hw
    refine ⟨fun ho => exec_eq_answer_of (g := fun s => s.sessTmo p n) rfl hwtmo hr (if_pos ho),
      fun ho => exec_eq_self (g := fun s => s.sessTmo p n) rfl hwtmo hr (if_neg (by simp [ho])),
      fun hx => exec_eq_self (g := fun s => s.ackSend p n) rfl hwack hr (State.ackSend_of_not_due (by simp [hx])), fun x hx =>
      ⟨fun hd => exec_eq_self (g := fun s => s.ackSend p n) rfl hwack hr (State.ackSend_of_not_due (by simp [hx, hd])),
        fun hd => exec_eq_of_effect (g := fun s => s.ackSend p n) rfl hwack hr (State.ackSend_of_due hx hd) (.of_regs rfl) rfl rfl rfl rfl,
        fun q hq => exec_eq_self (g := fun s => s.rto p n q) rfl (hwrto q) hr (State.rto_of_acked hx hq), fun u hu =>
        ⟨fun h => exec_eq_answer_of (g := fun s => s.rto p n u.seq) rfl (hwrto _) hr (State.rto_of_lost hx hu h), fun h => ?_⟩⟩⟩
    have hkeep : KeepsOutside PastHng s ((s.resent p n x u).count (hstPage p) 2 1) := .count (.of_regs rfl) 1 (hostCount_pastHng p 2)
    have hcount := (s.resent p n x u).count_eq (hstPage p) 2 1
    have heff := State.rto_of_sent hx hu h
    generalize (s.resent p n x u).count (hstPage p) 2 1 = t at heff hkeep hcount
    refine ⟨t, exec_eq_of_effect (g := fun s => s.rto p n u.seq) rfl (hwrto _) hr heff hkeep (by rw [hcount]; rfl) (by rw [hcount]; rfl)
      (by rw [hcount]; rfl) (by rw [hcount]; rfl), by rw [hcount]; rfl, ?_, by rw [hcount]; rfl, by rw [hcount]; rfl, by rw [hcount]; rfl⟩
    rw [hcount]
    exact State.session_put s s.sess p n _
  · obtain ⟨hm, hh, hv, htyp, hsess, -, hu, hq⟩ := hx
    have hmsg : s.message m (fun m => m.typ == 7) = (s.learnPeer m).ackIn m.port m.session m := by
      rw [State.message_of_session hh hv (by simp [htyp]) (by simp [Msg.opens, htyp]), State.sessionMsg, htyp]
      rfl
    rw [State.ackIn_of_idle hsess hu hq] at hmsg
    refine ⟨_, exec_eq_of_effect (g := fun s => s.message m (fun m => m.typ == 7)) rfl hm hr hmsg (.of_regs rfl) rfl rfl rfl rfl,
      ⟨x.hearing m (s.rd Reg.HST_S_TXSEQ m.port m.session), ?_, rfl, rfl, rfl, rfl, rfl⟩, rfl, rfl, rfl⟩
    rw [State.session_eq]
    exact s.sessHearing_self m x

/-- Settles O36: an OPEN binds its session's fields, which fit their widths; a close that nothing holds up resets the same fields. -/
theorem sessionsOpenAndEnd : Obligations.SessionsOpenAndEnd := ⟨sessionsOpen, sessionsEnd⟩

end

section
namespace Sys2Proof.Machine

open Sys2Proof

/-! PROOFS. Bulk transfers: how a transfer is found and put back, how it takes an engine and ends, and where its write data goes. -/

/-! ### Transfers -/

/-- A transfer put back is found under its session and number. -/
theorem State.xfer_putXfer {s : State} {x y : Xfer} (h : s.xfer x.port x.sess x.xid = some y) :
    (s.putXfer x).xfer x.port x.sess x.xid = some x := by
  have hsame : (fun z : Xfer => z.port == x.port && z.sess == x.sess && z.xid == x.xid) ∘
      (fun z => if z.port == x.port && z.sess == x.sess && z.xid == x.xid then x else z) =
      fun z => z.port == x.port && z.sess == x.sess && z.xid == x.xid := by
    funext z
    rw [Function.comp_apply]
    split
    · next hz => rw [hz]; simp
    · rfl
  have hy := List.find?_some h
  rw [State.xfer] at h
  rw [State.xfer, State.putXfer, List.find?_map, hsame, h, Option.map_some, if_pos hy]

theorem State.key_of_xfer {s : State} {p n xid : Nat} {y : Xfer} (h : s.xfer p n xid = some y) : y.port = p ∧ y.sess = n ∧ y.xid = xid := by
  have hkey := List.find?_some h
  simp only [Bool.and_eq_true, beq_iff_eq] at hkey
  obtain ⟨⟨hport, hsess⟩, hxid⟩ := hkey
  exact ⟨hport, hsess, hxid⟩

/-- Of two transfers put back under one number the later one stays. -/
theorem State.putXfer_putXfer (s : State) {x y : Xfer} (hp : x.port = y.port) (hs : x.sess = y.sess) (hx : x.xid = y.xid) :
    (s.putXfer x).putXfer y = s.putXfer y := by
  simp only [State.putXfer, List.map_map, hp, hs, hx]
  congr 1
  refine List.map_congr_left (fun z _ => ?_)
  rw [Function.comp_apply]
  split
  · simp [hp, hs, hx]
  · rfl

/-- A transfer that some record has is found under its number. -/
theorem State.xfer_isSome_of_mem {s : State} {x : Xfer} (h : x ∈ s.xfers) : ∃ y, s.xfer x.port x.sess x.xid = some y :=
  Option.isSome_iff_exists.mp (List.find?_isSome.mpr ⟨x, h, by simp⟩)

/-! ### Engines -/

/-- The oldest transfer of a port that waits for an engine. -/
def State.xferWaiting (s : State) (p : Nat) : Option Xfer := s.xfers.find? (fun x => x.port == p && x.engine.isNone)

/-- The lowest transfer engine of a port that is free. -/
def State.engineFree (s : State) (p : Nat) : Option Nat :=
  (List.range 8).find? (fun e => !(s.xfers.any (fun x => x.port == p && x.engine == some e)) && !s.xeFenced p e
    && (s.recLane (hstPage p) e).isNone)

theorem State.transferStart_of_drain {s : State} {p : Nat} (h : s.rd Reg.PAGE_DRAIN (hstPage p) = 1) : s.transferStart p = s :=
  if_pos (.inr (.inl (beq_iff_eq.mpr h)))

theorem State.transferStart_of_busy {s : State} {p : Nat} (h : s.engineFree p = none) : s.transferStart p = s := by
  rw [State.engineFree] at h
  rw [State.transferStart]
  split
  · rfl
  · dsimp only
    rw [h]
    cases s.xfers.find? (fun x => x.port == p && x.engine.isNone) <;> rfl

theorem State.transferStart_of_free {s : State} {p e : Nat} {x : Xfer} (hp : p < 2) (hd : s.rd Reg.PAGE_DRAIN (hstPage p) ≠ 1)
    (hon : s.powered (hstPage p) = true) (hx : s.xferWaiting p = some x) (he : s.engineFree p = some e) : s.transferStart p =
      if x.write then (s.putXfer { x with engine := some e }).xferGo p x.sess x.xid
      else (s.putXfer { x with engine := some e }).readRun { x with engine := some e } := by
  rw [State.xferWaiting] at hx
  rw [State.engineFree] at he
  rw [State.transferStart, if_neg (by simp [hd, hon]; omega)]
  dsimp only
  rw [hx, he]

/-- A write that holds no data and has placed none has nothing to go on with. -/
theorem State.xferGo_of_empty {s : State} {y : Xfer} (h : (s.putXfer y).xfer y.port y.sess y.xid = some y) (hw : y.write = true)
    (hh : y.held = []) (hpl : y.placed = []) : (s.putXfer y).xferGo y.port y.sess y.xid = s.putXfer y := by
  have hy : { y with held := [] } = y := by rw [← hh]
  simp only [State.xferGo, h]
  rw [if_neg (by simp [hw]), if_neg (by simp [hpl])]
  simp only [h, hy]
  rw [hh, s.putXfer_putXfer rfl rfl rfl]
  split <;> rfl

/-! ### Ends -/

section
variable {s : State} {p n xid : Nat} {x : Xfer}

theorem State.transferComplete_of_partial (hx : s.xfer p n xid = some x) (hw : x.write = true)
    (hc : covers x.served 0 x.len (x.served.length + 1) = false) : s.transferComplete p n xid = s := by
  simp [State.transferComplete, hx, hw, hc]

/-- A write whose every byte has been served posts its peg or notes its staging bytes, then ends. -/
theorem State.transferComplete_of_served (hx : s.xfer p n xid = some x) (hw : x.write = true)
    (hc : covers x.served 0 x.len (x.served.length + 1) = true) : s.transferComplete p n xid =
      (let t := if x.tgt = 1 ∧ x.amount ≠ 0 ∧ s.present x.ptile then s.postPeg (s.phys x.ptile) x.ctx x.peg x.amount else s
       let t := if x.tgt = 2 then t.updCovered x.addr x.len else t
       t.xferEnd { x with moved := x.len } 0) := by
  simp only [State.transferComplete, hx, hw, hc, Bool.not_true, Bool.false_eq_true, if_false, if_true]

theorem State.transferComplete_of_read (hx : s.xfer p n xid = some x) (hw : x.write = false) :
    s.transferComplete p n xid = if x.sentAll && !s.rdataOpen x then s.xferEnd x 0 else s := by
  simp only [State.transferComplete, hx, hw, Bool.false_eq_true, if_false]

end

/-! ### The next message of a session -/

/-- The state in which the next message of a session is noted in its inbox, with whether it is acted on as it comes. -/
def State.noted (s : State) (m : Msg) (x : Session) (early : Bool) : State :=
  { s with
    sess := SMap.put (SMap.put s.sess (32 * m.port + m.session) { x with inbox := [(m.seq, m, early)] }) (32 * m.port + m.session)
      { x with inbox := [(m.seq, m, early)], ackDue := true } }

/-- Write data of a running or waiting transfer is acted on as it comes. -/
def State.comesEarly (s : State) (m : Msg) : Bool :=
  m.typ == 4 && m.bkind == 2 && (s.xfer m.port m.session (bits m.argA 15 0)).any (fun y => y.write)

theorem State.numberedMsg_of_next {s : State} {m : Msg} {x : Session} (hx : s.session m.port m.session = some x) (hi : x.inbox = [])
    (hseq : m.seq = s.rd Reg.HST_S_RXACK m.port m.session) : s.numberedMsg m =
      (if s.comesEarly m then ((s.noted m x true).count (hstPage m.port) 0 1).wdataIn m.session m else s.noted m x false).drainInbox
        m.port m.session 1 := by
  have hnew : ¬ (older m.seq m.seq = true ∨ (SMap.find ([] : SMap (Msg × Bool)) m.seq).isSome = true) := by
    simp [older, not_newer_self, SMap.find]
  have hwin : ¬ s.rxWindow m.port < (m.seq + 2 ^ 32 - m.seq) % 2 ^ 32 := by rw [Nat.add_sub_cancel_left]; omega
  have hnote : ∀ b, ({ s with sess := SMap.put s.sess (32 * m.port + m.session) { x with inbox := [(m.seq, m, b)] } } : State).session
      m.port m.session = some { x with inbox := [(m.seq, m, b)] } := fun b => State.session_put s s.sess m.port m.session _
  simp only [State.numberedMsg, hx, hi, ← hseq]
  rw [if_neg hnew, if_neg hwin]
  simp only [SMap.put, hnote]
  rw [← State.comesEarly]
  cases s.comesEarly m <;> rfl

/-- The one message of an inbox, the next expected, leaves it and is acknowledged; it is acted on unless that has happened. -/
theorem State.drainInbox_of_one {s : State} {p n : Nat} {y : Session} {m : Msg} {acted : Bool} (hy : s.session p n = some y)
    (hi : y.inbox = [(m.seq, m, acted)]) (hk : s.rd Reg.HST_S_RXACK p n = m.seq) : ∃ q,
    s.drainInbox p n 1 = if acted then ({ s with sess := q } : State).wr Reg.HST_S_RXACK p n (m.seq + 1)
      else ((({ s with sess := q } : State).wr Reg.HST_S_RXACK p n (m.seq + 1)).count (hstPage p) 0 1).actOn m := by
  have hfind : SMap.find y.inbox m.seq = some (m, acted) := by simp [hi, SMap.find]
  refine ⟨SMap.put s.sess (32 * p + n) { y with inbox := SMap.del y.inbox m.seq }, ?_⟩
  simp only [State.drainInbox, hy, hk, hfind]

/-! ### Write data as it comes -/

theorem State.noted_session (s : State) (m : Msg) (z : Session) (early : Bool) : (s.noted m z early).session m.port m.session =
    some { z with inbox := [(m.seq, m, early)], ackDue := true } := s.session_put _ m.port m.session _

/-- Write data of a transfer has come and is counted; it is to be acted on. -/
def State.dataCome (s : State) (m : Msg) (z : Session) : State := (s.noted m z true).count (hstPage m.port) 0 1

theorem State.dataCome_keeps (s : State) (m : Msg) (z : Session) : KeepsOutside (· = Reg.CNT_N.key (hstPage m.port) 0) s (s.dataCome m z) := by
  have hnoted : KeepsOutside (· = Reg.CNT_N.key (hstPage m.port) 0) s (s.noted m z true) := .of_regs rfl
  exact hnoted.count 1 rfl

theorem State.dataCome_rest (s : State) (m : Msg) (z : Session) :
    s.dataCome m z = { s with sess := (s.noted m z true).sess, regs := (s.dataCome m z).regs } := by
  rw [State.dataCome, State.count_eq]
  rfl

theorem State.dataCome_session (s : State) (m : Msg) (z : Session) : (s.dataCome m z).session m.port m.session =
    some { z with inbox := [(m.seq, m, true)], ackDue := true } := by
  rw [State.dataCome_rest]
  exact s.noted_session m z true

section
variable {s : State} {m : Msg}

/-- A bulk message on a session with nothing in flight is taken by its number. -/
theorem State.sessionMsg_of_bulk {x : Session} (hx : s.session m.port m.session = some x) (hi : x.inbox = []) (hu : x.unacked = [])
    (hq : x.outq = []) (ht : m.typ = 4) : ∃ q z, s.sessionMsg m = ({ s with sess := q } : State).numberedMsg m ∧
      ({ s with sess := q } : State).session m.port m.session = some z ∧ z.inbox = [] := by
  have hmsg : s.sessionMsg m = ((s.learnPeer m).ackIn m.port m.session m).numberedMsg m := by
    simp only [State.sessionMsg, ht]
  have hfind := s.sessHearing_self m x
  rw [State.ackIn_of_idle hx hu hq] at hmsg
  generalize s.sessHearing m x = q at hmsg hfind
  exact ⟨q, _, hmsg, (State.session_eq ..).trans hfind, by rw [Session.hearing, hi]⟩

/-- Write data that is the next message and has a transfer goes there, and is then acknowledged. -/
theorem State.numberedMsg_of_early {z : Session} (hz : s.session m.port m.session = some z) (hi : z.inbox = [])
    (hseq : m.seq = s.rd Reg.HST_S_RXACK m.port m.session) (he : s.comesEarly m = true) {v : State}
    (hv : (s.dataCome m z).wdataIn m.session m = v) (hsess : v.sess = (s.dataCome m z).sess)
    (hack : v.rd Reg.HST_S_RXACK m.port m.session = m.seq) :
    ∃ q, s.numberedMsg m = ({ v with sess := q } : State).wr Reg.HST_S_RXACK m.port m.session (m.seq + 1) := by
  have hy : v.session m.port m.session = some { z with inbox := [(m.seq, m, true)], ackDue := true } := by
    rw [State.session, hsess]; exact s.dataCome_session m z
  obtain ⟨q, hdrain⟩ := State.drainInbox_of_one hy rfl hack
  exact ⟨q, by rw [State.numberedMsg_of_next hz hi hseq, if_pos he, ← State.dataCome, hv, hdrain, if_pos rfl]⟩

/-- Other write data that is the next message is acknowledged, and then acted on. -/
theorem State.numberedMsg_of_late {z : Session} (hz : s.session m.port m.session = some z) (hi : z.inbox = []) (ht : m.typ = 4) (hb : m.bkind = 2)
    (hseq : m.seq = s.rd Reg.HST_S_RXACK m.port m.session) (he : s.comesEarly m = false) :
    ∃ q, s.numberedMsg m = ((({ s with sess := q } : State).wr Reg.HST_S_RXACK m.port m.session (m.seq + 1)).count
      (hstPage m.port) 0 1).wdataIn m.session m := by
  obtain ⟨q, hdrain⟩ := State.drainInbox_of_one (s.noted_session m z false) rfl hseq.symm
  refine ⟨q, ?_⟩
  rw [State.numberedMsg_of_next hz hi hseq, if_neg (by simp [he]), hdrain, if_neg (by decide), State.actOn, ht]
  exact if_pos hb

end

/-! ### Where write data goes -/

/-- The check of an access depends on the stacks and on the registers of the memory's pages alone. -/
theorem State.larderCheck_congr {s u : State} (hs : u.stk = s.stk) (h : ∀ f : Field, f.block = .mem → ∀ i j, u.rd f i j = s.rd f i j)
    (c kind f a n : Nat) : u.larderCheck c kind f a n = s.larderCheck c kind f a n := by
  have hstack : u.stack = s.stack := by funext k; rw [State.stack, hs, State.stack]
  have hbase : u.regionBase = s.regionBase := by funext st r; rw [State.regionBase, h _ rfl, State.regionBase]
  have hsize : u.regionSize = s.regionSize := by funext st r; rw [State.regionSize, h _ rfl, State.regionSize]
  have hat : u.regionAt = s.regionAt := by funext b; simp only [State.regionAt, State.rdB, hbase, hsize, h Reg.LR_VALID rfl]
  induction f generalizing a n with
  | zero => rfl
  | succ f ih =>
    simp only [State.larderCheck, State.rdB, hstack, hat, hbase, hsize, h Reg.LR_TAGGED rfl, h Reg.LR_CTX rfl, h Reg.LR_WRITE rfl,
      h Reg.LR_STATE rfl, ih]
    rfl

/-- The pages from PWR on, but for RXACK of a session. -/
def BeyondAck (p n k : Nat) : Prop := PastHng k ∧ k ≠ Reg.HST_S_RXACK.key p n

theorem beyondAck_count {p n page c : Nat} (hn : n < 32) (hpage : 4 ≤ page) (hc : c < 8) :
    BeyondAck p n (Reg.CNT_N.key page c) := by
  simp only [BeyondAck, PastHng, Field.key, Reg.CNT_N, Reg.HST_S_RXACK, Block.base]; omega

/-- Only registers at the places `K`, the bytes left over and the engines' progress may differ. -/
structure NotesOnly (K : Nat → Prop) (s u : State) : Prop where
  rest : u = { s with regs := u.regs, xeRest := u.xeRest, watch := u.watch }
  keeps : KeepsOutside K s u

section
variable {K : Nat → Prop} {s u v : State}

theorem NotesOnly.trans (h : NotesOnly K s u) (h' : NotesOnly K u v) : NotesOnly K s v where
  rest := by rw [h'.rest, h.rest]
  keeps := h.keeps.trans h'.keeps

theorem NotesOnly.count (h : NotesOnly K s u) {p n : Nat} (k : Nat) (hf : K (Reg.CNT_N.key p n)) : NotesOnly K s (u.count p n k) :=
  h.trans ⟨by rw [State.count_eq], (KeepsOutside.refl K u).count k hf⟩

theorem NotesOnly.addF (h : NotesOnly K s u) {f : Field} {i j : Nat} (n : Nat) (hf : K (f.key i j)) : NotesOnly K s (u.addF f i j n) :=
  h.trans ⟨rfl, (KeepsOutside.refl K u).wr _ hf⟩

theorem NotesOnly.watched (h : NotesOnly K s u) (w : SMap Nat) : NotesOnly K s { u with watch := w } := h.trans ⟨rfl, .of_regs rfl⟩

theorem NotesOnly.advanced (h : NotesOnly K s u) (page e : Nat) : NotesOnly K s (u.advanced page e) := by
  obtain ⟨w, hw⟩ := u.advanced_eq page e
  rw [hw]
  exact h.watched w

theorem NotesOnly.progress (h : NotesOnly K s u) {page : Nat} (n : Nat) (hf : K (Reg.PROG_CNT.key page 0)) :
    NotesOnly K s (u.progress page n) := by
  obtain ⟨w, hw⟩ := u.progress_eq page n
  rw [hw]
  exact (h.addF n hf).watched w

end

/-- The bytes that a transfer moves are noted in registers, none of them RXACK of a session. -/
theorem State.xferMoved_notes (s : State) {y : Xfer} {e n : Nat} (k : Nat) (hp : y.port < 2) (hn : n < 32) (he : y.engine = some e) (he8 : e < 8) :
    NotesOnly (BeyondAck y.port n) s (s.xferMoved y k).1 := by
  have hprog : BeyondAck y.port n (Reg.HST_XE_PROG.key y.port e) := by
    simp only [BeyondAck, PastHng, Field.key, Reg.HST_XE_PROG, Reg.HST_S_RXACK, Block.base]; omega
  have hcnt : BeyondAck y.port n (Reg.PROG_CNT.key (hstPage y.port) 0) := by
    simp only [BeyondAck, PastHng, hstPage, Field.key, Reg.PROG_CNT, Reg.HST_S_RXACK, Block.base]; omega
  have hport : BeyondAck y.port n (Reg.CNT_N.key (hstPage y.port) (if y.write then 4 else 5)) :=
    beyondAck_count hn (by simp only [hstPage]; omega) (by split <;> decide)
  have hctx : BeyondAck y.port n (Reg.CNT_N.key (0x300 + y.ctx) 7) := beyondAck_count hn (by omega) (by decide)
  simp only [State.xferMoved, he, Option.elim_some]
  have hrest : NotesOnly (BeyondAck y.port n) s { s with
    xeRest := SMap.set 0 s.xeRest (8 * y.port + (some e).getD 0) ((SMap.get 0 s.xeRest (8 * y.port + (some e).getD 0) + k) % 256) } :=
    ⟨rfl, .of_regs rfl⟩
  exact ((((hrest.count k hport).count k hctx).addF _ hprog).advanced _ _).progress _ hcnt

section
variable {s : State} {m : Msg} {y : Xfer}

/-- Data of no transfer is dropped. -/
theorem State.wdataIn_of_none (h : s.xfer m.port m.session (bits m.argA 15 0) = none) : s.wdataIn m.session m = s := by
  simp [State.wdataIn, State.placeOrHold, h]

/-- Data of a transfer that waits for an engine is held with it. -/
theorem State.wdataIn_of_waiting (h : s.xfer m.port m.session (bits m.argA 15 0) = some y) (hw : y.write = true) (he : y.engine = none) :
    s.wdataIn m.session m = s.putXfer { y with held := y.held ++ [(m.seq, m.argB, m.payload)] } := by
  simp [State.wdataIn, State.placeOrHold, h, hw, he, Option.filter]

/-- Data of a running transfer is placed. -/
theorem State.wdataIn_of_running (h : s.xfer m.port m.session (bits m.argA 15 0) = some y) (hw : y.write = true)
    (he : y.engine.isSome = true) (hl : s.xferHeld y = false) (hh : y.held = []) :
    s.wdataIn m.session m = s.placeData y m.seq m.argB m.payload := by
  simp only [State.wdataIn, State.placeOrHold, h, Option.filter, hw, if_true]
  exact if_pos (by simp [he, hl, hh])

/-- Data for an untagged region that passes the region's check is written there. -/
theorem State.placeData_of_region {ofs seq : Nat} {data : List Byte} (ht : y.tgt = 0) (hg : y.tagged = false) (hs : y.isSealed = false)
    (hl : ofs + data.length ≤ y.len) (hb : s.bridgeDown (dieOfStack (stackOf (y.addr + ofs))) 4 = false)
    (hc : s.larderCheck y.ctx 1 80 (y.addr + ofs) data.length = none) : ∃ z, z.port = y.port ∧ z.engine = y.engine ∧
      s.placeData y seq ofs data =
        ((s.larderPutFor y.ctx (y.addr + ofs) data).xferMoved z data.length).1.putXfer
          ((s.larderPutFor y.ctx (y.addr + ofs) data).xferMoved z data.length).2 := by
  refine ⟨{ y with placed := y.placed ++ [(seq, ofs, data.length)], served := y.served ++ [(ofs, data.length)] }, rfl, rfl, ?_⟩
  simp only [State.placeData, hs, hg, ht, hb, hc, Bool.false_eq_true, if_false]
  rw [if_neg (by omega)]

end

/-- A write of a context where no codeword has an error stores its bytes and counts. -/
theorem State.larderPutFor_of_no_errors {s : State} (h : s.lerr = []) (c a : Nat) (l : List Byte) :
    ∃ u, CountsOnly s u ∧ s.larderPutFor c a l = { u with larder := s.larder.writeBytes a l } := by
  have hcount := s.count_countsOnly (p := 0x300 + c) (n := 5) (granules a l.length) (by omega) (by decide)
  have hlerr : (s.count (0x300 + c) 5 (granules a l.length)).lerr = [] := by rw [hcount.rest]; exact h
  obtain ⟨u, hu, hput⟩ := State.larderPut_of_no_errors hlerr a l
  refine ⟨u, hcount.trans hu, ?_⟩
  rw [State.larderPutFor, hput]
  rw [hcount.rest]

/-- What write data of a session changes as it comes: memory, the transfers, and what notes their progress, but not RXACK. -/
structure DataActs (p n : Nat) (s u : State) : Prop where
  rest : u = { s with regs := u.regs, xeRest := u.xeRest, watch := u.watch, larder := u.larder, xfers := u.xfers }
  keeps : KeepsOutside (BeyondAck p n) s u

theorem CounterPlace.beyondAck {p n k : Nat} (h : CounterPlace k) (hn : n < 32) : BeyondAck p n k := by
  obtain ⟨page, c, hpage, hc, rfl⟩ := h
  exact beyondAck_count hn (by omega) hc

/-- Data that passes its region's check is written, and noted in its transfer. -/
theorem State.placeData_acts {s : State} {y : Xfer} {ofs seq e n : Nat} {data : List Byte} (hn : n < 32) (hp : y.port < 2)
    (he : y.engine = some e) (he8 : e < 8) (ht : y.tgt = 0) (hg : y.tagged = false) (hs : y.isSealed = false) (hl : ofs + data.length ≤ y.len)
    (herr : s.lerr = []) (hb : s.bridgeDown (dieOfStack (stackOf (y.addr + ofs))) 4 = false)
    (hc : s.larderCheck y.ctx 1 80 (y.addr + ofs) data.length = none) :
    ∃ v, s.placeData y seq ofs data = v ∧ DataActs y.port n s v ∧ v.larder = s.larder.writeBytes (y.addr + ofs) data := by
  obtain ⟨z, hzp, hze, hplace⟩ := State.placeData_of_region (seq := seq) ht hg hs hl hb hc
  obtain ⟨w, hw, hput⟩ := State.larderPutFor_of_no_errors herr y.ctx (y.addr + ofs) data
  rw [hput] at hplace
  have hnotes := State.xferMoved_notes { w with larder := s.larder.writeBytes (y.addr + ofs) data } data.length (hzp ▸ hp) hn (hze.trans he) he8
  rw [hzp] at hnotes
  generalize State.xferMoved { w with larder := s.larder.writeBytes (y.addr + ofs) data } z data.length = r at hplace hnotes
  refine ⟨_, hplace, ⟨?_, ?_⟩, ?_⟩
  · rw [State.putXfer, hnotes.rest, hw.rest]
  · exact (((hw.keeps.mono fun _ hk => hk.beyondAck hn).trans (.of_regs rfl)).trans hnotes.keeps).trans (.of_regs rfl)
  · rw [State.putXfer, hnotes.rest]

end Sys2Proof.Machine
end

section
open Sys2Proof Sys2Proof.Machine

section
variable {m : Msg} {x : Session} {s : State}

/-- Write data that arrives on a session is taken by its number. -/
theorem writeData_message (hx : Arrives s m 4 x) (hb : m.bkind = 2) : ∃ q z,
    s.message m (fun m => m.typ == 4 && m.bkind == 2) = ({ s with sess := q } : State).numberedMsg m ∧
      ({ s with sess := q } : State).session m.port m.session = some z ∧ z.inbox = [] := by
  obtain ⟨⟨-, hh, hv, htyp, hsess, hi, hu, hq⟩, -⟩ := hx
  rw [State.message_of_session hh hv (by simp [htyp, hb]) (by simp [Msg.opens, htyp])]
  exact State.sessionMsg_of_bulk hsess hi hu hq htyp

/-- Write data that its transfer takes as it comes completes with what the transfer makes of it, and is acknowledged. -/
theorem writeDataEarly (hr : s.ready = true) (hx : Arrives s m 4 x) (hb : m.bkind = 2) {y : Xfer}
    (hy : s.xfer m.port m.session (bits m.argA 15 0) = some y) (hw : y.write = true) {Q : Memory → List Xfer → Prop}
    (hacts : m.port < 2 → m.session < 32 → ∀ u q, u = { s with sess := q, regs := u.regs } →
      KeepsOutside (· = Reg.CNT_N.key (hstPage m.port) 0) s u →
      ∃ v, u.wdataIn m.session m = v ∧ DataActs m.port m.session u v ∧ Q v.larder v.xfers) :
    Completes (.wdata m) s (fun t => (t.rd Reg.HST_S_RXACK m.port m.session = (m.seq + 1) % 2 ^ 32 ∧ t.pantry = s.pantry ∧
      t.staging = s.staging) ∧ Q t.larder t.xfers) := by
  obtain ⟨q, z, hmsg, hz, hzi⟩ := writeData_message hx hb
  obtain ⟨⟨hm, -, hv, htyp, -⟩, hseq⟩ := hx
  have hp : m.port < 2 := by simp only [Msg.wellFormed, Bool.and_eq_true, decide_eq_true_eq] at hm; omega
  have hn : m.session < 32 := by simp only [State.msgValid, Msg.formOk, Bool.and_eq_true, decide_eq_true_eq] at hv; omega
  have hkeep := (KeepsOutside.of_regs (s := s) (u := { s with sess := q }) rfl).trans (State.dataCome_keeps { s with sess := q } m z)
  have hrest := State.dataCome_rest { s with sess := q } m z
  obtain ⟨v, hvd, hact, hQ⟩ := hacts hp hn _ _ hrest hkeep
  have hearly : ({ s with sess := q } : State).comesEarly m = true := by
    have hy' : ({ s with sess := q } : State).xfer m.port m.session (bits m.argA 15 0) = some y := hy
    simp [State.comesEarly, htyp, hb, hy', hw]
  have hack : v.rd Reg.HST_S_RXACK m.port m.session = m.seq := by
    rw [hact.keeps _ _ _ (fun h => h.2 rfl), hkeep _ _ _ ?_, hseq]
    simp only [hstPage, Field.key, Reg.CNT_N, Reg.HST_S_RXACK, Block.base]; omega
  obtain ⟨q', hnum⟩ := State.numberedMsg_of_early hz hzi hseq hearly hvd (by rw [hact.rest]) hack
  have hpast : KeepsOutside PastHng s (({ v with sess := q' } : State).wr Reg.HST_S_RXACK m.port m.session (m.seq + 1)) := by
    have hu : KeepsOutside PastHng s (State.dataCome { s with sess := q } m z) := hkeep.mono fun k hk => hk ▸ hostCount_pastHng m.port 0
    have hv' : KeepsOutside PastHng s { v with sess := q' } := (hu.trans (hact.keeps.mono fun _ hk => hk.1)).trans (.of_regs rfl)
    exact hv'.wr _ (pastHng_key ..)
  have hvrest := hact.rest
  rw [hrest] at hvrest
  refine ⟨_, exec_eq_of_effect (g := fun s => s.message m (fun m => m.typ == 4 && m.bkind == 2)) rfl hm hr (hmsg.trans hnum) hpast
    ?_ ?_ ?_ ?_, ⟨State.rd_wr_self .., ?_, ?_⟩, hQ⟩
  all_goals rw [hvrest]; rfl

/-- Data of no transfer is acknowledged and dropped. -/
theorem writeDataDropped (hr : s.ready = true) (hx : Arrives s m 4 x) (hb : m.bkind = 2)
    (hy : s.xfer m.port m.session (bits m.argA 15 0) = none) :
    Completes (.wdata m) s (fun t => (t.rd Reg.HST_S_RXACK m.port m.session = (m.seq + 1) % 2 ^ 32 ∧ t.pantry = s.pantry ∧
      t.staging = s.staging) ∧ t.larder = s.larder ∧ t.xfers = s.xfers) := by
  obtain ⟨q, z, hmsg, hz, hzi⟩ := writeData_message hx hb
  obtain ⟨⟨hm, -, -, htyp, -⟩, hseq⟩ := hx
  have hlate : ({ s with sess := q } : State).comesEarly m = false := by
    have hy' : ({ s with sess := q } : State).xfer m.port m.session (bits m.argA 15 0) = none := hy
    simp [State.comesEarly, hy']
  obtain ⟨q', hnum⟩ := State.numberedMsg_of_late hz hzi htyp hb hseq hlate
  have hkeep : KeepsOutside PastHng s (({ s with sess := q' } : State).wr Reg.HST_S_RXACK m.port m.session (m.seq + 1)) :=
    .wr (.of_regs rfl) _ (pastHng_key ..)
  have hack := State.rd_wr_self { s with sess := q' } Reg.HST_S_RXACK m.port m.session (m.seq + 1)
  have hrest : ({ s with sess := q' } : State).wr Reg.HST_S_RXACK m.port m.session (m.seq + 1) =
    { s with sess := q', regs := (({ s with sess := q' } : State).wr Reg.HST_S_RXACK m.port m.session (m.seq + 1)).regs } := rfl
  generalize ({ s with sess := q' } : State).wr Reg.HST_S_RXACK m.port m.session (m.seq + 1) = u at hnum hkeep hack hrest
  have hcount := u.count_eq (hstPage m.port) 0 1
  have hcounted := hkeep.count 1 (hostCount_pastHng m.port 0)
  have hack' : (u.count (hstPage m.port) 0 1).rd Reg.HST_S_RXACK m.port m.session = (m.seq + 1) % 2 ^ 32 := by
    refine (State.rd_count_ne _ ?_).trans hack
    simp only [hstPage, Field.key, Reg.CNT_N, Reg.HST_S_RXACK, Block.base]; omega
  generalize u.count (hstPage m.port) 0 1 = v at hnum hcount hcounted hack'
  rw [hrest] at hcount
  have hnone : v.xfer m.port m.session (bits m.argA 15 0) = none := by rw [hcount]; exact hy
  rw [State.wdataIn_of_none hnone] at hnum
  refine ⟨v, exec_eq_of_effect (g := fun s => s.message m (fun m => m.typ == 4 && m.bkind == 2)) rfl hm hr (hmsg.trans hnum) hcounted
    ?_ ?_ ?_ ?_, ⟨hack', ?_, ?_⟩, ?_, ?_⟩
  all_goals rw [hcount]

end

theorem writeDataIsPlaced : Clause.WriteDataIsPlaced := by
  intro m x s hr hx hb
  refine ⟨fun y e hy hw he he8 ht hg hs hh hl herr hlen hbr hc => ?_, fun y hy hw he => ?_, fun hy => writeDataDropped hr hx hb hy⟩
  · obtain ⟨hport, -, -⟩ := State.key_of_xfer hy
    obtain ⟨t, hex, htaken, hlarder⟩ := writeDataEarly (Q := fun l _ => l = s.larder.writeBytes (y.addr + m.argB) m.payload) hr hx hb hy hw
      (fun hp hn u q hu hkeep => by
        have hy' : u.xfer m.port m.session (bits m.argA 15 0) = some y := by rw [hu]; exact hy
        have hl' : u.xferHeld y = false := by rw [hu]; exact hl
        have hbr' : u.bridgeDown (dieOfStack (stackOf (y.addr + m.argB))) 4 = false := by rw [hu]; exact hbr
        have hc' : u.larderCheck y.ctx 1 80 (y.addr + m.argB) m.payload.length = none := by
          refine (State.larderCheck_congr (by rw [hu]) (fun f hf i j => hkeep f i j ?_) ..).trans hc
          simp only [hstPage, Field.key, hf, Reg.CNT_N, Block.base]; omega
        obtain ⟨v, hv, hact, hlarder⟩ := State.placeData_acts (seq := m.seq) hn (hport ▸ hp) he he8 ht hg hs hlen (by rw [hu]; exact herr) hbr' hc'
        exact ⟨v, (State.wdataIn_of_running hy' hw (by rw [he]; rfl) hl' hh).trans hv, hport ▸ hact, hlarder.trans (by rw [hu])⟩)
    refine ⟨t, hex, htaken, fun i hi => ?_, fun a ha => ?_⟩
    · rw [hlarder, Memory.read_writeBytes_in _ _ _ _ hi, List.getD_eq_getElem _ _ hi]
    · rw [hlarder, Memory.read_writeBytes_out _ _ ha]
  · obtain ⟨hport, hsess, hxid⟩ := State.key_of_xfer hy
    obtain ⟨t, hex, htaken, hlarder, hxfers⟩ := writeDataEarly (Q := fun l xs => l = s.larder ∧
        xs = (s.putXfer { y with held := y.held ++ [(m.seq, m.argB, m.payload)] }).xfers) hr hx hb hy hw
      (fun hp hn u q hu hkeep => by
        have hy' : u.xfer m.port m.session (bits m.argA 15 0) = some y := by rw [hu]; exact hy
        exact ⟨_, State.wdataIn_of_waiting hy' hw he, ⟨rfl, .of_regs rfl⟩, by rw [hu]; rfl, by rw [hu]; rfl⟩)
    refine ⟨t, hex, htaken, hlarder, { y with held := y.held ++ [(m.seq, m.argB, m.payload)] }, ?_, rfl, he⟩
    rw [State.xfer, hxfers, ← hport, ← hsess, ← hxid]
    rw [← hport, ← hsess, ← hxid] at hy
    exact State.xfer_putXfer (x := { y with held := y.held ++ [(m.seq, m.argB, m.payload)] }) hy

theorem transfersRun : Clause.TransfersRun := by
  intro p s hr hp
  have hw : (Instr.transferStart p).wellFormed = true := decide_eq_true hp
  refine ⟨fun hd => ?_, fun hfree => ?_, fun x e hd hon he hx hh hpl => ?_, fun n xid x hn hxid hx => ?_⟩
  · exact exec_eq_self (g := fun s => s.transferStart p) rfl hw hr (State.transferStart_of_drain hd)
  · exact exec_eq_self (g := fun s => s.transferStart p) rfl hw hr (State.transferStart_of_busy hfree)
  · have hstart := State.transferStart_of_free hp hd hon hx he
    refine ⟨fun hwr => ?_, fun hrd => ?_⟩
    · obtain rfl : x.port = p := by
        have hq := List.find?_some hx
        simp only [Bool.and_eq_true, beq_iff_eq] at hq
        exact hq.1
      obtain ⟨z, hz⟩ := State.xfer_isSome_of_mem (List.mem_of_find?_eq_some hx)
      have hgo := State.xferGo_of_empty (s := s) (y := { x with engine := some e }) (State.xfer_putXfer hz) hwr hh hpl
      exact exec_eq_of_effect (g := fun s => s.transferStart x.port) rfl hw hr (hstart.trans ((if_pos hwr).trans hgo)) (.of_regs rfl) rfl rfl rfl rfl
    · exact exec_eq_answer_of (g := fun s => s.transferStart p) rfl hw hr (hstart.trans (if_neg (by simp [hrd])))
  · have hw : (Instr.transferComplete p n xid).wellFormed = true := by simp [Instr.wellFormed, hp, hn, hxid]
    refine ⟨fun hwr hc => ?_, fun hwr ht hc => ?_, fun hwr ht ha hpres hc => ?_, fun hwr ht hc => ?_, fun hrd hall hopen => ?_, fun hrd hgo => ?_⟩
    · exact exec_eq_self (g := fun s => s.transferComplete p n xid) rfl hw hr (State.transferComplete_of_partial hx hwr hc)
    · exact exec_eq_answer_of (g := fun s => s.transferComplete p n xid) rfl hw hr
        ((State.transferComplete_of_served hx hwr hc).trans (by simp [ht]))
    · exact exec_eq_answer_of (g := fun s => s.transferComplete p n xid) rfl hw hr
        ((State.transferComplete_of_served hx hwr hc).trans (by simp [ht, ha, hpres]))
    · exact exec_eq_answer_of (g := fun s => s.transferComplete p n xid) rfl hw hr
        ((State.transferComplete_of_served hx hwr hc).trans (by simp [ht]))
    · exact exec_eq_answer_of (g := fun s => s.transferComplete p n xid) rfl hw hr
        ((State.transferComplete_of_read hx hrd).trans (if_pos (by simp [hall, hopen])))
    · refine exec_eq_self (g := fun s => s.transferComplete p n xid) rfl hw hr ((State.transferComplete_of_read hx hrd).trans (if_neg ?_))
      obtain h | h := hgo <;> simp [h]

/-- Settles O38: write data reaches memory through its transfer, whose notes touch no session's RXACK; an engine and an end follow from the
transfer's record. -/
theorem bulkTransfers : Obligations.BulkTransfers := ⟨writeDataIsPlaced, transfersRun⟩

end

section
namespace Sys2Proof.Machine

open Sys2Proof

-- One theorem after another: elaborated at once, the theorems of the joined text hold more threads than the check's memory allows.
set_option Elab.async false

/-! PROOFS. Where a fault occurrence and its event record write, and how far the operations of Hearth reach. -/

/-! ### Places -/

/-- The counters of the pages, and the pages from those of the host ports on. -/
def CountPlace (k : Nat) : Prop := (0x40 ≤ k / 32 % 4096 ∧ k / 32 % 4096 < 0x80) ∨ 0x10 * 4096 * 32 ≤ k

/-- The headers of the pages, and the pages from those of the host ports on. -/
def HeaderPlace (k : Nat) : Prop := k / 32 % 4096 < 0x100 ∨ 0x10 * 4096 * 32 ≤ k

theorem CountPlace.header {k : Nat} (h : CountPlace k) : HeaderPlace k := by
  simp only [CountPlace, HeaderPlace] at *; omega

theorem countPlace_count (p : Nat) {n : Nat} (hn : n < 8) : CountPlace (Reg.CNT_N.key p n) := by
  simp only [CountPlace, Field.key, Reg.CNT_N, Block.base]; omega

/-- A field of the pages before those of the host ports, beyond the header. -/
theorem not_headerPlace {f : Field} {j : Nat} (hj : f.off + f.stride * j < 4096 := by decide) (hoff : 0x100 ≤ f.off := by decide)
    (hlo : f.lo < 32 := by decide) (hb : f.block.base < 0x10 := by decide) : ¬ HeaderPlace (f.key 0 j) := by
  simp only [HeaderPlace, Field.key]; omega

theorem not_countPlace {f : Field} {j : Nat} (hj : f.off + f.stride * j < 4096 := by decide) (hoff : 0x100 ≤ f.off := by decide)
    (hlo : f.lo < 32 := by decide) (hb : f.block.base < 0x10 := by decide) : ¬ CountPlace (f.key 0 j) :=
  fun h => not_headerPlace hj hoff hlo hb h.header

/-- What is no counter keeps its value when one advances. -/
theorem State.rd_count_of_not (s : State) {p n : Nat} (k : Nat) (hn : n < 8) {f : Field} {i j : Nat} (hf : ¬ CountPlace (f.key i j)) :
    (s.count p n k).rd f i j = s.rd f i j := by
  refine State.rd_count_ne s fun h => hf ?_
  rw [h]
  exact countPlace_count p hn

theorem not_countPlace_stat {p : Nat} (hp : p < 0x10) : ¬ CountPlace (Reg.FLT_STAT.key p 0) := by
  simp only [CountPlace, Field.key, Reg.FLT_STAT, Block.base]; omega

theorem not_countPlace_class {p : Nat} (hp : p < 0x10 := by decide) : ¬ CountPlace (Reg.FLT_CLASS.key p 0) := by
  simp only [CountPlace, Field.key, Reg.FLT_CLASS, Block.base]; omega

/-- Nothing that calmness reads stands in a header, or past page HNG. -/
theorem KeepsOutside.calm_header {s u : State} (h : KeepsOutside (fun k => HeaderPlace k ∨ PastHng k) s u) (hc : s.calm = true)
    (hd : u.due = s.due) (hx : u.ctxs = s.ctxs) (hb : u.boot = s.boot) : u.calm = true := by
  refine State.calm_congr hc hd hx (by rw [hb]) (fun l hl => ⟨h _ _ _ ?_, h _ _ _ ?_⟩) ⟨h _ _ _ ?_, h _ _ _ ?_⟩ <;>
    simp only [HeaderPlace, PastHng, Field.key, Reg.HNG_RUNG, Reg.HNG_PHASE, Reg.FLT_FT_LATCH, Reg.FLT_HALTED, Block.base] <;> omega

/-! ### Event records -/

theorem State.flushOut_counts (f p n : Nat) : ∀ s : State, KeepsOutside CountPlace s (s.flushOut p n f) := by
  induction f with
  | zero => exact fun s => .refl _ s
  | succ f ih =>
    intro s
    obtain h | ⟨x, o, v, h⟩ := State.flushOut_step s p n f
    · rw [h]; exact .refl _ s
    · rw [h]
      have htx : CountPlace (Reg.HST_S_TXSEQ.key p n) := by
        simp only [CountPlace, Field.key, Reg.HST_S_TXSEQ, Block.base]; omega
      have hsent : KeepsOutside CountPlace s (State.wr { s with sess := x, hostOut := o } Reg.HST_S_TXSEQ p n v) :=
        (KeepsOutside.of_regs rfl).wr v htx
      exact (hsent.count 1 (countPlace_count _ (by decide))).trans (ih _)

theorem State.sendNum_counts (s : State) (p n : Nat) (b : NBody) : KeepsOutside CountPlace s (s.sendNum p n b) := by
  rw [State.sendNum]
  split
  · exact .refl _ s
  · exact .trans (.of_regs rfl) (State.flushOut_counts _ _ _ _)

theorem State.sendEvt_counts (s : State) (e : EventRec) : KeepsOutside CountPlace s (s.sendEvt e) := by
  refine KeepsOutside.foldl _ _ (fun u x _ => ?_) s
  split
  · exact State.sendNum_counts _ _ _ _
  · exact .refl _ u

theorem State.log_counts (s : State) (e : EventRec) : KeepsOutside CountPlace s (s.log e) := by
  rw [State.log]
  split
  · split <;> exact .of_regs rfl
  · rw [State.logNow]
    split
    · exact KeepsOutside.count (.of_regs rfl) 1 (countPlace_count _ (by decide))
    · refine KeepsOutside.trans ?_ (State.sendEvt_counts _ _)
      refine KeepsOutside.count (KeepsOutside.count ?_ 1 ?_) 32 (countPlace_count 0x008 (n := 3) (by decide))
      · exact .of_regs rfl
      · exact countPlace_count _ (by decide)

/-! ### Occurrences that are not fatal -/

theorem catalogue_classes (blk : Block) : ∀ x ∈ catalogue blk, x.2.cls ≤ 2 ∧ x.2.esc ≤ 2 := by
  cases blk <;> decide

theorem catEntry_classes {p b : Nat} {e : CatEntry} (h : catEntry p b = some e) : e.cls ≤ 2 ∧ e.esc ≤ 2 := by
  obtain ⟨blk, -, hf⟩ := Option.bind_eq_some_iff.mp h
  exact catalogue_classes blk _ (SMap.mem_of_find hf)

theorem State.occurClass_le (s : State) (p b : Nat) : s.occurClass p b ≤ 2 := by
  unfold State.occurClass State.effClass
  cases h : catEntry p b with
  | none => simp
  | some e =>
    obtain ⟨hcls, hesc⟩ := catEntry_classes h
    simp only [Option.elim]
    split
    · exact hesc
    · split <;> omega

/-- The class of the next occurrence depends on FLT_STAT and FLT_CLASS of the page alone. -/
theorem State.occurClass_congr {s u : State} {p : Nat} (hs : u.rd Reg.FLT_STAT p = s.rd Reg.FLT_STAT p)
    (hc : u.rd Reg.FLT_CLASS p = s.rd Reg.FLT_CLASS p) (b : Nat) : u.occurClass p b = s.occurClass p b := by
  have heff : ∀ i, u.effClass p i = s.effClass p i := fun i => by simp only [State.effClass, hc]
  have hesc : u.escalates p b = s.escalates p b := by simp only [State.escalates, heff, hs]
  rw [State.occurClass, State.occurClass, hesc, heff]

theorem State.occur_of_not_fatal {s : State} {p b : Nat} (c : Option Nat) (d : Nat) (h : s.occurClass p b ≠ 2) : s.occur p b c d =
    let u := s.occurAs p b (s.occurClass p b) c d
    if s.escalates p b then u.count 0x002 3 1 else u := by
  unfold State.occurClass at h ⊢
  unfold State.occur
  cases he : s.escalates p b <;> simp_all

theorem State.occurNoted_keeps (s : State) (p b : Nat) {cls : Nat} (c : Option Nat) (d : Nat) (hcls : cls < 8) :
    KeepsOutside HeaderPlace s (s.occurNoted p b cls c d) := by
  have hkey : ∀ {f : Field}, f.block = .common → f.off < 0x100 → f.lo < 32 → HeaderPlace (f.key p 0) := by
    intro f hb ho hl
    simp only [HeaderPlace, Field.key, hb, Block.base]; omega
  have hfirst : KeepsOutside HeaderPlace s (s.occurFirst p b c d) := by
    unfold State.occurFirst
    split
    · exact ((((KeepsOutside.refl _ s).wr _ (hkey rfl (by decide) (by decide))).wr _ (hkey rfl (by decide) (by decide))).wr _
        (hkey rfl (by decide) (by decide))).wr _ (hkey rfl (by decide) (by decide)) |>.wr _ (hkey rfl (by decide) (by decide))
    · exact .refl _ s
  exact ((hfirst.wr _ (hkey rfl (by decide) (by decide))).wr _ (hkey rfl (by decide) (by decide))).count 1 (countPlace_count _ hcls).header

theorem State.occurNoted_stat (s : State) {p b : Nat} (cls : Nat) (c : Option Nat) (d : Nat) (hp : p < 0x10) (hcls : cls < 8) (hb : b < 32) :
    bit ((s.occurNoted p b cls c d).rd Reg.FLT_STAT p) b = 1 := by
  have hcount : Reg.FLT_STAT.key p 0 ≠ Reg.FLT_COUNT.key p 0 := by simp only [Field.key, Reg.FLT_STAT, Reg.FLT_COUNT, Block.base]; omega
  rw [State.occurNoted, State.rd_count_of_not _ _ hcls (not_countPlace_stat hp), State.rd_wr_ne _ _ hcount, State.rd_wr_self, bit_eq_testBit,
    show Reg.FLT_STAT.width = 32 from rfl, Nat.testBit_mod_two_pow, decide_eq_true hb, Bool.true_and, ← bit_eq_testBit, bit_setBit_self]

theorem State.occurNoted_then_log (s : State) (p b cls : Nat) (c : Option Nat) (d : Nat) :
    KeepsOutside CountPlace (s.occurNoted p b cls c d) (s.occurAs p b cls c d) := by
  rw [State.occurAs_eq]
  dsimp only
  split
  · exact .refl _ _
  · exact State.log_counts _ _

section
variable {s : State} {p b : Nat} (c : Option Nat) (d : Nat)

/-- A fault that is not fatal writes headers and counters alone. -/
theorem State.occur_keeps (h : s.occurClass p b ≠ 2) : KeepsOutside HeaderPlace s (s.occur p b c d) := by
  have hcls : s.occurClass p b < 8 := by have := s.occurClass_le p b; omega
  have has : KeepsOutside HeaderPlace s (s.occurAs p b (s.occurClass p b) c d) :=
    (s.occurNoted_keeps p b c d hcls).trans ((s.occurNoted_then_log p b _ c d).mono fun _ => CountPlace.header)
  rw [State.occur_of_not_fatal c d h]
  dsimp only
  split
  · exact has.count 1 (countPlace_count _ (by decide)).header
  · exact has

/-- It sets its bit of FLT_STAT. -/
theorem State.occur_stat (h : s.occurClass p b ≠ 2) (hp : p < 0x10) (hb : b < 32) : bit ((s.occur p b c d).rd Reg.FLT_STAT p) b = 1 := by
  have hcls : s.occurClass p b < 8 := by have := s.occurClass_le p b; omega
  have has : bit ((s.occurAs p b (s.occurClass p b) c d).rd Reg.FLT_STAT p) b = 1 := by
    rw [s.occurNoted_then_log p b _ c d _ _ _ (not_countPlace_stat hp)]
    exact s.occurNoted_stat _ c d hp hcls hb
  rw [State.occur_of_not_fatal c d h]
  dsimp only
  split
  · rw [State.rd_count_of_not _ _ (by decide) (not_countPlace_stat hp)]
    exact has
  · exact has

end

@[simp] theorem State.occur_hearth (s : State) (p b : Nat) (c : Option Nat) (d : Nat) : (s.occur p b c d).hearth = s.hearth := by
  obtain ⟨_, _, _, _, _, _, h⟩ := State.occur_occurs s p b c d
  rw [h]

/-! ### The extent of Hearth's operations -/

/-- Beside registers at places `K`, the contexts, Hearth and what an occurrence changes nothing differs, and the package stays calm. -/
structure HearthActs (K : Nat → Prop) (s u : State) : Prop where
  rest : u = { s with regs := u.regs, sess := u.sess, hostOut := u.hostOut, flash := u.flash, soh := u.soh, pins := u.pins, ctxs := u.ctxs,
                      hearth := u.hearth }
  keeps : KeepsOutside K s u
  calm : s.calm = true → u.calm = true

section
variable {K L : Nat → Prop} {s u v : State}

theorem HearthActs.refl (K : Nat → Prop) (s : State) : HearthActs K s s := ⟨rfl, .refl _ s, id⟩

theorem HearthActs.trans (h : HearthActs K s u) (h' : HearthActs K u v) : HearthActs K s v where
  rest := by rw [h'.rest, h.rest]
  keeps := h.keeps.trans h'.keeps
  calm := h'.calm ∘ h.calm

theorem HearthActs.mono (h : HearthActs K s u) (hl : ∀ k, K k → L k) : HearthActs L s u := ⟨h.rest, h.keeps.mono hl, h.calm⟩

theorem HearthActs.wr (h : HearthActs K s u) {f : Field} {i j : Nat} (n : Nat) (hf : K (f.key i j)) (hb : 4 ≤ f.block.base := by decide) :
    HearthActs K s (u.wr f i j n) where
  rest := by rw [h.rest]; rfl
  keeps := h.keeps.wr n hf
  calm hc := ((KeepsOutside.refl PastHng u).wr n (pastHng_key f i j hb)).calm (h.calm hc) rfl rfl rfl

theorem HearthActs.count (h : HearthActs K s u) {p n : Nat} (k : Nat) (hf : K (Reg.CNT_N.key p n)) (hp : 4 ≤ p := by decide) :
    HearthActs K s (u.count p n k) where
  rest := by rw [u.count_eq, h.rest]
  keeps := h.keeps.count k hf
  calm hc := ((KeepsOutside.refl PastHng u).count k (by simp only [PastHng, Field.key, Reg.CNT_N, Block.base]; omega)).calm (h.calm hc)
    (by rw [u.count_eq]) (by rw [u.count_eq]) (by rw [u.count_eq])

theorem HearthActs.hearth (h : HearthActs K s u) (x : Hearth) : HearthActs K s { u with hearth := x } where
  rest := by rw [h.rest]
  keeps := h.keeps.trans (.of_regs rfl)
  calm := h.calm

theorem HearthActs.pins (h : HearthActs K s u) (x : Pins) : HearthActs K s { u with pins := x } where
  rest := by rw [h.rest]
  keeps := h.keeps.trans (.of_regs rfl)
  calm := h.calm

/-- What an occurrence may change, with its registers in the headers. -/
theorem HearthActs.occurs (h : HearthActs K s u) (ho : OccursOnly u v) (hk : KeepsOutside L u v) (hh : ∀ k, L k → HeaderPlace k)
    (hl : ∀ k, L k → K k) : HearthActs K s v := by
  obtain ⟨r, x, o, f, q, p, rfl⟩ := ho
  exact ⟨by rw [h.rest], h.keeps.trans (hk.mono hl), fun hc => (hk.mono fun k hk => Or.inl (hh k hk)).calm_header (h.calm hc) rfl rfl rfl⟩

theorem HearthActs.occur (h : HearthActs K s u) {p b : Nat} (c : Option Nat) (d : Nat) (hcls : u.occurClass p b ≠ 2)
    (hl : ∀ k, HeaderPlace k → K k) : HearthActs K s (u.occur p b c d) :=
  h.occurs (State.occur_occurs ..) (State.occur_keeps c d hcls) (fun _ => id) hl

theorem HearthActs.event (h : HearthActs K s u) (code cls page data : Nat) (hl : ∀ k, CountPlace k → K k) :
    HearthActs K s (u.event code cls page data) :=
  h.occurs (State.event_logs ..).occurs (State.log_counts _ _) (fun _ => CountPlace.header) hl

theorem State.protect_regs (s : State) (a : Nat) : (s.protect a).regs = s.regs := by
  unfold State.protect
  split <;> rfl

theorem HearthActs.protect (h : HearthActs K s u) (a : Nat) : HearthActs K s (u.protect a) :=
  h.occurs (L := fun _ => False) (State.protect_logs ..).occurs (.of_regs (u.protect_regs a)) (fun _ => False.elim) (fun _ => False.elim)

theorem HearthActs.trayNote (h : HearthActs K s u) : HearthActs K s u.trayNote :=
  h.occurs (L := fun _ => False) (State.trayNote_occurs _) (.of_regs rfl) (fun _ => False.elim) (fun _ => False.elim)

theorem HearthActs.ite (q : Prop) [Decidable q] (h : q → HearthActs K s u) (h' : ¬ q → HearthActs K s v) :
    HearthActs K s (if q then u else v) := by
  split
  · exact h ‹_›
  · exact h' ‹_›

/-- A fold of such operations. -/
theorem HearthActs.foldl {α : Type} (g : State → α → State) (l : List α) (hg : ∀ u, ∀ x ∈ l, HearthActs K u (g u x)) (s : State) :
    HearthActs K s (l.foldl g s) :=
  List.foldlRecOn (motive := HearthActs K s) l g (.refl K s) (fun u hu x hx => hu.trans (hg u x hx))

/-- A command with such an effect answers it. -/
theorem HearthActs.exec_eq {i : Instr} {g : State → State} (h : HearthActs K s (g s)) (he : exec i s = s.serve i g) (hw : i.wellFormed = true)
    (hr : s.ready = true) : exec i s = .next (g s) :=
  exec_eq_of_calm he hw hr (h.calm (s.ready_iff.mp hr).2) (by rw [h.rest])

end

end Sys2Proof.Machine
end

section
namespace Sys2Proof.Machine

open Sys2Proof

set_option Elab.async false

/-! PROOFS. The place in force: what Hearth reads to settle it, which registers show it, and what settling leaves alone. -/

/-! ### What Hearth reads -/

/-- The registers of the sensors: readings and marks. -/
def SensorPlace (k : Nat) : Prop := (6 * 4096 + 0x200) * 32 ≤ k ∧ k < 7 * 4096 * 32

/-- The registers that EFF_CAP and the limits beside the cap controller's are read from. -/
def LimitPlace (k : Nat) : Prop :=
  SensorPlace k ∨ k ∈ [Reg.THM_SUDDEN, Reg.THM_SD_REQ, Reg.THM_DERATE_CAP, Reg.PWR_HB_LOST, Reg.PWR_TRAYCAP].map (fun f => f.key 0 0)

/-- The same sensors are marked failed. -/
structure SameMarks (s u : State) : Prop where
  hotA : ∀ n < 32, u.rd Reg.THM_FAIL_A 0 n = s.rd Reg.THM_FAIL_A 0 n
  hotB : ∀ n < 32, u.rd Reg.THM_FAIL_B 0 n = s.rd Reg.THM_FAIL_B 0 n
  stackA : ∀ n < 12, u.rd Reg.THM_STK_FAIL_A 0 n = s.rd Reg.THM_STK_FAIL_A 0 n
  stackB : ∀ n < 12, u.rd Reg.THM_STK_FAIL_B 0 n = s.rd Reg.THM_STK_FAIL_B 0 n
  optical : ∀ n < 18, u.rd Reg.THM_OPT_FAIL 0 n = s.rd Reg.THM_OPT_FAIL 0 n

theorem range_any_congr {n : Nat} {p q : Nat → Bool} (h : ∀ i < n, p i = q i) : (List.range n).any p = (List.range n).any q := by
  rw [Bool.eq_iff_iff, List.any_eq_true, List.any_eq_true]
  exact exists_congr fun i => and_congr_right fun hi => by rw [h i (List.mem_range.mp hi)]

section
variable {K : Nat → Prop} {s u : State}

/-- A field of the sensors' registers. -/
theorem sensorPlace_key {f : Field} {j : Nat} (hj : f.off + f.stride * j < 4096) (hoff : 0x200 ≤ f.off := by decide)
    (hlo : f.lo < 32 := by decide) (hb : f.block.base = 6 := by decide) : SensorPlace (f.key 0 j) := by
  simp only [SensorPlace, Field.key, hb]; omega

theorem SameMarks.of_keeps (h : KeepsOutside K s u) (hk : ∀ k, K k → ¬ SensorPlace k) : SameMarks s u where
  hotA n hn := h _ _ _ fun hin => hk _ hin (sensorPlace_key (by simp only [Reg.THM_FAIL_A]; omega))
  hotB n hn := h _ _ _ fun hin => hk _ hin (sensorPlace_key (by simp only [Reg.THM_FAIL_B]; omega))
  stackA n hn := h _ _ _ fun hin => hk _ hin (sensorPlace_key (by simp only [Reg.THM_STK_FAIL_A]; omega))
  stackB n hn := h _ _ _ fun hin => hk _ hin (sensorPlace_key (by simp only [Reg.THM_STK_FAIL_B]; omega))
  optical n hn := h _ _ _ fun hin => hk _ hin (sensorPlace_key (by simp only [Reg.THM_OPT_FAIL]; omega))

theorem SameMarks.unmonitored (h : SameMarks s u) : u.unmonitored = s.unmonitored := by
  have hhot : ((List.range 32).any fun n => u.rdB Reg.THM_FAIL_A 0 n && u.rdB Reg.THM_FAIL_B 0 n) =
      (List.range 32).any fun n => s.rdB Reg.THM_FAIL_A 0 n && s.rdB Reg.THM_FAIL_B 0 n :=
    range_any_congr fun n hn => by simp only [State.rdB_eq, h.hotA n hn, h.hotB n hn]
  have hstack : ((List.range 12).any fun n => u.rdB Reg.THM_STK_FAIL_A 0 n && u.rdB Reg.THM_STK_FAIL_B 0 n) =
      (List.range 12).any fun n => s.rdB Reg.THM_STK_FAIL_A 0 n && s.rdB Reg.THM_STK_FAIL_B 0 n :=
    range_any_congr fun n hn => by simp only [State.rdB_eq, h.stackA n hn, h.stackB n hn]
  have hopt : ((List.range 18).any fun n => u.rdB Reg.THM_OPT_FAIL 0 n) = (List.range 18).any fun n => s.rdB Reg.THM_OPT_FAIL 0 n :=
    range_any_congr fun n hn => by simp only [State.rdB_eq, h.optical n hn]
  rw [State.unmonitored, State.unmonitored, hhot, hstack, hopt]

theorem SameMarks.ceilings (h : SameMarks s u) (hrd : ∀ f ∈ [Reg.THM_DERATE_CAP, Reg.PWR_HB_LOST, Reg.PWR_TRAYCAP], u.rd f = s.rd f)
    (hl : u.hearth.lim = s.hearth.lim) (hc : u.hearth.safeCap = s.hearth.safeCap) : u.ceilings = s.ceilings := by
  have hhot : ((List.range 32).any fun n => u.rdB Reg.THM_FAIL_A 0 n || u.rdB Reg.THM_FAIL_B 0 n) =
      (List.range 32).any fun n => s.rdB Reg.THM_FAIL_A 0 n || s.rdB Reg.THM_FAIL_B 0 n :=
    range_any_congr fun n hn => by simp only [State.rdB_eq, h.hotA n hn, h.hotB n hn]
  have hstack : ((List.range 12).any fun n => u.rdB Reg.THM_STK_FAIL_A 0 n || u.rdB Reg.THM_STK_FAIL_B 0 n) =
      (List.range 12).any fun n => s.rdB Reg.THM_STK_FAIL_A 0 n || s.rdB Reg.THM_STK_FAIL_B 0 n :=
    range_any_congr fun n hn => by simp only [State.rdB_eq, h.stackA n hn, h.stackB n hn]
  have hopt : ((List.range 18).any fun n => u.rdB Reg.THM_OPT_FAIL 0 n) = (List.range 18).any fun n => s.rdB Reg.THM_OPT_FAIL 0 n :=
    range_any_congr fun n hn => by simp only [State.rdB_eq, h.optical n hn]
  have hlost : u.rdB Reg.PWR_HB_LOST = s.rdB Reg.PWR_HB_LOST := by rw [State.rdB_eq, State.rdB_eq, hrd _ (by simp)]
  rw [State.ceilings, State.ceilings, hhot, hstack, hopt, hlost, hl, hc, hrd Reg.THM_DERATE_CAP (by simp), hrd Reg.PWR_TRAYCAP (by simp)]

/-- EFF_CAP depends on the limits in force, the safe cap and the registers of `LimitPlace` alone. -/
theorem KeepsOutside.effCap (h : KeepsOutside K s u) (hk : ∀ k, K k → ¬ LimitPlace k) (hl : u.hearth.lim = s.hearth.lim)
    (hc : u.hearth.safeCap = s.hearth.safeCap) : u.effCap = s.effCap := by
  have hrd : ∀ f ∈ [Reg.THM_DERATE_CAP, Reg.PWR_HB_LOST, Reg.PWR_TRAYCAP], u.rd f = s.rd f := fun f hf =>
    h _ _ _ fun hin => hk _ hin (.inr (List.mem_map_of_mem (List.mem_of_mem_drop (i := 2) hf)))
  have hceil := (SameMarks.of_keeps h fun k hin hp => hk k hin (.inl hp)).ceilings hrd hl hc
  rw [State.effCap, State.effCap, hceil, hl]

end

/-! ### The limits beside the cap controller's -/

/-- The slowest place that any limit requires, R302. -/
def State.wanted (s : State) : Nat := s.otherLimits.foldl (fun m x => max m x.2) (max s.hearth.capPlace s.resetHold)

/-- Neither a sudden stop, a region without a sensor, a plan, a peer nor a reset holds a place. -/
structure FewLimits (s : State) : Prop where
  sudden : s.rd Reg.THM_SUDDEN ≠ 1
  monitored : s.unmonitored = false
  plan : s.hearth.plan = 0
  follow : s.hearth.follow = 0
  floor : s.hearth.resetFloor = false
  bringUp : s.hearth.bringUp = false

theorem FewLimits.of_onlyCap {s : State} (h : OnlyCap s) : FewLimits s := by
  obtain ⟨-, -, -, hplan, hfollow, hsudden, -, hmon, hfloor, hbring⟩ := h
  exact ⟨hsudden, hmon, hplan, hfollow, hfloor, hbring⟩

/-- The place that the thermal limit requires. -/
def State.thermalPlace (s : State) : Nat := if s.rd Reg.THM_SD_REQ = 1 then 10 else s.hearth.thermal

theorem FewLimits.wanted {s : State} (h : FewLimits s) : s.wanted = max (max s.hearth.capPlace s.thermalPlace) s.hearth.peak := by
  obtain ⟨hsudden, hmon, hplan, hfollow, hfloor, hbring⟩ := h
  simp [State.wanted, State.otherLimits, State.resetHold, State.thermalPlace, floorPlace, *]

theorem FewLimits.others {s : State} (h : FewLimits s) :
    s.otherLimits.foldl (fun m x => max m x.2) s.resetHold = max s.thermalPlace s.hearth.peak := by
  obtain ⟨hsudden, hmon, hplan, hfollow, hfloor, hbring⟩ := h
  simp [State.otherLimits, State.resetHold, State.thermalPlace, floorPlace, *]

/-- The same limits stand where the marks, SUDDEN and Hearth's own holds do. -/
theorem FewLimits.of_same {s u : State} (h : FewLimits s) (hm : SameMarks s u) (hs : u.rd Reg.THM_SUDDEN = s.rd Reg.THM_SUDDEN)
    (hp : u.hearth.plan = 0) (hf : u.hearth.follow = 0) (hr : u.hearth.resetFloor = s.hearth.resetFloor)
    (hb : u.hearth.bringUp = s.hearth.bringUp) : FewLimits u :=
  ⟨hs ▸ h.sudden, hm.unmonitored.trans h.monitored, hp, hf, hr.trans h.floor, hb.trans h.bringUp⟩

/-! ### Showing a place -/

/-- The registers of the point, its flags and the dividers. -/
def shownFields : List Field :=
  [Reg.PWR_OPT, Reg.PWR_DUTY, Reg.PWR_LIMITER, Reg.PWR_AT_FLOOR, Reg.PWR_FOLLOWING, Reg.THM_WARMING, Reg.CLK_DIV_0, Reg.CLK_DIV_1,
   Reg.CLK_DIV_2, Reg.CLK_DIV_3]

def ShownPlace (k : Nat) : Prop := k ∈ shownFields.map (fun f => f.key 0 0) ∨ CountPlace k

theorem shownPlace_key {f : Field} (h : f ∈ shownFields) : ShownPlace (f.key 0 0) := .inl (List.mem_map_of_mem h)

/-- The point, duty, LIMITER and AT_FLOOR. -/
def State.showPoint (s : State) : State :=
  (((s.wr0 Reg.PWR_OPT (optOf s.hearth.place)).wr0 Reg.PWR_DUTY (dutyOf s.hearth.place)).wr0 Reg.PWR_LIMITER (s.limiterAt s.hearth.place)).wrB
    Reg.PWR_AT_FLOOR 0 0 (s.hearth.place == floorPlace)

/-- FOLLOWING, and WARMING where a limit binds. -/
def State.showFlags (s : State) : State :=
  let s := s.wrB Reg.PWR_FOLLOWING 0 0 (decide (0 < s.hearth.follow))
  if s.warmingAllowed then s else s.wr0 Reg.THM_WARMING 0

/-- The divider of die `d` at place `p`. -/
def State.divider (s : State) (p d : Nat) : Nat := dividerOf (optOf p + SMap.get 0 s.hearth.drooped d)

def State.showDividers (s : State) (p : Nat) : State :=
  (((s.wr0 Reg.CLK_DIV_0 (s.divider p 0)).wr0 Reg.CLK_DIV_1 (s.divider p 1)).wr0 Reg.CLK_DIV_2 (s.divider p 2)).wr0 Reg.CLK_DIV_3 (s.divider p 3)

/-- A context whose step runs notes the lowest RATE. -/
def State.noteRate (p : Nat) (s : State) (x : Nat × Ctx) : State :=
  if s.rd Reg.CTX_EXEC_STEP_BUSY x.1 = 1 then
    s.setCtx x.1 { s.ctx x.1 with minRate := min (s.ctx x.1).minRate (rateOf p) }
  else s

/-- The pace words, and MINRATE of every step in progress. -/
def State.showPaces (s : State) (p : Nat) : State :=
  let s := (List.range 4).foldl (fun u d => u.wr Reg.CE_PACE_OWN d 0 s.paceWord) s
  s.ctxs.foldl (State.noteRate p) s

theorem State.showPlace_eq (s : State) : s.showPlace = ((s.showPoint.showFlags).showDividers s.hearth.place).showPaces s.hearth.place := rfl

/-- At most registers and contexts differ, the registers at places `K`, and the package stays calm. -/
structure ShowsOnly (K : Nat → Prop) (s u : State) : Prop where
  rest : u = { s with regs := u.regs, ctxs := u.ctxs }
  keeps : KeepsOutside K s u
  calm : s.calm = true → u.calm = true

section
variable {K L : Nat → Prop} {s u v : State}

theorem ShowsOnly.acts (h : ShowsOnly K s u) : HearthActs K s u := ⟨by rw [h.rest], h.keeps, h.calm⟩

theorem ShowsOnly.refl (K : Nat → Prop) (s : State) : ShowsOnly K s s := ⟨rfl, .refl _ s, id⟩

theorem ShowsOnly.trans (h : ShowsOnly K s u) (h' : ShowsOnly K u v) : ShowsOnly K s v where
  rest := by rw [h'.rest, h.rest]
  keeps := h.keeps.trans h'.keeps
  calm := h'.calm ∘ h.calm

theorem ShowsOnly.mono (h : ShowsOnly K s u) (hl : ∀ k, K k → L k) : ShowsOnly L s u := ⟨h.rest, h.keeps.mono hl, h.calm⟩

theorem ShowsOnly.wr (h : ShowsOnly K s u) {f : Field} {i j : Nat} (n : Nat) (hf : K (f.key i j)) (hb : 4 ≤ f.block.base := by decide) :
    ShowsOnly K s (u.wr f i j n) :=
  ⟨by rw [h.rest]; rfl, h.keeps.wr n hf, (h.acts.wr n hf hb).calm⟩

theorem State.noteRate_shows (p : Nat) (s : State) (x : Nat × Ctx) : ShowsOnly K s (s.noteRate p x) := by
  unfold State.noteRate
  split
  · exact ⟨rfl, .of_regs rfl, fun hc => State.setCtx_calm hc rfl rfl⟩
  · exact .refl K s

theorem State.showPaces_shows (s : State) (p : Nat) : ShowsOnly CountPlace s (s.showPaces p) := by
  have hpace : ∀ u d, ShowsOnly CountPlace u (u.wr Reg.CE_PACE_OWN d 0 s.paceWord) := fun u d =>
    (ShowsOnly.refl _ u).wr _ (by simp only [CountPlace, Field.key, Reg.CE_PACE_OWN, Block.base]; omega)
  have hpaces : ShowsOnly CountPlace s ((List.range 4).foldl (fun u d => u.wr Reg.CE_PACE_OWN d 0 s.paceWord) s) :=
    List.foldlRecOn (motive := ShowsOnly CountPlace s) _ _ (.refl _ s) fun u hu d _ => hu.trans (hpace u d)
  exact List.foldlRecOn (motive := ShowsOnly CountPlace s) _ _ hpaces fun u hu x _ => hu.trans (u.noteRate_shows p x)

theorem State.showPoint_shows (s : State) : ShowsOnly ShownPlace s s.showPoint :=
  ((((ShowsOnly.refl _ s).wr _ (shownPlace_key (by decide))).wr _ (shownPlace_key (by decide))).wr _ (shownPlace_key (by decide))).wr _
    (shownPlace_key (by decide))

/-- The registers of the flags and the dividers. -/
def RestPlace (k : Nat) : Prop := k ∈ (shownFields.drop 4).map (fun f => f.key 0 0) ∨ CountPlace k

theorem RestPlace.shown {k : Nat} (h : RestPlace k) : ShownPlace k := by
  refine h.imp_left fun hk => ?_
  rw [List.map_drop] at hk
  exact List.mem_of_mem_drop hk

theorem restPlace_key {f : Field} (h : f ∈ shownFields.drop 4) : RestPlace (f.key 0 0) := .inl (List.mem_map_of_mem h)

theorem State.showFlags_shows (s : State) : ShowsOnly RestPlace s s.showFlags := by
  have hfollow := (ShowsOnly.refl RestPlace s).wr (f := Reg.PWR_FOLLOWING) (i := 0) (j := 0) (if decide (0 < s.hearth.follow) then 1 else 0)
    (restPlace_key (by decide))
  unfold State.showFlags
  dsimp only
  split
  · exact hfollow
  · exact hfollow.wr _ (restPlace_key (by decide))

theorem State.showDividers_shows (s : State) (p : Nat) : ShowsOnly RestPlace s (s.showDividers p) :=
  ((((ShowsOnly.refl _ s).wr _ (restPlace_key (by decide))).wr _ (restPlace_key (by decide))).wr _ (restPlace_key (by decide))).wr _
    (restPlace_key (by decide))

theorem State.showPlace_after_point (s : State) : ShowsOnly RestPlace s.showPoint s.showPlace := by
  rw [State.showPlace_eq]
  exact (s.showPoint.showFlags_shows.trans (State.showDividers_shows _ _)).trans ((State.showPaces_shows _ _).mono fun _ => .inr)

theorem State.showPlace_shows (s : State) : ShowsOnly ShownPlace s s.showPlace :=
  s.showPoint_shows.trans (s.showPlace_after_point.mono fun _ => RestPlace.shown)

@[simp] theorem State.showPlace_hearth (s : State) : s.showPlace.hearth = s.hearth := by rw [s.showPlace_shows.rest]

/-- OPT, DUTY and AT_FLOOR show the place. -/
theorem State.showPlace_place {s : State} (h : s.hearth.place ≤ 10) : Shows s.showPlace s.hearth.place := by
  have hkeep : ∀ f ∈ [Reg.PWR_OPT, Reg.PWR_DUTY, Reg.PWR_AT_FLOOR], s.showPlace.rd f = s.showPoint.rd f := by
    intro f hf
    refine s.showPlace_after_point.keeps f 0 0 ?_
    have hdrop : f.key 0 0 ∉ (shownFields.drop 4).map (fun f => f.key 0 0) := by revert f; decide
    have hcount : ¬ CountPlace (f.key 0 0) := by
      simp only [List.mem_cons, List.not_mem_nil, or_false] at hf
      obtain rfl | rfl | rfl := hf <;> exact not_countPlace
    rintro (hk | hk)
    · exact hdrop hk
    · exact hcount hk
  refine ⟨by rw [State.showPlace_hearth], ?_, ?_, ?_⟩
  · rw [hkeep _ (by simp), State.showPoint]
    simp (disch := decide) only [State.wr0_eq, State.wrB_eq, State.rd_wr_ne, State.rd_wr_self]
    simp only [optOf, Reg.PWR_OPT]
    omega
  · rw [hkeep _ (by simp), State.showPoint]
    simp (disch := decide) only [State.wr0_eq, State.wrB_eq, State.rd_wr_ne, State.rd_wr_self]
    simp only [dutyOf, Reg.PWR_DUTY]
    omega
  · rw [hkeep _ (by simp), State.showPoint]
    simp (disch := decide) only [State.wrB_eq, State.rd_wr_self]
    by_cases hp : s.hearth.place = 10 <;> simp [hp, floorPlace, Reg.PWR_AT_FLOOR]

end

/-! ### Settling -/

/-- EFF_CAP follows its ceilings. -/
def State.showCap (s : State) : State := s.wr0 Reg.PWR_EFF_CAP s.effCap

/-- Steps down and up are counted. -/
def State.countSteps (s : State) (p q : Nat) : State :=
  if p < q then s.count 0x004 2 (q - p) else if q < p then s.count 0x004 3 (p - q) else s

/-- The place is taken. -/
def State.takePlace (s : State) : State :=
  let want := s.showCap.wanted
  let u := s.showCap.countSteps s.hearth.place want
  { u with hearth := { s.hearth with
    place := want, capPlace := want, stepAt := if want = s.hearth.place then s.hearth.stepAt else some u.timeUs } }

theorem State.settleHearth_eq (s : State) : s.settleHearth = s.takePlace.showPlace := rfl

/-- The places that settling writes. -/
def SettledPlace (k : Nat) : Prop := k = Reg.PWR_EFF_CAP.key 0 0 ∨ ShownPlace k

theorem ShownPlace.settled {k : Nat} (h : ShownPlace k) : SettledPlace k := .inr h

theorem settledPlace_count {p n : Nat} (hn : n < 8) : SettledPlace (Reg.CNT_N.key p n) := .inr (.inr (countPlace_count p hn))

/-- Nothing that the limits are read from is in the headers, or past the pages of the hub. -/
theorem LimitPlace.not_header {k : Nat} (h : LimitPlace k) : ¬ HeaderPlace k := by
  obtain h | h := h
  · simp only [SensorPlace, HeaderPlace] at *; omega
  · obtain ⟨f, hf, rfl⟩ := List.mem_map.mp h
    simp only [List.mem_cons, List.not_mem_nil, or_false] at hf
    obtain rfl | rfl | rfl | rfl | rfl := hf <;> exact not_headerPlace

/-- A field of the hub's pages in no register of the sensors. -/
theorem not_limitPlace_key {f : Field} (h : f.key 0 0 < (6 * 4096 + 0x200) * 32 := by decide)
    (hf : f.key 0 0 ∉ [Reg.THM_SUDDEN, Reg.THM_SD_REQ, Reg.THM_DERATE_CAP, Reg.PWR_HB_LOST, Reg.PWR_TRAYCAP].map (fun f => f.key 0 0) := by decide) :
    ¬ LimitPlace (f.key 0 0) := by
  rintro (hk | hk)
  · exact absurd hk.1 (by omega)
  · exact hf hk

/-- Settling writes nothing that the limits are read from. -/
theorem SettledPlace.not_limit {k : Nat} (h : SettledPlace k) : ¬ LimitPlace k := by
  obtain rfl | h | h := h
  · exact not_limitPlace_key
  · obtain ⟨f, hf, rfl⟩ := List.mem_map.mp h
    simp only [shownFields, List.mem_cons, List.not_mem_nil, or_false] at hf
    obtain rfl | rfl | rfl | rfl | rfl | rfl | rfl | rfl | rfl | rfl := hf <;> exact not_limitPlace_key
  · exact fun hl => hl.not_header h.header

section
variable {K : Nat → Prop} {s u : State}

/-- The place that the limits require depends on Hearth and the registers of `LimitPlace` alone. -/
theorem KeepsOutside.wanted (h : KeepsOutside K s u) (hk : ∀ k, K k → ¬ LimitPlace k) (hh : u.hearth = s.hearth) : u.wanted = s.wanted := by
  have hmon := (SameMarks.of_keeps h fun k hin hp => hk k hin (.inl hp)).unmonitored
  have hrd : ∀ f ∈ [Reg.THM_SUDDEN, Reg.THM_SD_REQ], u.rdB f = s.rdB f := fun f hf => by
    rw [State.rdB_eq, State.rdB_eq, h _ _ _ fun hin => hk _ hin (.inr (List.mem_map_of_mem (List.mem_of_mem_take (i := 2) hf)))]
  simp only [State.wanted, State.otherLimits, State.resetHold, hmon, hh, hrd Reg.THM_SUDDEN (by simp), hrd Reg.THM_SD_REQ (by simp)]

theorem State.showCap_shows (s : State) : ShowsOnly SettledPlace s s.showCap := (ShowsOnly.refl _ s).wr _ (.inl rfl)

@[simp] theorem State.showCap_wanted (s : State) : s.showCap.wanted = s.wanted :=
  s.showCap_shows.keeps.wanted (fun _ => SettledPlace.not_limit) rfl

theorem State.countSteps_shows (s : State) (p q : Nat) : ShowsOnly CountPlace s (s.countSteps p q) := by
  have hcount : ∀ n < 8, ∀ k, ShowsOnly CountPlace s (s.count 0x004 n k) := fun n hn k =>
    ⟨by rw [s.count_eq], (KeepsOutside.refl _ s).count k (countPlace_count _ hn),
      ((HearthActs.refl CountPlace s).count k (countPlace_count _ hn)).calm⟩
  unfold State.countSteps
  split
  · exact hcount 2 (by decide) _
  · split
    · exact hcount 3 (by decide) _
    · exact .refl _ s

theorem State.takePlace_acts (s : State) : HearthActs SettledPlace s s.takePlace :=
  (s.showCap_shows.trans ((State.countSteps_shows ..).mono fun _ h => .inr (.inr h))).acts.hearth _

/-- Settling changes registers, contexts and Hearth alone. -/
theorem State.settleHearth_acts (s : State) : HearthActs SettledPlace s s.settleHearth :=
  s.takePlace_acts.trans (State.showPlace_shows _ |>.acts.mono fun _ => ShownPlace.settled)

theorem State.settleHearth_rest (s : State) :
    s.settleHearth = { s with regs := s.settleHearth.regs, ctxs := s.settleHearth.ctxs, hearth := s.settleHearth.hearth } := by
  have hcount := (State.countSteps_shows s.showCap s.hearth.place s.showCap.wanted).rest
  rw [State.settleHearth_eq, (State.showPlace_shows _).rest, State.takePlace, hcount]
  rfl

/-- In Hearth it changes the place, the cap controller's place and the time of the last step alone. -/
theorem State.settleHearth_hearth (s : State) : s.settleHearth.hearth =
    { s.hearth with place := s.wanted, capPlace := s.wanted, stepAt := s.settleHearth.hearth.stepAt } := by
  rw [State.settleHearth_eq, State.showPlace_hearth, State.takePlace, State.showCap_wanted]

/-- The registers show the slowest place that any limit requires. -/
theorem State.settleHearth_place {p : Nat} (h : s.wanted = p) (hp : p ≤ 10) : Shows s.settleHearth p := by
  have hplace : s.takePlace.hearth.place = p := by rw [State.takePlace, State.showCap_wanted, h]
  have hshows := State.showPlace_place (s := s.takePlace) (by rw [hplace]; exact hp)
  rwa [hplace, ← State.settleHearth_eq] at hshows

theorem State.settleHearth_effCap (s : State) : s.settleHearth.rd Reg.PWR_EFF_CAP = s.effCap % 2 ^ 16 := by
  have hcount : ¬ CountPlace (Reg.PWR_EFF_CAP.key 0 0) := not_countPlace
  have hshown : ¬ ShownPlace (Reg.PWR_EFF_CAP.key 0 0) := not_or.mpr ⟨by decide, hcount⟩
  rw [State.settleHearth_eq, (State.showPlace_shows _).keeps _ _ _ hshown]
  have htake : s.takePlace.regs = (s.showCap.countSteps s.hearth.place s.showCap.wanted).regs := by rw [State.takePlace]
  rw [State.rd_congr htake, (State.countSteps_shows ..).keeps _ _ _ hcount, State.showCap, State.wr0_eq, State.rd_wr_self]
  rfl

/-- What shows a place shows it while these registers and the place stay. -/
theorem shows_of_same {u v : State} {p : Nat} (h : Shows u p) (hh : v.hearth.place = u.hearth.place)
    (hr : ∀ f ∈ [Reg.PWR_OPT, Reg.PWR_DUTY, Reg.PWR_AT_FLOOR], v.rd f = u.rd f) : Shows v p := by
  obtain ⟨hplace, hopt, hduty, hfloor⟩ := h
  exact ⟨hh.trans hplace, (hr _ (by simp)).trans hopt, (hr _ (by simp)).trans hduty, (hr _ (by simp)).trans hfloor⟩

end

/-! ### Dividers -/

/-- The field of the divider of die `d`. -/
def dividerField (d : Nat) : Field := ([Reg.CLK_DIV_0, Reg.CLK_DIV_1, Reg.CLK_DIV_2, Reg.CLK_DIV_3] : List Field).getD d Reg.CLK_DIV_0

theorem dividerOf_lt (n : Nat) : dividerOf n < 64 := by
  by_cases h : n < 9
  · interval_cases n <;> decide
  · rw [dividerOf, List.getD_eq_default _ _ (by simp only [List.length_cons, List.length_nil]; omega)]
    decide

theorem State.showDividers_rd (s : State) (p : Nat) {d : Nat} (hd : d < 4) : (s.showDividers p).rd (dividerField d) = s.divider p d := by
  have hcut : ∀ d, s.divider p d % 2 ^ 6 = s.divider p d := fun d => Nat.mod_eq_of_lt (dividerOf_lt _)
  have hget : ∀ n, (s.wr Reg.CLK_DIV_0 0 0 n).hearth = s.hearth := fun _ => rfl
  interval_cases d <;>
    simp (disch := decide) only [State.showDividers, dividerField, State.wr0_eq, List.getD_cons_zero, List.getD_cons_succ, State.rd_wr_ne,
      State.rd_wr_self]
  · exact hcut 0
  · exact hcut 1
  · exact hcut 2
  · exact hcut 3

/-- The divider of a die shows the place, and its droop. -/
theorem State.showPlace_divider (s : State) {d : Nat} (hd : d < 4) : s.showPlace.rd (dividerField d) = s.divider s.hearth.place d := by
  have hcount : ¬ CountPlace ((dividerField d).key 0 0) := by
    interval_cases d <;> exact not_countPlace
  have hhearth : s.showPoint.showFlags.hearth = s.hearth := by rw [s.showPoint.showFlags_shows.rest, s.showPoint_shows.rest]
  rw [State.showPlace_eq, (State.showPaces_shows _ _).keeps _ _ _ hcount, State.showDividers_rd _ _ hd, State.divider, State.divider, hhearth]

end Sys2Proof.Machine
end

section
namespace Sys2Proof.Machine

open Sys2Proof

set_option Elab.async false

/-! PROOFS. The power model's estimate, droop and the calibration gain: what each of their commands does. -/

/-! ### What Hearth shows of power -/

/-- The registers of measurements and estimates. -/
def powerFields : List Field :=
  [Reg.PWR_P_IN, Reg.PWR_P_AVG, Reg.PWR_P_EST, Reg.PWR_P_1MS, Reg.PWR_GAIN, Reg.PWR_PLAN_OPT, Reg.PWR_PLAN_DUTY, Reg.PWR_CAP_UNREACHABLE]

/-- The places that a measurement or an estimate writes, with what settles after it. -/
def PowerPlace (k : Nat) : Prop := k ∈ powerFields.map (fun f => f.key 0 0) ∨ SettledPlace k

theorem powerPlace_key {f : Field} (h : f ∈ powerFields) : PowerPlace (f.key 0 0) := .inl (List.mem_map_of_mem h)

theorem SettledPlace.power {k : Nat} (h : SettledPlace k) : PowerPlace k := .inr h

theorem powerPlace_count {p n : Nat} (hn : n < 8) : PowerPlace (Reg.CNT_N.key p n) := .inr (settledPlace_count hn)

theorem PowerPlace.not_limit {k : Nat} (h : PowerPlace k) : ¬ LimitPlace k := by
  obtain h | h := h
  · obtain ⟨f, hf, rfl⟩ := List.mem_map.mp h
    simp only [powerFields, List.mem_cons, List.not_mem_nil, or_false] at hf
    obtain rfl | rfl | rfl | rfl | rfl | rfl | rfl | rfl := hf <;> exact not_limitPlace_key
  · exact h.not_limit

/-- A field of the hub's pages beyond their headers that settling does not write. -/
theorem not_settledPlace {f : Field} (hf : f.key 0 0 ∉ (Reg.PWR_EFF_CAP :: shownFields).map (fun f => f.key 0 0) := by decide)
    (hc : ¬ CountPlace (f.key 0 0)) : ¬ SettledPlace (f.key 0 0) := by
  rw [List.map_cons, List.mem_cons, not_or] at hf
  exact not_or.mpr ⟨hf.1, not_or.mpr ⟨hf.2, hc⟩⟩

theorem not_settledPlace_stat {p : Nat} (hp : 4 ≤ p ∧ p < 7) : ¬ SettledPlace (Reg.FLT_STAT.key p 0) := by
  have hne : Reg.FLT_STAT.key p 0 ∉ (Reg.PWR_EFF_CAP :: shownFields).map (fun f => f.key 0 0) := by
    obtain ⟨h4, h7⟩ := hp
    interval_cases p <;> decide
  rw [List.map_cons, List.mem_cons, not_or] at hne
  exact not_or.mpr ⟨hne.1, not_or.mpr ⟨hne.2, not_countPlace_stat (by omega)⟩⟩

@[simp] theorem State.count_hearth (s : State) (p n k : Nat) : (s.count p n k).hearth = s.hearth := by rw [s.count_eq]

/-! ### The peak limit -/

section
variable {K : Nat → Prop} {s u : State}

/-- Limits that `OnlyCap` leaves stand where SUDDEN, the marks and Hearth's holds stay. -/
theorem FewLimits.of_acts (h : OnlyCap s) (hk : KeepsOutside K s u) (hl : ∀ k, K k → ¬ LimitPlace k) (hp : u.hearth.plan = 0)
    (hf : u.hearth.follow = 0) (hr : u.hearth.resetFloor = s.hearth.resetFloor) (hb : u.hearth.bringUp = s.hearth.bringUp) : FewLimits u :=
  (FewLimits.of_onlyCap h).of_same (SameMarks.of_keeps hk fun k hin hs => hl k hin (.inl hs)) (hk _ _ _ fun hin => hl _ hin (.inr (by decide))) hp hf hr hb

theorem sdReq_of_acts (h : OnlyCap s) (hk : KeepsOutside K s u) (hl : ∀ k, K k → ¬ LimitPlace k) : u.rd Reg.THM_SD_REQ ≠ 1 := by
  obtain ⟨-, -, -, -, -, -, hsd, -⟩ := h
  rwa [hk _ _ _ fun hin => hl _ hin (.inr (by decide))]

end

/-- An estimate of 10 µs is noted. -/
def State.noteEstimate (s : State) (raw : Nat) : State :=
  let est := s.rd Reg.PWR_GAIN * raw / 2 ^ 14
  { s.wr0 Reg.PWR_P_EST est with hearth := { s.hearth with
    estSum := s.hearth.estSum + est, rawSum := s.hearth.rawSum + raw, estN := s.hearth.estN + 1 } }

/-- The peak limit requires place `q`. -/
def State.setPeak (s : State) (q : Nat) : State := { s with hearth := { s.hearth with peak := q } }

theorem State.peakCheck_of_above {s : State} {raw : Nat} (h : 10 * s.hearth.lim.peak < s.rd Reg.PWR_GAIN * raw / 2 ^ 14) :
    s.peakCheck raw = (((s.noteEstimate raw).count 0x004 4 1).setPeak (min 10 (s.hearth.place + 1))).settleHearth := by
  have heq : s.peakCheck raw = (((s.noteEstimate raw).count 0x004 4 1).setPeak
      (min 10 (((s.noteEstimate raw).count 0x004 4 1).hearth.place + 1))).settleHearth := if_pos h
  rw [heq, State.count_hearth, State.noteEstimate]

theorem State.peakCheck_of_within {s : State} {raw : Nat} (h : s.rd Reg.PWR_GAIN * raw / 2 ^ 14 ≤ 10 * s.hearth.lim.peak) :
    s.peakCheck raw = ((s.noteEstimate raw).setPeak 0).settleHearth := if_neg (Nat.not_lt.mpr h)

theorem State.noteEstimate_acts (s : State) (raw : Nat) : HearthActs PowerPlace s (s.noteEstimate raw) :=
  ((HearthActs.refl PowerPlace s).wr _ (powerPlace_key (by decide))).hearth _

/-- Where only the cap controller limits, an estimate settles on its place or on the peak limit's. -/
theorem settle_peak {s u : State} {raw q : Nat} (h : OnlyCap s) (hu : HearthActs CountPlace (s.noteEstimate raw) u)
    (hh : u.hearth = (s.noteEstimate raw).hearth) (hq : q ≤ 10) :
    HearthActs PowerPlace s (u.setPeak q).settleHearth ∧ (u.setPeak q).settleHearth.hearth.peak = q ∧
      (u.setPeak q).settleHearth.rd Reg.PWR_P_EST = s.rd Reg.PWR_GAIN * raw / 2 ^ 14 % 2 ^ 16 ∧ Shows (u.setPeak q).settleHearth (max s.hearth.place q) := by
  have hu' : HearthActs PowerPlace s (u.setPeak q) :=
    ((s.noteEstimate_acts raw).trans (hu.mono fun _ hk => .inr (.inr (.inr hk)))).hearth _
  have hfew : FewLimits (u.setPeak q) := by
    refine FewLimits.of_acts h hu'.keeps (fun _ => PowerPlace.not_limit) ?_ ?_ ?_ ?_ <;> simp only [State.setPeak, hh]
    · exact (FewLimits.of_onlyCap h).plan
    · exact (FewLimits.of_onlyCap h).follow
    · rfl
    · rfl
  have hsd : (u.setPeak q).rd Reg.THM_SD_REQ ≠ 1 := sdReq_of_acts h hu'.keeps fun _ => PowerPlace.not_limit
  obtain ⟨hcap, hten, hthermal, -⟩ := h
  have hwanted : (u.setPeak q).wanted = max s.hearth.place q := by
    rw [hfew.wanted, State.thermalPlace, if_neg hsd]
    simp only [State.setPeak, hh, State.noteEstimate, hcap]
    omega
  refine ⟨hu'.trans ((State.settleHearth_acts _).mono fun _ => SettledPlace.power), by rw [State.settleHearth_hearth]; rfl, ?_,
    State.settleHearth_place hwanted (by omega)⟩
  rw [(State.settleHearth_acts _).keeps _ _ _ (not_settledPlace (hc := not_countPlace)),
    State.rd_congr (s := u.setPeak q) (t := u) rfl, hu.keeps _ _ _ not_countPlace, State.rd_congr (s := s.noteEstimate raw) (t := s.wr0 Reg.PWR_P_EST _) rfl, State.wr0_eq, State.rd_wr_self]
  rfl

/-! ### Droop -/

/-- A droop event is noted, and its die takes the next divider. -/
def State.noteDroop (s : State) (d : Nat) : State :=
  { s with regs := (s.count 0x005 d 1).regs, hearth := { s.hearth with
    droops := SMap.put s.hearth.droops d (s.timeUs :: s.droopsIn d), drooped := SMap.put s.hearth.drooped d 1 } }

/-- DROOP_STORM calls for a step at the next tick. -/
def State.callStorm (s : State) : State := { s with hearth := { s.hearth with storm := true } }

theorem State.noteDroop_acts (s : State) {d : Nat} (hd : d < 4) : HearthActs CountPlace s (s.noteDroop d) :=
  (s.count_eq 0x005 d 1 ▸ (HearthActs.refl CountPlace s).count 1 (countPlace_count 0x005 (n := d) (by omega))).hearth _

theorem State.droop_eq (s : State) {d : Nat} (hd : d < 4) : s.droop d =
    (if s.rd Reg.CLK_DROOP_LIM < (s.droopsIn d).length + 1 ∧ s.hearth.storm = false then (s.noteDroop d).callStorm.occur 0x004 2 none 0
      else s.noteDroop d).showPlace := by
  have hlim : (s.noteDroop d).rd Reg.CLK_DROOP_LIM = s.rd Reg.CLK_DROOP_LIM := (s.noteDroop_acts hd).keeps _ _ _ not_countPlace
  rw [← hlim]
  have hcount := s.count_eq 0x005 d 1
  unfold State.droop
  rw [hcount]
  rfl

/-- A die on the droop divider shows it. -/
theorem State.showPlace_drooped {s : State} {d : Nat} (hd : d < 4) (h : SMap.find s.hearth.drooped d = some 1) :
    s.showPlace.rd (dividerField d) = dividerOf (min s.hearth.place 7 + 1) := by
  rw [s.showPlace_divider hd, State.divider, SMap.get, h]
  rfl

theorem State.showPlace_not_drooped {s : State} {d : Nat} (hd : d < 4) (h : SMap.find s.hearth.drooped d = none) :
    s.showPlace.rd (dividerField d) = dividerOf (min s.hearth.place 7) := by
  rw [s.showPlace_divider hd, State.divider, SMap.get, h]
  rfl

/-- A die that leaves the droop divider. -/
def State.endDroop (s : State) (d : Nat) : State := { s with hearth := { s.hearth with drooped := SMap.del s.hearth.drooped d } }

/-! ### The calibration gain -/

theorem State.gainClamped_of_free {s : State} (h : s.rd Reg.PWR_GAIN ≠ 12288) (h' : s.rd Reg.PWR_GAIN ≠ 20480) :
    s.gainClamped = s.wr Reg.PWR_CLAMPED 0 0 0 := if_neg (by simp [h, h'])

theorem State.gainClamped_of_held {s : State} (h : s.rd Reg.PWR_GAIN = 12288 ∨ s.rd Reg.PWR_GAIN = 20480) :
    s.gainClamped = if s.rd Reg.PWR_CLAMPED = 1 then s else (s.wr Reg.PWR_CLAMPED 0 0 1).occur 0x004 1 none 0 := if_pos h

end Sys2Proof.Machine
end

section
open Sys2Proof Sys2Proof.Machine

set_option Elab.async false

section
variable {s : State}

/-- An estimate steps the package down, or releases the peak limit. -/
theorem peakCheckCompletes (hr : s.ready = true) (h : OnlyCap s) (raw : Nat) : let est := s.rd Reg.PWR_GAIN * raw / 2 ^ 14
    Completes (.peakCheck raw) s (fun t => t.rd Reg.PWR_P_EST = est % 2 ^ 16 ∧ t.larder = s.larder ∧
      (10 * s.hearth.lim.peak < est → Shows t (min 10 (s.hearth.place + 1)) ∧ t.hearth.peak = min 10 (s.hearth.place + 1)) ∧
      (est ≤ 10 * s.hearth.lim.peak → Shows t s.hearth.place ∧ t.hearth.peak = 0)) := by
  intro est
  by_cases hest : 10 * s.hearth.lim.peak < est
  · have hcount : HearthActs CountPlace (s.noteEstimate raw) ((s.noteEstimate raw).count 0x004 4 1) :=
      (HearthActs.refl _ _).count 1 (countPlace_count _ (by decide))
    obtain ⟨hacts, hpeak, hrd, hshows⟩ := settle_peak h hcount (State.count_hearth ..) (Nat.min_le_left 10 (s.hearth.place + 1))
    rw [← State.peakCheck_of_above hest] at hacts hpeak hrd hshows
    refine ⟨_, hacts.exec_eq (g := fun s => s.peakCheck raw) rfl rfl hr, hrd, by rw [hacts.rest], fun _ => ⟨?_, hpeak⟩,
      fun hle => absurd hest (Nat.not_lt.mpr hle)⟩
    have ⟨_, hten, _⟩ := h
    rwa [max_eq_right (by omega)] at hshows
  · obtain ⟨hacts, hpeak, hrd, hshows⟩ := settle_peak h (.refl _ (s.noteEstimate raw)) rfl (Nat.zero_le 10)
    rw [← State.peakCheck_of_within (Nat.not_lt.mp hest)] at hacts hpeak hrd hshows
    rw [Nat.max_zero] at hshows
    exact ⟨_, hacts.exec_eq (g := fun s => s.peakCheck raw) rfl rfl hr, hrd, by rw [hacts.rest], fun hlt => absurd hlt hest,
      fun _ => ⟨hshows, hpeak⟩⟩

/-- A droop event that raises nothing. -/
theorem droopCompletes (hr : s.ready = true) {d : Nat} (hd : d < 4)
    (h : ¬ s.rd Reg.CLK_DROOP_LIM < (s.droopsIn d).length + 1 ∨ s.hearth.storm = true) :
    Completes (.droop d) s (fun t => t.rd (dividerField d) = dividerOf (min s.hearth.place 7 + 1) ∧
      SMap.get [] t.hearth.droops d = s.timeUs :: s.droopsIn d ∧ t.hearth.storm = s.hearth.storm ∧ t.hearth.place = s.hearth.place ∧
      t.larder = s.larder) := by
  have heff : s.droop d = (s.noteDroop d).showPlace := by
    rw [s.droop_eq hd, if_neg (by rintro ⟨hlim, hstorm⟩; obtain h | h := h <;> simp_all)]
  have hacts : HearthActs ShownPlace s (s.noteDroop d).showPlace :=
    ((s.noteDroop_acts hd).mono fun _ => .inr).trans (State.showPlace_shows _).acts
  rw [← heff] at hacts
  refine ⟨_, hacts.exec_eq (g := fun s => s.droop d) rfl (decide_eq_true hd) hr, ?_, ?_, ?_, ?_, by rw [hacts.rest]⟩
  · rw [heff, State.showPlace_drooped hd (SMap.find_put_self ..)]
    rfl
  all_goals rw [heff, State.showPlace_hearth]
  · exact congrArg (fun x => Option.getD x []) (SMap.find_put_self ..)
  · rfl
  · rfl

/-- A droop event past DROOP_LIM. -/
theorem droopStormCompletes (hr : s.ready = true) {d : Nat} (hd : d < 4)
    (h : s.rd Reg.CLK_DROOP_LIM < (s.droopsIn d).length + 1) (hstorm : s.hearth.storm = false) (hcls : s.occurClass 0x004 2 ≠ 2) :
    Completes (.droop d) s (fun t => t.rd (dividerField d) = dividerOf (min s.hearth.place 7 + 1) ∧ t.hearth.storm = true ∧
      bit (t.rd Reg.FLT_STAT 0x004) 2 = 1 ∧ t.hearth.place = s.hearth.place) := by
  have heff : s.droop d = ((s.noteDroop d).callStorm.occur 0x004 2 none 0).showPlace := by rw [s.droop_eq hd, if_pos ⟨h, hstorm⟩]
  have hnote : HearthActs CountPlace s (s.noteDroop d).callStorm := (s.noteDroop_acts hd).hearth _
  have hcls' : (s.noteDroop d).callStorm.occurClass 0x004 2 ≠ 2 := by
    rwa [State.occurClass_congr (hnote.keeps _ _ _ (not_countPlace_stat (by decide))) (hnote.keeps _ _ _ not_countPlace_class)]
  have hacts : HearthActs (fun k => HeaderPlace k ∨ ShownPlace k) s (s.droop d) := by
    rw [heff]
    exact ((hnote.mono fun _ hk => .inl hk.header).occur none 0 hcls' fun _ => .inl).trans
      ((State.showPlace_shows _).acts.mono fun _ => .inr)
  refine ⟨_, hacts.exec_eq (g := fun s => s.droop d) rfl (decide_eq_true hd) hr, ?_, ?_, ?_, ?_⟩
  · rw [heff, State.showPlace_drooped hd (by rw [State.occur_hearth]; exact SMap.find_put_self ..), State.occur_hearth]
    rfl
  · rw [heff, State.showPlace_hearth, State.occur_hearth]
    rfl
  · rw [heff, (State.showPlace_shows _).keeps _ _ _ fun hk => not_settledPlace_stat (by decide) hk.settled]
    exact State.occur_stat none 0 hcls' (by decide) (by decide)
  · rw [heff, State.showPlace_hearth, State.occur_hearth]
    rfl

theorem gainClampedCompletes (hr : s.ready = true) : let g := s.rd Reg.PWR_GAIN
    (g ≠ 12288 → g ≠ 20480 → Completes .gainClamped s (fun t => t.rd Reg.PWR_CLAMPED = 0 ∧ RegsOnly s t [Reg.PWR_CLAMPED.key 0 0])) ∧
    (g = 12288 ∨ g = 20480 → s.rd Reg.PWR_CLAMPED = 1 → exec .gainClamped s = .next s) ∧
    (g = 12288 ∨ g = 20480 → s.rd Reg.PWR_CLAMPED ≠ 1 → s.occurClass 0x004 1 ≠ 2 → Completes .gainClamped s (fun t =>
      t.rd Reg.PWR_CLAMPED = 1 ∧ bit (t.rd Reg.FLT_STAT 0x004) 1 = 1 ∧ t.hearth = s.hearth)) := by
  intro g
  have hwr : ∀ n, HearthActs (· ∈ [Reg.PWR_CLAMPED.key 0 0]) s (s.wr Reg.PWR_CLAMPED 0 0 n) := fun n =>
    (HearthActs.refl _ s).wr n (by simp)
  refine ⟨fun h h' => ?_, fun h h1 => ?_, fun h h1 hcls => ?_⟩
  · have heff := State.gainClamped_of_free h h'
    refine ⟨_, HearthActs.exec_eq (g := fun s => s.gainClamped) (heff ▸ hwr 0) rfl rfl hr, ?_⟩
    simp only [heff]
    exact ⟨State.rd_wr_self .., (hwr 0).keeps, rfl⟩
  · exact exec_eq_self (g := fun s => s.gainClamped) rfl rfl hr ((State.gainClamped_of_held h).trans (if_pos h1))
  · have heff := (State.gainClamped_of_held h).trans (if_neg h1)
    have hcls' : (s.wr Reg.PWR_CLAMPED 0 0 1).occurClass 0x004 1 ≠ 2 := by
      rwa [State.occurClass_congr (State.rd_wr_ne _ _ (by decide)) (State.rd_wr_ne _ _ (by decide))]
    have hocc := State.occur_keeps none 0 hcls'
    have hacts : HearthActs (fun k => k ∈ [Reg.PWR_CLAMPED.key 0 0] ∨ HeaderPlace k) s ((s.wr Reg.PWR_CLAMPED 0 0 1).occur 0x004 1 none 0) :=
      ((hwr 1).mono fun _ => .inl).occur none 0 hcls' fun _ => .inr
    refine ⟨_, HearthActs.exec_eq (g := fun s => s.gainClamped) (heff ▸ hacts) rfl rfl hr, ?_⟩
    simp only [heff]
    refine ⟨by rw [hocc _ _ _ not_headerPlace, State.rd_wr_self]; rfl, State.occur_stat none 0 hcls' (by decide) (by decide), ?_⟩
    rw [State.occur_hearth, State.wr_hearth]

end

theorem peakAndDroop : Clause.PeakAndDroop := by
  intro s hr
  refine ⟨fun raw h => peakCheckCompletes hr h raw, fun d hd => ⟨droopCompletes hr hd, droopStormCompletes hr hd, ?_⟩,
    gainClampedCompletes hr⟩
  have hacts : HearthActs ShownPlace s (s.droopRelease d) := ((HearthActs.refl ShownPlace s).hearth _).trans (State.showPlace_shows _).acts
  exact ⟨_, hacts.exec_eq (g := fun s => s.droopRelease d) rfl (decide_eq_true hd) hr,
    State.showPlace_not_drooped (s := s.endDroop d) hd (SMap.find_del_self ..), by
      rw [State.droopRelease, State.showPlace_hearth]; exact SMap.find_del_self .., by
      rw [State.droopRelease, State.showPlace_hearth], by rw [hacts.rest]⟩

end

section
namespace Sys2Proof.Machine

open Sys2Proof

set_option Elab.async false

/-! PROOFS. The tick of the cap controller: what it measures, what it decides, and what settles and counts after it. -/

/-! ### The measurement -/

/-- The number and the sum of the estimates of the last ms. -/
def State.tickN (s : State) : Nat := if s.hearth.estN = 0 then 1 else s.hearth.estN

def State.tickSum (s : State) : Nat := if s.hearth.estN = 0 then s.rd Reg.PWR_P_EST else s.hearth.estSum

/-- The measurements of the last WINDOW seconds. -/
def State.tickWindow (s : State) (pin : Nat) : List Nat := ((pin :: s.hearth.pin).take 16000).take (1000 * s.rd Reg.PWR_WINDOW)

/-- P_IN, P_1MS and GAIN of a measurement. -/
def State.showRaw (s : State) (pin : Nat) : State :=
  let u := (s.wr0 Reg.PWR_P_IN pin).wr0 Reg.PWR_P_1MS (meanShown s.tickSum s.tickN)
  u.wr0 Reg.PWR_GAIN (gainNext (u.rd Reg.PWR_GAIN) pin (meanShown s.hearth.rawSum s.tickN))

/-- The registers of a measurement. -/
def State.showMeasured (s : State) (pin : Nat) : State :=
  let win := (s.showRaw pin).tickWindow pin
  (s.showRaw pin).wr0 Reg.PWR_P_AVG (meanShown win.sum win.length)

/-- The measurement is kept, and the limits of the registers are in force. -/
def State.measured (s : State) (pin : Nat) : State :=
  let u := s.showMeasured pin
  let mj := s.hearth.energy + pin
  State.count { u with hearth := { s.hearth with
    pin := (pin :: s.hearth.pin).take 16000, estSum := 0, rawSum := 0, estN := 0, energy := mj % 1000, lim := u.limitsNow } }
    0x004 6 (mj / 1000)

/-- EFF_CAP, and the places of the plan and of the peers. -/
def State.planned (s : State) : State :=
  let eff := s.effCap
  let u := s.wr0 Reg.PWR_EFF_CAP eff
  let plan := u.planPlace eff
  let u := (u.wr0 Reg.PWR_PLAN_OPT (optOf plan)).wr0 Reg.PWR_PLAN_DUTY (dutyOf plan)
  { u with hearth := { u.hearth with plan := if u.rd Reg.PWR_MODE = 0 then plan else 0, follow := u.followPlace } }

/-! ### The decision -/

/-- The controller steps up where the power lets it. -/
def State.stepsUp (s : State) (powerOk : Bool) : Bool :=
  powerOk && decide (0 < s.hearth.place) && s.mayStepUp &&
    decide (s.otherLimits.foldl (fun m x => max m x.2) s.resetHold < s.hearth.place) && decide (500 ≤ s.hearth.coolRun)

/-- The place that the controller holds after a tick. -/
def State.decidedPlace (s : State) (down powerOk : Bool) : Nat :=
  if down then min 10 (s.hearth.place + 1) else if s.stepsUp powerOk then s.hearth.place - 1 else s.hearth.capPlace

def State.decided (s : State) (down powerOk : Bool) : State :=
  { s with hearth := { s.hearth with storm := false, capBinds := down || !powerOk, capPlace := s.decidedPlace down powerOk } }

/-! ### What follows -/

/-- The ticks in a row of R307 are noted. -/
def State.noteRuns (s : State) (overN underN : Nat) : State :=
  { s with hearth := { s.hearth with overRun := min 100 overN, underRun := min 100 underN } }

/-- CAP_UNREACHABLE is set, R307. -/
def State.setUnreachable (s : State) (eff p1 : Nat) : State :=
  ((((s.wr0 Reg.PWR_CAP_UNREACHABLE 1).occur 0x004 0 none 0).event 0x0030 5 0x004 (eff + 2 ^ 32 * p1)).protect 6).trayNote

/-- The counters of R329. -/
def State.countLimits (s : State) (atFloor : Bool) (eff : Nat) : State :=
  let s := if s.capBound then s.count 0x004 0 1 else s
  let s := if atFloor then s.count 0x004 1 1 else s
  let s := if s.limitBinds 11 then s.count 0x004 5 1 else s
  let s := if s.rd Reg.THM_WARMING ≠ 0 then s.count 0x004 7 1 else s
  let s := if s.limitBinds 2 then s.count 0x006 0 1 else s
  if s.capBound && decide (s.rd Reg.THM_DERATE_CAP ≤ eff) then s.count 0x006 1 1 else s

/-- The ticks in a row at the floor with P1 above EFF_CAP, this one counted. -/
def State.overTicks (s : State) (sum n eff : Nat) : Nat :=
  if s.hearth.place == floorPlace && meanAbove sum n 64 eff then s.hearth.overRun + 1 else 0

def State.underTicks (s : State) (sum n eff : Nat) : Nat := if meanAbove sum n 63 eff then 0 else s.hearth.underRun + 1

/-- The ticks in a row decide CAP_UNREACHABLE. -/
def State.noteReach (s : State) (overN underN eff p1 : Nat) : State :=
  let u := s.noteRuns overN underN
  let u := if overN = 100 ∧ u.rd Reg.PWR_CAP_UNREACHABLE = 0 then u.setUnreachable eff p1 else u
  if 100 ≤ underN then u.wr0 Reg.PWR_CAP_UNREACHABLE 0 else u

/-- What follows a tick's settling. -/
def State.tickEnd (s : State) (sum n eff : Nat) : State :=
  ((s.noteReach (s.overTicks sum n eff) (s.underTicks sum n eff) eff (meanShown sum n)).countLimits (s.hearth.place == floorPlace) eff).showPlace

/-- The tick steps down for power or for a droop storm. -/
def State.stepsDown (s v : State) (pin eff : Nat) : Bool :=
  let win := (s.showRaw pin).tickWindow pin
  (meanAbove s.tickSum s.tickN 64 eff && meanAbove win.sum win.length 63 eff) || v.hearth.storm

/-- The power lets the package step up. -/
def State.powerLets (s : State) (pin upEst eff : Nat) : Bool :=
  let win := (s.showRaw pin).tickWindow pin
  meanBelow win.sum win.length 63 eff && decide (64 * upEst ≤ 63 * eff)

/-- A tick measures, plans, decides, settles and counts. -/
theorem State.capTick_eq (s : State) (pin upEst : Nat) : s.capTick pin upEst =
    ((s.measured pin).planned.decided (s.stepsDown (s.measured pin).planned pin (s.measured pin).effCap)
      (s.powerLets pin upEst (s.measured pin).effCap)).settleHearth.tickEnd s.tickSum s.tickN (s.measured pin).effCap := by
  unfold State.capTick
  extract_lets h n sum raw1 raw2 samples win shown mj kept m eff capped plan planShown h2 v place down powerOk others up h3 u settled
  have hm : m = s.measured pin := rfl
  clear_value m
  have hv : v = m.planned := rfl
  have heff : eff = m.effCap := rfl
  clear_value v eff
  have hu : u = v.decided down powerOk := rfl
  have hdown : down = s.stepsDown v pin eff := rfl
  have hpower : powerOk = s.powerLets pin upEst eff := rfl
  have hsettled : settled = u.settleHearth := rfl
  clear_value u settled
  rw [← hm, ← heff, ← hv, ← hdown, ← hpower, ← hu, ← hsettled]
  show _ = settled.tickEnd sum n eff
  rfl

/-! ### What the stages of a tick leave -/

section
variable {s u : State}

theorem State.showRaw_acts (s : State) (pin : Nat) : HearthActs PowerPlace s (s.showRaw pin) :=
  (((HearthActs.refl PowerPlace s).wr _ (powerPlace_key (by decide))).wr _ (powerPlace_key (by decide))).wr _ (powerPlace_key (by decide))

theorem State.showMeasured_acts (s : State) (pin : Nat) : HearthActs PowerPlace s (s.showMeasured pin) :=
  (s.showRaw_acts pin).wr _ (powerPlace_key (by decide))

theorem State.measured_acts (s : State) (pin : Nat) : HearthActs PowerPlace s (s.measured pin) :=
  ((s.showMeasured_acts pin).hearth _).count _ (powerPlace_count (by decide))

/-- What is configured is no measurement. -/
theorem not_powerPlace {f : Field} (hf : f.key 0 0 ∉ (powerFields ++ Reg.PWR_EFF_CAP :: shownFields).map (fun f => f.key 0 0) := by decide)
    (hc : ¬ CountPlace (f.key 0 0)) : ¬ PowerPlace (f.key 0 0) := by
  rw [List.map_append, List.mem_append, not_or] at hf
  exact not_or.mpr ⟨hf.1, not_settledPlace hf.2 hc⟩

theorem State.showRaw_window (s : State) (pin : Nat) : (s.showRaw pin).tickWindow pin = s.tickWindow pin := by
  have hwin : (s.showRaw pin).rd Reg.PWR_WINDOW = s.rd Reg.PWR_WINDOW :=
    (s.showRaw_acts pin).keeps _ _ _ (not_powerPlace (hc := not_countPlace))
  rw [State.tickWindow, State.tickWindow, hwin]
  rfl

theorem State.showMeasured_limits (s : State) (pin : Nat) : (s.showMeasured pin).limitsNow = s.limitsNow := by
  have hkeep : ∀ f ∈ [Reg.PWR_CAP, Reg.PWR_SAFE_PCT, Reg.PWR_PEAK, Reg.PWR_SSD_PCT], (s.showMeasured pin).rd f = s.rd f := by
    intro f hf
    simp only [List.mem_cons, List.not_mem_nil, or_false] at hf
    refine (s.showMeasured_acts pin).keeps _ _ _ ?_
    obtain rfl | rfl | rfl | rfl := hf <;> exact not_powerPlace (hc := not_countPlace)
  simp only [State.limitsNow, hkeep Reg.PWR_CAP (by simp), hkeep Reg.PWR_SAFE_PCT (by simp), hkeep Reg.PWR_PEAK (by simp),
    hkeep Reg.PWR_SSD_PCT (by simp)]

theorem State.measured_hearth (s : State) (pin : Nat) : (s.measured pin).hearth = { s.hearth with
    pin := (pin :: s.hearth.pin).take 16000, estSum := 0, rawSum := 0, estN := 0, energy := (s.hearth.energy + pin) % 1000, lim := s.limitsNow } := by
  rw [State.measured, State.count_hearth, State.showMeasured_limits]

/-- The measurement shows P_IN, P_1MS and P_AVG. -/
theorem State.measured_rd (s : State) (pin : Nat) : (s.measured pin).rd Reg.PWR_P_IN = pin % 2 ^ 16 ∧
    (s.measured pin).rd Reg.PWR_P_1MS = s.tickSum / s.tickN % 2 ^ 16 ∧
    (s.measured pin).rd Reg.PWR_P_AVG = (s.tickWindow pin).sum / (s.tickWindow pin).length % 2 ^ 16 := by
  have hcount : ∀ f, ¬ CountPlace (f.key 0 0) → (s.measured pin).rd f = (s.showMeasured pin).rd f := fun f hf => by
    rw [State.measured, State.rd_count_of_not _ _ (by decide) hf]
    exact State.rd_congr rfl _ _ _
  rw [hcount _ not_countPlace, hcount _ not_countPlace, hcount _ not_countPlace, State.showMeasured, State.showRaw_window]
  dsimp only [State.showRaw]
  simp (disch := decide) only [State.wr0_eq, State.rd_wr_ne, State.rd_wr_self]
  exact ⟨rfl, rfl, rfl⟩

/-- The registers of a plan. -/
def PlanPlace (k : Nat) : Prop := k ∈ [Reg.PWR_EFF_CAP, Reg.PWR_PLAN_OPT, Reg.PWR_PLAN_DUTY].map (fun f => f.key 0 0)

theorem planPlace_key {f : Field} (h : f ∈ [Reg.PWR_EFF_CAP, Reg.PWR_PLAN_OPT, Reg.PWR_PLAN_DUTY]) : PlanPlace (f.key 0 0) :=
  List.mem_map_of_mem h

theorem PlanPlace.power {k : Nat} (h : PlanPlace k) : PowerPlace k := by
  obtain ⟨f, hf, rfl⟩ := List.mem_map.mp h
  simp only [List.mem_cons, List.not_mem_nil, or_false] at hf
  obtain rfl | rfl | rfl := hf
  · exact .inr (.inl rfl)
  · exact powerPlace_key (by decide)
  · exact powerPlace_key (by decide)

theorem State.planned_acts (s : State) : HearthActs PlanPlace s s.planned :=
  ((((HearthActs.refl PlanPlace s).wr _ (planPlace_key (by decide))).wr _ (planPlace_key (by decide))).wr _ (planPlace_key (by decide))).hearth _

/-- Without a fixed plan and without following, neither limits. -/
theorem State.planned_hearth (hm : s.rd Reg.PWR_MODE ≠ 0) (hf : s.rd Reg.PWR_PACE_FOLLOW = 0) :
    s.planned.hearth = { s.hearth with plan := 0, follow := 0 } := by
  have hkeep : ∀ f, f.key 0 0 ∉ [Reg.PWR_EFF_CAP, Reg.PWR_PLAN_OPT, Reg.PWR_PLAN_DUTY].map (fun f => f.key 0 0) →
      (((s.wr0 Reg.PWR_EFF_CAP s.effCap).wr0 Reg.PWR_PLAN_OPT (optOf ((s.wr0 Reg.PWR_EFF_CAP s.effCap).planPlace s.effCap))).wr0
        Reg.PWR_PLAN_DUTY (dutyOf ((s.wr0 Reg.PWR_EFF_CAP s.effCap).planPlace s.effCap))).rd f = s.rd f :=
    fun f hf => s.planned_acts.keeps f 0 0 hf
  rw [State.planned]
  dsimp only
  rw [hkeep Reg.PWR_MODE (by decide), if_neg hm, State.followPlace, if_pos ((hkeep Reg.PWR_PACE_FOLLOW (by decide)).trans hf)]
  rfl

end

/-! ### The end of a tick -/

section
variable {s u : State}

/-- What follows the settling writes CAP_UNREACHABLE, counters and what shows the place. -/
def EndPlace (k : Nat) : Prop := k = Reg.PWR_CAP_UNREACHABLE.key 0 0 ∨ ShownPlace k

theorem endPlace_count (p : Nat) {n : Nat} (hn : n < 8) : EndPlace (Reg.CNT_N.key p n) := .inr (.inr (countPlace_count p hn))

/-- A state in which counters may have advanced, with Hearth as it was. -/
def Counted (s u : State) : Prop := HearthActs EndPlace s u ∧ u.hearth = s.hearth

theorem Counted.refl (s : State) : Counted s s := ⟨.refl _ s, rfl⟩

theorem Counted.count (h : Counted s u) (p n : Nat) (q : Prop) [Decidable q] (hn : n < 8 := by decide) (hp : 4 ≤ p := by decide) :
    Counted s (if q then u.count p n 1 else u) := by
  split
  · exact ⟨h.1.count 1 (endPlace_count p hn) hp, (State.count_hearth ..).trans h.2⟩
  · exact h

theorem State.countLimits_counted (s : State) (atFloor : Bool) (eff : Nat) : Counted s (s.countLimits atFloor eff) :=
  ((((((Counted.refl s).count 0x004 0 _).count 0x004 1 _).count 0x004 5 _).count 0x004 7 _).count 0x006 0 _).count 0x006 1 _

/-- While R307 does not report an unreachable cap, its ticks are noted. -/
theorem State.noteReach_acts {overN underN eff p1 : Nat} (h : overN ≠ 100) : HearthActs EndPlace s (s.noteReach overN underN eff p1) ∧
    (s.noteReach overN underN eff p1).hearth = { s.hearth with overRun := min 100 overN, underRun := min 100 underN } := by
  have hnote : HearthActs EndPlace s (s.noteRuns overN underN) := (HearthActs.refl _ s).hearth _
  simp only [State.noteReach, h, false_and, if_false]
  split
  · exact ⟨hnote.wr 0 (.inl rfl), rfl⟩
  · exact ⟨hnote, rfl⟩

/-- The end of such a tick shows the place and counts. -/
theorem State.tickEnd_acts {sum n eff : Nat} (h : s.hearth.overRun < 99) : HearthActs EndPlace s (s.tickEnd sum n eff) ∧
    (s.tickEnd sum n eff).hearth = { s.hearth with overRun := min 100 (s.overTicks sum n eff), underRun := min 100 (s.underTicks sum n eff) } ∧
    (s.hearth.place ≤ 10 → Shows (s.tickEnd sum n eff) s.hearth.place) := by
  have hover : s.overTicks sum n eff ≠ 100 := by
    unfold State.overTicks
    split <;> omega
  obtain ⟨hacts, hhearth⟩ := State.noteReach_acts (s := s) (underN := s.underTicks sum n eff) (eff := eff) (p1 := meanShown sum n) hover
  rw [State.tickEnd]
  generalize s.noteReach (s.overTicks sum n eff) (s.underTicks sum n eff) eff (meanShown sum n) = u at hacts hhearth
  obtain ⟨hcount, hsame⟩ := u.countLimits_counted (s.hearth.place == floorPlace) eff
  generalize u.countLimits (s.hearth.place == floorPlace) eff = v at hcount hsame
  have hv := hsame.trans hhearth
  refine ⟨(hacts.trans hcount).trans (v.showPlace_shows.acts.mono fun _ => .inr), v.showPlace_hearth.trans hv, fun hle => ?_⟩
  have hplace : v.hearth.place = s.hearth.place := by rw [hv]
  exact hplace ▸ State.showPlace_place (hplace ▸ hle)

end

end Sys2Proof.Machine
end

section
open Sys2Proof Sys2Proof.Machine

set_option Elab.async false

section
variable {s : State} {pin : Nat}

theorem measured_effCap (s : State) (pin : Nat) :
    (s.measured pin).effCap = ({ s with hearth := { s.hearth with lim := s.limitsNow } } : State).effCap := by
  have hkeep : KeepsOutside PowerPlace { s with hearth := { s.hearth with lim := s.limitsNow } } (s.measured pin) :=
    KeepsOutside.trans (.of_regs rfl) (s.measured_acts pin).keeps
  exact hkeep.effCap (fun _ => PowerPlace.not_limit) (by rw [State.measured_hearth]) (by rw [State.measured_hearth])

/-- What a tick has planned, where neither a plan nor a peer limits. -/
theorem planned_hearth (hm : s.rd Reg.PWR_MODE ≠ 0) (hf : s.rd Reg.PWR_PACE_FOLLOW = 0) : (s.measured pin).planned.hearth =
    { s.hearth with pin := (pin :: s.hearth.pin).take 16000, estSum := 0, rawSum := 0, estN := 0,
                    energy := (s.hearth.energy + pin) % 1000, lim := s.limitsNow, plan := 0, follow := 0 } := by
  have hkeep : ∀ f ∈ [Reg.PWR_MODE, Reg.PWR_PACE_FOLLOW], (s.measured pin).rd f = s.rd f := by
    intro f hin
    simp only [List.mem_cons, List.not_mem_nil, or_false] at hin
    refine (s.measured_acts pin).keeps _ _ _ ?_
    obtain rfl | rfl := hin <;> exact not_powerPlace (hc := not_countPlace)
  rw [State.planned_hearth (by rwa [hkeep _ (by simp)]) (by rwa [hkeep _ (by simp)]), State.measured_hearth]

/-- What a tick has planned, where neither a plan nor a peer limits: its reach, Hearth, and the cap in force. -/
structure Planned (s v : State) (pin eff : Nat) : Prop where
  acts : HearthActs PowerPlace s v
  hearth : v.hearth = { s.hearth with
    pin := (pin :: s.hearth.pin).take 16000, estSum := 0, rawSum := 0, estN := 0, energy := (s.hearth.energy + pin) % 1000,
    lim := s.limitsNow, plan := 0, follow := 0 }
  effCap : v.effCap = eff

theorem measured_planned (hm : s.rd Reg.PWR_MODE ≠ 0) (hf : s.rd Reg.PWR_PACE_FOLLOW = 0) :
    Planned s (s.measured pin).planned pin (s.measured pin).effCap where
  acts := (s.measured_acts pin).trans ((State.planned_acts _).mono fun _ => PlanPlace.power)
  hearth := planned_hearth hm hf
  effCap := (State.planned_acts (s.measured pin)).keeps.effCap (fun _ hk => hk.power.not_limit) rfl rfl

end

section
variable {s v : State} {pin eff : Nat}

theorem Planned.thermalPlace (hv : Planned s v pin eff) (h : OnlyCap s) (hthermal : s.hearth.thermal = 0) : v.thermalPlace = 0 := by
  rw [State.thermalPlace, if_neg (sdReq_of_acts h hv.acts.keeps fun _ => PowerPlace.not_limit), hv.hearth, hthermal]

theorem Planned.fewLimits (hv : Planned s v pin eff) (h : OnlyCap s) : FewLimits v := by
  refine FewLimits.of_acts h hv.acts.keeps (fun _ => PowerPlace.not_limit) ?_ ?_ ?_ ?_ <;> rw [hv.hearth]

/-- The controller steps up where power, the last step and the temperatures let it. -/
theorem Planned.stepsUp (hv : Planned s v pin eff) (h : OnlyCap s) (hthermal : s.hearth.thermal = 0) (hpeak : s.hearth.peak = 0)
    (powerOk : Bool) : v.stepsUp powerOk = true ↔
      powerOk = true ∧ 0 < s.hearth.place ∧ s.mayStepUp = true ∧ 500 ≤ s.hearth.coolRun := by
  have hothers := (hv.fewLimits h).others
  have htime : v.timeUs = s.timeUs := by rw [hv.acts.rest]
  have hmay : v.mayStepUp = s.mayStepUp := by rw [State.mayStepUp, State.mayStepUp, htime, hv.hearth]
  rw [hv.thermalPlace h hthermal, hv.hearth] at hothers
  rw [State.stepsUp, hothers, hmay, hv.hearth]
  simp only [hpeak, Bool.and_eq_true, decide_eq_true_eq, Nat.max_self]
  tauto

/-- A tick settles on the place that the controller decides. -/
theorem Planned.wanted (hv : Planned s v pin eff) (h : OnlyCap s) (hthermal : s.hearth.thermal = 0) (hpeak : s.hearth.peak = 0)
    (down powerOk : Bool) : (v.decided down powerOk).wanted = v.decidedPlace down powerOk := by
  obtain ⟨hsudden, hmon, hplan, hfollow, hfloor, hbring⟩ := hv.fewLimits h
  have hfew : FewLimits (v.decided down powerOk) := ⟨hsudden, hmon, hplan, hfollow, hfloor, hbring⟩
  have hthermal' : (v.decided down powerOk).thermalPlace = 0 := hv.thermalPlace h hthermal
  have hpeak' : (v.decided down powerOk).hearth.peak = 0 := by rw [State.decided, hv.hearth, hpeak]
  rw [hfew.wanted, hthermal', hpeak', Nat.max_zero, Nat.max_zero]
  rfl

/-- The place that the controller decides on. -/
theorem Planned.decidedPlace (hv : Planned s v pin eff) (h : OnlyCap s) (hthermal : s.hearth.thermal = 0) (hpeak : s.hearth.peak = 0)
    (down powerOk : Bool) : v.decidedPlace down powerOk ≤ 10 ∧ (down = true → v.decidedPlace down powerOk = min 10 (s.hearth.place + 1)) ∧
      (down = false → (powerOk = true ∧ 0 < s.hearth.place ∧ s.mayStepUp = true ∧ 500 ≤ s.hearth.coolRun) →
        v.decidedPlace down powerOk = s.hearth.place - 1) ∧
      (down = false → ¬ (powerOk = true ∧ 0 < s.hearth.place ∧ s.mayStepUp = true ∧ 500 ≤ s.hearth.coolRun) →
        v.decidedPlace down powerOk = s.hearth.place) := by
  have hup := hv.stepsUp h hthermal hpeak powerOk
  obtain ⟨hcap, hten, -⟩ := h
  have hplace : v.hearth.place = s.hearth.place := by rw [hv.hearth]
  have hheld : v.hearth.capPlace = s.hearth.place := by rw [hv.hearth, hcap]
  rw [State.decidedPlace, hplace, hheld, ← hup]
  cases down <;> cases v.stepsUp powerOk <;> simp <;> omega

end

/-- What a tick leaves: the measurement of `m`, and what settling `u` shows. -/
theorem tick_shows {s m u t : State} {eff q sum n : Nat} (hm : HearthActs PlanPlace m u) (ht : u.settleHearth.tickEnd sum n eff = t)
    (hover : u.hearth.overRun < 99) (hq : u.wanted = q) (hten : q ≤ 10) (heff : u.effCap = eff) (hu : HearthActs PowerPlace s u) :
    HearthActs PowerPlace s t ∧ (∀ f ∈ [Reg.PWR_P_IN, Reg.PWR_P_1MS, Reg.PWR_P_AVG], t.rd f = m.rd f) ∧
      t.rd Reg.PWR_EFF_CAP = eff % 2 ^ 16 ∧ t.hearth.lim = u.hearth.lim ∧ t.hearth.storm = u.hearth.storm ∧ Shows t q := by
  have hsettled := u.settleHearth_hearth
  have hover' : u.settleHearth.hearth.overRun < 99 := by rw [hsettled]; exact hover
  obtain ⟨hend, hhearth, hshows⟩ := State.tickEnd_acts (sum := sum) (n := n) (eff := eff) hover'
  rw [ht] at hend hhearth hshows
  have hplace : u.settleHearth.hearth.place = q := by rw [hsettled, hq]
  have hpower : ∀ k, EndPlace k → PowerPlace k := by
    rintro k (rfl | hk)
    · exact powerPlace_key (by decide)
    · exact hk.settled.power
  refine ⟨(hu.trans (u.settleHearth_acts.mono fun _ => SettledPlace.power)).trans (hend.mono hpower), fun f hf => ?_, ?_, ?_, ?_, ?_⟩
  · simp only [List.mem_cons, List.not_mem_nil, or_false] at hf
    have hplan : ¬ PlanPlace (f.key 0 0) := by
      unfold PlanPlace
      obtain rfl | rfl | rfl := hf <;> decide
    have hset : ¬ SettledPlace (f.key 0 0) := by
      obtain rfl | rfl | rfl := hf <;> exact not_settledPlace (hc := not_countPlace)
    have hends : ¬ EndPlace (f.key 0 0) := by
      refine not_or.mpr ⟨?_, fun hk => hset hk.settled⟩
      obtain rfl | rfl | rfl := hf <;> decide
    rw [hend.keeps _ _ _ hends, u.settleHearth_acts.keeps _ _ _ hset, hm.keeps _ _ _ hplan]
  · have hcount : ¬ CountPlace (Reg.PWR_EFF_CAP.key 0 0) := not_countPlace
    rw [hend.keeps _ _ _ (not_or.mpr ⟨by decide, not_or.mpr ⟨by decide, hcount⟩⟩), u.settleHearth_effCap, heff]
  · rw [hhearth, hsettled]
  · rw [hhearth, hsettled]
  · exact hplace ▸ hshows (by omega)

theorem capControllerSteps : Clause.CapControllerSteps := by
  intro pin upEst s hr h hthermal hpeak hmode hfollow hover p n1 sum1 win eff down up
  have hplanned := measured_planned (s := s) (pin := pin) hmode hfollow
  have hm := (State.planned_acts (s.measured pin))
  have heq := s.capTick_eq pin upEst
  have heff : (s.measured pin).effCap = eff := measured_effCap s pin
  obtain ⟨hin, hms, havg⟩ := s.measured_rd pin
  rw [heff] at hplanned heq
  generalize hv : (s.measured pin).planned = v at hplanned hm heq
  have hdown : s.stepsDown v pin eff = true ↔ down := by
    rw [State.stepsDown, State.showRaw_window, hplanned.hearth]
    simp only [meanAbove, Bool.or_eq_true, Bool.and_eq_true, decide_eq_true_eq]
    exact Iff.rfl
  have hup : s.powerLets pin upEst eff = true ∧ 0 < s.hearth.place ∧ s.mayStepUp = true ∧ 500 ≤ s.hearth.coolRun ↔ up := by
    rw [State.powerLets, State.showRaw_window]
    simp only [meanBelow, Bool.and_eq_true, decide_eq_true_eq, and_assoc]
    exact Iff.rfl
  obtain ⟨hten, hd, hu, hn⟩ := hplanned.decidedPlace h hthermal hpeak (s.stepsDown v pin eff) (s.powerLets pin upEst eff)
  have hwanted := hplanned.wanted h hthermal hpeak (s.stepsDown v pin eff) (s.powerLets pin upEst eff)
  rw [hup] at hu hn
  generalize s.stepsDown v pin eff = b at hdown hd hu hn hwanted heq hten
  generalize s.powerLets pin upEst eff = ok at hd hu hn hwanted heq hten
  have hover' : (v.decided b ok).hearth.overRun < 99 := by rw [State.decided, hplanned.hearth]; exact hover
  obtain ⟨hacts, hkeep, hcap, hlim, hstorm, hshows⟩ := tick_shows (hm.hearth _) heq.symm hover' hwanted hten
    (hplanned.effCap) (hplanned.acts.hearth _)
  refine ⟨_, hacts.exec_eq (g := fun s => s.capTick pin upEst) rfl rfl hr, (hkeep _ (by simp)).trans hin, (hkeep _ (by simp)).trans hms,
    (hkeep _ (by simp)).trans havg, hcap, hlim.trans (congrArg Hearth.lim hplanned.hearth), hstorm, by rw [hacts.rest], by rw [hacts.rest],
    fun hy => ?_, fun hy hz => ?_, fun hy hz => ?_⟩
  · exact hd (hdown.mpr hy) ▸ hshows
  · exact hu (Bool.eq_false_iff.mpr fun hb => hy (hdown.mp hb)) hz ▸ hshows
  · rwa [hn (Bool.eq_false_iff.mpr fun hb => hy (hdown.mp hb)) hz] at hshows

/-- Settles O40: a settled Hearth shows the slowest place that a limit requires, and with the cap controller alone that is the one that it
decides on at its tick; an estimate moves the peak limit and a droop event its die's divider. -/
theorem powerLimits : Obligations.PowerLimits := ⟨capControllerSteps, peakAndDroop⟩

end

section
namespace Sys2Proof.Machine

open Sys2Proof

set_option Elab.async false

/-! PROOFS. Coolant: what a set of readings writes, and the heartbeat, the implied flow and the sudden stop after it. -/

/-- The registers of the coolant: what the tray gives, and what follows from it. -/
def coolantFields : List Field :=
  [Reg.THM_T_IN, Reg.THM_T_OUT, Reg.THM_FLOW, Reg.THM_LEAK, Reg.PWR_TRAYCAP, Reg.PWR_HB_AGE, Reg.PWR_HB_LOST, Reg.THM_FLOW_USED,
   Reg.THM_DERATE_CAP, Reg.THM_SUDDEN]

/-- The places that the coolant's commands write, with what settles after them. -/
def CoolantPlace (k : Nat) : Prop := k ∈ coolantFields.map (fun f => f.key 0 0) ∨ SettledPlace k

theorem coolantPlace_key {f : Field} (h : f ∈ coolantFields) : CoolantPlace (f.key 0 0) := .inl (List.mem_map_of_mem h)

theorem SettledPlace.coolant {k : Nat} (h : SettledPlace k) : CoolantPlace k := .inr h

@[simp] theorem State.trayNote_rd (s : State) (f : Field) (i j : Nat) : s.trayNote.rd f i j = s.rd f i j := State.rd_congr rfl f i j

@[simp] theorem State.trayNote_hearth (s : State) : s.trayNote.hearth = s.hearth := rfl

@[simp] theorem State.protect_rd (s : State) (a : Nat) (f : Field) (i j : Nat) : (s.protect a).rd f i j = s.rd f i j :=
  State.rd_congr (s.protect_regs a) f i j

@[simp] theorem State.protect_hearth (s : State) (a : Nat) : (s.protect a).hearth = s.hearth := by
  unfold State.protect
  split <;> rfl

/-! ### A set of readings -/

section
variable {s u : State}

/-- The readings `v` of the tray, by their index in Table 12-5. -/
def State.showReadings (s : State) (v : Nat → Nat) : State :=
  (((s.wr0 Reg.THM_T_IN (v 0x10)).wr0 Reg.THM_T_OUT (v 0x11)).wr0 Reg.THM_FLOW (v 0x12)).wr0 Reg.THM_LEAK (v 0x13)

/-- The readings, the tray's cap and a new heartbeat. -/
def State.takeReadings (s : State) (v : Nat → Nat) : State :=
  (((((s.count 0x008 2 1).showReadings v).wr0 Reg.PWR_TRAYCAP (if v 0x14 = 0 then 0 else if v 0x14 < 120 then 120 else v 0x14)).wr0
    Reg.PWR_HB_AGE 0).wr0 Reg.PWR_HB_LOST 0).trayNote

/-- The flow that the derate takes: the reported one, or less where the implied one is less, R318. -/
def State.usedFlow (s : State) : Nat := s.impliedFlow.elim (s.rd Reg.THM_FLOW) (fun q => min (s.rd Reg.THM_FLOW) q)

def State.setDerate (s : State) (used : Nat) : State :=
  (s.wr0 Reg.THM_FLOW_USED used).wr0 Reg.THM_DERATE_CAP (derateAt s.derateTable used)

/-- The outlet is noted. -/
def State.noteOutlet (s : State) : State :=
  { s with hearth := { s.hearth with outHist := (s.rd Reg.THM_T_OUT :: s.hearth.outHist).take 100 } }

/-- The flow is too small, or the outlet has risen by more than 2 °C within 1 s, R319. -/
def State.flowStops (s : State) (used : Nat) : Bool :=
  decide (5 * used < s.rd Reg.THM_NOM_FLOW) ||
    s.hearth.outHist[9]?.any (fun b => decide (8 < toSigned 10 (s.rd Reg.THM_T_OUT) - toSigned 10 b))

/-- A stop that has just begun acts. -/
def State.onStop (s : State) (stop : Bool) : State := if stop && !s.hearth.stopOn then s.sudden false else s

/-- A leak that has just begun acts. -/
def State.onLeak (s : State) (leak leaked : Bool) : State := if leak && !leaked then s.sudden true else s

def State.setStop (s : State) (stop : Bool) : State := { s with hearth := { s.hearth with stopOn := stop } }

theorem State.rseq_eq (hup : s.i3cUp = true) (hu : s.takeReadings (fun i => SMap.get 0 s.soh.trayPend i) = u) :
    s.rseq =
      let w := u.setDerate u.usedFlow
      (((w.noteOutlet.onStop (w.flowStops u.usedFlow)).onLeak (w.rd Reg.THM_LEAK == 1) (s.rd Reg.THM_LEAK == 1)).setStop
        (w.flowStops u.usedFlow)).settleHearth := by
  unfold State.rseq
  rw [hup, if_neg (by decide)]
  extract_lets v leaked a b tc c u' flow used w' out before rose h x leak stop y z h2 w
  have hu' : u' = u := hu
  have hleaked : leaked = (s.rd Reg.THM_LEAK == 1) := rfl
  clear_value u' leaked
  subst hu'
  have hx : x = w.noteOutlet := rfl
  have hleak : leak = (w.rd Reg.THM_LEAK == 1) := rfl
  have hstop : stop = w.flowStops u'.usedFlow := rfl
  clear_value x leak stop w
  have hy : y = x.onStop stop := rfl
  clear_value y
  have hz : z = y.onLeak leak leaked := rfl
  clear_value z
  rw [← hleaked, ← hstop, ← hleak, ← hx, ← hy, ← hz]
  rfl

/-- Readings with enough flow and no leak, the first since the history began, stop nothing. -/
theorem State.rseq_of_adequate (hup : s.i3cUp = true) (hu : s.takeReadings (fun i => SMap.get 0 s.soh.trayPend i) = u)
    (hhist : u.hearth.outHist = []) (hleak : u.rd Reg.THM_LEAK = 0) (hflow : u.rd Reg.THM_NOM_FLOW ≤ 5 * u.usedFlow) :
    s.rseq = ((u.setDerate u.usedFlow).noteOutlet.setStop false).settleHearth := by
  have hkeep : ∀ f ∈ [Reg.THM_LEAK, Reg.THM_NOM_FLOW], (u.setDerate u.usedFlow).rd f = u.rd f := by
    intro f hf
    simp only [List.mem_cons, List.not_mem_nil, or_false] at hf
    obtain rfl | rfl := hf <;> simp (disch := decide) only [State.setDerate, State.wr0_eq, State.rd_wr_ne]
  have hstop : (u.setDerate u.usedFlow).flowStops u.usedFlow = false := by
    have hempty : (u.setDerate u.usedFlow).hearth.outHist = [] := hhist
    simp [State.flowStops, hkeep, hempty, hflow]
  rw [State.rseq_eq hup hu]
  simp only [hstop, hkeep Reg.THM_LEAK (by simp), hleak, State.onStop, State.onLeak]
  rfl

/-! ### What a set of readings leaves -/

theorem State.showReadings_acts (s : State) (v : Nat → Nat) : HearthActs CoolantPlace s (s.showReadings v) :=
  ((((HearthActs.refl CoolantPlace s).wr _ (coolantPlace_key (by decide))).wr _ (coolantPlace_key (by decide))).wr _
    (coolantPlace_key (by decide))).wr _ (coolantPlace_key (by decide))

theorem State.takeReadings_acts (s : State) (v : Nat → Nat) : HearthActs CoolantPlace s (s.takeReadings v) := by
  have hcount : HearthActs CoolantPlace s (s.count 0x008 2 1) := (HearthActs.refl _ s).count 1 (settledPlace_count (by decide)).coolant
  exact ((((hcount.trans (State.showReadings_acts _ v)).wr _ (coolantPlace_key (by decide))).wr _ (coolantPlace_key (by decide))).wr _
    (coolantPlace_key (by decide))).trayNote

theorem State.setDerate_acts (s : State) (used : Nat) : HearthActs CoolantPlace s (s.setDerate used) :=
  ((HearthActs.refl CoolantPlace s).wr _ (coolantPlace_key (by decide))).wr _ (coolantPlace_key (by decide))

/-- The registers show the readings. -/
theorem State.showReadings_rd (s : State) (v : Nat → Nat) : (s.showReadings v).rd Reg.THM_T_IN = v 0x10 % 2 ^ 10 ∧
    (s.showReadings v).rd Reg.THM_T_OUT = v 0x11 % 2 ^ 10 ∧ (s.showReadings v).rd Reg.THM_FLOW = v 0x12 % 2 ^ 16 ∧
    (s.showReadings v).rd Reg.THM_LEAK = v 0x13 % 2 ^ 1 ∧ (s.showReadings v).rd Reg.THM_COOL_CP = s.rd Reg.THM_COOL_CP := by
  simp (disch := decide) only [State.showReadings, State.wr0_eq, State.rd_wr_ne, State.rd_wr_self]
  exact ⟨rfl, rfl, rfl, rfl, trivial⟩

theorem State.takeReadings_rd (s : State) (v : Nat → Nat) {f : Field}
    (hf : f.key 0 0 ∉ [Reg.PWR_TRAYCAP, Reg.PWR_HB_AGE, Reg.PWR_HB_LOST].map (fun f => f.key 0 0)) :
    (s.takeReadings v).rd f = ((s.count 0x008 2 1).showReadings v).rd f := by
  simp only [List.map_cons, List.map_nil, List.mem_cons, List.not_mem_nil, or_false, not_or] at hf
  obtain ⟨hcap, hage, hlost⟩ := hf
  rw [State.takeReadings, State.trayNote_rd, State.wr0_eq, State.wr0_eq, State.wr0_eq, State.rd_wr_ne _ _ hlost, State.rd_wr_ne _ _ hage,
    State.rd_wr_ne _ _ hcap]

/-- TRAYCAP and the heartbeat start afresh. -/
theorem State.takeReadings_heartbeat (s : State) (v : Nat → Nat) : (s.takeReadings v).rd Reg.PWR_HB_AGE = 0 ∧
    (s.takeReadings v).rd Reg.PWR_HB_LOST = 0 ∧
    (s.takeReadings v).rd Reg.PWR_TRAYCAP = (if v 0x14 = 0 then 0 else max 120 (v 0x14)) % 2 ^ 9 := by
  have hmax : (if v 0x14 = 0 then 0 else if v 0x14 < 120 then 120 else v 0x14) = if v 0x14 = 0 then 0 else max 120 (v 0x14) := by
    split <;> [rfl; (split <;> omega)]
  simp (disch := decide) only [State.takeReadings, State.trayNote_rd, State.wr0_eq, State.rd_wr_ne, State.rd_wr_self, hmax]
  exact ⟨rfl, rfl, rfl⟩

theorem State.takeReadings_hearth (s : State) (v : Nat → Nat) : (s.takeReadings v).hearth = s.hearth := s.count_hearth 0x008 2 1

/-- The implied flow depends on T_IN, T_OUT, COOL_CP and the measured power alone. -/
theorem State.usedFlow_congr (hin : u.rd Reg.THM_T_IN = s.rd Reg.THM_T_IN) (hout : u.rd Reg.THM_T_OUT = s.rd Reg.THM_T_OUT)
    (hcp : u.rd Reg.THM_COOL_CP = s.rd Reg.THM_COOL_CP) (hflow : u.rd Reg.THM_FLOW = s.rd Reg.THM_FLOW) (hh : u.hearth = s.hearth) :
    u.usedFlow = s.usedFlow := by
  simp only [State.usedFlow, State.impliedFlow, hin, hout, hcp, hflow, hh]

theorem State.takeReadings_usedFlow (s : State) (v : Nat → Nat) : (s.takeReadings v).usedFlow = (s.showReadings v).usedFlow := by
  obtain ⟨hin, hout, hflow, -, hcp⟩ := s.showReadings_rd v
  obtain ⟨hin', hout', hflow', -, hcp'⟩ := (s.count 0x008 2 1).showReadings_rd v
  refine State.usedFlow_congr ?_ ?_ ?_ ?_ (s.takeReadings_hearth v)
  · rw [s.takeReadings_rd v (by decide), hin', hin]
  · rw [s.takeReadings_rd v (by decide), hout', hout]
  · rw [s.takeReadings_rd v (by decide), hcp', hcp, State.rd_count_of_not _ _ (by decide) not_countPlace]
  · rw [s.takeReadings_rd v (by decide), hflow', hflow]

/-- The derate table stands in flash. -/
theorem State.takeReadings_derateTable (s : State) (v : Nat → Nat) : (s.takeReadings v).derateTable = s.derateTable := by
  have hflash : (s.takeReadings v).flash = s.flash := by
    show (s.count 0x008 2 1).flash = s.flash
    rw [s.count_eq]
  rw [State.derateTable, State.derateTable, hflash]

/-- Settling writes no register of the coolant. -/
theorem not_settledPlace_coolant {f : Field} (h : f ∈ coolantFields) : ¬ SettledPlace (f.key 0 0) := by
  simp only [coolantFields, List.mem_cons, List.not_mem_nil, or_false] at h
  obtain rfl | rfl | rfl | rfl | rfl | rfl | rfl | rfl | rfl | rfl := h <;> exact not_settledPlace (hc := not_countPlace)

theorem State.settleHearth_coolant (s : State) {f : Field} (h : f ∈ coolantFields) : s.settleHearth.rd f = s.rd f :=
  s.settleHearth_acts.keeps _ _ _ (not_settledPlace_coolant h)

end

/-! ### The heartbeat, the implied flow and the sudden stop -/

section
variable {s : State}

theorem State.hbLost_of_lost (h : s.rd Reg.PWR_HB_LOST = 1) : s.hbLost = s := if_pos h

/-- The heartbeat is lost, and SAFE_PCT of EFF_CAP is imposed. -/
def State.noteLost (s : State) : State :=
  ((({ s with hearth := { s.hearth with safeCap := s.rd Reg.PWR_EFF_CAP * s.hearth.lim.safePct / 100 } } : State).wr0 Reg.PWR_HB_LOST 1).wr0
    Reg.PWR_HB_AGE (max 2000 (s.rd Reg.PWR_HB_AGE)))

theorem State.hbLost_of_not (h : s.rd Reg.PWR_HB_LOST ≠ 1) : s.hbLost = ((s.noteLost.occur 0x004 4 none 0).trayNote).settleHearth := if_neg h

theorem State.noteLost_acts (s : State) : HearthActs CoolantPlace s s.noteLost :=
  (((HearthActs.refl CoolantPlace s).hearth _).wr _ (coolantPlace_key (by decide))).wr _ (coolantPlace_key (by decide))

theorem State.flowImplaus_of_none (h : s.impliedFlow = none) : s.flowImplaus = s := by rw [State.flowImplaus, h]

theorem State.flowImplaus_of_above {q : Nat} (h : s.impliedFlow = some q) (hq : 13 * q < 10 * s.rd Reg.THM_FLOW) :
    s.flowImplaus = if s.rd Reg.THM_IMPLAUS = 1 then s else (s.wr Reg.THM_IMPLAUS 0 0 1).occur 0x006 6 none 0 := by
  simp only [State.flowImplaus, h, if_pos hq, State.wr0_eq]

theorem State.flowImplaus_of_within {q : Nat} (h : s.impliedFlow = some q) (hq : 10 * s.rd Reg.THM_FLOW ≤ 13 * q) :
    s.flowImplaus = s.wr Reg.THM_IMPLAUS 0 0 0 := by
  simp only [State.flowImplaus, h, if_neg (Nat.not_lt.mpr hq), State.wr0_eq]

/-- The sudden stop ends. -/
def State.endSudden (s : State) : State := (s.wr0 Reg.THM_SUDDEN 0).protect 3

theorem State.endSudden_acts (s : State) : HearthActs CoolantPlace s s.endSudden :=
  ((HearthActs.refl CoolantPlace s).wr 0 (coolantPlace_key (by decide))).protect 3

end

end Sys2Proof.Machine
end

section
open Sys2Proof Sys2Proof.Machine

set_option Elab.async false

section
variable {s : State}

/-- What readings with enough flow and no leak leave in the registers of the coolant. -/
theorem settle_readings {u : State} {used : Nat} (hu : HearthActs CoolantPlace s u) :
    let t := ((u.setDerate used).noteOutlet.setStop false).settleHearth
    HearthActs CoolantPlace s t ∧ t.rd Reg.THM_FLOW_USED = used % 2 ^ 16 ∧ t.rd Reg.THM_DERATE_CAP = derateAt u.derateTable used % 2 ^ 16 ∧
      ∀ f ∈ coolantFields, f ≠ Reg.THM_FLOW_USED → f ≠ Reg.THM_DERATE_CAP → t.rd f = u.rd f := by
  intro t
  have hnote : HearthActs CoolantPlace (u.setDerate used) ((u.setDerate used).noteOutlet.setStop false) :=
    ((HearthActs.refl _ _).hearth _).hearth _
  have hkeep : ∀ f ∈ coolantFields, t.rd f = (u.setDerate used).rd f := fun f hf =>
    (State.settleHearth_coolant _ hf).trans (State.rd_congr rfl f 0 0)
  refine ⟨((hu.trans (u.setDerate_acts used)).trans hnote).trans ((State.settleHearth_acts _).mono fun _ => SettledPlace.coolant), ?_, ?_,
    fun f hf hused hderate => ?_⟩
  · rw [hkeep _ (by decide)]
    simp (disch := decide) only [State.setDerate, State.wr0_eq, State.rd_wr_ne, State.rd_wr_self]
    rfl
  · rw [hkeep _ (by decide)]
    simp only [State.setDerate, State.wr0_eq, State.rd_wr_self]
    rfl
  · have hne : ∀ f ∈ coolantFields, f ≠ Reg.THM_FLOW_USED → f ≠ Reg.THM_DERATE_CAP →
        f.key 0 0 ≠ Reg.THM_FLOW_USED.key 0 0 ∧ f.key 0 0 ≠ Reg.THM_DERATE_CAP.key 0 0 := by decide
    obtain ⟨hone, htwo⟩ := hne f hf hused hderate
    rw [hkeep f hf, State.setDerate, State.wr0_eq, State.wr0_eq, State.rd_wr_ne _ _ htwo, State.rd_wr_ne _ _ hone]

/-- RSEQ applies the tray's readings together and sets the derate. -/
theorem rseqCompletes (hr : s.ready = true) :
    let v := fun i => SMap.get 0 s.soh.trayPend i
    let y := s.showReadings v
    s.i3cUp = true → y.rd Reg.THM_LEAK = 0 → s.rd Reg.THM_NOM_FLOW ≤ 5 * y.usedFlow → s.hearth.outHist = [] → Completes .rseq s (fun t =>
      t.rd Reg.THM_T_IN = v 0x10 % 2 ^ 10 ∧ t.rd Reg.THM_T_OUT = v 0x11 % 2 ^ 10 ∧ t.rd Reg.THM_FLOW = v 0x12 % 2 ^ 16 ∧
      t.rd Reg.THM_LEAK = 0 ∧ t.rd Reg.PWR_HB_AGE = 0 ∧ t.rd Reg.PWR_HB_LOST = 0 ∧
      t.rd Reg.PWR_TRAYCAP = (if v 0x14 = 0 then 0 else max 120 (v 0x14)) % 2 ^ 9 ∧ t.rd Reg.THM_FLOW_USED = y.usedFlow % 2 ^ 16 ∧
      t.rd Reg.THM_DERATE_CAP = derateAt s.derateTable y.usedFlow % 2 ^ 16 ∧ t.rd Reg.THM_SUDDEN = s.rd Reg.THM_SUDDEN) := by
  intro v y hup hleak hflow hhist
  have hu := s.takeReadings_acts v
  obtain ⟨hage, hlost, htray⟩ := s.takeReadings_heartbeat v
  obtain ⟨-, -, -, hdry, -⟩ := s.showReadings_rd v
  obtain ⟨hin, hout, hgot, hdry', -⟩ := (s.count 0x008 2 1).showReadings_rd v
  have hread := fun f => s.takeReadings_rd v (f := f)
  have hnom : (s.takeReadings v).rd Reg.THM_NOM_FLOW = s.rd Reg.THM_NOM_FLOW :=
    hu.keeps _ _ _ (not_or.mpr ⟨by decide, not_settledPlace (hc := not_countPlace)⟩)
  have hsudden : (s.takeReadings v).rd Reg.THM_SUDDEN = s.rd Reg.THM_SUDDEN := by
    rw [hread _ (by decide)]
    simp (disch := decide) only [State.showReadings, State.wr0_eq, State.rd_wr_ne]
    exact State.rd_count_of_not _ _ (by decide) not_countPlace
  have hdryU : (s.takeReadings v).rd Reg.THM_LEAK = 0 := by rw [hread _ (by decide), hdry', ← hdry, hleak]
  have hused := s.takeReadings_usedFlow v
  have heff : s.rseq = _ := State.rseq_of_adequate hup rfl (by rw [State.takeReadings_hearth, hhist]) hdryU
    (by rw [hnom, hused]; exact hflow)
  obtain ⟨hacts, hshown, hderate, hkeep⟩ := settle_readings (used := (s.takeReadings v).usedFlow) hu
  rw [← heff] at hacts hshown hderate hkeep
  rw [hused] at hshown hderate
  refine ⟨_, hacts.exec_eq (g := fun s => s.rseq) rfl rfl hr, ?_, ?_, ?_, ?_, ?_, ?_, ?_, hshown, ?_, ?_⟩
  · rw [hkeep _ (by decide) (by decide) (by decide), hread _ (by decide), hin]
  · rw [hkeep _ (by decide) (by decide) (by decide), hread _ (by decide), hout]
  · rw [hkeep _ (by decide) (by decide) (by decide), hread _ (by decide), hgot]
  · rw [hkeep _ (by decide) (by decide) (by decide), hdryU]
  · rw [hkeep _ (by decide) (by decide) (by decide), hage]
  · rw [hkeep _ (by decide) (by decide) (by decide), hlost]
  · rw [hkeep _ (by decide) (by decide) (by decide), htray]
  · rw [hderate, State.takeReadings_derateTable]
  · rw [hkeep _ (by decide) (by decide) (by decide), hsudden]

/-- Data 2 s old lose the heartbeat. -/
theorem hbLostCompletes (hr : s.ready = true) (h : s.rd Reg.PWR_HB_LOST ≠ 1) (hcls : s.occurClass 0x004 4 ≠ 2) :
    Completes .hbLost s (fun t => t.rd Reg.PWR_HB_LOST = 1 ∧ t.hearth.safeCap = s.rd Reg.PWR_EFF_CAP * s.hearth.lim.safePct / 100 ∧
      bit (t.rd Reg.FLT_STAT 0x004) 4 = 1) := by
  have hnote := s.noteLost_acts
  have hkeep : ∀ f : Field, f.key 4 0 ∉ coolantFields.map (fun f => f.key 0 0) → ¬ SettledPlace (f.key 4 0) → s.noteLost.rd f 4 = s.rd f 4 :=
    fun f hf hs => hnote.keeps _ _ _ (not_or.mpr ⟨hf, hs⟩)
  have hcls' : s.noteLost.occurClass 0x004 4 ≠ 2 := by
    have hclass : ¬ SettledPlace (Reg.FLT_CLASS.key 4 0) := not_or.mpr ⟨by decide, not_or.mpr ⟨by decide, not_countPlace_class⟩⟩
    rwa [State.occurClass_congr (hkeep _ (by decide) (not_settledPlace_stat (by decide))) (hkeep _ (by decide) hclass)]
  have hocc := State.occur_keeps none 0 hcls'
  have hacts : HearthActs (fun k => HeaderPlace k ∨ CoolantPlace k) s s.hbLost := by
    rw [State.hbLost_of_not h]
    exact (((hnote.mono fun _ => .inr).occur none 0 hcls' fun _ => .inl).trayNote).trans
      ((State.settleHearth_acts _).mono fun _ hk => .inr hk.coolant)
  refine ⟨_, hacts.exec_eq (g := fun s => s.hbLost) rfl rfl hr, ?_⟩
  rw [State.hbLost_of_not h]
  refine ⟨?_, ?_, ?_⟩
  · rw [State.settleHearth_coolant _ (by decide), State.trayNote_rd, hocc _ _ _ not_headerPlace, State.noteLost]
    simp (disch := decide) only [State.wr0_eq, State.rd_wr_ne, State.rd_wr_self]
    rfl
  · rw [State.settleHearth_hearth, State.trayNote_hearth, State.occur_hearth]
    rfl
  · rw [(State.settleHearth_acts _).keeps _ _ _ (not_settledPlace_stat (by decide)), State.trayNote_rd]
    exact State.occur_stat none 0 hcls' (by decide) (by decide)

/-- A reported flow above the implied one. -/
theorem flowImplausCompletes (hr : s.ready = true) {q : Nat} (h : s.impliedFlow = some q) (hq : 13 * q < 10 * s.rd Reg.THM_FLOW)
    (h1 : s.rd Reg.THM_IMPLAUS ≠ 1) (hcls : s.occurClass 0x006 6 ≠ 2) :
    Completes .flowImplaus s (fun t => t.rd Reg.THM_IMPLAUS = 1 ∧ bit (t.rd Reg.FLT_STAT 0x006) 6 = 1) := by
  have heff := (State.flowImplaus_of_above h hq).trans (if_neg h1)
  have hcls' : (s.wr Reg.THM_IMPLAUS 0 0 1).occurClass 0x006 6 ≠ 2 := by
    rwa [State.occurClass_congr (State.rd_wr_ne _ _ (by decide)) (State.rd_wr_ne _ _ (by decide))]
  have hacts : HearthActs (fun k => k = Reg.THM_IMPLAUS.key 0 0 ∨ HeaderPlace k) s ((s.wr Reg.THM_IMPLAUS 0 0 1).occur 0x006 6 none 0) :=
    ((HearthActs.refl _ s).wr 1 (.inl rfl)).occur none 0 hcls' fun _ => .inr
  refine ⟨_, HearthActs.exec_eq (g := fun s => s.flowImplaus) (heff ▸ hacts) rfl rfl hr, ?_⟩
  simp only [heff]
  exact ⟨by rw [State.occur_keeps none 0 hcls' _ _ _ not_headerPlace, State.rd_wr_self]; rfl,
    State.occur_stat none 0 hcls' (by decide) (by decide)⟩

/-- A reported flow within 30 % of the implied one. -/
theorem flowPlausCompletes (hr : s.ready = true) {q : Nat} (h : s.impliedFlow = some q) (hq : 10 * s.rd Reg.THM_FLOW ≤ 13 * q) :
    Completes .flowImplaus s (fun t => t.rd Reg.THM_IMPLAUS = 0 ∧ RegsOnly s t [Reg.THM_IMPLAUS.key 0 0]) := by
  have heff := State.flowImplaus_of_within h hq
  have hwr : HearthActs (· ∈ [Reg.THM_IMPLAUS.key 0 0]) s (s.wr Reg.THM_IMPLAUS 0 0 0) := (HearthActs.refl _ s).wr 0 (by simp)
  refine ⟨_, HearthActs.exec_eq (g := fun s => s.flowImplaus) (heff ▸ hwr) rfl rfl hr, ?_⟩
  simp only [heff]
  exact ⟨State.rd_wr_self .., hwr.keeps, rfl⟩

theorem suddenReleaseCompletes (hr : s.ready = true) (h : s.rd Reg.THM_SUDDEN = 1 ∧ 40 * s.rd Reg.THM_NOM_FLOW ≤ 100 * s.rd Reg.THM_FLOW_USED ∧
      s.rd Reg.THM_LEAK = 0 ∧ stableOutlet s.hearth.outHist = true) :
    Completes .suddenRelease s (fun t => t.rd Reg.THM_SUDDEN = 0 ∧ t.larder = s.larder) := by
  have heff : s.suddenRelease = s.endSudden.settleHearth := if_pos h
  have hacts := s.endSudden_acts.trans ((State.settleHearth_acts _).mono fun _ => SettledPlace.coolant)
  rw [← heff] at hacts
  refine ⟨_, hacts.exec_eq (g := fun s => s.suddenRelease) rfl rfl hr, ?_, by rw [hacts.rest]⟩
  rw [heff, State.settleHearth_coolant _ (by decide), State.endSudden, State.protect_rd, State.wr0_eq, State.rd_wr_self]
  rfl

end

/-- Settles O42: with readings that stop nothing, RSEQ writes registers of the coolant alone and settles; the other commands act on their
condition, or leave the state as it is. -/
theorem coolant : Obligations.Coolant := by
  intro s hr
  refine ⟨fun hup => exec_eq_self (g := fun s => s.rseq) rfl rfl hr (if_pos (by rw [hup]; rfl)), rseqCompletes hr,
    fun h => exec_eq_self (g := fun s => s.hbLost) rfl rfl hr (State.hbLost_of_lost h), hbLostCompletes hr,
    fun h => exec_eq_self (g := fun s => s.flowImplaus) rfl rfl hr (State.flowImplaus_of_none h),
    fun q h => ⟨fun hq h1 => ?_, flowImplausCompletes hr h, flowPlausCompletes hr h⟩, suddenReleaseCompletes hr,
    fun h => exec_eq_self (g := fun s => s.suddenRelease) rfl rfl hr (if_neg h)⟩
  exact exec_eq_self (g := fun s => s.flowImplaus) rfl rfl hr ((State.flowImplaus_of_above h hq).trans (if_pos h1))

end

section
namespace Sys2Proof.Machine

open Sys2Proof

set_option Elab.async false

/-! PROOFS. The marks of the 106 sensors: where they stand, what sets and clears them. -/

/-! ### The mark of a sensor -/

/-- The field of the failed mark of sensor `i`. -/
def sensorMark (i : Nat) : Field :=
  if i < 64 then (if i % 2 = 0 then Reg.THM_FAIL_A else Reg.THM_FAIL_B)
  else if i < 88 then (if i % 2 = 0 then Reg.THM_STK_FAIL_A else Reg.THM_STK_FAIL_B)
  else Reg.THM_OPT_FAIL

/-- The element of that field. -/
def sensorSpot (i : Nat) : Nat := if i < 64 then i / 2 else if i < 88 then (i - 64) / 2 else i - 88

theorem sensorMark_key (i : Nat) : (sensorMark i).key 0 (sensorSpot i) =
    if i < 64 then (0x6200 + 4 * (i / 2)) * 32 + 20 + i % 2
    else if i < 88 then (0x6300 + 4 * ((i - 64) / 2)) * 32 + 20 + i % 2
    else (0x6340 + 4 * (i - 88)) * 32 + 10 := by
  unfold sensorMark sensorSpot
  split_ifs <;>
    simp only [Field.key, Reg.THM_FAIL_A, Reg.THM_FAIL_B, Reg.THM_STK_FAIL_A, Reg.THM_STK_FAIL_B, Reg.THM_OPT_FAIL, Block.base] <;> omega

/-- No two sensors share a mark. -/
theorem sensorMark_key_inj {i j : Nat} (hi : i < 106) (hj : j < 106)
    (h : (sensorMark i).key 0 (sensorSpot i) = (sensorMark j).key 0 (sensorSpot j)) : i = j := by
  rw [sensorMark_key, sensorMark_key] at h
  split_ifs at h <;> omega

theorem sensorMark_place {i : Nat} (hi : i < 106) : SensorPlace ((sensorMark i).key 0 (sensorSpot i)) := by
  rw [sensorMark_key, SensorPlace]
  split_ifs <;> omega

theorem sensorMark_width (i : Nat) : (sensorMark i).width = 1 := by
  unfold sensorMark
  split_ifs <;> rfl

theorem sensorMark_block (i : Nat) : (sensorMark i).block = .thm := by
  unfold sensorMark
  split_ifs <;> rfl

section
variable {K : Nat → Prop} {s u : State} {i j : Nat}

theorem State.sensorFailed_eq (s : State) (i : Nat) : s.sensorFailed i = (s.rd (sensorMark i) 0 (sensorSpot i) == 1) := by
  unfold State.sensorFailed sensorMark sensorSpot
  split_ifs <;> rfl

theorem State.setSensorFailed_eq (s : State) (i : Nat) (b : Bool) :
    s.setSensorFailed i b = s.wrB (sensorMark i) 0 (sensorSpot i) b := by
  unfold State.setSensorFailed sensorMark sensorSpot
  split_ifs <;> rfl

@[simp] theorem State.setSensorFailed_hearth (s : State) (i : Nat) (b : Bool) : (s.setSensorFailed i b).hearth = s.hearth := by
  rw [State.setSensorFailed_eq, State.wrB_eq, State.wr_hearth]

@[simp] theorem State.sensorFailed_set_self (s : State) (i : Nat) (b : Bool) : (s.setSensorFailed i b).sensorFailed i = b := by
  rw [State.setSensorFailed_eq, State.wrB_eq, State.sensorFailed_eq, State.rd_wr_self, sensorMark_width]
  cases b <;> rfl

theorem State.sensorFailed_set_ne (s : State) (b : Bool) (hi : i < 106) (hj : j < 106) (h : j ≠ i) :
    (s.setSensorFailed i b).sensorFailed j = s.sensorFailed j := by
  rw [State.setSensorFailed_eq, State.wrB_eq, State.sensorFailed_eq, State.sensorFailed_eq, State.rd_wr_ne]
  exact fun hk => h (sensorMark_key_inj hj hi hk)

/-- What happens outside the sensors' registers leaves the marks. -/
theorem KeepsOutside.sensorFailed (h : KeepsOutside K s u) (hk : ∀ k, K k → ¬ SensorPlace k) (hi : i < 106) :
    u.sensorFailed i = s.sensorFailed i := by
  rw [State.sensorFailed_eq, State.sensorFailed_eq, h _ _ _ fun hin => hk _ hin (sensorMark_place hi)]

theorem State.setSensorFailed_acts (s : State) (b : Bool) (hi : i < 106) : HearthActs SensorPlace s (s.setSensorFailed i b) := by
  rw [State.setSensorFailed_eq, State.wrB_eq]
  exact (HearthActs.refl _ s).wr _ (sensorMark_place hi) (by rw [sensorMark_block]; decide)

end

theorem HeaderPlace.not_sensor {k : Nat} (h : HeaderPlace k) : ¬ SensorPlace k := fun hs => LimitPlace.not_header (.inl hs) h

theorem SettledPlace.not_sensor {k : Nat} (h : SettledPlace k) : ¬ SensorPlace k := fun hs => h.not_limit (.inl hs)

/-- Settling leaves the marks. -/
theorem State.settleHearth_sensorFailed (s : State) {i : Nat} (hi : i < 106) : s.settleHearth.sensorFailed i = s.sensorFailed i :=
  s.settleHearth_acts.keeps.sensorFailed (fun _ => SettledPlace.not_sensor) hi

/-! ### Disagreement -/

section
variable {s : State} {n : Nat}

theorem disagree_place (hn : n < 32) : ¬ HeaderPlace (Reg.THM_DISAGREE.key 0 n) :=
  not_headerPlace (by simp only [Reg.THM_DISAGREE]; omega)

theorem State.sensorDisagree_of_apart (h : 16 < (s.sensor (2 * n) - s.sensor (2 * n + 1)).natAbs) : s.sensorDisagree n =
    if s.rdB Reg.THM_DISAGREE 0 n then s else ((s.wr Reg.THM_DISAGREE 0 n 1).occur 0x006 3 none 0).count 0x006 2 1 := if_pos h

theorem State.sensorDisagree_of_close (h : (s.sensor (2 * n) - s.sensor (2 * n + 1)).natAbs ≤ 16) :
    s.sensorDisagree n = s.wr Reg.THM_DISAGREE 0 n 0 := if_neg (Nat.not_lt.mpr h)

end

/-! ### Failing and return -/

section
variable {s : State} {i : Nat}

theorem twinOf_lt (h : i < 88) : twinOf i < 106 ∧ twinOf i ≠ i := by
  unfold twinOf
  split <;> omega

theorem State.sensorFail_of_plausible {expT : Int} (h : s.implausible i expT = false) : s.sensorFail i expT = s := by
  simp [State.sensorFail, h]

theorem State.sensorFail_of_failed {expT : Int} (h : s.sensorFailed i = true) : s.sensorFail i expT = s := by
  simp [State.sensorFail, h]

/-- A sensor whose twin is well is marked, and no region is lost. -/
theorem State.sensorFail_of_implausible {expT : Int} (hi : i < 88) (h : s.implausible i expT = true) (hs : s.sensorFailed i = false)
    (ht : ((s.setSensorFailed i true).occur 0x006 4 none 0).sensorFailed (twinOf i) = false) :
    s.sensorFail i expT = ((s.setSensorFailed i true).occur 0x006 4 none 0).settleHearth := by
  have hcond : (decide (i < 106) && !s.sensorFailed i && s.implausible i expT) = true := by simp [h, hs]; omega
  unfold State.sensorFail
  rw [if_pos hcond]
  simp only [if_pos hi, ht, Bool.false_eq_true, if_false]

/-- Sensor `i` is admitted again where it has read well for 10 s. -/
def State.readmitOne (s : State) (i : Nat) : State :=
  if s.sensorFailed i && decide (100000 ≤ SMap.get 0 s.hearth.goodRun i) then s.setSensorFailed i false else s

theorem State.sensClr_eq (s : State) : s.sensClr = ((List.range 106).foldl State.readmitOne s).settleHearth := rfl

@[simp] theorem State.readmitOne_hearth (s : State) (i : Nat) : (s.readmitOne i).hearth = s.hearth := by
  unfold State.readmitOne
  split
  · exact s.setSensorFailed_hearth i false
  · rfl

theorem State.readmitOne_acts (s : State) (hi : i < 106) : HearthActs SensorPlace s (s.readmitOne i) :=
  .ite _ (fun _ => s.setSensorFailed_acts false hi) fun _ => .refl _ s

theorem State.readmitOne_self (s : State) (i : Nat) :
    (s.readmitOne i).sensorFailed i = (s.sensorFailed i && !decide (100000 ≤ SMap.get 0 s.hearth.goodRun i)) := by
  unfold State.readmitOne
  cases hs : s.sensorFailed i <;> by_cases hg : 100000 ≤ SMap.get 0 s.hearth.goodRun i <;> simp [hs, hg]

theorem State.readmitOne_ne (s : State) {j : Nat} (hi : i < 106) (hj : j < 106) (h : j ≠ i) : (s.readmitOne i).sensorFailed j = s.sensorFailed j := by
  unfold State.readmitOne
  split
  · exact s.sensorFailed_set_ne false hi hj h
  · rfl

/-- Admitting the first `n` sensors admits those of them that have read well. -/
theorem State.readmitOne_range (s : State) (n : Nat) (hn : n ≤ 106) : ((List.range n).foldl State.readmitOne s).hearth = s.hearth ∧
    ∀ j < 106, ((List.range n).foldl State.readmitOne s).sensorFailed j =
      if j < n then s.sensorFailed j && !decide (100000 ≤ SMap.get 0 s.hearth.goodRun j) else s.sensorFailed j := by
  induction n with
  | zero => exact ⟨rfl, fun j _ => rfl⟩
  | succ n ih =>
    obtain ⟨hhearth, hfailed⟩ := ih (by omega)
    rw [List.range_succ, List.foldl_append, List.foldl_cons, List.foldl_nil]
    refine ⟨(State.readmitOne_hearth _ n).trans hhearth, fun j hj => ?_⟩
    by_cases hjn : j = n
    · subst hjn
      rw [State.readmitOne_self, hhearth, hfailed j hj, if_neg (Nat.lt_irrefl j), if_pos (Nat.lt_succ_self j)]
    · rw [State.readmitOne_ne _ (by omega) hj hjn, hfailed j hj]
      exact if_congr (by omega) rfl rfl

end

end Sys2Proof.Machine
end
section
open Sys2Proof Sys2Proof.Machine

set_option Elab.async false

section
variable {s : State}

/-- Paired readings set DISAGREE, or clear it. -/
theorem sensorDisagreeCompletes (hr : s.ready = true) {n : Nat} (hn : n < 32) : let apart := (s.sensor (2 * n) - s.sensor (2 * n + 1)).natAbs
    (16 < apart → s.rd Reg.THM_DISAGREE 0 n = 1 → exec (.sensorDisagree n) s = .next s) ∧
    (16 < apart → s.rd Reg.THM_DISAGREE 0 n ≠ 1 → s.occurClass 0x006 3 ≠ 2 → Completes (.sensorDisagree n) s (fun t =>
      t.rd Reg.THM_DISAGREE 0 n = 1 ∧ bit (t.rd Reg.FLT_STAT 0x006) 3 = 1 ∧ t.hearth = s.hearth)) ∧
    (apart ≤ 16 → Completes (.sensorDisagree n) s (fun t =>
      t.rd Reg.THM_DISAGREE 0 n = 0 ∧ RegsOnly s t [Reg.THM_DISAGREE.key 0 n])) := by
  intro apart
  have hplace := disagree_place hn
  have hwr : ∀ v, HearthActs (· ∈ [Reg.THM_DISAGREE.key 0 n]) s (s.wr Reg.THM_DISAGREE 0 n v) := fun v => (HearthActs.refl _ s).wr v (by simp)
  refine ⟨fun h h1 => ?_, fun h h1 hcls => ?_, fun h => ?_⟩
  · refine exec_eq_self (g := fun s => s.sensorDisagree n) rfl (decide_eq_true hn) hr ?_
    rw [State.sensorDisagree_of_apart h, State.rdB_eq, h1]
    rfl
  · have heff : s.sensorDisagree n = ((s.wr Reg.THM_DISAGREE 0 n 1).occur 0x006 3 none 0).count 0x006 2 1 := by
      rw [State.sensorDisagree_of_apart h, State.rdB_eq, if_neg (by simpa using h1)]
    have hcls' : (s.wr Reg.THM_DISAGREE 0 n 1).occurClass 0x006 3 ≠ 2 := by
      have hkeep : ∀ f : Field, HeaderPlace (f.key 6 0) → (s.wr Reg.THM_DISAGREE 0 n 1).rd f 6 = s.rd f 6 := fun f hf =>
        State.rd_wr_ne _ _ fun he => hplace (he ▸ hf)
      rwa [State.occurClass_congr (hkeep _ (.inl (by decide))) (hkeep _ (.inl (by decide)))]
    have hocc := State.occur_keeps none 0 hcls'
    have hacts : HearthActs (fun k => k ∈ [Reg.THM_DISAGREE.key 0 n] ∨ HeaderPlace k) s (s.sensorDisagree n) := by
      rw [heff]
      exact (((hwr 1).mono fun _ => .inl).occur none 0 hcls' fun _ => .inr).count 1 (.inr (countPlace_count _ (by decide)).header)
    refine ⟨_, hacts.exec_eq (g := fun s => s.sensorDisagree n) rfl (decide_eq_true hn) hr, ?_⟩
    rw [heff]
    refine ⟨?_, ?_, ?_⟩
    · rw [State.rd_count_of_not _ _ (by decide) fun hc => hplace hc.header, hocc _ _ _ hplace, State.rd_wr_self]
      rfl
    · rw [State.rd_count_of_not _ _ (by decide) (not_countPlace_stat (by decide))]
      exact State.occur_stat none 0 hcls' (by decide) (by decide)
    · rw [State.count_hearth, State.occur_hearth, State.wr_hearth]
  · have heff := State.sensorDisagree_of_close h
    refine ⟨_, HearthActs.exec_eq (g := fun s => s.sensorDisagree n) (heff ▸ hwr 0) rfl (decide_eq_true hn) hr, ?_⟩
    simp only [heff]
    exact ⟨State.rd_wr_self .., (hwr 0).keeps, rfl⟩

/-- An implausible sensor is marked failed, and no other. -/
theorem sensorFailCompletes (hr : s.ready = true) {i : Nat} {expT : Int} (hi : i < 88) (h : s.implausible i expT = true)
    (hs : s.sensorFailed i = false) (ht : s.sensorFailed (twinOf i) = false) (hcls : s.occurClass 0x006 4 ≠ 2) :
    Completes (.sensorFail i expT) s (fun t => t.sensorFailed i = true ∧ (∀ j < 106, j ≠ i → t.sensorFailed j = s.sensorFailed j) ∧
      bit (t.rd Reg.FLT_STAT 0x006) 4 = 1) := by
  have hin : i < 106 := by omega
  have hset := s.setSensorFailed_acts true hin
  have hcls' : (s.setSensorFailed i true).occurClass 0x006 4 ≠ 2 := by
    have hkeep : ∀ f : Field, HeaderPlace (f.key 6 0) → (s.setSensorFailed i true).rd f 6 = s.rd f 6 := fun f hf =>
      hset.keeps _ _ _ hf.not_sensor
    rwa [State.occurClass_congr (hkeep _ (.inl (by decide))) (hkeep _ (.inl (by decide)))]
  have hocc : ∀ j < 106, ((s.setSensorFailed i true).occur 0x006 4 none 0).sensorFailed j = (s.setSensorFailed i true).sensorFailed j :=
    fun j hj => (State.occur_keeps none 0 hcls').sensorFailed (fun _ => HeaderPlace.not_sensor) hj
  obtain ⟨htwin, hne⟩ := twinOf_lt hi
  have heff := State.sensorFail_of_implausible hi h hs (by rw [hocc _ htwin, State.sensorFailed_set_ne _ _ hin htwin hne, ht])
  have hacts : HearthActs (fun k => SensorPlace k ∨ HeaderPlace k ∨ SettledPlace k) s (s.sensorFail i expT) := by
    rw [heff]
    exact ((hset.mono fun _ => .inl).occur none 0 hcls' fun _ hk => .inr (.inl hk)).trans
      ((State.settleHearth_acts _).mono fun _ hk => .inr (.inr hk))
  refine ⟨_, hacts.exec_eq (g := fun s => s.sensorFail i expT) rfl (decide_eq_true hin) hr, ?_⟩
  rw [heff]
  refine ⟨?_, fun j hj hji => ?_, ?_⟩
  · rw [State.settleHearth_sensorFailed _ hin, hocc i hin, State.sensorFailed_set_self]
  · rw [State.settleHearth_sensorFailed _ hj, hocc j hj, State.sensorFailed_set_ne _ _ hin hj hji]
  · rw [(State.settleHearth_acts _).keeps _ _ _ (not_settledPlace_stat (by decide))]
    exact State.occur_stat none 0 hcls' (by decide) (by decide)

/-- SENS_CLR admits the failed sensors that have read well for 10 s. -/
theorem sensClrCompletes (hr : s.ready = true) {ag : Agent} (hm : s.mayWrite ag 0x006 = true) : Completes (.sensClr ag) s (fun t =>
    ∀ i < 106, t.sensorFailed i = (s.sensorFailed i && !decide (100000 ≤ SMap.get 0 s.hearth.goodRun i))) := by
  have hacts : HearthActs (fun k => SensorPlace k ∨ SettledPlace k) (s.dropLatch ag) (s.dropLatch ag).sensClr :=
    ((HearthActs.foldl State.readmitOne (List.range 106) (fun u _ hi => u.readmitOne_acts (List.mem_range.mp hi)) (s.dropLatch ag)).mono
      fun _ => .inl).trans ((State.settleHearth_acts _).mono fun _ => .inr)
  refine ⟨_, exec_eq_of_mayWrite (b := .thm) (inst := 0) (g := fun s => s.sensClr) rfl id hr (by decide) hm (hacts.calm (s.ready_iff.mp hr).2)
    (by rw [hacts.rest]; rfl), fun i hi => ?_⟩
  show (s.dropLatch ag).sensClr.sensorFailed i = _
  obtain ⟨-, hfailed⟩ := (s.dropLatch ag).readmitOne_range 106 le_rfl
  rw [State.sensClr_eq, State.settleHearth_sensorFailed _ hi, hfailed i hi, if_pos hi]
  rfl

end

theorem sensorsFailAndReturn : Clause.SensorsFailAndReturn := by
  intro s hr
  refine ⟨fun n hn => sensorDisagreeCompletes hr hn, fun i hi expT => ⟨fun h => ?_, fun h => ?_, fun hlt h hs ht hcls =>
    sensorFailCompletes hr hlt h hs ht hcls⟩, fun ag hm => sensClrCompletes hr hm⟩
  · exact exec_eq_self (g := fun s => s.sensorFail i expT) rfl (decide_eq_true hi) hr (State.sensorFail_of_plausible h)
  · exact exec_eq_self (g := fun s => s.sensorFail i expT) rfl (decide_eq_true hi) hr (State.sensorFail_of_failed h)

end

section
namespace Sys2Proof.Machine

open Sys2Proof

set_option Elab.async false

/-! PROOFS. A sample of the sensors: what it stores, what it reads from the stored readings, and the stages that follow. -/

/-! ### Storing the readings -/

/-- The registers of the readings: beside marks in the same words. -/
def ReadingPlace (k : Nat) : Prop := SensorPlace k ∧ (k % 32 = 0 ∨ k % 32 = 10 ∧ k < 0x6340 * 32)

section
variable {s u : State} {n : Nat}

/-- The pair of readings of hot spot `n`. -/
def State.storePair (t : List Nat) (s : State) (n : Nat) : State :=
  (s.wr Reg.THM_TA 0 n (t.getD (2 * n) 0x200)).wr Reg.THM_TB 0 n (t.getD (2 * n + 1) 0x200)

/-- The pair of readings of stack `n`. -/
def State.storeStack (t : List Nat) (s : State) (n : Nat) : State :=
  (s.wr Reg.THM_STK_TA 0 n (t.getD (64 + 2 * n) 0x200)).wr Reg.THM_STK_TB 0 n (t.getD (65 + 2 * n) 0x200)

def State.storeOptical (t : List Nat) (s : State) (k : Nat) : State := s.wr Reg.THM_OPT_T 0 k (t.getD (88 + k) 0x200)

theorem State.storeTemps_eq (s : State) (t : List Nat) : s.storeTemps t =
    (List.range 18).foldl (State.storeOptical t) ((List.range 12).foldl (State.storeStack t) ((List.range 32).foldl (State.storePair t) s)) :=
  rfl

theorem State.storePair_acts (s : State) (t : List Nat) (hn : n < 32) : HearthActs ReadingPlace s (s.storePair t n) := by
  refine ((HearthActs.refl ReadingPlace s).wr _ ?_).wr _ ?_ <;>
    simp only [ReadingPlace, SensorPlace, Field.key, Reg.THM_TA, Reg.THM_TB, Block.base] <;> omega

/-- The registers of stacks and optical engines. -/
def StackPlace (k : Nat) : Prop := ReadingPlace k ∧ 0x6300 * 32 ≤ k

theorem State.storeStack_acts (s : State) (t : List Nat) (hn : n < 12) : HearthActs StackPlace s (s.storeStack t n) := by
  refine ((HearthActs.refl StackPlace s).wr _ ?_).wr _ ?_ <;>
    simp only [StackPlace, ReadingPlace, SensorPlace, Field.key, Reg.THM_STK_TA, Reg.THM_STK_TB, Block.base] <;> omega

theorem State.storeOptical_acts (s : State) (t : List Nat) (hn : n < 18) : HearthActs StackPlace s (s.storeOptical t n) := by
  refine (HearthActs.refl StackPlace s).wr _ ?_
  simp only [StackPlace, ReadingPlace, SensorPlace, Field.key, Reg.THM_OPT_T, Block.base]
  omega

theorem State.storeTemps_after_pairs (s : State) (t : List Nat) :
    HearthActs StackPlace ((List.range 32).foldl (State.storePair t) s) (s.storeTemps t) := by
  rw [State.storeTemps_eq]
  exact (HearthActs.foldl _ _ (fun u _ hi => u.storeStack_acts t (List.mem_range.mp hi)) _).trans
    (HearthActs.foldl _ _ (fun u _ hi => u.storeOptical_acts t (List.mem_range.mp hi)) _)

theorem State.storeTemps_acts (s : State) (t : List Nat) : HearthActs ReadingPlace s (s.storeTemps t) :=
  (HearthActs.foldl _ _ (fun u _ hi => u.storePair_acts t (List.mem_range.mp hi)) s).trans
    ((s.storeTemps_after_pairs t).mono fun _ hk => hk.1)

theorem foldl_hearth {g : State → Nat → State} (hg : ∀ u n, (g u n).hearth = u.hearth) (l : List Nat) (s : State) :
    (l.foldl g s).hearth = s.hearth := by
  induction l generalizing s with
  | nil => rfl
  | cons x l ih => rw [List.foldl_cons, ih, hg]

@[simp] theorem State.storeTemps_hearth (s : State) (t : List Nat) : (s.storeTemps t).hearth = s.hearth := by
  rw [State.storeTemps_eq, foldl_hearth (g := State.storeOptical t) fun _ _ => rfl, foldl_hearth (g := State.storeStack t) fun _ _ => rfl,
    foldl_hearth (g := State.storePair t) fun _ _ => rfl]

/-- The registers of spot `n` hold what the sample gives for it. -/
def State.HoldsPair (s : State) (t : List Nat) (n : Nat) : Prop :=
  s.rd Reg.THM_TA 0 n = t.getD (2 * n) 0x200 % 1024 ∧ s.rd Reg.THM_TB 0 n = t.getD (2 * n + 1) 0x200 % 1024

theorem pair_key (n : Nat) : Reg.THM_TA.key 0 n = (0x6200 + 4 * n) * 32 ∧ Reg.THM_TB.key 0 n = (0x6200 + 4 * n) * 32 + 10 := by
  constructor
  · simp only [Field.key, Reg.THM_TA, Block.base]
    omega
  · simp only [Field.key, Reg.THM_TB, Block.base]

theorem State.storePair_holds (s : State) (t : List Nat) (n : Nat) : (s.storePair t n).HoldsPair t n := by
  obtain ⟨ha, hb⟩ := pair_key n
  refine ⟨?_, State.rd_wr_self ..⟩
  rw [State.storePair, State.rd_wr_ne _ _ (by omega), State.rd_wr_self]
  rfl

theorem State.storePair_keeps (s : State) (t : List Nat) {m : Nat} (h : m ≠ n) (hm : s.HoldsPair t m) : (s.storePair t n).HoldsPair t m := by
  obtain ⟨ha, hb⟩ := hm
  obtain ⟨hna, hnb⟩ := pair_key n
  obtain ⟨hma, hmb⟩ := pair_key m
  constructor
  · rw [State.storePair, State.rd_wr_ne _ _ (by omega), State.rd_wr_ne _ _ (by omega), ha]
  · rw [State.storePair, State.rd_wr_ne _ _ (by omega), State.rd_wr_ne _ _ (by omega), hb]

theorem State.storePairs_hold (s : State) (t : List Nat) (n : Nat) : ∀ m < n, ((List.range n).foldl (State.storePair t) s).HoldsPair t m := by
  induction n with
  | zero => exact fun m hm => absurd hm (Nat.not_lt_zero m)
  | succ n ih =>
    intro m hm
    rw [List.range_succ, List.foldl_append, List.foldl_cons, List.foldl_nil]
    by_cases h : m = n
    · subst h
      exact State.storePair_holds _ t m
    · exact State.storePair_keeps _ t h (ih m (by omega))

/-- A state that keeps the readings of spot `m` holds them. -/
theorem State.HoldsPair.of_keeps {K : Nat → Prop} {t : List Nat} (hs : s.HoldsPair t n) (h : KeepsOutside K s u)
    (ha : ¬ K (Reg.THM_TA.key 0 n)) (hb : ¬ K (Reg.THM_TB.key 0 n)) : u.HoldsPair t n :=
  ⟨(h _ _ _ ha).trans hs.1, (h _ _ _ hb).trans hs.2⟩

theorem State.storeTemps_hold (s : State) (t : List Nat) (hn : n < 32) : (s.storeTemps t).HoldsPair t n := by
  obtain ⟨ha, hb⟩ := pair_key n
  refine (s.storePairs_hold t 32 n hn).of_keeps (s.storeTemps_after_pairs t).keeps ?_ ?_ <;> rintro ⟨-, hk⟩ <;> omega

end

/-! ### What the readings tell -/

section
variable {K : Nat → Prop} {s u : State}

theorem hotReadings_congr (h : KeepsOutside K s u) (hk : ∀ k, K k → ¬ SensorPlace k) {n : Nat} (hn : n < 32) :
    u.hotReadings n = s.hotReadings n := by
  have hkeep : ∀ f ∈ [Reg.THM_TA, Reg.THM_TB, Reg.THM_FAIL_A, Reg.THM_FAIL_B], u.rd f 0 n = s.rd f 0 n ∧ u.rdB f 0 n = s.rdB f 0 n := by
    intro f hf
    suffices hrd : u.rd f 0 n = s.rd f 0 n by exact ⟨hrd, by rw [State.rdB_eq, State.rdB_eq, hrd]⟩
    refine h _ _ _ fun hin => hk _ hin ?_
    simp only [List.mem_cons, List.not_mem_nil, or_false] at hf
    obtain rfl | rfl | rfl | rfl := hf <;> refine sensorPlace_key ?_ <;>
      simp only [Reg.THM_TA, Reg.THM_TB, Reg.THM_FAIL_A, Reg.THM_FAIL_B] <;> omega
  rw [State.hotReadings, State.hotReadings, (hkeep Reg.THM_TA (by simp)).1, (hkeep Reg.THM_TB (by simp)).1,
    (hkeep Reg.THM_FAIL_A (by simp)).2, (hkeep Reg.THM_FAIL_B (by simp)).2]

theorem opticalReadings_congr (h : KeepsOutside K s u) (hk : ∀ k, K k → ¬ SensorPlace k) : u.opticalReadings = s.opticalReadings := by
  have hkeep : ∀ f ∈ [Reg.THM_OPT_T, Reg.THM_OPT_FAIL], ∀ n < 18, u.rd f 0 n = s.rd f 0 n := by
    intro f hf n hn
    refine h _ _ _ fun hin => hk _ hin ?_
    simp only [List.mem_cons, List.not_mem_nil, or_false] at hf
    obtain rfl | rfl := hf <;> refine sensorPlace_key ?_ <;> simp only [Reg.THM_OPT_T, Reg.THM_OPT_FAIL] <;> omega
  refine List.filterMap_congr fun n hn => ?_
  rw [State.rdB_eq, State.rdB_eq, hkeep _ (by simp) n (List.mem_range.mp hn), hkeep _ (by simp) n (List.mem_range.mp hn)]

/-- A sample is hot, R310. -/
def State.isHot (s : State) (tj : Option (Int × Nat)) : Bool :=
  (tj.any (fun (x : Int × Nat) => decide (380 ≤ x.1))) || s.opticalAt 320 || s.singleHot

/-- It is below the release temperatures. -/
def State.isCool (s : State) (tj : Option (Int × Nat)) : Bool := (tj.all (fun (x : Int × Nat) => decide (x.1 < 372))) && !s.opticalAt 312

theorem isHot_congr (h : KeepsOutside K s u) (hk : ∀ k, K k → ¬ SensorPlace k) (tj : Option (Int × Nat)) : u.isHot tj = s.isHot tj := by
  have hsingle : u.singleHot = s.singleHot := range_any_congr fun n hn => by rw [hotReadings_congr h hk hn]
  rw [State.isHot, State.isHot, hsingle, State.opticalAt, State.opticalAt, opticalReadings_congr h hk]

theorem isCool_congr (h : KeepsOutside K s u) (hk : ∀ k, K k → ¬ SensorPlace k) (tj : Option (Int × Nat)) : u.isCool tj = s.isCool tj := by
  rw [State.isCool, State.isCool, State.opticalAt, State.opticalAt, opticalReadings_congr h hk]

/-- A fold that keeps one of what it meets ends in what it began with or in a member. -/
theorem mem_of_foldl_eq_some {α : Type} {g : Option α → α → Option α} (hg : ∀ b x y, g b x = some y → b = some y ∨ x = y) {y : α} :
    ∀ (l : List α) (b : Option α), l.foldl g b = some y → b = some y ∨ y ∈ l := by
  intro l
  induction l with
  | nil => exact fun b h => .inl h
  | cons x l ih =>
    intro b h
    obtain h | h := ih _ h
    · exact (hg b x y h).imp_right fun he => List.mem_cons.mpr (.inl he.symm)
    · exact .inr (List.mem_cons_of_mem x h)

/-- The source of the hottest reading is a hot spot or a stack. -/
theorem hottest_source {v : Int} {k : Nat} (h : s.hottest = some (v, k)) : k < 44 := by
  have hmem := mem_of_foldl_eq_some (fun b x y hb => by
    cases b with
    | none => exact .inr (Option.some.inj hb)
    | some z =>
      dsimp only at hb
      split at hb
      · exact .inr (Option.some.inj hb)
      · exact .inl hb) _ _ h
  obtain h | h := hmem
  · exact absurd h (by simp)
  · simp only [List.mem_append, List.mem_flatMap, List.mem_range, List.mem_map, Prod.mk.injEq] at h
    obtain ⟨n, hn, t, -, -, rfl⟩ | ⟨n, hn, t, -, -, rfl⟩ := h <;> omega

theorem hottest_congr (h : u.regs = s.regs) : u.hottest = s.hottest := by
  have hmark : ∀ f i j, u.rdB f i j = s.rdB f i j := fun f i j => by rw [State.rdB_eq, State.rdB_eq, State.rd_congr h]
  simp only [State.hottest, State.hotReadings, State.stackReadings, hmark, State.rd_congr h]

end

end Sys2Proof.Machine
end

section
namespace Sys2Proof.Machine

open Sys2Proof

set_option Elab.async false

/-! PROOFS. The stages of a sample after its readings are stored: TJ_MAX, the thermal limit, the shutdown request, and the settling. -/

/-! ### The stages -/

/-- The runs of well-read failed sensors and of comparators that have tripped. -/
def State.noteSensors (s : State) (exp : List Int) : State :=
  { s with hearth := { s.hearth with
    goodRun := (List.range 106).filterMap (fun i =>
      if s.sensorFailed i && s.readmits exp i then some (i, min 100000 (SMap.get 0 s.hearth.goodRun i + 1)) else none)
    trips := s.hearth.trips.filterMap (fun x =>
      if (s.hotReadings x.1).any (fun t => decide (400 ≤ t)) then some (x.1, 0)
      else if x.2 + 1 < 10000 then some (x.1, x.2 + 1) else none) } }

/-- TJ_MAX and its source. -/
def State.showHottest (s : State) (tj : Option (Int × Nat)) : State :=
  match tj with
  | none => s
  | some x => (s.wr0 Reg.THM_TJ_MAX (ofSigned 10 x.1)).wr0 Reg.THM_TJ_SRC x.2

def State.noteCool (s : State) (cool : Bool) : State :=
  { s with hearth := { s.hearth with coolRun := if cool then min 500 (s.hearth.coolRun + 1) else 0 } }

def State.setThermal (s : State) (p : Nat) : State := { s with hearth := { s.hearth with thermal := p } }

/-- R310: a hot sample steps the package down, and 500 cool ones lift the thermal limit. -/
def State.throttle (s : State) (hot : Bool) : State :=
  if hot then
    let u := s.setThermal (min floorPlace (s.hearth.place + 1))
    if u.rd Reg.THM_THROTTLE = 1 then u else ((u.wr0 Reg.THM_THROTTLE 1).occur 0x006 0 none 0).protect 0
  else if 500 ≤ s.hearth.coolRun ∧ s.rd Reg.THM_THROTTLE = 1 then ((s.setThermal 0).wr0 Reg.THM_THROTTLE 0).protect 1
  else s

/-- The shutdown request is made, R311. -/
def State.requestShutdown (s : State) : State :=
  ((((s.wr0 Reg.THM_SD_REQ 1).occur 0x006 1 none 0).event 0x0031 5 0x006 (s.rd Reg.THM_TJ_MAX)).protect 4).trayNote

/-- The shutdown request ends, R311. -/
def State.endShutdown (s : State) : State :=
  let u := ((s.wr0 Reg.THM_SD_REQ 0).protect 5).trayNote
  { u with pins := { u.pins with alertLow := false } }

def State.shutdown (s : State) (tooHot under : Bool) : State :=
  if tooHot && !s.hearth.sdHot then s.requestShutdown else if under && s.rd Reg.THM_SD_REQ == 1 then s.endShutdown else s

def State.noteShutdown (s : State) (tooHot under : Bool) (warm : Nat) : State :=
  { s with hearth := { s.hearth with sdHot := tooHot || (s.hearth.sdHot && !under), warmEst := warm } }

/-- The place is settled, and warming with it. -/
def State.endSample (s : State) : State := s.settleHearth.wr0 Reg.THM_WARMING s.settleHearth.warmNext

/-- Every reading of dies and stacks is below `k`. -/
def allBelow (tj : Option (Int × Nat)) (k : Int) : Bool := tj.all (fun (x : Int × Nat) => decide (x.1 < k))

/-- Some reading of dies and stacks is 105 °C or more. -/
def tooHot (tj : Option (Int × Nat)) : Bool := tj.any (fun (x : Int × Nat) => decide (420 ≤ x.1))

/-- What a sample has noted before it acts. -/
def State.sampled (s : State) (t : List Nat) (exp : List Int) : State :=
  (((s.storeTemps t).noteSensors exp).showHottest (s.storeTemps t).hottest).noteCool ((s.storeTemps t).isCool (s.storeTemps t).hottest)

section
variable {s u : State} {tj : Option (Int × Nat)}

/-- The registers of TJ_MAX and its source. -/
def HottestPlace (k : Nat) : Prop := k = Reg.THM_TJ_MAX.key 0 0 ∨ k = Reg.THM_TJ_SRC.key 0 0

theorem HottestPlace.not_sensor {k : Nat} (h : HottestPlace k) : ¬ SensorPlace k := by
  obtain rfl | rfl := h <;> (unfold SensorPlace; decide)

theorem State.showHottest_acts (s : State) (tj : Option (Int × Nat)) : HearthActs HottestPlace s (s.showHottest tj) := by
  cases tj with
  | none => exact .refl _ s
  | some x => exact ((HearthActs.refl _ s).wr _ (.inl rfl)).wr _ (.inr rfl)

theorem State.noteSensors_keeps {K : Nat → Prop} (s : State) (exp : List Int) : KeepsOutside K s (s.noteSensors exp) := .of_regs rfl

theorem State.noteCool_keeps {K : Nat → Prop} (s : State) (cool : Bool) : KeepsOutside K s (s.noteCool cool) := .of_regs rfl

/-- What follows the thermal limit in a sample: the shutdown request, and the settling. -/
def State.afterThrottle (s : State) (tj : Option (Int × Nat)) (warm : Nat) : State :=
  ((s.shutdown (tooHot tj) (allBelow tj 400)).noteShutdown (tooHot tj) (allBelow tj 400) warm).endSample

/-- What a sample does once its readings are stored and shown. -/
def State.respond (s : State) (tj : Option (Int × Nat)) (warm : Nat) : State :=
  ((s.noteCool (s.isCool tj)).throttle (s.isHot tj)).afterThrottle tj warm

theorem State.sensorSample_stages (s : State) (t : List Nat) (exp : List Int) (warm : Nat) : s.sensorSample t exp warm =
    (((s.storeTemps t).noteSensors exp).showHottest ((s.storeTemps t).noteSensors exp).hottest).respond
      ((s.storeTemps t).noteSensors exp).hottest warm := by
  unfold State.sensorSample
  extract_lets _ _ _ tj z hot _ _ w _ _ acted high under _ _ sd _ noted settled
  have hw : w = z.noteCool (z.isCool tj) := rfl
  have hacted : acted = w.throttle hot := rfl
  have hsd : sd = acted.shutdown high under := rfl
  have hnoted : noted = sd.noteShutdown high under warm := rfl
  have hlast : settled.wr0 Reg.THM_WARMING settled.warmNext = noted.endSample := rfl
  refine hlast.trans (congrArg State.endSample ?_)
  refine hnoted.trans (congrArg (fun a => State.noteShutdown a high under warm) ?_)
  refine hsd.trans (congrArg (fun a => State.shutdown a high under) ?_)
  refine hacted.trans (congrArg (fun a => State.throttle a hot) ?_)
  exact hw

theorem State.sensorSample_eq (s : State) (t : List Nat) (exp : List Int) (warm : Nat) : s.sensorSample t exp warm =
    ((s.sampled t exp).throttle ((s.storeTemps t).isHot (s.storeTemps t).hottest)).afterThrottle (s.storeTemps t).hottest warm := by
  have htj : ((s.storeTemps t).noteSensors exp).hottest = (s.storeTemps t).hottest := hottest_congr rfl
  have hreads := (State.noteSensors_keeps (s.storeTemps t) exp).trans (State.showHottest_acts _ (s.storeTemps t).hottest).keeps
  rw [State.sensorSample_stages, htj, State.respond, isHot_congr hreads fun _ => HottestPlace.not_sensor,
    isCool_congr hreads fun _ => HottestPlace.not_sensor, State.sampled]

end

/-! ### What has been noted -/

section
variable {s u v : State} {t : List Nat} {exp : List Int}

/-- The registers of readings, TJ_MAX and its source. -/
def SampledPlace (k : Nat) : Prop := ReadingPlace k ∨ HottestPlace k

theorem State.sampled_acts (s : State) (t : List Nat) (exp : List Int) : HearthActs SampledPlace s (s.sampled t exp) :=
  ((((s.storeTemps_acts t).mono fun _ => .inl).hearth _).trans ((State.showHottest_acts _ _).mono fun _ => .inr)).hearth _

theorem State.showHottest_some (s : State) (v : Int) (k : Nat) :
    s.showHottest (some (v, k)) = (s.wr0 Reg.THM_TJ_MAX (ofSigned 10 v)).wr0 Reg.THM_TJ_SRC k := rfl

theorem State.showHottest_hearth (s : State) (tj : Option (Int × Nat)) : (s.showHottest tj).hearth = s.hearth := by
  cases tj <;> rfl

/-- In Hearth a sample notes runs alone. -/
theorem State.sampled_hearth (s : State) (t : List Nat) (exp : List Int) : (s.sampled t exp).hearth =
    { s.hearth with
      goodRun := (s.sampled t exp).hearth.goodRun, trips := (s.sampled t exp).hearth.trips
      coolRun := if (s.storeTemps t).isCool (s.storeTemps t).hottest then min 500 (s.hearth.coolRun + 1) else 0 } := by
  rw [State.sampled, State.noteCool, State.showHottest_hearth, State.noteSensors, State.storeTemps_hearth]

theorem State.sampled_hold (s : State) (t : List Nat) (exp : List Int) {n : Nat} (hn : n < 32) : (s.sampled t exp).HoldsPair t n := by
  obtain ⟨ha, hb⟩ := pair_key n
  have hkeep : KeepsOutside HottestPlace (s.storeTemps t) (s.sampled t exp) :=
    ((State.noteSensors_keeps _ exp).trans (State.showHottest_acts _ _).keeps).trans (State.noteCool_keeps _ _)
  have hplace : ∀ k, 0x6200 * 32 ≤ k → ¬ HottestPlace k := by
    rintro k hk (rfl | rfl)
    · exact absurd hk (by decide)
    · exact absurd hk (by decide)
  exact (s.storeTemps_hold t hn).of_keeps hkeep (hplace _ (by omega)) (hplace _ (by omega))

theorem ofSigned_lt (w : Nat) (v : Int) : ofSigned w v < 2 ^ w := by
  have hpos : (0 : Int) < (2 ^ w : Nat) := by positivity
  have hlt := Int.emod_lt_of_pos v hpos
  have hge := Int.emod_nonneg v hpos.ne'
  unfold ofSigned
  omega

theorem State.sampled_hottest {v : Int} {k : Nat} (h : (s.storeTemps t).hottest = some (v, k)) :
    (s.sampled t exp).rd Reg.THM_TJ_MAX = ofSigned 10 v ∧ (s.sampled t exp).rd Reg.THM_TJ_SRC = k := by
  have hread : ∀ f, (s.sampled t exp).rd f = ((((s.storeTemps t).noteSensors exp).wr0 Reg.THM_TJ_MAX (ofSigned 10 v)).wr0 Reg.THM_TJ_SRC k).rd f := by
    intro f
    rw [State.sampled, h, State.noteCool_keeps (K := fun _ => False) _ _ f 0 0 id, State.showHottest_some]
  have hsrc := hottest_source h
  rw [hread, hread]
  simp (disch := decide) only [State.wr0_eq, State.rd_wr_ne, State.rd_wr_self]
  exact ⟨Nat.mod_eq_of_lt (ofSigned_lt 10 v), Nat.mod_eq_of_lt (by simp only [Reg.THM_TJ_SRC]; omega)⟩

end

/-! ### The thermal limit -/

/-- THROTTLE's register. -/
def ThrottlePlace (k : Nat) : Prop := k = Reg.THM_THROTTLE.key 0 0

/-- `v` follows `y` with the thermal limit at `p`. -/
structure Throttled (K : Nat → Prop) (y v : State) (p : Nat) : Prop where
  acts : HearthActs K y v
  hearth : v.hearth = { y.hearth with thermal := p }

section
variable {K L : Nat → Prop} {y v : State} {p : Nat}

theorem Throttled.mono (h : Throttled K y v p) (hl : ∀ k, K k → L k) : Throttled L y v p := ⟨h.acts.mono hl, h.hearth⟩

theorem throttle_of_on (h : y.rd Reg.THM_THROTTLE = 1) : y.throttle true = y.setThermal (min 10 (y.hearth.place + 1)) := by
  unfold State.throttle
  exact if_pos h

theorem throttle_of_off (h : y.rd Reg.THM_THROTTLE ≠ 1) : y.throttle true =
    (((y.setThermal (min 10 (y.hearth.place + 1))).wr0 Reg.THM_THROTTLE 1).occur 0x006 0 none 0).protect 0 := by
  unfold State.throttle
  exact if_neg h

theorem throttle_of_release (h : 500 ≤ y.hearth.coolRun ∧ y.rd Reg.THM_THROTTLE = 1) :
    y.throttle false = ((y.setThermal 0).wr0 Reg.THM_THROTTLE 0).protect 1 := by
  unfold State.throttle
  exact if_pos h

theorem throttle_of_hold (h : ¬ (500 ≤ y.hearth.coolRun ∧ y.rd Reg.THM_THROTTLE = 1)) : y.throttle false = y := by
  unfold State.throttle
  exact if_neg h

theorem setThermal_throttled (y : State) (p : Nat) : Throttled ThrottlePlace y (y.setThermal p) p := ⟨(HearthActs.refl _ y).hearth _, rfl⟩

theorem release_throttled (y : State) : Throttled ThrottlePlace y (((y.setThermal 0).wr0 Reg.THM_THROTTLE 0).protect 1) 0 :=
  ⟨(((HearthActs.refl ThrottlePlace y).hearth _).wr 0 rfl).protect 1, by rw [State.protect_hearth]; rfl⟩

theorem hold_throttled (y : State) : Throttled ThrottlePlace y y y.hearth.thermal := ⟨.refl _ y, rfl⟩

theorem Throttled.sdHot (h : Throttled K y v p) : v.hearth.sdHot = y.hearth.sdHot := by rw [h.hearth]

/-- THROTTLE is raised once. -/
theorem raise_throttled (hcls : y.occurClass 0x006 0 ≠ 2) (p : Nat) :
    let v := (((y.setThermal p).wr0 Reg.THM_THROTTLE 1).occur 0x006 0 none 0).protect 0
    Throttled (fun k => ThrottlePlace k ∨ HeaderPlace k) y v p ∧ v.rd Reg.THM_THROTTLE = 1 ∧ bit (v.rd Reg.FLT_STAT 0x006) 0 = 1 := by
  intro v
  have hcls' : ((y.setThermal p).wr0 Reg.THM_THROTTLE 1).occurClass 0x006 0 ≠ 2 := by
    have hkeep : ∀ f : Field, f.key 6 0 ≠ Reg.THM_THROTTLE.key 0 0 → ((y.setThermal p).wr0 Reg.THM_THROTTLE 1).rd f 6 = y.rd f 6 :=
      fun f hf => State.rd_wr_ne _ _ hf
    rwa [State.occurClass_congr (hkeep _ (by decide)) (hkeep _ (by decide))]
  refine ⟨⟨((((HearthActs.refl _ y).hearth _).wr 1 (.inl rfl)).occur none 0 hcls' fun _ => .inr).protect 0, ?_⟩, ?_, ?_⟩
  · rw [State.protect_hearth, State.occur_hearth]
    rfl
  · rw [State.protect_rd, State.occur_keeps none 0 hcls' _ _ _ not_headerPlace, State.wr0_eq, State.rd_wr_self]
    rfl
  · rw [State.protect_rd]
    exact State.occur_stat none 0 hcls' (by decide) (by decide)

/-- Where THROTTLE is set already, no sample raises a fault. -/
theorem throttled_of_on (h : y.rd Reg.THM_THROTTLE = 1) (hot : Bool) : ∃ p, Throttled ThrottlePlace y (y.throttle hot) p := by
  cases hot
  · by_cases hrun : 500 ≤ y.hearth.coolRun ∧ y.rd Reg.THM_THROTTLE = 1
    · exact ⟨0, throttle_of_release hrun ▸ release_throttled y⟩
    · exact ⟨y.hearth.thermal, by rw [throttle_of_hold hrun]; exact hold_throttled y⟩
  · exact ⟨_, throttle_of_on h ▸ setThermal_throttled y _⟩

end

/-! ### The shutdown request -/

section
variable {v : State} {tj : Option (Int × Nat)}

theorem tooHot_eq (tj : Option (Int × Nat)) : tooHot tj = !allBelow tj 420 := by
  cases tj with
  | none => rfl
  | some x => simp only [tooHot, allBelow, Option.any_some, Option.all_some, ← decide_not, not_lt]

theorem allBelow_mono (h : allBelow tj 400 = true) : allBelow tj 420 = true := by
  cases tj with
  | none => rfl
  | some x =>
    simp only [allBelow, Option.all_some, decide_eq_true_eq] at h ⊢
    omega

theorem shutdown_of_cold (h : allBelow tj 420 = true) (hsd : v.rd Reg.THM_SD_REQ ≠ 1) : v.shutdown (tooHot tj) (allBelow tj 400) = v := by
  simp [State.shutdown, tooHot_eq, h, hsd]

theorem shutdown_of_hot (h : allBelow tj 420 = false) (hsd : v.hearth.sdHot = false) :
    v.shutdown (tooHot tj) (allBelow tj 400) = v.requestShutdown := by
  simp [State.shutdown, tooHot_eq, h, hsd]

theorem shutdown_of_ended (h : allBelow tj 400 = true) (hsd : v.rd Reg.THM_SD_REQ = 1) :
    v.shutdown (tooHot tj) (allBelow tj 400) = v.endShutdown := by
  simp [State.shutdown, tooHot_eq, h, allBelow_mono h, hsd]

/-- The registers of a shutdown request, with its fault and its record. -/
def RequestPlace (k : Nat) : Prop := k = Reg.THM_SD_REQ.key 0 0 ∨ HeaderPlace k

theorem requestShutdown_acts (hcls : v.occurClass 0x006 1 ≠ 2) : HearthActs RequestPlace v v.requestShutdown ∧
    v.requestShutdown.hearth = v.hearth ∧ v.requestShutdown.rd Reg.THM_SD_REQ = 1 ∧ bit (v.requestShutdown.rd Reg.FLT_STAT 0x006) 1 = 1 := by
  have hcls' : (v.wr0 Reg.THM_SD_REQ 1).occurClass 0x006 1 ≠ 2 := by
    have hkeep : ∀ f : Field, f.key 6 0 ≠ Reg.THM_SD_REQ.key 0 0 → (v.wr0 Reg.THM_SD_REQ 1).rd f 6 = v.rd f 6 := fun f hf => State.rd_wr_ne _ _ hf
    rwa [State.occurClass_congr (hkeep _ (by decide)) (hkeep _ (by decide))]
  have hocc := State.occur_keeps none 0 hcls'
  have hlog : KeepsOutside CountPlace _ _ := ((v.wr0 Reg.THM_SD_REQ 1).occur 0x006 1 none 0).log_counts
    ⟨0, 0x006, 0, 5, 0, false, 1, ((v.wr0 Reg.THM_SD_REQ 1).occur 0x006 1 none 0).timeUs,
      ((v.wr0 Reg.THM_SD_REQ 1).occur 0x006 1 none 0).flash.bootGen, 0, 0x0031, v.rd Reg.THM_TJ_MAX⟩
  refine ⟨((((((HearthActs.refl RequestPlace v).wr 1 (.inl rfl)).occur none 0 hcls' fun _ => .inr).event _ _ _ _ fun _ hk =>
    .inr hk.header).protect 4).trayNote), ?_, ?_, ?_⟩
  · obtain ⟨_, _, _, _, _, hrest⟩ := State.event_logs ((v.wr0 Reg.THM_SD_REQ 1).occur 0x006 1 none 0) 0x0031 5 0x006 (v.rd Reg.THM_TJ_MAX)
    rw [State.requestShutdown, State.trayNote_hearth, State.protect_hearth, hrest]
    exact (State.occur_hearth ..).trans rfl
  · rw [State.requestShutdown, State.trayNote_rd, State.protect_rd]
    refine (hlog _ _ _ not_countPlace).trans ?_
    rw [hocc _ _ _ not_headerPlace, State.wr0_eq, State.rd_wr_self]
    rfl
  · rw [State.requestShutdown, State.trayNote_rd, State.protect_rd]
    refine (congrArg (bit · 1) (hlog _ _ _ (not_countPlace_stat (by decide)))).trans ?_
    exact State.occur_stat none 0 hcls' (by decide) (by decide)

theorem endShutdown_acts (v : State) : HearthActs RequestPlace v v.endShutdown ∧ v.endShutdown.hearth = v.hearth ∧
    v.endShutdown.rd Reg.THM_SD_REQ = 0 ∧ v.endShutdown.pins.alertLow = false := by
  refine ⟨((((HearthActs.refl RequestPlace v).wr 0 (.inl rfl)).protect 5).trayNote).pins _, ?_, ?_, rfl⟩
  · exact (State.protect_hearth ..).trans rfl
  · have hread : v.endShutdown.rd Reg.THM_SD_REQ = (((v.wr0 Reg.THM_SD_REQ 0).protect 5).trayNote).rd Reg.THM_SD_REQ := State.rd_congr rfl ..
    rw [hread, State.trayNote_rd, State.protect_rd, State.wr0_eq, State.rd_wr_self]
    rfl

end

end Sys2Proof.Machine
end

section
namespace Sys2Proof.Machine

open Sys2Proof

set_option Elab.async false

/-! PROOFS. A sample from its readings to the place that it settles on. -/

/-! ### What a sample settles on -/

section
variable {K : Nat → Prop} {s u v : State} {p q : Nat}

/-- The registers that a sample writes before it settles. -/
def ActPlace (k : Nat) : Prop := SampledPlace k ∨ ThrottlePlace k ∨ RequestPlace k

/-- Of the sensors' registers these are the readings. -/
theorem ActPlace.reading {k : Nat} (h : ActPlace k) (hs : SensorPlace k) : k % 32 = 0 ∨ k % 32 = 10 ∧ k < 0x6340 * 32 := by
  obtain (h | h) | rfl | rfl | h := h
  · exact h.2
  · exact absurd hs h.not_sensor
  · exact absurd hs (by unfold SensorPlace; decide)
  · exact absurd hs (by unfold SensorPlace; decide)
  · exact absurd hs h.not_sensor

theorem sameMarks_of_act (h : KeepsOutside ActPlace s u) : SameMarks s u := by
  have hmark : ∀ f j, SensorPlace (f.key 0 j) → f.lo < 32 → f.lo ≠ 0 → (f.lo = 10 → 0x340 ≤ f.off ∧ f.block = .thm) → u.rd f 0 j = s.rd f 0 j := by
    intro f j hs hlo hzero hten
    refine h f 0 j fun hk => ?_
    have hread := hk.reading hs
    have hrem : f.key 0 j % 32 = f.lo := by unfold Field.key; omega
    rw [hrem] at hread
    obtain h0 | ⟨h10, hlt⟩ := hread
    · exact hzero h0
    · obtain ⟨hoff, hblock⟩ := hten h10
      simp only [Field.key, hblock, Block.base] at hlt
      omega
  refine ⟨fun n hn => ?_, fun n hn => ?_, fun n hn => ?_, fun n hn => ?_, fun n hn => ?_⟩ <;>
    refine hmark _ n (sensorPlace_key ?_) (by decide) (by decide) (by decide) <;>
    simp only [Reg.THM_FAIL_A, Reg.THM_FAIL_B, Reg.THM_STK_FAIL_A, Reg.THM_STK_FAIL_B, Reg.THM_OPT_FAIL] <;> omega

/-- `u` stands within a sample of `s`, with the thermal limit at `p`. -/
structure Within (s u : State) (p : Nat) : Prop where
  acts : HearthActs ActPlace s u
  hearth : u.hearth = { s.hearth with
    goodRun := u.hearth.goodRun, trips := u.hearth.trips, coolRun := u.hearth.coolRun, sdHot := u.hearth.sdHot, warmEst := u.hearth.warmEst, thermal := p }

/-- A sample settles on the cap controller's place and the thermal limit's. -/
theorem Within.wanted (hu : Within s u p) (h : OnlyCap s) (hpeak : s.hearth.peak = 0) :
    u.wanted = max s.hearth.place (if u.rd Reg.THM_SD_REQ = 1 then 10 else p) := by
  have hh := hu.hearth
  have hfew := FewLimits.of_onlyCap h
  have ⟨hheld, _⟩ := h
  have hplan : u.hearth.plan = 0 := by rw [hh]; exact hfew.plan
  have hfollow : u.hearth.follow = 0 := by rw [hh]; exact hfew.follow
  have hfloor : u.hearth.resetFloor = s.hearth.resetFloor := by rw [hh]
  have hbring : u.hearth.bringUp = s.hearth.bringUp := by rw [hh]
  have hsudden : u.rd Reg.THM_SUDDEN = s.rd Reg.THM_SUDDEN := by
    refine hu.acts.keeps _ _ _ ?_
    rintro ((⟨hs, -⟩ | hk | hk) | hk | hk | hk)
    · exact absurd hs (by unfold SensorPlace; decide)
    · exact absurd hk (by decide)
    · exact absurd hk (by decide)
    · exact absurd hk (by unfold ThrottlePlace; decide)
    · exact absurd hk (by decide)
    · exact absurd hk not_headerPlace
  have hcap : u.hearth.capPlace = s.hearth.place := by rw [hh]; exact hheld
  have hpeak' : u.hearth.peak = 0 := by rw [hh]; exact hpeak
  have hthermal : u.hearth.thermal = p := by rw [hh]
  rw [(hfew.of_same (sameMarks_of_act hu.acts.keeps) hsudden hplan hfollow hfloor hbring).wanted, State.thermalPlace, hcap, hpeak', hthermal,
    Nat.max_zero]

theorem Within.noteShutdown (hu : Within s u p) (hot under : Bool) (warm : Nat) : Within s (u.noteShutdown hot under warm) p where
  acts := hu.acts.hearth _
  hearth := by rw [State.noteShutdown, hu.hearth]

@[simp] theorem State.noteShutdown_rd (u : State) (hot under : Bool) (warm : Nat) (f : Field) (i j : Nat) :
    (u.noteShutdown hot under warm).rd f i j = u.rd f i j := State.rd_congr rfl f i j

theorem Within.request (hu : Within s u p) (hv : HearthActs RequestPlace u v) (hh : v.hearth = u.hearth) : Within s v p where
  acts := hu.acts.trans (hv.mono fun _ hk => .inr (.inr hk))
  hearth := by rw [hh, hu.hearth]

/-! ### The end of a sample -/

theorem State.endSample_acts (u : State) : HearthActs SettledPlace u u.endSample := by
  have hsettled := u.settleHearth_acts
  rw [State.endSample]
  generalize u.settleHearth = v at hsettled
  exact hsettled.wr _ (shownPlace_key (by decide)).settled

theorem State.endSample_hearth (u : State) : u.endSample.hearth = u.settleHearth.hearth := by
  rw [State.endSample, State.wr0_eq, State.wr_hearth]

theorem State.endSample_pins (u : State) : u.endSample.pins = u.pins := by
  rw [State.endSample, State.wr0_eq, State.wr_pins, u.settleHearth_rest]

/-- What settling does not write is read as before. -/
theorem State.endSample_rd (u : State) (hot under : Bool) (warm : Nat) {f : Field} {i j : Nat} (hf : ¬ SettledPlace (f.key i j)) :
    (u.noteShutdown hot under warm).endSample.rd f i j = u.rd f i j :=
  ((State.endSample_acts _).keeps _ _ _ hf).trans (u.noteShutdown_rd hot under warm f i j)

theorem State.endSample_place (h : u.wanted = q) (hq : q ≤ 10) : Shows u.endSample q := by
  refine shows_of_same (State.settleHearth_place h hq) (congrArg Hearth.place u.endSample_hearth) fun f hf => ?_
  rw [State.endSample, State.wr0_eq, State.rd_wr_ne]
  simp only [List.mem_cons, List.not_mem_nil, or_false] at hf
  obtain rfl | rfl | rfl := hf <;> decide

/-- A sample whose readings and limits come to `u` answers the settled `u`. -/
theorem Within.completes {t : List Nat} {exp : List Int} {warm : Nat} (hu : Within s u p) (hr : s.ready = true)
    (heff : s.sensorSample t exp warm = u.endSample) : exec (.sensorSample t exp warm) s = .next u.endSample := by
  have hacts : HearthActs (fun k => ActPlace k ∨ SettledPlace k) s u.endSample :=
    (hu.acts.mono fun _ => .inl).trans ((State.endSample_acts u).mono fun _ => .inr)
  rw [← heff] at hacts ⊢
  exact hacts.exec_eq (g := fun s => s.sensorSample t exp warm) rfl rfl hr

end

/-! ### Samples that leave the shutdown request -/

/-- The registers that the thermal limit writes, with its fault. -/
def ThrottledPlace (k : Nat) : Prop := ThrottlePlace k ∨ HeaderPlace k

section
variable {s v : State} {t : List Nat} {exp : List Int} {warm p q : Nat}

/-- A sample reads what it found in the registers of the limit and of the request. -/
theorem State.sampled_rd (s : State) (t : List Nat) (exp : List Int) {f : Field} {i : Nat} (hs : ¬ SensorPlace (f.key i 0))
    (hmax : f.key i 0 ≠ Reg.THM_TJ_MAX.key 0 0) (hsrc : f.key i 0 ≠ Reg.THM_TJ_SRC.key 0 0) : (s.sampled t exp).rd f i = s.rd f i := by
  refine (s.sampled_acts t exp).keeps _ _ _ ?_
  rintro (⟨hk, -⟩ | hk | hk)
  · exact hs hk
  · exact hmax hk
  · exact hsrc hk

theorem State.sampled_limits (s : State) (t : List Nat) (exp : List Int) : ∀ f ∈ [Reg.THM_THROTTLE, Reg.THM_SD_REQ], (s.sampled t exp).rd f = s.rd f := by
  intro f hf
  simp only [List.mem_cons, List.not_mem_nil, or_false] at hf
  obtain rfl | rfl := hf <;> refine s.sampled_rd t exp ?_ (by decide) (by decide) <;> (unfold SensorPlace; decide)

theorem State.sampled_occurClass (s : State) (t : List Nat) (exp : List Int) (b : Nat) : (s.sampled t exp).occurClass 0x006 b = s.occurClass 0x006 b := by
  refine State.occurClass_congr (s.sampled_rd t exp ?_ (by decide) (by decide)) (s.sampled_rd t exp ?_ (by decide) (by decide)) b <;>
    (unfold SensorPlace; decide)

theorem Throttled.within (hv : Throttled ThrottledPlace (s.sampled t exp) v p) : Within s v p where
  acts := ((s.sampled_acts t exp).mono fun _ => .inl).trans (hv.acts.mono fun _ hk => hk.elim (fun h => .inr (.inl h)) fun h => .inr (.inr (.inr h)))
  hearth := by rw [hv.hearth, State.sampled_hearth]

theorem Throttled.rd_of (hv : Throttled ThrottledPlace (s.sampled t exp) v p) {f : Field} (hne : f.key 0 0 ≠ Reg.THM_THROTTLE.key 0 0)
    (hh : ¬ HeaderPlace (f.key 0 0)) : v.rd f = (s.sampled t exp).rd f :=
  hv.acts.keeps _ _ _ (not_or.mpr ⟨hne, hh⟩)

/-- What a sample that leaves the shutdown request shows. -/
structure Ends (s v : State) (t : List Nat) (p : Nat) (r : State) : Prop where
  pairs : ∀ n < 32, r.HoldsPair t n
  hottest : ∀ x k, (s.storeTemps t).hottest = some (x, k) → r.rd Reg.THM_TJ_MAX = ofSigned 10 x ∧ r.rd Reg.THM_TJ_SRC = k
  thermal : r.hearth.thermal = p
  throttle : r.rd Reg.THM_THROTTLE = v.rd Reg.THM_THROTTLE
  stat : r.rd Reg.FLT_STAT 0x006 = v.rd Reg.FLT_STAT 0x006
  shows : OnlyCap s → s.hearth.peak = 0 → ∀ q ≤ 10, max s.hearth.place p = q → Shows r q

theorem sample_ends (hr : s.ready = true) (hv : Throttled ThrottledPlace (s.sampled t exp) v p)
    (hthr : (s.sampled t exp).throttle ((s.storeTemps t).isHot (s.storeTemps t).hottest) = v)
    (hcold : allBelow (s.storeTemps t).hottest 420 = true) (hsd : s.rd Reg.THM_SD_REQ ≠ 1) :
    Completes (.sensorSample t exp warm) s (Ends s v t p) := by
  have hreq : v.rd Reg.THM_SD_REQ ≠ 1 := by
    rwa [hv.rd_of (by decide) not_headerPlace, s.sampled_limits t exp _ (by simp)]
  have heff : s.sensorSample t exp warm =
      (v.noteShutdown (tooHot (s.storeTemps t).hottest) (allBelow (s.storeTemps t).hottest 400) warm).endSample := by
    rw [State.sensorSample_eq, hthr, State.afterThrottle, shutdown_of_cold hcold hreq]
  have hu := hv.within.noteShutdown (tooHot (s.storeTemps t).hottest) (allBelow (s.storeTemps t).hottest 400) warm
  refine ⟨_, hu.completes hr heff, fun n hn => ?_, fun x k hx => ?_, ?_, ?_, ?_, fun h hpeak q hq hmax => ?_⟩
  · obtain ⟨ha, hb⟩ := s.sampled_hold t exp hn
    have hsensor : SensorPlace (Reg.THM_TA.key 0 n) ∧ SensorPlace (Reg.THM_TB.key 0 n) :=
      ⟨sensorPlace_key (by simp only [Reg.THM_TA]; omega), sensorPlace_key (by simp only [Reg.THM_TB]; omega)⟩
    have hnot : ∀ k, SensorPlace k → ¬ ThrottledPlace k ∧ ¬ SettledPlace k := fun k hk =>
      ⟨not_or.mpr ⟨fun he => absurd (he ▸ hk) (by unfold SensorPlace; decide), fun hh => hh.not_sensor hk⟩, fun hs => hs.not_sensor hk⟩
    constructor
    · rw [State.endSample_rd _ _ _ _ (hnot _ hsensor.1).2, hv.acts.keeps _ _ _ (hnot _ hsensor.1).1, ha]
    · rw [State.endSample_rd _ _ _ _ (hnot _ hsensor.2).2, hv.acts.keeps _ _ _ (hnot _ hsensor.2).1, hb]
  · obtain ⟨hmax, hsrc⟩ := s.sampled_hottest (exp := exp) hx
    rw [State.endSample_rd _ _ _ _ (not_settledPlace (hc := not_countPlace)), State.endSample_rd _ _ _ _ (not_settledPlace (hc := not_countPlace)),
      hv.rd_of (by decide) not_headerPlace, hv.rd_of (by decide) not_headerPlace]
    exact ⟨hmax, hsrc⟩
  · rw [State.endSample_hearth, State.settleHearth_hearth, hu.hearth]
  · rw [State.endSample_rd _ _ _ _ (not_settledPlace (hc := not_countPlace))]
  · rw [State.endSample_rd _ _ _ _ (not_settledPlace_stat (by decide))]
  · refine State.endSample_place ?_ hq
    rw [hu.wanted h hpeak, State.noteShutdown_rd, if_neg hreq, hmax]

/-- What a sample notes of the place, of its run below the release temperatures, and of a shutdown. -/
theorem State.sampled_notes (s : State) (t : List Nat) (exp : List Int) : (s.sampled t exp).hearth.place = s.hearth.place ∧
    (s.sampled t exp).hearth.thermal = s.hearth.thermal ∧ (s.sampled t exp).hearth.sdHot = s.hearth.sdHot ∧
    (500 ≤ (s.sampled t exp).hearth.coolRun ↔
      (s.storeTemps t).isCool (s.storeTemps t).hottest = true ∧ 499 ≤ s.hearth.coolRun) := by
  rw [State.sampled_hearth]
  refine ⟨rfl, rfl, rfl, ?_⟩
  cases (s.storeTemps t).isCool (s.storeTemps t).hottest <;> simp

end

end Sys2Proof.Machine
end
section
open Sys2Proof Sys2Proof.Machine

set_option Elab.async false

section
variable {s : State} {t : List Nat} {exp : List Int} {warm : Nat}

/-- A sample that raises nothing steps the package down, lifts the thermal limit, or leaves it. -/
theorem quietSampleCompletes (hr : s.ready = true)
    (hthr : s.rd Reg.THM_THROTTLE = 1 ∨ (s.storeTemps t).isHot (s.storeTemps t).hottest = false) (hsd : s.rd Reg.THM_SD_REQ ≠ 1)
    (hcold : allBelow (s.storeTemps t).hottest 420 = true) (h : OnlyCap s) (hpeak : s.hearth.peak = 0) :
    let x := s.storeTemps t
    Completes (.sensorSample t exp warm) s (fun r =>
      (∀ n < 32, r.HoldsPair t n) ∧
      (∀ v k, x.hottest = some (v, k) → r.rd Reg.THM_TJ_MAX = ofSigned 10 v ∧ r.rd Reg.THM_TJ_SRC = k) ∧
      (x.isHot x.hottest = true → r.hearth.thermal = min 10 (s.hearth.place + 1) ∧ Shows r (min 10 (s.hearth.place + 1))) ∧
      (x.isHot x.hottest = false → Shows r s.hearth.place ∧
        (if x.isCool x.hottest = true ∧ 499 ≤ s.hearth.coolRun ∧ s.rd Reg.THM_THROTTLE = 1
          then r.hearth.thermal = 0 ∧ r.rd Reg.THM_THROTTLE = 0
          else r.hearth.thermal = s.hearth.thermal ∧ r.rd Reg.THM_THROTTLE = s.rd Reg.THM_THROTTLE))) := by
  intro x
  obtain ⟨hplace, hthermal, -, hrun⟩ := s.sampled_notes t exp
  have hth := s.sampled_limits t exp Reg.THM_THROTTLE (by simp)
  have ⟨_, hten, hbelow, _⟩ := h
  cases hhot : x.isHot x.hottest with
  | true =>
    have hon : (s.sampled t exp).rd Reg.THM_THROTTLE = 1 := hth.trans (hthr.resolve_right (by rw [hhot]; decide))
    obtain ⟨r, hexec, hend⟩ := sample_ends (warm := warm) hr ((setThermal_throttled _ _).mono fun _ => .inl)
      ((congrArg _ hhot).trans (throttle_of_on hon)) hcold hsd
    rw [hplace] at hend
    exact ⟨r, hexec, hend.pairs, hend.hottest, fun _ => ⟨hend.thermal, hend.shows h hpeak _ (by omega) (by omega)⟩, nofun⟩
  | false =>
    by_cases hfree : 500 ≤ (s.sampled t exp).hearth.coolRun ∧ (s.sampled t exp).rd Reg.THM_THROTTLE = 1
    · obtain ⟨r, hexec, hend⟩ := sample_ends (warm := warm) hr ((release_throttled _).mono fun _ => .inl)
        ((congrArg _ hhot).trans (throttle_of_release hfree)) hcold hsd
      rw [hrun, hth, and_assoc] at hfree
      refine ⟨r, hexec, hend.pairs, hend.hottest, nofun, fun _ => ⟨hend.shows h hpeak _ hten (by omega), ?_⟩⟩
      rw [if_pos hfree]
      exact ⟨hend.thermal, by rw [hend.throttle, State.protect_rd, State.wr0_eq, State.rd_wr_self]; rfl⟩
    · obtain ⟨r, hexec, hend⟩ := sample_ends (warm := warm) hr ((hold_throttled _).mono fun _ => .inl)
        ((congrArg _ hhot).trans (throttle_of_hold hfree)) hcold hsd
      rw [hrun, hth, and_assoc] at hfree
      refine ⟨r, hexec, hend.pairs, hend.hottest, nofun, fun _ => ⟨hend.shows h hpeak _ hten (by omega), ?_⟩⟩
      rw [if_neg hfree]
      exact ⟨hend.thermal.trans hthermal, hend.throttle.trans hth⟩

/-- The first hot sample sets THROTTLE. -/
theorem throttleCompletes (hr : s.ready = true) (hhot : (s.storeTemps t).isHot (s.storeTemps t).hottest = true)
    (hthr : s.rd Reg.THM_THROTTLE ≠ 1) (hsd : s.rd Reg.THM_SD_REQ ≠ 1) (hcold : allBelow (s.storeTemps t).hottest 420 = true)
    (hcls : s.occurClass 0x006 0 ≠ 2) : Completes (.sensorSample t exp warm) s (fun r =>
      r.rd Reg.THM_THROTTLE = 1 ∧ bit (r.rd Reg.FLT_STAT 0x006) 0 = 1 ∧ r.hearth.thermal = min 10 (s.hearth.place + 1)) := by
  obtain ⟨hplace, -⟩ := s.sampled_notes t exp
  have hoff : (s.sampled t exp).rd Reg.THM_THROTTLE ≠ 1 := by rwa [s.sampled_limits t exp _ (by simp)]
  obtain ⟨hv, hon, hstat⟩ := raise_throttled (y := s.sampled t exp) (by rwa [State.sampled_occurClass]) (min 10 ((s.sampled t exp).hearth.place + 1))
  obtain ⟨r, hexec, hend⟩ := sample_ends (warm := warm) hr hv ((congrArg _ hhot).trans (throttle_of_off hoff)) hcold hsd
  exact ⟨r, hexec, hend.throttle.trans hon, by rw [hend.stat]; exact hstat, by rw [hend.thermal, hplace]⟩

/-- 105 °C sets SD_REQ and takes the package to the floor. -/
theorem shutdownCompletes (hr : s.ready = true) (hthr : s.rd Reg.THM_THROTTLE = 1) (hsd : s.hearth.sdHot = false)
    (hhot : allBelow (s.storeTemps t).hottest 420 = false) (hcls : s.occurClass 0x006 1 ≠ 2) (h : OnlyCap s) (hpeak : s.hearth.peak = 0) :
    Completes (.sensorSample t exp warm) s (fun r =>
      r.rd Reg.THM_SD_REQ = 1 ∧ bit (r.rd Reg.FLT_STAT 0x006) 1 = 1 ∧ Shows r 10) := by
  obtain ⟨-, -, hnoted, -⟩ := s.sampled_notes t exp
  obtain ⟨p, hv⟩ := throttled_of_on ((s.sampled_limits t exp _ (by simp)).trans hthr) ((s.storeTemps t).isHot (s.storeTemps t).hottest)
  have heff := s.sensorSample_eq t exp warm
  generalize (s.sampled t exp).throttle ((s.storeTemps t).isHot (s.storeTemps t).hottest) = v at hv heff
  have hclsV : v.occurClass 0x006 1 ≠ 2 := by
    rwa [State.occurClass_congr (hv.acts.keeps _ _ _ (by unfold ThrottlePlace; decide)) (hv.acts.keeps _ _ _ (by unfold ThrottlePlace; decide)),
      State.sampled_occurClass]
  obtain ⟨hacts, hhearth, hreq, hstat⟩ := requestShutdown_acts hclsV
  rw [State.afterThrottle, shutdown_of_hot hhot ((hv.sdHot.trans hnoted).trans hsd)] at heff
  have hu := ((hv.mono fun _ => Or.inl).within.request hacts hhearth).noteShutdown (tooHot (s.storeTemps t).hottest)
    (allBelow (s.storeTemps t).hottest 400) warm
  refine ⟨_, hu.completes hr heff, ?_, ?_, State.endSample_place ?_ le_rfl⟩
  · rw [State.endSample_rd _ _ _ _ (not_settledPlace (hc := not_countPlace)), hreq]
  · rw [State.endSample_rd _ _ _ _ (not_settledPlace_stat (by decide)), hstat]
  · rw [hu.wanted h hpeak, State.noteShutdown_rd, if_pos hreq]
    have ⟨_, hten, _⟩ := h
    exact max_eq_right hten

/-- Below 100 °C the shutdown request ends. -/
theorem shutdownEndCompletes (hr : s.ready = true) (hthr : s.rd Reg.THM_THROTTLE = 1) (hsd : s.rd Reg.THM_SD_REQ = 1)
    (hcold : allBelow (s.storeTemps t).hottest 400 = true) :
    Completes (.sensorSample t exp warm) s (fun r => r.rd Reg.THM_SD_REQ = 0 ∧ r.pins.alertLow = false) := by
  obtain ⟨p, hv⟩ := throttled_of_on ((s.sampled_limits t exp _ (by simp)).trans hthr) ((s.storeTemps t).isHot (s.storeTemps t).hottest)
  have heff := s.sensorSample_eq t exp warm
  generalize (s.sampled t exp).throttle ((s.storeTemps t).isHot (s.storeTemps t).hottest) = v at hv heff
  obtain ⟨hacts, hhearth, hreq, hpin⟩ := endShutdown_acts v
  have hmade : v.rd Reg.THM_SD_REQ = 1 := by
    rw [(hv.mono fun _ => Or.inl).rd_of (by decide) not_headerPlace, s.sampled_limits t exp _ (by simp), hsd]
  rw [State.afterThrottle, shutdown_of_ended hcold hmade] at heff
  have hu := ((hv.mono fun _ => Or.inl).within.request hacts hhearth).noteShutdown (tooHot (s.storeTemps t).hottest)
    (allBelow (s.storeTemps t).hottest 400) warm
  refine ⟨_, hu.completes hr heff, ?_, ?_⟩
  · rw [State.endSample_rd _ _ _ _ (not_settledPlace (hc := not_countPlace)), hreq]
  · rw [State.endSample_pins]
    exact hpin

end

theorem temperatureLimits : Clause.TemperatureLimits := by
  intro s hr
  refine ⟨fun temps expected warm => ⟨fun hthr hsd hcold h hpeak => quietSampleCompletes hr hthr hsd hcold h hpeak,
    fun hhot hthr hsd hcold hcls => throttleCompletes hr hhot hthr hsd hcold hcls,
    fun hthr hsd hhot hcls _ h hpeak => shutdownCompletes hr hthr hsd (Bool.eq_false_iff.mpr hhot) hcls h hpeak,
    fun hthr hsd hcold => shutdownEndCompletes hr hthr hsd hcold⟩, fun n hn => ?_⟩
  exact exec_eq_answer_of (g := fun s => s.thermalTrip n) rfl (decide_eq_true hn) hr (if_neg (Nat.not_le.mpr hn))

/-- Settles O41: a sample acts in stages, its readings first and the thermal limit and the shutdown request from them, and settles on the
place that they require; the marks of the sensors stand each at a place of its own. -/
theorem temperatures : Obligations.Temperatures := ⟨temperatureLimits, sensorsFailAndReturn⟩

end
